-- ==== Sys2Proof/Word.lean ====
section
/-!
DEFINITION. The words of the block: a 32-bit register word (R8) and a byte.
-/
namespace Sys2Proof

/-- A register, mailbox or parameter word: 32 bits (R8, R427). -/
abbrev Word := BitVec 32

/-- One byte. -/
abbrev Byte := BitVec 8

end Sys2Proof
end

