-- ==== Sys2Proof/Syntax.lean ====
section
/-!
DEFINITION. The commands of the block: one constructor per row of spec/opcode_table.json, with the operands its rule gives it.
-/
namespace Sys2Proof

/-- A Chiast command packet (R427) as device firmware reads it: the mailbox it comes in, and the fields of its header word
(the opcode is the constructor's), and its parameter words. -/
structure Pkt where
  mb : Nat
  tag : Nat
  quiet : Bool
  flags : Nat
  params : List Word
  deriving DecidableEq, Repr

/-! Instruction formats of the solver cores, R206 (M slot) and R207 (X slot): the fields beside the opcode. -/

/-- Format MA. -/
structure FmtMA where
  acc : Nat
  acc2 : Nat
  x : Nat
  y : Nat
  z : Nat
  cj : Bool
  ng : Bool
  clr : Bool
  deriving DecidableEq, Repr

/-- Format MP. -/
structure FmtMP where
  dst : Nat
  x : Nat
  y : Nat
  cj : Bool
  k : Nat
  rnd : Bool
  deriving DecidableEq, Repr

/-- Format MQ: `real` is the view bit. -/
structure FmtMQ where
  dst : Nat
  acc : Nat
  real : Bool
  k : Nat
  rnd : Bool
  clr : Bool
  deriving DecidableEq, Repr

/-- Format MR: `real` is the view bit. -/
structure FmtMR where
  dst : Nat
  a : Nat
  b : Nat
  real : Bool
  imm6 : Nat
  flag : Nat
  deriving DecidableEq, Repr

/-- Format MI. -/
structure FmtMI where
  dst : Nat
  imm20 : Nat
  deriving DecidableEq, Repr

/-- Format XL: `step` is the 10-bit field. -/
structure FmtXL where
  d : Nat
  a : Nat
  step : Nat
  deriving DecidableEq, Repr

/-- Format XD: the steps are the 5-bit fields. -/
structure FmtXD where
  d1 : Nat
  d2 : Nat
  a1 : Nat
  a2 : Nat
  step1 : Nat
  step2 : Nat
  deriving DecidableEq, Repr

/-- Format XA: `imm17` is the 17-bit field. -/
structure FmtXA where
  idx : Nat
  src : Bool
  d : Nat
  imm17 : Nat
  deriving DecidableEq, Repr

/-- Format XS. -/
structure FmtXS where
  a : Nat
  d : Nat
  store : Nat
  count : Nat
  tag : Nat
  all : Bool
  deriving DecidableEq, Repr

/-- Format XC. -/
structure FmtXC where
  rot : Bool
  src : Bool
  last : Nat
  count : Nat
  deriving DecidableEq, Repr

/-- Format XB. -/
structure FmtXB where
  flag : Nat
  sense : Bool
  target : Nat
  deriving DecidableEq, Repr

/-- Format XE. -/
structure FmtXE where
  d1 : Nat
  d2 : Nat
  imm4 : Nat
  deriving DecidableEq, Repr

/-! Fronthaul messages as the block reads them: the header and section fields that O-RAN names, by their names there. -/

/-- Twelve resource elements of one PRB as sent (R97): the exponent (block floating point) and twelve pairs of mantissas, or for
methods 0 and 4 of values in 16-bit units. -/
structure PrbIn where
  exp : Nat
  iq : List (Int × Int)
  deriving DecidableEq, Repr

/-- A set of modulation compression parameters of extensions 4 and 5 (R97): the resource elements it applies to (bit k is element k), csf,
and modCompScaler as its exponent and mantissa. -/
structure ModComp where
  mask : Nat
  csf : Bool
  exp : Nat
  mant : Nat
  deriving DecidableEq, Repr

/-- The PRACH parameters of a type-3 section (R132): fftSize (log2), sequence length, spacing in Hz, timeOffset in units of
1/30.72 MHz, and frequencyOffset: the first bin's distance from the carrier's centre in halves of the spacing. -/
structure PrachIn where
  fft : Nat
  seqLen : Nat
  scs : Nat
  timeOffset : Nat
  freqOffset : Int
  deriving DecidableEq, Repr

/-- One section of a message: the section type of a C-plane message, its section extensions by type, the PRBs (numbered in the
segment) that extensions 6, 12 or 13 select, the group type and numPortc of extension 10, the factor of extension 8, the ueIds of
extension 14, the group size of extension 21, the parameters of extensions 4 and 5, the data of a U-plane section, and the estimates of
a type-6 section: by group, its elements in blocks of twelve as sent. -/
structure SecIn where
  sectionId : Nat
  startPrb : Nat
  numPrb : Nat
  numSymbol : Nat := 1
  beamId : Nat := 0
  ueId : Nat := 0
  comp : Option (Nat × Nat) := none
  exts : List Nat := []
  alloc : Option (List Nat) := none
  group : Option (Nat × Nat) := none
  factor : Option Nat := none
  nulled : List Nat := []
  gSize : Option Nat := none
  prach : Option PrachIn := none
  data : List PrbIn := []
  mods : List ModComp := []
  est : List (List PrbIn) := []
  deriving DecidableEq, Repr

/-- An eCPRI message of type 0 or 2 with its O-RAN header (R91-R94): ecpriPayload and the bytes that follow the common header, the fields of
ecpriSeqid, and whether it is a C-plane message. The other fields are what O-RAN reads in those bytes. -/
structure EcpriMsg where
  port : Nat
  revision : Nat := 1
  size : Nat
  payload : List Byte
  seqId : Nat
  eBit : Bool := true
  subSeq : Nat := 0
  cplane : Bool
  eaxc : Nat
  downlink : Bool
  payloadVersion : Nat := 1
  filterIndex : Nat := 0
  frameId : Nat
  subframeId : Nat
  slotId : Nat
  symbolId : Nat
  sectionType : Nat := 1
  sections : List SecIn
  deriving DecidableEq, Repr

/-- What the correlators measure of one 12-PRB group in a calibration occasion (R346, R347): the complex response in units of 2^-20, and its
signal-to-noise ratio in dB. -/
structure CalGrp where
  i : Int
  q : Int
  snr : Nat
  deriving DecidableEq, Repr

/-- What a calibration occasion measures of one antenna (R343-R347, R351): the response of each group, lowest first, and in a transmit occasion
the response of its ORX capture in units of 2^-20. For an antenna of another package, what that package reports beside it: that R346
discards the measurement, and the gain and delay words, the back-off multiplier and the AGC table entry that it has in force. -/
structure CalIn where
  ant : Nat
  groups : List CalGrp
  orx : Int × Int := (0, 0)
  spoiled : Bool := false
  gainWord : Nat := 16384
  delayWord : Nat := 0
  mult : Nat := 65536
  comp : Nat := 1024
  deriving DecidableEq, Repr

/-- What training finds of a lane in one attempt (R362, R373): its figure of merit, its preset, and the block at which its alignment marker
arrives. -/
structure LaneTry where
  fom : Nat
  preset : Nat
  marker : Nat := 0
  deriving DecidableEq, Repr

/-- What a TIME message of the lead carries (R379), with the lead's tick: a rate word, a step to a time (seconds and nanoseconds), holdover
entered or left, or the grid origin. -/
inductive TimeMsg where
  | rate (word : Nat)
  | step (sec ns : Nat)
  | hold (on : Bool)
  | origin (sec ns : Nat)
  deriving DecidableEq, Repr

/-- What a COMMIT message carries (R165): the locks of a package, or an executed commit with T in the lead's ticks and B as seconds and
nanoseconds. -/
inductive CommitMsg where
  | locks (pkg bits : Nat)
  | relay (t sec ns : Nat)
  deriving DecidableEq, Repr

/-- What an ALIGN message carries (R30, R378, R379): the tick alignment of a tile; from upstream the sender's package number, and the
lead's time as seconds and nanoseconds with its rate word, the count offset and the one-way delay in 1/16 ns; the length of the
chain minus 1. -/
inductive AlignMsg where
  | tile
  | number (pkg : Nat) (fromLead : Bool)
  | follow (sec ns rate : Nat) (offset : Int) (delay : Nat)
  | chain (len : Nat) (small : Bool)
  deriving DecidableEq, Repr

/-- What was seen at a check point of a unit in an interval (R398, R412): failures of its checks and words that left it poisoned. A check
point that received no words is not listed. -/
structure CheckSeen where
  chk : Nat
  unit : Nat
  fails : Nat
  poisoned : Nat
  deriving DecidableEq, Repr

/-- A section that the lead forwards to the members of a system (R163): what its record names, its direction and type, its carrier and
layer, its symbols, its PRBs of the carrier, and its beamId and ueId. -/
structure FwdSec where
  sectionId : Nat
  frameId : Nat
  subframeId : Nat
  slotId : Nat
  symbolId : Nat
  dl : Bool
  typ : Nat
  car : Nat
  layer : Nat
  numSym : Nat
  prbs : List Nat
  beam : Nat
  ue : Nat
  deriving DecidableEq, Repr

/-- What a CTRL message carries: a command copy, a result or a step of a system entry under its opcode (R188, R352, R546), a section of the
lead (R163), or the device state of a package and the mask of its available paths (R49, R50, R180). -/
inductive CtrlMsg where
  | word (op : Nat) (ws : List Word)
  | sec (x : FwdSec)
  | state (pkg dev avail : Nat)
  deriving DecidableEq, Repr

/-- The commands of the block: one constructor per row of the table, in the table's order. Core instructions of the
solver are named by their slot, M or X. -/
inductive Instr where
  /-- REGISTER_WRITE (R12). A BAR0 write to a register with no row of its own updates fields by access code, sends STG fields to the staged view and discards writes to absent, reserved or powered-off blocks. -/
  | registerWrite (o : Nat) (w : Word) (be : Nat)
  /-- STORE_SLOT_WRITE (R155). A BAR2 write of bits [63:32] of a store slot latches the slot with the last low half and tags it, or is discarded on a read-only or frozen window. -/
  | storeSlotWrite (o : Nat) (w : Word) (be : Nat)
  /-- CROSSING_OVERFLOW (R29). A dual-clock queue or elastic buffer overflows or underflows; the words are poisoned, counted and recorded. -/
  | crossingOverflow (row die unit n : Nat)
  /-- TRIGGER_MESSAGE (R31). A tile takes a trigger message and fires the action on its target tick, or on arrival and marked late. -/
  | triggerMessage (tile line target : Nat)
  /-- PACKAGE_LOSS (R24). A package of a system fails; the lead continues with the reachable packages and pkg_reach is reduced. -/
  | packageLoss (k : Nat)
  /-- TB_RATE_ADJ_WRITE (R43). A write to TB_RATE_ADJ adds a signed value to the rate word, clamping or discarding it in holdover. -/
  | tbRateAdjWrite (w : Word)
  /-- TB_NOW_NS_READ (R44). A read of TB_NOW_NS captures local time and epoch for the following reads of the time registers. -/
  | tbNowNsRead
  /-- TIME_STEP_APPLY (R50). On one tick an accepted step sets base time, increments the epoch, sets time_set, records the step and re-evaluates comparators and the alarm. -/
  | timeStepApply
  /-- COMPARATOR_FIRE (R56). An armed comparator reaches its target (or target less 1,600 ticks on a tile-bound line) and fires its action line. -/
  | comparatorFire (n : Nat)
  /-- CMP_ARM (R81). A write of 1 to arm in TB_CMP_CTRL arms or re-arms the comparator with its target and period registers. -/
  | cmpArm (n : Nat) (w : Word)
  /-- CMP_CANCEL (R81). A write of 1 to cancel in TB_CMP_CTRL disarms the comparator. -/
  | cmpCancel (n : Nat) (w : Word)
  /-- TB_TRIG_SEL_WRITE (R61). A write to TB_TRIG_SEL routes an extra source to an action line or is discarded whole and sets sel_err. -/
  | tbTrigSelWrite (line : Nat) (w : Word)
  /-- TB_SW_STROBE (R61). A write of 1 to TB_SW_STROBE fires source 0x0D on the lines it is routed to. -/
  | tbSwStrobe (w : Word)
  /-- TB_LATE_CNT_READ (R75). A read of TB_LATE_CNT returns and clears the late-action count. -/
  | tbLateCntRead
  /-- GRID_BOUNDARY (R63). Local time reaches a frame, subframe, slot or symbol boundary of the grid, which fires the sources routed from it. -/
  | gridBoundary (src : Nat) (ahead : Bool)
  /-- GRID_ORIGIN_WRITE (R64). A write to the grid origin registers changes the origin, or is discarded in SERVICE and sets grid_wr_err. -/
  | gridOriginWrite (i : Nat) (w : Word)
  /-- TXTS_POP (R67). A read of TB_TXTS_W3 removes the head entry of the transmit timestamp queue. -/
  | txtsPop
  /-- SYNC_TIMEOUT (R68). The Sync timeout expires with auto_hold_en set and the device enters holdover. -/
  | syncTimeout
  /-- HOLD_SET (R68). A write of hold_set in TB_CTRL enters holdover. -/
  | holdSet (w : Word)
  /-- HOLD_CLR (R69). A write of hold_clr in TB_CTRL leaves holdover. -/
  | holdClr (w : Word)
  /-- SYNCE_LOCK_LOSS (R70). The selected SyncE lane loses lock and SYNCE_OUT is squelched. -/
  | synceLockLoss
  /-- PPS_IN_EDGE (R71). A rising edge at PPS_IN captures local time and epoch. -/
  | ppsInEdge
  /-- PPSIN_ABSENT (R71). 1.1 s passes without a PPS_IN edge and ppsin_present clears. -/
  | ppsinAbsent
  /-- PPSIN_NS_READ (R71). A read of TB_PPSIN_NS returns the nanoseconds and freezes the other capture registers. -/
  | ppsinNsRead
  /-- PPS_OUT_RISE (R72). Local time reaches a whole second plus the offset and PPS_OUT rises. -/
  | ppsOutRise (ahead : Bool)
  /-- PPS_OUT_FALL (R72). width_us after the rise PPS_OUT falls. -/
  | ppsOutFall
  /-- ALARM_ARM_WRITE (R73). A write of 1 to arm in TB_ALARM_CTRL arms the one-shot wake alarm. -/
  | alarmArmWrite (w : Word)
  /-- ALARM_FIRE (R73). The wake alarm reaches its target, clears arm, sets fired and starts a wake. -/
  | alarmFire
  /-- TIME_READ (R74). Command returning local time and epoch. -/
  | timeRead (p : Pkt)
  /-- TIME_RATE_ADJ (R43). Command adding a signed adjustment to the rate word. -/
  | timeRateAdj (p : Pkt)
  /-- TIME_STEP (R50). Command requesting an absolute or relative step of local time, judged under R48 to R50. -/
  | timeStep (p : Pkt)
  /-- TIME_HOLD (R68). Command entering or clearing holdover. -/
  | timeHold (p : Pkt)
  /-- TIME_SCHED (R58). Command arming a firmware comparator for an action line at a time. -/
  | timeSched (p : Pkt)
  /-- TIME_CANCEL (R74). Command disarming a firmware comparator and returning its fire count. -/
  | timeCancel (p : Pkt)
  /-- TIME_GRID (R64). Command setting the grid origin outside SERVICE. -/
  | timeGrid (p : Pkt)
  /-- TIME_ALARM (R73). Command arming or disarming the wake alarm. -/
  | timeAlarm (p : Pkt)
  /-- TIME_PPS (R72). Command configuring PPS_OUT. -/
  | timePps (p : Pkt)
  /-- CONFIG_CAPTURE (R441). Action line 0 fires in the hub and the staged view is captured for the commit 1,600 ticks later. -/
  | configCapture
  /-- CONFIG_COMMIT (R442). On the commit tick the captured groups are checked in order and applied or refused, and gen increases. -/
  | configCommit
  /-- FH_PORT_MODE_WRITE (R85). A write to FH_PORT_MODE changes the port mode in STANDBY or READY, or is discarded and sets mode_err. -/
  | fhPortModeWrite (w : Word)
  /-- FH_EAXC_FMT_WRITE (R118). A write to FH_EAXC_FMT sets the eAxC field widths, or is discarded and sets fmt_err. -/
  | fhEaxcFmtWrite (w : Word)
  /-- FH_FAIL_LOST_READ (R109). A read of FH_FAIL_LOST returns and clears the count of discarded failure records. -/
  | fhFailLostRead
  /-- FH_BUF_PEAK_READ (R116). A read of FH_BUF_STAT returns and clears peak_kib. -/
  | fhBufPeakRead
  /-- PORT_LINK_UP (R84). A fronthaul port completes training and its link comes up. -/
  | portLinkUp (n : Nat)
  /-- PORT_LINK_DOWN (R112). A port loses its link; it is recorded and egress of entries with a backup moves to bkp_port within 20 µs. -/
  | portLinkDown (n : Nat)
  /-- FRAME_RECEIVE (R86). A received Ethernet frame is classified into a traffic class, policed, timestamped and queued. -/
  | frameReceive (n : Nat) (bs : List Byte)
  /-- ECPRI_MESSAGE (R100). A class-0 eCPRI message is checked, parsed, judged against its window and duplicates, decompressed and written to the buffer. -/
  | ecpriMessage (m : EcpriMsg)
  /-- CPLANE_WINDOW_CLOSE (R102). A downlink C-plane window closes and U-plane PRBs without C-plane are dropped with NO_CPLANE. -/
  | cplaneWindowClose (c : Nat)
  /-- UL_EGRESS (R107). For each uplink symbol and entry the device compresses and sends U-plane sections on the egress port. -/
  | ulEgress
  /-- FAIL_RECORD_POST (R109). A waiting section failure record is posted to its host-bound ring when the ring can take it. -/
  | failRecordPost
  /-- FH_PORT_MODE (R85). Command setting the fronthaul port mode. -/
  | fhPortMode (p : Pkt)
  /-- FH_PORT_CFG (R114). Command writing a port configuration and header template words. -/
  | fhPortCfg (p : Pkt)
  /-- FH_EAXC_SET (R114). Command staging an eAxC table entry. -/
  | fhEaxcSet (p : Pkt)
  /-- FH_WINDOW_SET (R114). Command staging a carrier's receive windows. -/
  | fhWindowSet (p : Pkt)
  /-- FH_CLASS_SET (R114). Command staging a classification VID or CC_id map entry. -/
  | fhClassSet (p : Pkt)
  /-- FH_WIN_QUERY (R105). Command returning FH_WIN_MAX and the staged buffer need. -/
  | fhWinQuery (p : Pkt)
  /-- FH_FAIL_CFG (R109). Command enabling failure records to a host-bound ring. -/
  | fhFailCfg (p : Pkt)
  /-- FH_WAKE_CFG (R113). Command configuring fronthaul wake frames. -/
  | fhWakeCfg (p : Pkt)
  /-- SE_CTRL_WRITE (R122). A write of link_rate takes effect at next training, or is discarded outside STANDBY and READY and sets rate_err. -/
  | seCtrlWrite (w : Word)
  /-- DL_SYMBOL (R130). A downlink symbol is combined in the Trellis, transformed, prefixed, shifted and summed into link words. -/
  | dlSymbol (c : Nat) (n : Int) (l : Nat)
  /-- UL_SYMBOL (R131). An uplink symbol is windowed, transformed, combined in the Trellis and passed to egress. -/
  | ulSymbol (c : Nat) (n : Int) (l : Nat) (adc : List (List Int))
  /-- PRACH_OCCASION (R133). A PRACH occasion is extracted from each path, combined under its latched beam and sent. -/
  | prachOccasion (k : Nat) (adc : List (List Int))
  /-- SRS_ESTIMATE (R175). The correlators complete an occasion and write channel estimates, noise words and directory entries. -/
  | srsEstimate (c : Nat) (n : Int)
  /-- CARRIER_SWITCH (R135). At a slot boundary after a commit a carrier switches to its new values with one reconfiguration slot. -/
  | carrierSwitch (c : Nat)
  /-- CAR_SET (R137). Command staging a carrier's configuration. -/
  | carSet (p : Pkt)
  /-- CAR_SRS_SET (R137). Command staging a carrier's SRS schedule. -/
  | carSrsSet (p : Pkt)
  /-- CAR_QUERY (R124). Command returning the staged symbol-engine load. -/
  | carQuery (p : Pkt)
  /-- SE_LINK_RATE (R122). Command setting the tile link rate. -/
  | seLinkRate (p : Pkt)
  /-- CAR_STATUS (R137). Command returning a carrier's status. -/
  | carStatus (p : Pkt)
  /-- TR_WC_NOW_WRITE (R156). A write of 1 to TR_WC_NOW orders a weight-store commit evaluation. -/
  | trWcNowWrite (w : Word)
  /-- WEIGHT_COMMIT_EVAL (R156). On line 1, TR_WC_NOW or a due BF_COMMIT the device executes a weight-store commit or defers it. -/
  | weightCommitEval
  /-- WEIGHT_COMMIT_REEVAL (R156). A deferred commit is evaluated again at a slot boundary and executed, deferred or abandoned. -/
  | weightCommitReeval
  /-- WEIGHT_SWITCH (R157). At boundary B the frozen store and staged beam table become live for symbols at or after B. -/
  | weightSwitch
  /-- WEIGHT_RETIRE (R157). At B + 50 µs the old live store becomes idle, writes are accepted, live_gen increases and paused jobs resume. -/
  | weightRetire
  /-- CARRY_FWD_DONE (R159). The carry-forward copy into the new idle store completes. -/
  | carryFwdDone
  /-- TRELLIS_CFG_APPLY (R160). Committed Trellis staged fields take effect at their slot boundary. -/
  | trellisCfgApply
  /-- CASC_PARTIAL_TIMEOUT (R164). A downstream uplink partial has not arrived within 10 µs; the PRB and layer are poisoned and casc_miss set. -/
  | cascPartialTimeout
  /-- BF_COMMIT (R156). Command ordering a weight-store commit now or at a time. -/
  | bfCommit (p : Pkt)
  /-- BF_LOCK (R166). Command setting or clearing host_lock. -/
  | bfLock (p : Pkt)
  /-- BF_LOAD (R166). Command loading beam-table entries, vector slots or entries from a LOAD ring. -/
  | bfLoad (p : Pkt)
  /-- BF_SCALE (R166). Command staging the Trellis shifts. -/
  | bfScale (p : Pkt)
  /-- BF_FALLBACK (R149). Command staging the global fallback beam. -/
  | bfFallback (p : Pkt)
  /-- BF_MODE (R152). Command setting ws_mode and carry_fwd. -/
  | bfMode (p : Pkt)
  /-- BF_NULL_SET (R162). Command staging a carrier's null-steering registers. -/
  | bfNullSet (p : Pkt)
  /-- BF_STATUS (R166). Command returning Trellis status and last commit. -/
  | bfStatus (p : Pkt)
  /-- JOB_GO_WRITE (R196). A write of go to a job slot W0 submits the job. -/
  | jobGoWrite (j : Nat) (v : Word)
  /-- JOB_RELEASE (R181). Action line 12 releases PENDING jobs with rel = 1, or a periodic release is missed. -/
  | jobRelease
  /-- WORK_ITEM_START (R225). A core takes a work item, writes its parameter block and starts at the kernel entry. -/
  | workItemStart (c : Nat)
  /-- WORK_ITEM_TIMEOUT (R184). A work item exceeds 2 ms and the core is taken out and the item reissued. -/
  | workItemTimeout (c : Nat)
  /-- JOB_DEADLINE (R183). The short time reaches a job's deadline; job_late is set and the job continues or aborts. -/
  | jobDeadline (j : Nat)
  /-- CASC_SLICE_TIMEOUT (R189). A slice or estimate has not arrived 1 ms after its sender's item finished and the item fails with CASC. -/
  | cascSliceTimeout (j i : Nat)
  /-- SOL_SRS_SET (R174). Command staging an SRS entry. -/
  | solSrsSet (p : Pkt)
  /-- SOL_JOB_SUBMIT (R190). Command submitting a solver job into a slot. -/
  | solJobSubmit (p : Pkt)
  /-- SOL_JOB_CANCEL (R191). Command cancelling or freeing a job slot. -/
  | solJobCancel (p : Pkt)
  /-- SOL_JOB_STATUS (R190). Command returning a job slot's state words. -/
  | solJobStatus (p : Pkt)
  /-- SOL_KERNEL_LOAD (R229). Command loading, verifying and installing a user kernel. -/
  | solKernelLoad (p : Pkt)
  /-- SOL_CORE_CTRL (R184). Command taking a core out or self-testing and returning it. -/
  | solCoreCtrl (p : Pkt) (pass : Bool)
  /-- SOL_CASC_MODE (R189). Command setting gather or split cascade mode. -/
  | solCascMode (p : Pkt)
  /-- SOL_CH_CLEAR (R190). Command clearing channel directory entries. -/
  | solChClear (p : Pkt)
  /-- M_NOP (R208). M-slot NOP instruction. -/
  | mNop (c : Nat) (f : FmtMR)
  /-- CMAC (R200). Complex multiply-accumulate into an accumulator. -/
  | mCmac (c : Nat) (f : FmtMA)
  /-- DMAC (R200). Dual-real multiply-accumulate into two accumulators. -/
  | mDmac (c : Nat) (f : FmtMA)
  /-- MULW (R200). Exact 48 × 48 real multiply into acc.I. -/
  | mMulw (c : Nat) (f : FmtMA)
  /-- CMPY (R202). Complex multiply requantised into a D register. -/
  | mCmpy (c : Nat) (f : FmtMP)
  /-- RDQ (R202). Requantise an accumulator into a D register with the residue check. -/
  | mRdq (c : Nat) (f : FmtMQ)
  /-- CPLX (R208). Convert a real word to complex view. -/
  | mCplx (c : Nat) (f : FmtMR)
  /-- REAL (R208). Convert the I component of a complex word to a real word. -/
  | mReal (c : Nat) (f : FmtMR)
  /-- ADD (R208). Add two words in view. -/
  | mAdd (c : Nat) (f : FmtMR)
  /-- SUB (R208). Subtract two words in view. -/
  | mSub (c : Nat) (f : FmtMR)
  /-- NEG (R208). Negate a word. -/
  | mNeg (c : Nat) (f : FmtMR)
  /-- CONJ (R208). Conjugate a complex word. -/
  | mConj (c : Nat) (f : FmtMR)
  /-- SWAP (R208). Exchange I and Q of a word. -/
  | mSwap (c : Nat) (f : FmtMR)
  /-- MOV (R208). Copy a word. -/
  | mMov (c : Nat) (f : FmtMR)
  /-- AND (R208). Bitwise AND in real view. -/
  | mAnd (c : Nat) (f : FmtMR)
  /-- OR (R208). Bitwise OR in real view. -/
  | mOr (c : Nat) (f : FmtMR)
  /-- XOR (R208). Bitwise XOR in real view. -/
  | mXor (c : Nat) (f : FmtMR)
  /-- SHL (R208). Shift left with saturation. -/
  | mShl (c : Nat) (f : FmtMR)
  /-- SHR (R202). Shift right with floor requantisation. -/
  | mShr (c : Nat) (f : FmtMR)
  /-- EXP (R203). Write the leading sign-bit count of a word. -/
  | mExp (c : Nat) (f : FmtMR)
  /-- EXPMIN (R203). Write the smaller of the destination and EXP of the operand. -/
  | mExpmin (c : Nat) (f : FmtMR)
  /-- NORM (R203). Shift a word left by a count in a register. -/
  | mNorm (c : Nat) (f : FmtMR)
  /-- RCP (R204). Reciprocal of a normalised real operand. -/
  | mRcp (c : Nat) (f : FmtMR)
  /-- RSQ (R204). Reciprocal square root of a normalised real operand. -/
  | mRsq (c : Nat) (f : FmtMR)
  /-- MIN (R208). Smaller of two real words. -/
  | mMin (c : Nat) (f : FmtMR)
  /-- MAX (R208). Larger of two real words. -/
  | mMax (c : Nat) (f : FmtMR)
  /-- CMP (R208). Set a flag from a comparison of two real words. -/
  | mCmp (c : Nat) (f : FmtMR)
  /-- TST (R208). Set a flag from a comparison of a word with 0. -/
  | mTst (c : Nat) (f : FmtMR)
  /-- TPOIS (R223). Set a flag when a word is poisoned. -/
  | mTpois (c : Nat) (f : FmtMR)
  /-- MOVS (R208). Load the shift register SR. -/
  | mMovs (c : Nat) (f : FmtMR)
  /-- MOVI (R208). Load a sign-extended 20-bit immediate. -/
  | mMovi (c : Nat) (f : FmtMI)
  /-- MOVIH (R208). Shift a register by 20 and add an unsigned immediate. -/
  | mMovih (c : Nat) (f : FmtMI)
  /-- X_NOP (R209). X-slot NOP instruction. -/
  | xNop (c : Nat) (f : FmtXL)
  /-- LD (R210). Load a data-memory slot with post-modification. -/
  | xLd (c : Nat) (f : FmtXL)
  /-- ST (R210). Store to a data-memory slot with post-modification. -/
  | xSt (c : Nat) (f : FmtXL)
  /-- LDD (R210). Two loads with post-modification. -/
  | xLdd (c : Nat) (f : FmtXD)
  /-- LDST (R210). One load and one store with post-modification. -/
  | xLdst (c : Nat) (f : FmtXD)
  /-- SETA (R209). Set an address register. -/
  | xSeta (c : Nat) (f : FmtXA)
  /-- ADDA (R210). Move an address register by an immediate under its binding. -/
  | xAdda (c : Nat) (f : FmtXA)
  /-- MOVDA (R209). Copy an address register into a D register. -/
  | xMovda (c : Nat) (f : FmtXA)
  /-- SETCBB (R212). Set a circular buffer base. -/
  | xSetcbb (c : Nat) (f : FmtXA)
  /-- SETCBL (R211). Set a circular buffer length and fold bound registers. -/
  | xSetcbl (c : Nat) (f : FmtXA)
  /-- BIND (R209). Bind or unbind an address register to a circular buffer. -/
  | xBind (c : Nat) (f : FmtXA)
  /-- SGET (R218). Issue a stream read from a store into data memory. -/
  | xSget (c : Nat) (f : FmtXS)
  /-- SGET_ARRIVAL (R220). The words of an outstanding SGET arrive in data memory. -/
  | sgetArrival (c n : Nat)
  /-- SPUT (R219). Issue a stream write of a vector to the idle weight store. -/
  | xSput (c : Nat) (f : FmtXS)
  /-- SPUT_LAND (R182). A vector burst lands in the idle weight store, after waiting to R if issued at or after T. -/
  | sputLand (c : Nat)
  /-- SWAIT (R220). Wait for outstanding stream descriptors of a tag or all. -/
  | xSwait (c : Nat) (f : FmtXS)
  /-- LOOP (R213). Open a hardware loop over following bundles. -/
  | xLoop (c : Nat) (f : FmtXC)
  /-- BR (R215). Branch when a flag equals sense. -/
  | xBr (c : Nat) (f : FmtXB)
  /-- JMP (R215). Unconditional branch. -/
  | xJmp (c : Nat) (f : FmtXB)
  /-- SETRRB (R214). Set the rotating register base. -/
  | xSetrrb (c : Nat) (f : FmtXE)
  /-- END (R227). End the work item after its SPUTs land and report failed inputs. -/
  | xEnd (c : Nat) (f : FmtXE)
  /-- LOAD_STROBE (R246). A row performs a load strobe and applies every pending value of its four paths on one DAC clock. -/
  | loadStrobe (r : Nat)
  /-- LOCAL_RESUME_STROBE (R245). After a range change with no row strobe by S + 2 µs the row ends the path's range-change mute. -/
  | localResumeStrobe (p : Nat)
  /-- FORCE_MUTE_WRITE (R248). A write of force_mute mutes the path within 100 ns, or allows it to leave mute at the next strobe. -/
  | forceMuteWrite (p : Nat) (w : Word)
  /-- TDD_SWITCH (R249). The pattern engine delivers a TDD switch on line 3 + c and the path pads follow their demands. -/
  | tddSwitch (c at_ : Nat)
  /-- BLANK_EXIT_START (R254). 2 µs before the next TXEN rise the DAC begins to leave blank idle. -/
  | blankExitStart (p at_ : Nat)
  /-- FE_QW1_WRITE (R256). A write to FE_QW1 pushes a frame entry into the row's queue or is discarded with q_ovf. -/
  | feQw1Write (r : Nat) (w : Word)
  /-- FE_WRITE_RELEASE (R256). Action line 7 fires and releases queue entries with trig = 1. -/
  | feWriteRelease (r : Nat)
  /-- FE_FRAME_START (R255). The head entry whose trigger has occurred starts its frame on the front-end bus. -/
  | feFrameStart (r : Nat)
  /-- FE_FRAME_END (R257). A frame ends; read data is latched and verify and pad checks are made. -/
  | feFrameEnd (r : Nat) (rdata : Word) (padOk : Bool)
  /-- FE_RDATA_READ (R263). A read of FE_RDATA returns the read data and clears rd_valid. -/
  | feRdataRead (r : Nat)
  /-- TX_SET (R259). Command staging a path's gain, delay and crest settings. -/
  | txSet (p : Pkt)
  /-- TX_NCO (R239). Command staging a transmit NCO word and phase. -/
  | txNco (p : Pkt)
  /-- TX_DAC (R245). Command staging DAC range and Nyquist mode. -/
  | txDac (p : Pkt)
  /-- TX_ENABLE (R631). Command staging tx_en and writing blank_en at once. -/
  | txEnable (p : Pkt)
  /-- TX_MUTE (R248). Command forcing or releasing a path mute. -/
  | txMute (p : Pkt)
  /-- FE_WRITE (R256). Command pushing a front-end frame entry. -/
  | feWrite (p : Pkt)
  /-- FE_READ (R255). Command performing a front-end read frame. -/
  | feRead (p : Pkt)
  /-- TDD_SET (R249). Command staging a TDD pattern. -/
  | tddSet (p : Pkt)
  /-- TDD_TIMING (R631). Command staging TDD margins and duplex_en and writing txrx_gap at once. -/
  | tddTiming (p : Pkt)
  /-- TX_STATUS (R259). Command returning a path's transmit and row status. -/
  | txStatus (p : Pkt)
  /-- ORX_CAPTURE_START (R278). A row's ORX starts a calibration, host, Press or SBFD capture by precedence. -/
  | orxCaptureStart (r : Nat)
  /-- PRESS_CAPTURE_DONE (R279). A Press capture completes and is aligned, judged and its NMSE reported. -/
  | pressCaptureDone (r : Nat) (o : List (Int × Int)) (delay : Nat)
  /-- PRESS_UPDATE_READY (R280). A Press update is computed and placed in the adapted pending latch or rejected. -/
  | pressUpdateReady (p : Nat)
  /-- PRESS_HOLD_EXPIRY (R284). hold_ms after a revert the loop returns to ACQUIRE with μ halved. -/
  | pressHoldExpiry (p : Nat)
  /-- SBFD_CAPTURE_DONE (R293). An SBFD capture completes and the cancellation is measured. -/
  | sbfdCaptureDone (r : Nat) (o : List (Int × Int)) (adc : List Int) (delay : Nat)
  /-- CAN_UPDATE_READY (R290). A canceller fit completes and its taps enter the pending latch. -/
  | canUpdateReady (p : Nat)
  /-- CAN_HOLD_EXPIRY (R294). hold_ms after a revert the canceller returns to TRACK. -/
  | canHoldExpiry (p : Nat)
  /-- NULL_CALC_DONE (R295). SBFD_NULL_CALC completes and writes null vectors to the staged beam table. -/
  | nullCalcDone (vecs : List (List (Int × Int))) (vals : List Nat)
  /-- PR_SET (R297). Command staging PR_CFG. -/
  | prSet (p : Pkt)
  /-- PR_COEF_SET (R273). Command staging Press coefficient slots. -/
  | prCoefSet (p : Pkt)
  /-- PR_ADAPT (R284). Command freezing, starting, reverting or resetting Press loops. -/
  | prAdapt (p : Pkt)
  /-- PR_LIMITS (R297). Command writing PR_ADAPT and PR_LIMIT. -/
  | prLimits (p : Pkt)
  /-- PR_STATUS (R297). Command returning Press loop status. -/
  | prStatus (p : Pkt)
  /-- PR_SAVE (R297). Command saving Press and canceller sets to the Cellar. -/
  | prSave (p : Pkt)
  /-- PR_RESTORE (R297). Command staging saved Press sets. -/
  | prRestore (p : Pkt)
  /-- CAN_SET (R631). Command staging CAN_CFG and writing CAN_ADAPT at once. -/
  | canSet (p : Pkt)
  /-- CAN_FIT (R290). Command freezing, starting, reverting or zeroing cancellers. -/
  | canFit (p : Pkt)
  /-- CAN_STATUS (R297). Command returning canceller status. -/
  | canStatus (p : Pkt)
  /-- SBFD_BAND (R287). Command staging a carrier's SBFD band. -/
  | sbfdBand (p : Pkt)
  /-- SBFD_NULL_CALC (R295). Command starting computation of null vectors. -/
  | sbfdNullCalc (p : Pkt)
  /-- ORX_SET (R297). Command writing ORX_CFG. -/
  | orxSet (p : Pkt)
  /-- ORX_CAPTURE (R278). Command ordering a host ORX capture now or at a time. -/
  | orxCapture (p : Pkt)
  /-- ADC_FG_CAL_DONE (R309). A foreground ADC calibration ends and adc_ready becomes 1. -/
  | adcFgCalDone (a : Nat) (sets : List (List Int))
  /-- SPARE_ESTIMATE (R310). Once per millisecond the spare's correction terms are estimated and convergence judged. -/
  | spareEstimate (a : Nat) (est : List Int)
  /-- SLICE_HANDOVER (R311). A converged spare takes its position at the first permitted sample. -/
  | sliceHandover (a : Nat)
  /-- SPARE_TIMEOUT (R312). A spare does not converge within 4 × cal_ms and is declared failed. -/
  | spareTimeout (a : Nat)
  /-- SLICE_FAILURE (R314). An active slice fails a check and is replaced by the spare, or a path fault is declared. -/
  | sliceFailure (a slice check : Nat)
  /-- SLICE_RETEST_DONE (R316). A retest of a failed slice ends, returning it as spare or leaving it failed. -/
  | sliceRetestDone (a : Nat)
  /-- OVERLOAD_ENTER (R318). ovl_n of 4 clipped blocks put the path in overload. -/
  | overloadEnter (p : Nat) (adc : List Int)
  /-- OVERLOAD_EXIT (R318). 1 µs without a clipped block ends overload. -/
  | overloadExit (p : Nat) (adc : List Int)
  /-- DETECTOR_WINDOW_END (R320). A detector window ends and latches peak and RMS. -/
  | detectorWindowEnd (p : Nat) (adc : List Int)
  /-- AGC_DECISION (R329). At an AGC boundary the interval power is judged and attenuation decided. -/
  | agcDecision (p : Nat) (adc : List Int)
  /-- AGC_FRAME_SEND (R330). An AGC frame is sent on the row bus ahead of queue entries. -/
  | agcFrameSend (r : Nat)
  /-- AGC_COMP_APPLY (R331). agc_dly after the frame's FE_CS_N rise the new compensation factor applies. -/
  | agcCompApply (p : Nat)
  /-- RX_FAST_READ (R334). A read of RX_FAST returns and clears the highest coarse power and clipped blocks. -/
  | rxFastRead (p : Nat)
  /-- RX_SET (R332). Command staging receive gain, delay and shifts. -/
  | rxSet (p : Pkt)
  /-- RX_NCO (R321). Command staging a receive NCO word and phase. -/
  | rxNco (p : Pkt)
  /-- RX_ENABLE (R631). Command staging rx_en and writing rx_gate at once. -/
  | rxEnable (p : Pkt)
  /-- RX_AGC_SET (R328). Command writing AGC configuration. -/
  | rxAgcSet (p : Pkt)
  /-- RX_AGC_TAB (R331). Command writing AGC compensation entries. -/
  | rxAgcTab (p : Pkt)
  /-- RX_DETECT (R332). Command configuring detectors and overload. -/
  | rxDetect (p : Pkt)
  /-- ADC_CAL (R332). Command controlling ADC rotation, foreground calibration or slice retest. -/
  | adcCal (p : Pkt)
  /-- RX_STATUS (R332). Command returning receive, ADC and AGC status. -/
  | rxStatus (p : Pkt)
  /-- CAL_CYCLE_START (R345). A calibration cycle starts at its period or on CAL_RUN, or the start is skipped. -/
  | calCycleStart
  /-- CAL_OCCASION (R343). In an eligible symbol a transmit or receive calibration occasion is measured. -/
  | calOccasion (n : Int) (l : Nat) (ms : List CalIn)
  /-- CAL_RESULTS (R350). A cycle's results are computed, written and staged when apply is 1. -/
  | calResults
  /-- CAL_CONFIG (R340). Command writing calibration configuration. -/
  | calConfig (p : Pkt)
  /-- CAL_NET_LOAD (R341). Command loading network table entries from a ring. -/
  | calNetLoad (p : Pkt)
  /-- CAL_RUN (R345). Command starting or stopping a cycle. -/
  | calRun (p : Pkt)
  /-- CAL_APPLY (R350). Command staging calibration results. -/
  | calApply (p : Pkt)
  /-- CAL_SAVE (R353). Command saving alignment values to a Cellar slot. -/
  | calSave (p : Pkt)
  /-- CAL_RESTORE (R353). Command staging saved alignment values. -/
  | calRestore (p : Pkt)
  /-- CAL_STATUS (R355). Command returning a path's calibration results. -/
  | calStatus (p : Pkt)
  /-- TILE_STRIPE (R368). A tile link receives a stripe, checks header, blocks and residues and releases sample and message words. -/
  | tileStripe (l : Nat) (tile : Bool) (hdr : Nat) (slots : List Nat) (badLanes : List Nat)
  /-- CASC_STRIPE (R372). A cascade port receives a stripe and parses its record stream. -/
  | cascStripe (k : Nat) (hdr : Nat) (payload : List Byte)
  /-- CASC_LAYER_RECORD (R163). A kind-1 record of downlink layer data is received and forwarded. -/
  | cascLayerRecord (k : Nat)
  /-- CASC_PARTIAL_RECORD (R164). A kind-2 record of uplink partial sums is received and added. -/
  | cascPartialRecord (k : Nat)
  /-- CASC_ESTIMATE_RECORD (R175). A kind-3 record of channel estimates is written to its slot. -/
  | cascEstimateRecord (k : Nat)
  /-- CASC_SLICE_RECORD (R189). A kind-4 record of a vector slice is received for its item. -/
  | cascSliceRecord (k : Nat)
  /-- ACK_MESSAGE (R366). An ACK message acknowledges messages cumulatively. -/
  | ackMessage (l n : Nat)
  /-- REG_REQ (R367). A register read or write request over a link is executed. -/
  | regReq (l : Nat) (write : Bool) (o : Nat) (w : Word)
  /-- REG_RSP (R367). A register response over a link completes its request. -/
  | regRsp (l : Nat) (w : Word)
  /-- CAPTURE_MESSAGE (R367). ORX host-capture data arrives over a tile link. -/
  | captureMessage (r : Nat) (bs : List Byte)
  /-- LANE_MESSAGE (R375). A lane swap request or confirmation arrives. -/
  | laneMessage (l : Nat) (confirm : Bool) (logical spare at_ : Nat)
  /-- TIME_MESSAGE (R379). A member applies the lead's relayed rate change, step, holdover or grid origin. -/
  | timeMessage (lead : Nat) (m : TimeMsg)
  /-- COMMIT_MESSAGE (R165). Lock state or a relayed weight commit with T and B arrives. -/
  | commitMessage (m : CommitMsg)
  /-- WAKE_MESSAGE (R383). A wake passed from the lead arrives. -/
  | wakeMessage (pkgs tiles : Nat)
  /-- MBOX_MESSAGE (R421). Words of cascade mailbox 4 or 5 arrive. -/
  | mboxMessage (k : Nat) (ws : List Word)
  /-- CTRL_MESSAGE (R188). A command copy, result, GO or ABANDON from the lead arrives. -/
  | ctrlMessage (k : Nat) (m : CtrlMsg)
  /-- ALIGN_MESSAGE (R378). An ALIGN message performs tick alignment, package numbering or count offset. -/
  | alignMessage (l : Nat) (m : AlignMsg)
  /-- MSG_RESEND_TIMEOUT (R366). An unacknowledged message is resent with later ones, or the link fails after 16 sends. -/
  | msgResendTimeout (l : Nat)
  /-- LINK_TRAIN (R373). A link direction trains through clock lock, equalisation, lane selection, lock, deskew and alignment. -/
  | linkTrain (l : Nat) (attempts : List (List LaneTry)) (lat : Nat) (nearer : Bool)
  /-- LANE_FAILURE (R375). A data lane fails and a swap to a standing spare is requested. -/
  | laneFailure (l lane : Nat) (markers tile : Bool)
  /-- LANE_SWAP (R375). At switch stripe S both ends carry the logical lane on the spare. -/
  | laneSwap (l : Nat)
  /-- FOM_MEASURE (R374). Every 100 µs each lane's FOM is measured and low lanes are rotated. -/
  | fomMeasure (l : Nat) (foms : List Nat)
  /-- LANE_RETRAIN (R376). A relieved or failed lane is retrained and becomes a spare or stays failed. -/
  | laneRetrain (l lane fom : Nat)
  /-- LINK_FAIL (R377). A link enters FAILED, causing a tile fault or loss of the cascade neighbour. -/
  | linkFail (l : Nat) (tile : Bool)
  /-- AX_RETRAIN_WRITE (R387). A write of 1 to retrain in AX_CTRL retrains the link. -/
  | axRetrainWrite (l : Nat) (w : Word)
  /-- CX_CFG_WRITE (R386). A write of the cascade role, discarded outside STANDBY and READY. -/
  | cxCfgWrite (w : Word)
  /-- AX_STATUS (R384). Command returning link status, map and latency. -/
  | axStatus (p : Pkt)
  /-- AX_RETRAIN (R377). Command retraining a link. -/
  | axRetrain (p : Pkt)
  /-- AX_SWAP (R375). Command swapping a lane to a standing spare. -/
  | axSwap (p : Pkt)
  /-- CX_ROLE (R378). Command setting the cascade role. -/
  | cxRole (p : Pkt)
  /-- AX_EYE (R384). Command returning a lane's eye data. -/
  | axEye (p : Pkt)
  /-- CHECK_INTERVAL_END (R398). A 1 µs check interval ends and failures are judged for fault declaration. -/
  | checkIntervalEnd (seen : List CheckSeen)
  /-- SPINE_FAULT (R399). The spine clock monitor finds a branch missing or off frequency for 64 ns. -/
  | spineFault (q : Nat)
  /-- SELF_TEST_DONE (R405). A repair self-test ends and the unit returns to service or stays faulted. -/
  | selfTestDone (kind unit : Nat) (pass : Bool)
  /-- SV_INJECT_GO (R410). A write of go to SV_INJECT starts an injection or is discarded with inj_err. -/
  | svInjectGo (w : Word)
  /-- INJECTION_DONE (R410). An injection completes its count of words. -/
  | injectionDone
  /-- SV_STATUS (R411). Command returning a unit's cause and fault summary. -/
  | svStatus (p : Pkt)
  /-- SV_REPAIR (R405). Command starting a repair self-test. -/
  | svRepair (p : Pkt)
  /-- SV_DECLARE (R399). Command declaring a unit faulted. -/
  | svDeclare (p : Pkt)
  /-- SV_INJECT (R410). Command injecting check failures in TEST. -/
  | svInject (p : Pkt)
  /-- SV_CLEAR (R409). Command clearing fault summary bits. -/
  | svClear (p : Pkt)
  /-- MB_H2D_DATA_WRITE (R422). A write pushes a word into a host-to-device queue or is discarded with h2d_ovf. -/
  | mbH2dDataWrite (m : Nat) (w : Word)
  /-- MB_DB_WRITE (R422). A doorbell write publishes the pushed words. -/
  | mbDbWrite (m : Nat) (w : Word)
  /-- PACKET_TIMEOUT (R423). A published packet is still incomplete 1 ms after its doorbell and the queue is discarded with BAD_PARAM. -/
  | packetTimeout (m : Nat)
  /-- MB_D2H_DATA_READ (R424). A read pops one word from the device-to-host queue or sets d2h_unf. -/
  | mbD2hDataRead (m : Nat)
  /-- D2H_RST_WRITE (R425). A write of d2h_rst resets the device-to-host queue, aborting words. -/
  | d2hRstWrite (m : Nat)
  /-- MB_LOST_READ (R449). A read of MB_LOST returns and clears lost counts. -/
  | mbLostRead (m : Nat)
  /-- NOTICE_PUSH (R434). A waiting notice is pushed when the device-to-host queue has room. -/
  | noticePush (m : Nat)
  /-- SPI_WRITE_WORDS (R420). SPI peripheral transaction pushing words to mailbox 0, with doorbell at chip-select rise. -/
  | spiWriteWords (ws : List Word)
  /-- SPI_READ_WORDS (R420). SPI peripheral transaction popping words from mailbox 0. -/
  | spiReadWords (n : Nat)
  /-- SPI_READ_STATUS (R420). SPI peripheral transaction returning mailbox 0 status. -/
  | spiReadStatus
  /-- SPI_WRITE_LOAD_BYTES (R603). SPI peripheral transaction appending bytes to the SPI load stream. -/
  | spiWriteLoadBytes (ws : List Word)
  /-- UNDEFINED_OPCODE (R431). A command with an undefined opcode is rejected with BAD_OPCODE. -/
  | undefinedOpcode (op : Nat) (p : Pkt)
  /-- TEST_DEBUG_CMD (R629). A command of the test and debug range is judged and run or refused. -/
  | testDebugCmd (op : Nat) (p : Pkt)
  /-- SYS_NOP (R444). Command echoing its words. -/
  | sysNop (p : Pkt)
  /-- SYS_INFO (R444). Command returning identity, version, state and position. -/
  | sysInfo (p : Pkt)
  /-- SYS_STATE_GET (R444). Command returning GL_STATE. -/
  | sysStateGet (p : Pkt)
  /-- SYS_STATE_SET (R437). Command requesting a state transition, checked against R437 and R438. -/
  | sysStateSet (p : Pkt)
  /-- SYS_COMMIT (R443). Command ordering a configuration commit now or at a time. -/
  | sysCommit (p : Pkt)
  /-- SYS_COMMIT_CANCEL (R443). Command cancelling a pending commit slot. -/
  | sysCommitCancel (p : Pkt)
  /-- SYS_DISCARD (R443). Command copying live values of groups into the staged view. -/
  | sysDiscard (p : Pkt)
  /-- SYS_RESTART (R444). Command restarting device firmware as a warm reset. -/
  | sysRestart (p : Pkt)
  /-- SYS_EVENT_CFG (R445). Command setting a mailbox's event mask. -/
  | sysEventCfg (p : Pkt)
  /-- GL_CMT_NOW_WRITE (R448). A write of 1 to GL_CMT_NOW orders a commit now or sets cmt_err. -/
  | glCmtNowWrite (w : Word)
  /-- RING_ENABLE (R458). A write of en = 1 moves a ring from OFF to STOPPED, or sets cfg_err for a wrong function. -/
  | ringEnable (n : Nat) (w : Word)
  /-- RING_DISABLE (R461). A write of en = 0 stops fetching and drains the ring. -/
  | ringDisable (n : Nat) (w : Word)
  /-- RING_DRAIN (R461). The descriptor in progress finishes or is aborted and the ring enters OFF. -/
  | ringDrain (n : Nat)
  /-- RING_DB_WRITE (R459). A doorbell starts fetching or re-reads the end-marked descriptor. -/
  | ringDbWrite (n : Nat)
  /-- DESC_FETCH (R459). The engine fetches a descriptor, or a fetch error puts the ring in ERROR. -/
  | descFetch (n : Nat) (words : List Word) (err : Bool)
  /-- DESC_FINISH (R455). A descriptor's data moves complete and it is written back, then the ring continues, re-reads or stops. -/
  | descFinish (n : Nat) (data : List Byte) (err : Bool)
  /-- READ_COMPLETION_TIMEOUT (R475). A host read completion is not received within 50 µs and the descriptor or transfer fails. -/
  | readCompletionTimeout (n : Nat)
  /-- DMA_SH_COMMIT_WRITE (R469). A write of DMA_SH_COMMIT marks the shadow valid and may start an idle channel. -/
  | dmaShCommitWrite (n : Nat) (w : Word)
  /-- DIRECT_HANDOVER (R470). The last byte of a direct transfer lands and the shadow, repeat or idle takes over. -/
  | directHandover (n : Nat) (data : List Byte) (err : Nat)
  /-- DIRECT_HALF_POINT (R472). Half of a direct transfer has landed and the half event is raised. -/
  | directHalfPoint (n : Nat)
  /-- DMA_STOP_WRITE (R472). A write of stop ends the direct transfer with ABORTED. -/
  | dmaStopWrite (n : Nat)
  /-- MONITOR_SEQUENCE (R485). Action line 10 runs the sequence of each enabled monitor ADC or is dropped or missed. -/
  | monitorSequence
  /-- MONITOR_CONVERSION_DONE (R483). A monitor conversion completes and its result is accumulated or delivered, and the next item starts. -/
  | monitorConversionDone (q : Nat) (input dev : Int)
  /-- MONITOR_CAL_DONE (R489). A monitor ADC self-calibration ends and new corrections apply. -/
  | monitorCalDone (q dur : Nat)
  /-- MONITOR_CAL_PERIOD (R489). The automatic calibration period expires and orders a calibration. -/
  | monitorCalPeriod (q : Nat)
  /-- MONITOR_POWER_DOWN (R490). idle_us of idleness expires and the converter powers down. -/
  | monitorPowerDown (q : Nat)
  /-- MA_INJ_WRITE (R487). A write of go requests an injected conversion or sets inj_ovf. -/
  | maInjWrite (q : Nat) (w : Word)
  /-- MA_CAL_WRITE (R489). A write of go orders a self-calibration. -/
  | maCalWrite (q : Nat) (w : Word)
  /-- MA_TAKE_WRITE (R484). A write takes and clears the accumulators of the named channels. -/
  | maTakeWrite (q : Nat) (w : Word)
  /-- MA_INJ_RES_READ (R518). A read of MA_INJ_RES returns the result and clears done. -/
  | maInjResRead (q : Nat)
  /-- SNAP_NOW_WRITE (R496). A write of snap_now fires line 2 at once. -/
  | snapNowWrite (w : Word)
  /-- SNAPSHOT_FIRE (R497). Line 2 fires in the hub and a snapshot bank is chosen or the snapshot refused. -/
  | snapshotFire
  /-- SNAPSHOT_LATCH (R498). On tick S every powered die latches its counters into the bank, which becomes HELD or DELIVERING. -/
  | snapshotLatch
  /-- MON_SNAP_REL_WRITE (R499). A release write frees HELD banks or sets rel_err. -/
  | monSnapRelWrite (w : Word)
  /-- RECORDER_EVENT (R503). An event sent to a recorder takes a sequence number and is written, dropped or lost. -/
  | recorderEvent (rec code src : Nat) (late : Bool) (detail : Word)
  /-- RECORDER_TRIGGER (R506). Line 11 fires and every recorder writes event 0x20. -/
  | recorderTrigger (rec : Nat)
  /-- REC_MARK_WRITE (R506). A write to REC_MARK records event 0x21. -/
  | recMarkWrite (w : Word)
  /-- REC_CLEAR (R507). A write of clear empties a recorder and returns it to RUN. -/
  | recClear (r : Nat)
  /-- REC_TEST (R508). A write of test starts a recorder memory test. -/
  | recTest (r : Nat)
  /-- REC_TEST_DONE (R508). A recorder memory test ends, returning passing slots or leaving FAILED. -/
  | recTestDone (r : Nat) (bad : List Nat)
  /-- REC_REARM (R507). A write of rearm returns a FROZEN tile recorder to RUN. -/
  | recRearm (t : Nat)
  /-- RECORDER_MEMORY_ERROR (R508). An uncorrectable recorder memory error retires a slot or fails the package recorder. -/
  | recorderMemoryError (r slot : Nat) (corrected : Bool) (code src : Nat) (detail : Word)
  /-- SNAP_AT (R496). Command ordering a snapshot now or at a time. -/
  | snapAt (p : Pkt)
  /-- SNAP_RELEASE (R499). Command releasing snapshot banks. -/
  | snapRelease (p : Pkt)
  /-- SNAP_INFO (R512). Command returning a bank's sequence, tags and tick. -/
  | snapInfo (p : Pkt)
  /-- SNAP_DELIVER (R510). Command setting snapshot delivery. -/
  | snapDeliver (p : Pkt)
  /-- REC_MAP_SET (R505). Command mapping an event code to a register list. -/
  | recMapSet (p : Pkt)
  /-- REC_LIST_SET (R505). Command writing register list entries. -/
  | recListSet (p : Pkt)
  /-- REC_CTRL (R507). Command writing a recorder control word. -/
  | recCtrl (p : Pkt)
  /-- REC_MARK (R506). Command recording a mark event. -/
  | recMark (p : Pkt)
  /-- REC_STATUS (R512). Command returning recorder status. -/
  | recStatus (p : Pkt)
  /-- MA_SET (R512). Command configuring monitor ADCs and sequences. -/
  | maSet (p : Pkt)
  /-- MA_WINDOW (R492). Command setting a channel's alarm window. -/
  | maWindow (p : Pkt)
  /-- MA_CONVERT (R487). Command requesting an injected conversion. -/
  | maConvert (p : Pkt)
  /-- MA_TAKE (R484). Command taking a channel's accumulation. -/
  | maTake (p : Pkt)
  /-- MA_CAL (R489). Command ordering a monitor self-calibration. -/
  | maCal (p : Pkt)
  /-- MA_STATUS (R512). Command returning monitor ADC status and alarms. -/
  | maStatus (p : Pkt)
  /-- SENSOR_CONVERSION (R520). On each 64 µs boundary every powered sensor converts and warn, validity and throttling are updated. -/
  | sensorConversion (rs : List (Int × Bool))
  /-- THERMAL_SHUTDOWN (R527). The shutdown path fires, cuts RF drive, powers domains off and writes the shutdown record. -/
  | thermalShutdown (cut : Bool)
  /-- THERMAL_RESTART (R528). Shutdown sensors stay below the restart threshold for the restart time and a boot begins. -/
  | thermalRestart
  /-- TH_THR_WRITE (R522). A threshold write is applied or discarded with thr_err. -/
  | thThrWrite (r : Nat) (w : Word)
  /-- TH_STATUS (R533). Command returning thermal status. -/
  | thStatus (p : Pkt)
  /-- TH_SET (R522). Command writing thermal configuration. -/
  | thSet (p : Pkt)
  /-- TH_READ (R533). Command returning sensor readings. -/
  | thRead (p : Pkt)
  /-- TH_SIMULATE (R532). Command simulating or cancelling a sensor reading in TEST. -/
  | thSimulate (p : Pkt)
  /-- POWER_ENTRY_START (R542). Phase 1 of an IDLE, RETAIN or DEEP entry begins negotiating with blocks. -/
  | powerEntryStart (scope : Nat)
  /-- ENTRY_REASK (R542). A block that answered delay is asked again after a microsecond. -/
  | entryReask (scope : Nat)
  /-- ENTRY_DELAY_TIMEOUT (R543). A delay exceeds delay_max_us and the entry is abandoned. -/
  | entryDelayTimeout (scope : Nat)
  /-- POWER_ENTRY_EXEC (R542). Every block is ready; pads are latched, banks saved and domains switched off. -/
  | powerEntryExec (scope : Nat)
  /-- BLANK_WINDOW (R541). Action line 9 opens or extends a blanking window for the named paths. -/
  | blankWindow
  /-- WAKE_SOURCE (R553). A wake source arrives and starts a wake of the package or tiles. -/
  | wakeSource (src : Nat) (tiles : List Nat)
  /-- WAKE_STEP_TIMEOUT (R556). A wake step times out and is retried, or the wake or tile fails. -/
  | wakeStepTimeout (scope : Nat)
  /-- WAKE_COMPLETE (R558). A wake completes and the device returns to its previous state. -/
  | wakeComplete (scope : Nat)
  /-- REFCLK_LOSS (R552). REFCLK shows no edge for 100 ns in DEEP and the keeper runs on the oscillator. -/
  | refclkLoss
  /-- PW_DOORBELL_WRITE (R553). A write of 1 to PW_DOORBELL is wake source 2. -/
  | pwDoorbellWrite (w : Word)
  /-- PW_PAD_REL_WRITE (R548). A write releases latched pads of named rows whose tiles are in RUN. -/
  | pwPadRelWrite (w : Word)
  /-- PW_STATUS (R561). Command returning power status. -/
  | pwStatus (p : Pkt)
  /-- PW_TILE (R559). Command moving tiles to IDLE, RETAIN or RUN now or at a time, or cancelling. -/
  | pwTile (p : Pkt)
  /-- PW_DEEP (R546). Command entering DEEP for the package or the system. -/
  | pwDeep (p : Pkt)
  /-- PW_WAKE (R553). Command that is a host doorbell wake. -/
  | pwWake (p : Pkt)
  /-- PW_WAKE_RETRY (R556). Command retrying a failed package or tile wake. -/
  | pwWakeRetry (p : Pkt)
  /-- PW_PAD_RELEASE (R548). Command releasing latched pads. -/
  | pwPadRelease (p : Pkt)
  /-- PW_RET_CLEAR (R551). Command reporting reloaded retention banks. -/
  | pwRetClear (p : Pkt)
  /-- PW_CONFIG (R561). Command writing power configuration. -/
  | pwConfig (p : Pkt)
  /-- PW_BLANK (R541). Command writing blanking masks and length. -/
  | pwBlank (p : Pkt)
  /-- CELLAR_RECORD_WRITE (R567). Device firmware writes a journal record, verifies it and commits its marker. -/
  | cellarRecordWrite (ok : Bool)
  /-- RACKING (R570). Racking copies live records of the oldest segment into the head and frees it. -/
  | racking
  /-- SECURE_WINDOW_WRITE (R587). A host write to the secure window is discarded and sets wr_err. -/
  | secureWindowWrite
  /-- CEL_STATUS (R588). Command returning Cellar status. -/
  | celStatus (p : Pkt)
  /-- CEL_READ (R588). Command reading records into SEC_BUF. -/
  | celRead (p : Pkt)
  /-- SEC_ID (R584). Command placing the device identity in SEC_BUF. -/
  | secId (p : Pkt)
  /-- SEC_ATTEST (R585). Command producing a signed attestation report. -/
  | secAttest (p : Pkt)
  /-- SEC_DBG_CHALLENGE (R586). Command issuing a debug unlock challenge. -/
  | secDbgChallenge (p : Pkt)
  /-- IMG_LOAD (R582). Command taking an image from a ring, verifying and storing it. -/
  | imgLoad (p : Pkt)
  /-- IMG_ACTIVATE (R582). Command writing the boot-bank record. -/
  | imgActivate (p : Pkt)
  /-- CFG_APPLY (R583). Command applying a stored configuration image as host writes. -/
  | cfgApply (p : Pkt)
  /-- CEL_LOG_CLEAR (R588). Command raising the log floor. -/
  | celLogClear (p : Pkt)
  /-- SEC_ARB_ADVANCE (R580). Command raising an anti-rollback counter. -/
  | secArbAdvance (p : Pkt)
  /-- CEL_RACK (R570). Command starting racking. -/
  | celRack (p : Pkt)
  /-- SEC_KEY_FUSE (R578). Command fusing a key hash into slot 2 or 3. -/
  | secKeyFuse (p : Pkt)
  /-- SEC_KEY_REVOKE (R578). Command revoking a key slot. -/
  | secKeyRevoke (p : Pkt)
  /-- SEC_DBG_UNLOCK (R586). Command unlocking debug scope with a token. -/
  | secDbgUnlock (p : Pkt)
  /-- SEC_DBG_LOCK (R586). Command locking debug scope. -/
  | secDbgLock (p : Pkt)
  /-- POWER_ON (R591). AON supplies enter range and a cold reset begins. -/
  | powerOn
  /-- RST_N_LOW (R591). RST_N is held low and causes a warm or cold reset. -/
  | rstNLow (ns : Nat)
  /-- WATCHDOG_TIMEOUT (R591). Device firmware fails to service the watchdog for 1 s and a warm reset begins. -/
  | watchdogTimeout
  /-- BOOT (R597). After reset release the ROM mounts the Cellar, verifies firmware and brings the device to STANDBY or RECOVERY. -/
  | boot (sel : Nat) (headers : Bool) (torn : Nat) (version : Word) (hubOk : Bool) (badTiles : Nat) (sramOk : Bool)
  /-- PERST_N_ASSERT (R595). PERST_N low resets the PCIe endpoint and disables rings and direct channels. -/
  | perstNAssert
  /-- FUNCTION_LEVEL_RESET (R595). An FLR resets configuration space and MSI-X, resets mailboxes 0–3 and disables rings. -/
  | functionLevelReset
  /-- REGISTER_READ (R13). A BAR0 or BAR2 read with behaviour of its own: a read of a _LO register captures its _HI half, and a read of a block whose domain is off returns 0 and sets off_acc. -/
  | registerRead (bar2 : Bool) (o be : Nat)
  /-- SUPPLY_REMOVAL (R537). The supplies are removed and the package enters OFF. -/
  | supplyRemoval
  /-- SYNCE_LOCK_REGAIN (R70). The receive lane of the selected SyncE port regains lock; synce_lock reads 1 and SYNCE_OUT is driven again. -/
  | synceLockRegain
  /-- BLANKING_WINDOW_END (R541). A blanking window reaches its end after blk_ns; the path leaves blank idle and TXEN follows its demand again. -/
  | blankingWindowEnd (p : Nat)
  /-- HUB_RESTART_WINDOW_EXPIRY (R593). 60 s pass without a hub restart and the restarts count in GL_BOOT returns to 0. -/
  | hubRestartWindowExpiry
  /-- SYS_RESTART_EXPIRY (R444). 10 ms after the SYS_RESTART reply, if the reply has not been read sooner, device firmware restarts as a warm reset. -/
  | sysRestartExpiry
  /-- ATTESTATION_DONE (R585). The signed attestation report is complete in SEC_BUF and SEC_ATTEST sends its notice within 50 ms. -/
  | attestationDone
  /-- PERST_N_RELEASE (R598). PERST_N rises and the PCIe endpoint starts link training, answering configuration requests within 100 ms. -/
  | perstNRelease
  /-- WAKE_STEP_DONE (R555). A wake step completes, because a power-good input asserts, a PLL locks or the retention banks are checked, and the next step of the wake sequence begins. -/
  | wakeStepDone (scope bad : Nat)
  deriving DecidableEq, Repr

end Sys2Proof
end

