-- ==== Sys2Proof/Decode.lean ====
section
/-!
DEFINITION. Decoding of words into commands. The command table gives no row any bits, so no word spells a command.
-/
namespace Sys2Proof

/-- The command that a word spells by the table's bits: none, since every row of spec/opcode_table.json has no bits. -/
def decodeTableWord (_nbits _w : Nat) : Option Instr := none

end Sys2Proof
end

