-- ==== Sys2Proof/Config.lean ====
section
/-!
DEFINITION. The values the spec leaves open. Each is opaque: nothing in Lean can evaluate it or prove a value of it, so a
theorem about the model holds whatever the value is. A fresh value is drawn with the counter `State.fresh`.
-/
namespace Sys2Proof

/-- A 32-bit value the spec leaves open, by draw number. -/
opaque Config.freeWord : Nat → Word

/-- A natural number the spec leaves open, by draw number. -/
opaque Config.freeNat : Nat → Nat

/-- A choice the spec leaves to the implementation, by draw number. -/
opaque Config.freeBool : Nat → Bool

/-- Bytes by which the burst that an ingress policer passes exceeds one frame of max_frame, by port and class (R89: the spec gives the rates
and no burst). -/
opaque Config.policeBurst : Nat → Nat → Nat

/-- SHA-512 of a message, by byte (R576-R585): cryptographic primitives are uninterpreted. -/
opaque Config.sha512 : List Byte → Nat → Byte

/-- Whether an Ed25519 signature and an ML-DSA-65 signature verify, by public key, message and signature (R577). -/
opaque Config.edVerify : List Byte → List Byte → List Byte → Bool
opaque Config.mldsaVerify : List Byte → List Byte → List Byte → Bool

/-- The device's identity (R584): the two public keys and Zankotia's endorsement, by byte. -/
opaque Config.identity : Nat → Byte

/-- The signatures of a message with the two identity keys (R585), by byte. -/
opaque Config.identitySign : List Byte → Nat → Byte

/-- The output of a filter of the sample paths (R130, R131, R233, R304), by stage, parameter, phase and the samples that enter it: the spec
gives the filters' bands and ripple and not their taps (log entry 51). -/
opaque Config.filter : Nat → Nat → Nat → List (Int × Int) → Int × Int

/-- The reference sequence of a sounding entry (R174: that of 3GPP TS 38.211 clause 6.4.1.4), by the entry's words, symbol and place in the
comb, in units of 2^-22. -/
opaque Config.srsRef : Nat → Nat → Nat → Nat → Nat → Int × Int

/-- What the time-domain window of a port gives at a group, by the entry's words, port, group and the averages of the groups (R175: the spec
gives no shape of the windows), and the power of the residual outside the windows. -/
opaque Config.srsWindow : Nat → Nat → Nat → Nat → Nat → List (Int × Int) → Int × Int
opaque Config.srsResidual : Nat → Nat → Nat → Nat → List (Int × Int) → Nat

/-- What the default kernels take beyond the centres of the first and last channel groups, between which R186 interpolates: by the distance from
the first centre and the spacing of centres, in half PRBs, and the nearest group's estimate. -/
opaque Config.edgeEstimate : Int → Nat → Int × Int → Int × Int

/-- sigma^2 of a mean extension 8 factor, in units of 2^-24 (R186: the spec gives the factor no scale). -/
opaque Config.regularize : Nat → Nat

/-- The combination of a UE's ports whose vector is eigenvector `k` of its H H^H (R186), by the matrix H^H H: the spec fixes each eigenvector's
direction and not its phase. -/
opaque Config.eigenvector : List (List (Int × Int)) → Nat → List (Int × Int)

/-- The cancellation pulse of the crest stage (R238), by threshold, carrier spans, peak sample and distance from the peak. -/
opaque Config.crestPulse : Nat → List Nat → Int × Int → Int → Int × Int

end Sys2Proof
end

