-- ==== Sys2Proof/Machine/Bits.lean ====
section
/-!
DEFINITION. Bit fields of words (R7: a bit range is written [msb:lsb]), two's-complement readings and CRC, shared by every
register, packet and record of the model.
-/
namespace Sys2Proof.Machine

/-- Bits [hi:lo] of a natural number. -/
def bitsN (v hi lo : Nat) : Nat := v / 2 ^ lo % 2 ^ (hi + 1 - lo)

/-- Bits [hi:lo] of a word. -/
def fld (w : Word) (hi lo : Nat) : Nat := bitsN w.toNat hi lo

/-- One bit of a word. -/
def bit (w : Word) (b : Nat) : Bool := w.toNat / 2 ^ b % 2 == 1

/-- The word with bits [hi:lo] replaced by the low bits of `v`. -/
def putFld (w : Word) (hi lo v : Nat) : Word :=
  let n := 2 ^ (hi + 1 - lo)
  let low := w.toNat % 2 ^ lo
  let high := w.toNat / 2 ^ (hi + 1)
  BitVec.ofNat 32 (high * 2 ^ (hi + 1) + v % n * 2 ^ lo + low)

/-- A word from a natural number, modulo 2^32. -/
def toW (n : Nat) : Word := BitVec.ofNat 32 n

/-- Bit `b` of a natural number. -/
def bitN (v b : Nat) : Bool := v / 2 ^ b % 2 == 1

/-- A natural number with bit `b` set. -/
def setBitN (v b : Nat) : Nat := if bitN v b then v else v + 2 ^ b

/-- A natural number with bit `b` clear. -/
def clrBitN (v b : Nat) : Nat := if bitN v b then v - 2 ^ b else v

/-- The bits set in the low `n` bits of `v`, ascending. -/
def bitsSet (v n : Nat) : List Nat := (List.range n).filter (bitN v)

/-- The mask with the bits of a list set. -/
def maskOf (l : List Nat) : Nat := l.foldl setBitN 0

/-- The word of a Boolean flag: 1 or 0. -/
def b2n (b : Bool) : Nat := if b then 1 else 0

/-- Two's complement reading of the low `n` bits of `v` (R7). -/
def sext (v n : Nat) : Int :=
  let m := v % 2 ^ n
  if m < 2 ^ (n - 1) then (m : Int) else (m : Int) - (2 ^ n : Nat)

/-- The low `n` bits of an integer in two's complement. -/
def wrapN (v : Int) (n : Nat) : Nat := (v % ((2 ^ n : Nat) : Int)).toNat

/-- An integer held to the range of an `n`-bit two's-complement number. -/
def satN (v : Int) (n : Nat) : Int :=
  let m : Int := ((2 ^ (n - 1) : Nat) : Int)
  if v < -m then -m else if v > m - 1 then m - 1 else v

/-- A value held between two limits ("other values act as the nearest limit"). -/
def clampN (v lo hi : Nat) : Nat := if v < lo then lo else if v > hi then hi else v

/-- Floor division of integers by a power of two. -/
def shrI (v : Int) (n : Nat) : Int := v / ((2 ^ n : Nat) : Int)

/-- The number of decimal digits of `n` less one, by at most `fuel` divisions: floor(log10 n) for n at least 1. -/
def ilog10 : Nat → Nat → Nat
  | 0, _ => 0
  | fuel + 1, n => if n < 10 then 0 else 1 + ilog10 fuel (n / 10)

/-- floor(log10(a / b)) for positive a and b. -/
def flog10 (a b : Nat) : Int :=
  if b = 0 ∨ a = 0 then 0
  else if b ≤ a then (ilog10 20000 (a / b) : Nat)
  else
    let q := (b + a - 1) / a
    let k := ilog10 20000 q
    if q = 10 ^ k then -(k : Int) else -((k : Int) + 1)

/-- m times log10(a / b) to the nearest integer (halves up). -/
def logRound (m a b : Nat) : Int := flog10 (a ^ (2 * m) * 10) (b ^ (2 * m)) / 2

/-- The integer square root, rounded down. -/
def isqrt (n : Nat) : Nat :=
  let b := Nat.log2 n / 2
  (List.range (b + 1)).foldl (fun r k => let t := r + 2 ^ (b - k); if t * t ≤ n then t else r) 0

/-- Replace element `i` of a list. -/
def setAt {α : Type} : List α → Nat → α → List α
  | [], _, _ => []
  | _ :: t, 0, x => x :: t
  | h :: t, i + 1, x => h :: setAt t i x

/-- Element `i` of a list of words, 0 beyond its end. -/
def wordAt (l : List Word) (i : Nat) : Word := l.getD i 0

/-- One step of a bitwise CRC of width `n` (most significant bit first) with polynomial `poly`. -/
def crcBit (n poly : Nat) (crc : Nat) (b : Bool) : Nat :=
  let top := bitN crc (n - 1)
  let sh := crc * 2 % 2 ^ n
  if top != b then Nat.xor sh poly else sh

/-- CRC of width `n` over the low `len` bits of `v`, most significant bit first. -/
def crcMsb (n poly init v : Nat) (len : Nat) : Nat :=
  (List.range len).foldl (fun c i => crcBit n poly c (bitN v (len - 1 - i))) init

/-- One step of a reflected CRC (least significant bit first). -/
def crcBitR (poly : Nat) (crc : Nat) (b : Bool) : Nat :=
  let low := bitN crc 0
  let sh := crc / 2
  if low != b then Nat.xor sh poly else sh

/-- CRC-32C of a list of bytes (reflected, initial value and final inversion all ones). -/
def crc32c (bytes : List Byte) : Nat :=
  Nat.xor 0xFFFFFFFF
    (bytes.foldl (fun c b => (List.range 8).foldl (fun c i => crcBitR 0x82F63B78 c (bitN b.toNat i)) c) 0xFFFFFFFF)

/-- The bytes of a word, least significant first (R8: little-endian). -/
def leBytes (w : Word) : List Byte :=
  [BitVec.ofNat 8 w.toNat, BitVec.ofNat 8 (w.toNat / 2 ^ 8), BitVec.ofNat 8 (w.toNat / 2 ^ 16), BitVec.ofNat 8 (w.toNat / 2 ^ 24)]

end Sys2Proof.Machine
end

