-- ==== Sys2Proof/Machine/RegMap.lean ====
section
/-!
DEFINITION. The register map: every register of the spec's register tables (R4, R35-R39, R75-R82, R116-R119, R139-R142,
R168-R170, R193-R196, R230, R231, R261-R265, R299-R303, R334-R339, R357-R359, R386, R387, R413-R415, R447-R450,
R477-R480, R514-R518, R535, R536, R563, R564, R589, R590, R607) with its BAR0 offset, its reset value and its fields by
access code (R10). `Reg.<NAME>` is the register's live offset in BAR0; instances of an array and of a block are arguments.
-/
namespace Sys2Proof.Machine

/-- Path block of path `p`, R17. -/
def pathBlk (p : Nat) : Nat := 0x01000000 + p / 24 * 0x01000000 + p % 24 * 0x10000
/-- Row block of row `r`, R17. -/
def rowBlk (r : Nat) : Nat := 0x01000000 + r / 6 * 0x01000000 + 0x00F00000 + r % 6 * 0x1000
/-- Parcel block of parcel `q`, R17. -/
def parcelBlk (q : Nat) : Nat := 0x01000000 + q / 2 * 0x01000000 + 0x00F80000 + q % 2 * 0x1000
/-- Tile-common block of tile `t`, R17. -/
def tileBlk (t : Nat) : Nat := 0x01000000 + t * 0x01000000 + 0x00FC0000
/-- Link block of Axnen link `l`: tile links 0-3, then cascade ports 0-1 as links 4-5, R386. -/
def linkBlk (l : Nat) : Nat := if l < 4 then 0x08000000 + 0x10000 * l else 0x08080000 + 0x10000 * (l - 4)

def Reg.ID_DEVICE : Nat := 0x0
def Reg.GL_FW_VER : Nat := 0x4
def Reg.GL_CHIAST : Nat := 0x8
def Reg.GL_PATH_AVAIL (n : Nat) : Nat := 0x10 + 0x4 * n
def Reg.GL_ROW_AVAIL : Nat := 0x1C
def Reg.GL_UNIT_AVAIL : Nat := 0x20
def Reg.GL_PARCEL_AVAIL : Nat := 0x24
def Reg.GL_PKG_POS : Nat := 0x28
def Reg.GL_STATE : Nat := 0x100
def Reg.GL_CMT_NOW : Nat := 0x104
def Reg.GL_CMT_STAT : Nat := 0x108
def Reg.GL_CMT_RES : Nat := 0x10C
def Reg.GL_CMT_T_LO : Nat := 0x110
def Reg.GL_CMT_T_HI : Nat := 0x114
def Reg.GL_BOOT : Nat := 0x120
def Reg.SV_CTRL : Nat := 0x200
def Reg.SV_FAULT_SUM : Nat := 0x204
def Reg.SV_FAULT_MASK : Nat := 0x208
def Reg.SV_LAST : Nat := 0x20C
def Reg.SV_INJECT : Nat := 0x210
def Reg.SV_STAT : Nat := 0x214
def Reg.SV_ROW_CAUSE (n : Nat) : Nat := 0x240 + 0x4 * n
def Reg.SV_PARCEL_CAUSE (n : Nat) : Nat := 0x2A0 + 0x4 * n
def Reg.SV_TILE_CAUSE (n : Nat) : Nat := 0x2C0 + 0x4 * n
def Reg.SV_PATH_CAUSE (n : Nat) : Nat := 0x600 + 0x4 * n
def Reg.CAL_CFG : Nat := 0x400
def Reg.CAL_SCHED : Nat := 0x404
def Reg.CAL_STAT : Nat := 0x408
def Reg.CAL_TRK : Nat := 0x40C
def Reg.CAL_NET_W0 (n : Nat) : Nat := 0x2000 + 0x8 * n
def Reg.CAL_NET_W1 (n : Nat) : Nat := 0x2004 + 0x8 * n
def Reg.TB_CTRL : Nat := 0x100000
def Reg.TB_STATUS : Nat := 0x100004
def Reg.TB_COUNT_LO : Nat := 0x100008
def Reg.TB_COUNT_HI : Nat := 0x10000C
def Reg.TB_RATE_LO : Nat := 0x100010
def Reg.TB_RATE_HI : Nat := 0x100014
def Reg.TB_RATE_ADJ : Nat := 0x100018
def Reg.TB_NOW_NS : Nat := 0x100020
def Reg.TB_NOW_FRAC : Nat := 0x100024
def Reg.TB_NOW_SEC_LO : Nat := 0x100028
def Reg.TB_NOW_SEC_HI : Nat := 0x10002C
def Reg.TB_NOW_EPOCH : Nat := 0x100030
def Reg.TB_STEP_CNT_LO : Nat := 0x100040
def Reg.TB_STEP_CNT_HI : Nat := 0x100044
def Reg.TB_STEP_INFO : Nat := 0x100048
def Reg.TB_HOLD_CFG : Nat := 0x100050
def Reg.TB_HOLD_SEC : Nat := 0x100054
def Reg.TB_LATE_CNT : Nat := 0x100058
def Reg.TB_SW_STROBE : Nat := 0x10005C
def Reg.TB_PTP_CFG : Nat := 0x100060
def Reg.TB_SYNCE_CFG : Nat := 0x100064
def Reg.TB_PPSOUT_CFG : Nat := 0x100068
def Reg.TB_PPSOUT_OFS : Nat := 0x10006C
def Reg.TB_PPSIN_NS : Nat := 0x100070
def Reg.TB_PPSIN_SEC_LO : Nat := 0x100074
def Reg.TB_PPSIN_SEC_HI : Nat := 0x100078
def Reg.TB_GRID_ORG_SEC_LO : Nat := 0x100080
def Reg.TB_GRID_ORG_SEC_HI : Nat := 0x100084
def Reg.TB_GRID_ORG_NS : Nat := 0x100088
def Reg.TB_GRID_NOW : Nat := 0x10008C
def Reg.TB_ALARM_TGT_LO : Nat := 0x100090
def Reg.TB_ALARM_TGT_HI : Nat := 0x100094
def Reg.TB_ALARM_CTRL : Nat := 0x100098
def Reg.TB_PORT_DLY (n : Nat) : Nat := 0x1000A0 + 0x4 * n
def Reg.TB_TXTS_STAT : Nat := 0x1000C0
def Reg.TB_TXTS_W0 : Nat := 0x1000C4
def Reg.TB_TXTS_W1 : Nat := 0x1000C8
def Reg.TB_TXTS_W2 : Nat := 0x1000CC
def Reg.TB_TXTS_W3 : Nat := 0x1000D0
def Reg.TB_CMP_TGT_LO (n : Nat) : Nat := 0x100100 + 0x10 * n
def Reg.TB_CMP_TGT_HI (n : Nat) : Nat := 0x100104 + 0x10 * n
def Reg.TB_CMP_PER (n : Nat) : Nat := 0x100108 + 0x10 * n
def Reg.TB_CMP_CTRL (n : Nat) : Nat := 0x10010C + 0x10 * n
def Reg.TB_TRIG_SEL (n : Nat) : Nat := 0x100800 + 0x4 * n
def Reg.FH_STATUS : Nat := 0x200004
def Reg.FH_PORT_MODE : Nat := 0x200008
def Reg.FH_PORT_CFG (n : Nat) : Nat := 0x200010 + 0x4 * n
def Reg.FH_WIN_CLOSE (n : Nat) : Nat := 0x200090 + 0x10 * n
def Reg.FH_WIN_DEPTH (n : Nat) : Nat := 0x200094 + 0x10 * n
def Reg.FH_WIN_CPLEAD (n : Nat) : Nat := 0x200098 + 0x10 * n
def Reg.FH_WIN_ULCP (n : Nat) : Nat := 0x20009C + 0x10 * n
def Reg.FH_WIN_MAX : Nat := 0x2000D0
def Reg.FH_BUF_STAT : Nat := 0x2000D4
def Reg.FH_FAIL_CFG : Nat := 0x2000E0
def Reg.FH_FAIL_LOST : Nat := 0x2000E4
def Reg.FH_FAIL_SEQ : Nat := 0x2000E8
def Reg.FH_UDP_CFG : Nat := 0x2000F0
def Reg.FH_EAXC_FMT : Nat := 0x2000F4
def Reg.FH_WAKE_CFG : Nat := 0x2000F8
def Reg.FH_WAKE_KEY : Nat := 0x2000FC
def Reg.FH_VID (n : Nat) : Nat := 0x200100 + 0x4 * n
def Reg.FH_CC_MAP (n : Nat) : Nat := 0x200140 + 0x4 * n
def Reg.FH_EAXC_KEY (n : Nat) : Nat := 0x200200 + 0x8 * n
def Reg.FH_EAXC_ENT (n : Nat) : Nat := 0x200204 + 0x8 * n
def Reg.FH_HDR_TPL (n m : Nat) : Nat := 0x201000 + 0x40 * n + 0x4 * m
def Reg.SE_CTRL : Nat := 0x400000
def Reg.SE_STATUS : Nat := 0x400004
def Reg.SE_LOAD_DL : Nat := 0x400008
def Reg.SE_LOAD_UL : Nat := 0x40000C
def Reg.CAR_CFG (n : Nat) : Nat := 0x400100 + 0x40 * n
def Reg.CAR_OFS (n : Nat) : Nat := 0x400104 + 0x40 * n
def Reg.CAR_ADV (n : Nat) : Nat := 0x400108 + 0x40 * n
def Reg.CAR_PROC (n : Nat) : Nat := 0x40010C + 0x40 * n
def Reg.CAR_F0 (n : Nat) : Nat := 0x400110 + 0x40 * n
def Reg.CAR_SRS_PER (n : Nat) : Nat := 0x400114 + 0x40 * n
def Reg.CAR_SRS_SYM (n : Nat) : Nat := 0x400118 + 0x40 * n
def Reg.CAR_STAT (n : Nat) : Nat := 0x40011C + 0x40 * n
def Reg.TDD_CFG (n : Nat) : Nat := 0x402000 + 0x4 * n
def Reg.TDD_STAT : Nat := 0x402010
def Reg.TDD_DL (n m : Nat) : Nat := 0x402400 + 0x400 * n + 0x8 * m
def Reg.TDD_UL (n m : Nat) : Nat := 0x402404 + 0x400 * n + 0x8 * m
def Reg.SBFD_BAND (n : Nat) : Nat := 0x403C00 + 0x8 * n
def Reg.SBFD_GUARD (n : Nat) : Nat := 0x403C04 + 0x8 * n
def Reg.SBFD_STAT : Nat := 0x403C20
def Reg.TR_CTRL : Nat := 0x600000
def Reg.TR_STATUS : Nat := 0x600004
def Reg.TR_SCALE : Nat := 0x600008
def Reg.TR_FB_BEAM : Nat := 0x60000C
def Reg.TR_WC_CFG : Nat := 0x600010
def Reg.TR_WC_NOW : Nat := 0x600014
def Reg.TR_WS_LOCK : Nat := 0x600018
def Reg.TR_WS_GEN : Nat := 0x60001C
def Reg.TR_WC_REC : Nat := 0x600020
def Reg.TR_WC_B_LO : Nat := 0x600024
def Reg.TR_WC_B_HI : Nat := 0x600028
def Reg.TR_NULL_CFG (n : Nat) : Nat := 0x600100 + 0x10 * n
def Reg.TR_NULL_RNG (n : Nat) : Nat := 0x600104 + 0x10 * n
def Reg.TR_NULL_VEC (n : Nat) : Nat := 0x600108 + 0x10 * n
def Reg.TR_NULL_VEC2 (n : Nat) : Nat := 0x60010C + 0x10 * n
def Reg.SOL_CTRL : Nat := 0x800000
def Reg.SOL_STATUS : Nat := 0x800004
def Reg.SOL_CORE_AVAIL : Nat := 0x800008
def Reg.SOL_CORE_BUSY : Nat := 0x80000C
def Reg.SOL_JOBQ : Nat := 0x800010
def Reg.SOL_KERNEL_VALID : Nat := 0x800014
def Reg.SOL_SRS_W0 (n : Nat) : Nat := 0x801000 + 0x10 * n
def Reg.SOL_SRS_W1 (n : Nat) : Nat := 0x801004 + 0x10 * n
def Reg.SOL_SRS_W2 (n : Nat) : Nat := 0x801008 + 0x10 * n
def Reg.SOL_SRS_W3 (n : Nat) : Nat := 0x80100C + 0x10 * n
def Reg.SOL_JOB_W0 (n : Nat) : Nat := 0x802000 + 0x40 * n
def Reg.SOL_JOB_W1 (n : Nat) : Nat := 0x802004 + 0x40 * n
def Reg.SOL_JOB_W2 (n : Nat) : Nat := 0x802008 + 0x40 * n
def Reg.SOL_JOB_W3 (n : Nat) : Nat := 0x80200C + 0x40 * n
def Reg.SOL_JOB_W4 (n : Nat) : Nat := 0x802010 + 0x40 * n
def Reg.SOL_JOB_W5 (n : Nat) : Nat := 0x802014 + 0x40 * n
def Reg.SOL_JOB_W6 (n : Nat) : Nat := 0x802018 + 0x40 * n
def Reg.SOL_JOB_W7 (n : Nat) : Nat := 0x80201C + 0x40 * n
def Reg.SOL_JOB_W8 (n : Nat) : Nat := 0x802020 + 0x40 * n
def Reg.SOL_JOB_W9 (n : Nat) : Nat := 0x802024 + 0x40 * n
def Reg.SOL_CORE_STAT (n : Nat) : Nat := 0x803000 + 0x10 * n
def Reg.SOL_CORE_PC (n : Nat) : Nat := 0x803004 + 0x10 * n
def Reg.DMA_CTRL (n : Nat) : Nat := 0xC00000 + 0x100 * n
def Reg.DMA_STAT (n : Nat) : Nat := 0xC00004 + 0x100 * n
def Reg.DMA_HADDR_LO (n : Nat) : Nat := 0xC00008 + 0x100 * n
def Reg.DMA_HADDR_HI (n : Nat) : Nat := 0xC0000C + 0x100 * n
def Reg.DMA_DADDR (n : Nat) : Nat := 0xC00010 + 0x100 * n
def Reg.DMA_LEN (n : Nat) : Nat := 0xC00014 + 0x100 * n
def Reg.DMA_MODE (n : Nat) : Nat := 0xC00018 + 0x100 * n
def Reg.DMA_SH_HADDR_LO (n : Nat) : Nat := 0xC00020 + 0x100 * n
def Reg.DMA_SH_HADDR_HI (n : Nat) : Nat := 0xC00024 + 0x100 * n
def Reg.DMA_SH_DADDR (n : Nat) : Nat := 0xC00028 + 0x100 * n
def Reg.DMA_SH_LEN (n : Nat) : Nat := 0xC0002C + 0x100 * n
def Reg.DMA_SH_MODE (n : Nat) : Nat := 0xC00030 + 0x100 * n
def Reg.DMA_SH_COMMIT (n : Nat) : Nat := 0xC00034 + 0x100 * n
def Reg.DMA_SH_STAT (n : Nat) : Nat := 0xC00038 + 0x100 * n
def Reg.DMA_HO (n : Nat) : Nat := 0xC0003C + 0x100 * n
def Reg.RING_BASE_LO (n : Nat) : Nat := 0xC02000 + 0x40 * n
def Reg.RING_BASE_HI (n : Nat) : Nat := 0xC02004 + 0x40 * n
def Reg.RING_CFG (n : Nat) : Nat := 0xC02008 + 0x40 * n
def Reg.RING_FILT (n : Nat) : Nat := 0xC0200C + 0x40 * n
def Reg.RING_DB (n : Nat) : Nat := 0xC02010 + 0x40 * n
def Reg.RING_POS (n : Nat) : Nat := 0xC02014 + 0x40 * n
def Reg.RING_STOP (n : Nat) : Nat := 0xC02018 + 0x40 * n
def Reg.RING_STAT (n : Nat) : Nat := 0xC0201C + 0x40 * n
def Reg.RING_DONE (n : Nat) : Nat := 0xC02020 + 0x40 * n
def Reg.DMA_BUSY : Nat := 0xC03000
def Reg.MB_H2D_DATA (n : Nat) : Nat := 0xD00000 + 0x100 * n
def Reg.MB_DB (n : Nat) : Nat := 0xD00004 + 0x100 * n
def Reg.MB_ACK (n : Nat) : Nat := 0xD00008 + 0x100 * n
def Reg.MB_H2D_STAT (n : Nat) : Nat := 0xD0000C + 0x100 * n
def Reg.MB_D2H_DATA (n : Nat) : Nat := 0xD00010 + 0x100 * n
def Reg.MB_D2H_STAT (n : Nat) : Nat := 0xD00014 + 0x100 * n
def Reg.MB_CTRL (n : Nat) : Nat := 0xD00018 + 0x100 * n
def Reg.MB_EVT (n : Nat) : Nat := 0xD0001C + 0x100 * n
def Reg.MB_LOST (n : Nat) : Nat := 0xD00020 + 0x100 * n
def Reg.MON_SNAP_CTRL : Nat := 0xE00000
def Reg.MON_SNAP_STAT : Nat := 0xE00004
def Reg.MON_SNAP_REL : Nat := 0xE00008
def Reg.MON_SNAP_SEQ : Nat := 0xE0000C
def Reg.MON_EVT : Nat := 0xE00020
def Reg.MON_IRQ_EN : Nat := 0xE00024
def Reg.SNAP_B_SEQ (n : Nat) : Nat := 0xE00040 + 0x10 * n
def Reg.SNAP_B_INFO (n : Nat) : Nat := 0xE00044 + 0x10 * n
def Reg.SNAP_B_TICK_LO (n : Nat) : Nat := 0xE00048 + 0x10 * n
def Reg.SNAP_B_TICK_HI (n : Nat) : Nat := 0xE0004C + 0x10 * n
def Reg.REC_PKG_CTRL : Nat := 0xE00100
def Reg.REC_PKG_STAT : Nat := 0xE00104
def Reg.REC_PKG_NEXT : Nat := 0xE00108
def Reg.REC_PAGE : Nat := 0xE0010C
def Reg.REC_MARK : Nat := 0xE00110
def Reg.REC_MAP (n : Nat) : Nat := 0xE00200 + 0x4 * n
def Reg.REC_LIST (n m : Nat) : Nat := 0xE00400 + 0x40 * n + 0x4 * m
def Reg.TH_CTRL : Nat := 0xF00000
def Reg.TH_STAT : Nat := 0xF00004
def Reg.TH_THR : Nat := 0xF00008
def Reg.TH_BOFF : Nat := 0xF0000C
def Reg.TH_RESTART : Nat := 0xF00010
def Reg.TH_SHDN : Nat := 0xF00014
def Reg.TH_SHDN_T_LO : Nat := 0xF00018
def Reg.TH_SHDN_T_HI : Nat := 0xF0001C
def Reg.TH_EVT : Nat := 0xF00020
def Reg.TH_IRQ_EN : Nat := 0xF00024
def Reg.TH_SENSE (n : Nat) : Nat := 0xF00100 + 0x4 * n
def Reg.TH_PARCEL (n : Nat) : Nat := 0xF00200 + 0x4 * n
def Reg.TH_PMULT (n : Nat) : Nat := 0xF00240 + 0x4 * n
def Reg.PW_CFG : Nat := 0xF01000
def Reg.PW_WAKE_EN : Nat := 0xF01004
def Reg.PW_STAT : Nat := 0xF01008
def Reg.PW_REFUSE : Nat := 0xF0100C
def Reg.PW_LAST_WAKE : Nat := 0xF01010
def Reg.PW_WAKE_REC : Nat := 0xF01014
def Reg.PW_RET_FAIL : Nat := 0xF01018
def Reg.PW_DOORBELL : Nat := 0xF0101C
def Reg.PW_PAD_STAT : Nat := 0xF01020
def Reg.PW_PAD_REL : Nat := 0xF01024
def Reg.PW_PAD_CFG (n : Nat) : Nat := 0xF01030 + 0x4 * n
def Reg.PW_EVT : Nat := 0xF01040
def Reg.PW_IRQ_EN : Nat := 0xF01044
def Reg.PW_BLK_PATH (n : Nat) : Nat := 0xF01050 + 0x4 * n
def Reg.PW_BLK_LEN : Nat := 0xF0105C
def Reg.CEL_STAT : Nat := 0x9000000
def Reg.CEL_FILL : Nat := 0x9000004
def Reg.CEL_SEQ_LO : Nat := 0x9000008
def Reg.CEL_SEQ_HI : Nat := 0x900000C
def Reg.CEL_LOGS : Nat := 0x9000010
def Reg.SEC_STAT : Nat := 0x9000100
def Reg.SEC_REVOKE : Nat := 0x9000104
def Reg.SEC_ARB (n : Nat) : Nat := 0x9000114 + 0x4 * n
def Reg.SEC_KEYHASH (n m : Nat) : Nat := 0x9000200 + 0x20 * n + 0x4 * m
def Reg.SEC_DBG : Nat := 0x9000300
def Reg.SEC_BUF_GEN : Nat := 0x9000304
def Reg.TX_CTRL (p : Nat) : Nat := pathBlk p + 0x0
def Reg.TX_STATUS (p : Nat) : Nat := pathBlk p + 0x4
def Reg.TX_NCO_LO (p : Nat) : Nat := pathBlk p + 0x8
def Reg.TX_NCO_HI (p : Nat) : Nat := pathBlk p + 0xC
def Reg.TX_NCO_PH (p : Nat) : Nat := pathBlk p + 0x10
def Reg.TX_GAIN (p : Nat) : Nat := pathBlk p + 0x14
def Reg.TX_DELAY (p : Nat) : Nat := pathBlk p + 0x18
def Reg.TX_CFR (p : Nat) : Nat := pathBlk p + 0x1C
def Reg.TX_DAC (p : Nat) : Nat := pathBlk p + 0x20
def Reg.PR_CFG (p : Nat) : Nat := pathBlk p + 0x100
def Reg.PR_ADAPT (p : Nat) : Nat := pathBlk p + 0x104
def Reg.PR_LIMIT (p : Nat) : Nat := pathBlk p + 0x108
def Reg.PR_STAT (p : Nat) : Nat := pathBlk p + 0x10C
def Reg.PR_GREF_LO (p : Nat) : Nat := pathBlk p + 0x110
def Reg.PR_GREF_HI (p : Nat) : Nat := pathBlk p + 0x114
def Reg.PR_LOOP (p : Nat) : Nat := pathBlk p + 0x118
def Reg.CAN_CFG (p : Nat) : Nat := pathBlk p + 0x200
def Reg.CAN_ADAPT (p : Nat) : Nat := pathBlk p + 0x204
def Reg.CAN_STAT (p : Nat) : Nat := pathBlk p + 0x208
def Reg.CAN_DLY (p : Nat) : Nat := pathBlk p + 0x20C
def Reg.RX_CTRL (p : Nat) : Nat := pathBlk p + 0x300
def Reg.RX_STATUS (p : Nat) : Nat := pathBlk p + 0x304
def Reg.RX_NCO_LO (p : Nat) : Nat := pathBlk p + 0x308
def Reg.RX_NCO_HI (p : Nat) : Nat := pathBlk p + 0x30C
def Reg.RX_NCO_PH (p : Nat) : Nat := pathBlk p + 0x310
def Reg.RX_GAIN (p : Nat) : Nat := pathBlk p + 0x314
def Reg.RX_DELAY (p : Nat) : Nat := pathBlk p + 0x318
def Reg.RX_SHIFT (p : Nat) : Nat := pathBlk p + 0x31C
def Reg.RX_AGC_CFG (p : Nat) : Nat := pathBlk p + 0x320
def Reg.RX_AGC_FE (p : Nat) : Nat := pathBlk p + 0x324
def Reg.RX_AGC_FRM (p : Nat) : Nat := pathBlk p + 0x328
def Reg.RX_AGC_STAT (p : Nat) : Nat := pathBlk p + 0x32C
def Reg.RX_DET_CFG (p : Nat) : Nat := pathBlk p + 0x330
def Reg.RX_DET_RES (p : Nat) : Nat := pathBlk p + 0x334
def Reg.RX_ENV (p : Nat) : Nat := pathBlk p + 0x338
def Reg.RX_FAST (p : Nat) : Nat := pathBlk p + 0x33C
def Reg.RX_PWR_LO (p : Nat) : Nat := pathBlk p + 0x340
def Reg.RX_PWR_HI (p : Nat) : Nat := pathBlk p + 0x344
def Reg.RX_PWR_N (p : Nat) : Nat := pathBlk p + 0x348
def Reg.RX_AGC_TAB (p n : Nat) : Nat := pathBlk p + 0x380 + 0x4 * n
def Reg.ADC_CAL_CFG (p : Nat) : Nat := pathBlk p + 0x400
def Reg.ADC_STAT (p : Nat) : Nat := pathBlk p + 0x404
def Reg.ADC_EVT (p : Nat) : Nat := pathBlk p + 0x408
def Reg.CAL_TXM0 (p : Nat) : Nat := pathBlk p + 0x500
def Reg.CAL_TXM1 (p : Nat) : Nat := pathBlk p + 0x504
def Reg.CAL_RXM0 (p : Nat) : Nat := pathBlk p + 0x508
def Reg.CAL_RXM1 (p : Nat) : Nat := pathBlk p + 0x50C
def Reg.CAL_PSTAT (p : Nat) : Nat := pathBlk p + 0x510
def Reg.PR_COEF_LO (p n : Nat) : Nat := pathBlk p + 0x1000 + 0x8 * n
def Reg.PR_COEF_HI (p n : Nat) : Nat := pathBlk p + 0x1004 + 0x8 * n
def Reg.PR_GOOD_LO (p n : Nat) : Nat := pathBlk p + 0x1400 + 0x8 * n
def Reg.PR_GOOD_HI (p n : Nat) : Nat := pathBlk p + 0x1404 + 0x8 * n
def Reg.CAN_TAP_LO (p n : Nat) : Nat := pathBlk p + 0x2000 + 0x8 * n
def Reg.CAN_TAP_HI (p n : Nat) : Nat := pathBlk p + 0x2004 + 0x8 * n
def Reg.CAN_GOOD_LO (p n : Nat) : Nat := pathBlk p + 0x2400 + 0x8 * n
def Reg.CAN_GOOD_HI (p n : Nat) : Nat := pathBlk p + 0x2404 + 0x8 * n
def Reg.ROW_TX_CFG (r : Nat) : Nat := rowBlk r + 0x0
def Reg.ROW_TX_STAT (r : Nat) : Nat := rowBlk r + 0x4
def Reg.TDD_TXT (r : Nat) : Nat := rowBlk r + 0x8
def Reg.TDD_RXT (r : Nat) : Nat := rowBlk r + 0xC
def Reg.FE_CFG (r : Nat) : Nat := rowBlk r + 0x10
def Reg.FE_TIME (r : Nat) : Nat := rowBlk r + 0x14
def Reg.FE_QW0 (r : Nat) : Nat := rowBlk r + 0x18
def Reg.FE_QW1 (r : Nat) : Nat := rowBlk r + 0x1C
def Reg.FE_QSTAT (r : Nat) : Nat := rowBlk r + 0x20
def Reg.FE_RDATA (r : Nat) : Nat := rowBlk r + 0x24
def Reg.ORX_CFG (r : Nat) : Nat := rowBlk r + 0x100
def Reg.ORX_STAT (r : Nat) : Nat := rowBlk r + 0x104
def Reg.ORX_ADC_CFG (r : Nat) : Nat := rowBlk r + 0x108
def Reg.ORX_ADC_STAT (r : Nat) : Nat := rowBlk r + 0x10C
def Reg.ORX_ADC_EVT (r : Nat) : Nat := rowBlk r + 0x110
def Reg.MA_CFG (q : Nat) : Nat := parcelBlk q + 0x0
def Reg.MA_STAT (q : Nat) : Nat := parcelBlk q + 0x4
def Reg.MA_SEQ_LO (q : Nat) : Nat := parcelBlk q + 0x8
def Reg.MA_SEQ_HI (q : Nat) : Nat := parcelBlk q + 0xC
def Reg.MA_INJ (q : Nat) : Nat := parcelBlk q + 0x10
def Reg.MA_INJ_RES (q : Nat) : Nat := parcelBlk q + 0x14
def Reg.MA_CAL (q : Nat) : Nat := parcelBlk q + 0x18
def Reg.MA_TAKE (q : Nat) : Nat := parcelBlk q + 0x1C
def Reg.MA_ALARM (q : Nat) : Nat := parcelBlk q + 0x20
def Reg.MA_WIN (q n : Nat) : Nat := parcelBlk q + 0x100 + 0x10 * n
def Reg.MA_RES_SUM (q n : Nat) : Nat := parcelBlk q + 0x104 + 0x10 * n
def Reg.MA_RES_CNT (q n : Nat) : Nat := parcelBlk q + 0x108 + 0x10 * n
def Reg.MA_RES_MM (q n : Nat) : Nat := parcelBlk q + 0x10C + 0x10 * n
def Reg.REC_T_CTRL (t : Nat) : Nat := tileBlk t + 0x100
def Reg.REC_T_STAT (t : Nat) : Nat := tileBlk t + 0x104
def Reg.REC_T_NEXT (t : Nat) : Nat := tileBlk t + 0x108
def Reg.REC_T_MAP (t n : Nat) : Nat := tileBlk t + 0x200 + 0x4 * n
def Reg.REC_T_LIST (t n m : Nat) : Nat := tileBlk t + 0x400 + 0x40 * n + 0x4 * m
def Reg.AX_CTRL (l : Nat) : Nat := linkBlk l + 0x0
def Reg.AX_STATUS (l : Nat) : Nat := linkBlk l + 0x4
def Reg.AX_MAP (l : Nat) : Nat := linkBlk l + 0x8
def Reg.AX_LAT (l : Nat) : Nat := linkBlk l + 0xC
def Reg.AX_LANE (l n : Nat) : Nat := linkBlk l + 0x100 + 0x4 * n
def Reg.CX_PORT (l : Nat) : Nat := linkBlk l + 0x40
def Reg.CX_ASYM (l : Nat) : Nat := linkBlk l + 0x44
def Reg.CX_CFG : Nat := 0x80F0000
def Reg.CX_TSTAT : Nat := 0x80F0004
def Reg.CX_CNT_OFS_LO : Nat := 0x80F0008
def Reg.CX_CNT_OFS_HI : Nat := 0x80F000C

/-- One register of a block: its name, its offset in the block, its array strides and lengths, its reset value (0 where
`resetWord` states it apart), and its fields as masks by access code (R10). -/
structure RegRow where
  name : String
  off : Nat
  strideA : Nat := 4
  countA : Nat := 1
  strideB : Nat := 4
  countB : Nat := 1
  reset : Nat := 0
  ro : Nat := 0
  rw : Nat := 0
  stg : Nat := 0
  w1c : Nat := 0
  rc : Nat := 0
  wo : Nat := 0
  st : Nat := 0
  deriving DecidableEq, Repr

/-- Identity and global block. -/
def glRegs : List RegRow := [
  { name := "ID_DEVICE", off := 0x0, ro := 0xFFFFFFFF },
  { name := "GL_FW_VER", off := 0x4, ro := 0xFFFFFFFF },
  { name := "GL_CHIAST", off := 0x8, reset := 0x100, ro := 0xFFFF },
  { name := "GL_PATH_AVAIL", off := 0x10, strideA := 0x4, countA := 3, ro := 0xFFFFFFFF },
  { name := "GL_ROW_AVAIL", off := 0x1C, ro := 0xFFFFFF },
  { name := "GL_UNIT_AVAIL", off := 0x20, ro := 0xFF0 },
  { name := "GL_PARCEL_AVAIL", off := 0x24, ro := 0xFF },
  { name := "GL_PKG_POS", off := 0x28, reset := 0x110, ro := 0xF1F },
  { name := "GL_STATE", off := 0x100, reset := 0x1, ro := 0xFFFF0F },
  { name := "GL_CMT_NOW", off := 0x104, wo := 0x1 },
  { name := "GL_CMT_STAT", off := 0x108, ro := 0x8F00FFFF, w1c := 0x10000 },
  { name := "GL_CMT_RES", off := 0x10C, ro := 0xFF00FF },
  { name := "GL_CMT_T_LO", off := 0x110, ro := 0xFFFFFFFF },
  { name := "GL_CMT_T_HI", off := 0x114, ro := 0xFFFFFFFF },
  { name := "GL_BOOT", off := 0x120, reset := 0xFF0000, ro := 0xF0FF0F07, st := 0xF0000F00 },
  { name := "SV_CTRL", off := 0x200, reset := 0x4000004, rw := 0xFFFF000F },
  { name := "SV_FAULT_SUM", off := 0x204, ro := 0x80000000, w1c := 0x1FF, st := 0x1FF },
  { name := "SV_FAULT_MASK", off := 0x208, reset := 0x1BF, rw := 0x1FF },
  { name := "SV_LAST", off := 0x20C, ro := 0xFFFFFFFF, st := 0xFFFFFFFF },
  { name := "SV_INJECT", off := 0x210, rw := 0x8FFFFFF, wo := 0x80000000 },
  { name := "SV_STAT", off := 0x214, ro := 0x2, w1c := 0x1 },
  { name := "SV_ROW_CAUSE", off := 0x240, strideA := 0x4, countA := 24, ro := 0x80FFFFFF, st := 0x80FFFFFF },
  { name := "SV_PARCEL_CAUSE", off := 0x2A0, strideA := 0x4, countA := 8, ro := 0x80FFFFFF, st := 0x80FFFFFF },
  { name := "SV_TILE_CAUSE", off := 0x2C0, strideA := 0x4, countA := 4, ro := 0x80FFFFFF, st := 0x80FFFFFF },
  { name := "SV_PATH_CAUSE", off := 0x600, strideA := 0x4, countA := 96, ro := 0x80FFFFFF, st := 0x80FFFFFF },
  { name := "CAL_CFG", off := 0x400, reset := 0x1EBE00, rw := 0xF3FFFFFF },
  { name := "CAL_SCHED", off := 0x404, reset := 0x3E83FFF, rw := 0xFFFF3FFF },
  { name := "CAL_STAT", off := 0x408, ro := 0xFFC0FFFF, w1c := 0x3C0000 },
  { name := "CAL_TRK", off := 0x40C, reset := 0xA32, rw := 0xFFFFFFFF },
  { name := "CAL_NET_W0", off := 0x2000, strideA := 0x8, countA := 384, rw := 0xFFFFFFFF },
  { name := "CAL_NET_W1", off := 0x2004, strideA := 0x8, countA := 384, rw := 0x800FFFFF } ]
/-- Time base. -/
def tbRegs : List RegRow := [
  { name := "TB_CTRL", off := 0x100000, rw := 0xC, wo := 0x3 },
  { name := "TB_STATUS", off := 0x100004, ro := 0xFF0067, w1c := 0x398 },
  { name := "TB_COUNT_LO", off := 0x100008, ro := 0xFFFFFFFF },
  { name := "TB_COUNT_HI", off := 0x10000C, ro := 0xFFFFFFFF },
  { name := "TB_RATE_LO", off := 0x100010, ro := 0xFFFFFFFF },
  { name := "TB_RATE_HI", off := 0x100014, reset := 0xA0, ro := 0xFFFF },
  { name := "TB_RATE_ADJ", off := 0x100018, wo := 0xFFFFFFFF },
  { name := "TB_NOW_NS", off := 0x100020, ro := 0xFFFFFFFF },
  { name := "TB_NOW_FRAC", off := 0x100024, ro := 0xFFFF },
  { name := "TB_NOW_SEC_LO", off := 0x100028, ro := 0xFFFFFFFF },
  { name := "TB_NOW_SEC_HI", off := 0x10002C, ro := 0xFFFF },
  { name := "TB_NOW_EPOCH", off := 0x100030, ro := 0x3FF },
  { name := "TB_STEP_CNT_LO", off := 0x100040, ro := 0xFFFFFFFF, st := 0xFFFFFFFF },
  { name := "TB_STEP_CNT_HI", off := 0x100044, ro := 0xFFFFFFFF, st := 0xFFFFFFFF },
  { name := "TB_STEP_INFO", off := 0x100048, ro := 0xFFFF01FF, st := 0xFFFF00FF },
  { name := "TB_HOLD_CFG", off := 0x100050, reset := 0x103E8, rw := 0x1FFFF },
  { name := "TB_HOLD_SEC", off := 0x100054, ro := 0xFFFFFFFF },
  { name := "TB_LATE_CNT", off := 0x100058, rc := 0xFFFFFFFF },
  { name := "TB_SW_STROBE", off := 0x10005C, wo := 0x1 },
  { name := "TB_PTP_CFG", off := 0x100060, reset := 0x11800, rw := 0x1FF07 },
  { name := "TB_SYNCE_CFG", off := 0x100064, reset := 0x200, rw := 0x317 },
  { name := "TB_PPSOUT_CFG", off := 0x100068, reset := 0x3E800, rw := 0xFFFFF03 },
  { name := "TB_PPSOUT_OFS", off := 0x10006C, rw := 0xFFFFFFFF },
  { name := "TB_PPSIN_NS", off := 0x100070, ro := 0xFFFFFFFF },
  { name := "TB_PPSIN_SEC_LO", off := 0x100074, ro := 0xFFFFFFFF },
  { name := "TB_PPSIN_SEC_HI", off := 0x100078, ro := 0x80FFFFFF },
  { name := "TB_GRID_ORG_SEC_LO", off := 0x100080, reset := 0x12D53D93, rw := 0xFFFFFFFF },
  { name := "TB_GRID_ORG_SEC_HI", off := 0x100084, rw := 0xFFFF },
  { name := "TB_GRID_ORG_NS", off := 0x100088, rw := 0xFFFFFFFF },
  { name := "TB_GRID_NOW", off := 0x10008C, ro := 0x3FF0F07 },
  { name := "TB_ALARM_TGT_LO", off := 0x100090, rw := 0xFFFFFFFF },
  { name := "TB_ALARM_TGT_HI", off := 0x100094, rw := 0xFFFF },
  { name := "TB_ALARM_CTRL", off := 0x100098, rw := 0x1, w1c := 0x6 },
  { name := "TB_PORT_DLY", off := 0x1000A0, strideA := 0x4, countA := 8, rw := 0xFFFFFFFF },
  { name := "TB_TXTS_STAT", off := 0x1000C0, ro := 0xFF },
  { name := "TB_TXTS_W0", off := 0x1000C4, ro := 0xFFFFFFFF },
  { name := "TB_TXTS_W1", off := 0x1000C8, ro := 0xFFFFFFFF },
  { name := "TB_TXTS_W2", off := 0x1000CC, ro := 0xFFFFFFFF },
  { name := "TB_TXTS_W3", off := 0x1000D0, ro := 0xFFFFFFFF },
  { name := "TB_CMP_TGT_LO", off := 0x100100, strideA := 0x10, countA := 64, rw := 0xFFFFFFFF },
  { name := "TB_CMP_TGT_HI", off := 0x100104, strideA := 0x10, countA := 64, rw := 0xFFFF },
  { name := "TB_CMP_PER", off := 0x100108, strideA := 0x10, countA := 64, rw := 0xFFFFFFFF },
  { name := "TB_CMP_CTRL", off := 0x10010C, strideA := 0x10, countA := 64, ro := 0xFF20, rw := 0x1F0001, w1c := 0x1C, wo := 0x2 },
  { name := "TB_TRIG_SEL", off := 0x100800, strideA := 0x4, countA := 14, rw := 0x11F } ]
/-- Fronthaul. -/
def fhRegs : List RegRow := [
  { name := "FH_STATUS", off := 0x200004, ro := 0xFF, w1c := 0x1F00 },
  { name := "FH_PORT_MODE", off := 0x200008, rw := 0x3 },
  { name := "FH_PORT_CFG", off := 0x200010, strideA := 0x4, countA := 8, reset := 0x480000AA, rw := 0xFFFFC0FF },
  { name := "FH_WIN_CLOSE", off := 0x200090, strideA := 0x10, countA := 4, reset := 0x9C40, stg := 0xFFFFF },
  { name := "FH_WIN_DEPTH", off := 0x200094, strideA := 0x10, countA := 4, reset := 0x7530, stg := 0xFFFFF },
  { name := "FH_WIN_CPLEAD", off := 0x200098, strideA := 0x10, countA := 4, reset := 0x2710, stg := 0xFFFFF },
  { name := "FH_WIN_ULCP", off := 0x20009C, strideA := 0x10, countA := 4, reset := 0x2710, stg := 0xFFFFF },
  { name := "FH_WIN_MAX", off := 0x2000D0, reset := 0xFFFFF, ro := 0xFFFFF },
  { name := "FH_BUF_STAT", off := 0x2000D4, ro := 0xFFFF, rc := 0xFFFF0000 },
  { name := "FH_FAIL_CFG", off := 0x2000E0, rw := 0x8000000F },
  { name := "FH_FAIL_LOST", off := 0x2000E4, rc := 0xFFFFFFFF },
  { name := "FH_FAIL_SEQ", off := 0x2000E8, ro := 0xFFFF },
  { name := "FH_UDP_CFG", off := 0x2000F0, rw := 0xFFFF },
  { name := "FH_EAXC_FMT", off := 0x2000F4, reset := 0x4444, rw := 0xFFFF },
  { name := "FH_WAKE_CFG", off := 0x2000F8, reset := 0x88B6, rw := 0x8000FFFF },
  { name := "FH_WAKE_KEY", off := 0x2000FC, rw := 0xFFFFFFFF },
  { name := "FH_VID", off := 0x200100, strideA := 0x4, countA := 16, stg := 0x80003FFF },
  { name := "FH_CC_MAP", off := 0x200140, strideA := 0x4, countA := 16, stg := 0x1B },
  { name := "FH_EAXC_KEY", off := 0x200200, strideA := 0x8, countA := 256, stg := 0xC000FFFF },
  { name := "FH_EAXC_ENT", off := 0x200204, strideA := 0x8, countA := 256, stg := 0xFFFFFFFE },
  { name := "FH_HDR_TPL", off := 0x201000, strideA := 0x40, countA := 8, strideB := 0x4, countB := 16, rw := 0xFFFFFFFF } ]
/-- Symbol engines, TDD patterns and SBFD bands. -/
def seRegs : List RegRow := [
  { name := "SE_CTRL", off := 0x400000, reset := 0x2, rw := 0x3 },
  { name := "SE_STATUS", off := 0x400004, w1c := 0x7 },
  { name := "SE_LOAD_DL", off := 0x400008, ro := 0xF1FFF },
  { name := "SE_LOAD_UL", off := 0x40000C, ro := 0xF1FFF },
  { name := "CAR_CFG", off := 0x400100, strideA := 0x40, countA := 4, reset := 0x10C0110, stg := 0xC38F07FF },
  { name := "CAR_OFS", off := 0x400104, strideA := 0x40, countA := 4, stg := 0x3FFFF },
  { name := "CAR_ADV", off := 0x400108, strideA := 0x40, countA := 4, stg := 0x7FFFFFF },
  { name := "CAR_PROC", off := 0x40010C, strideA := 0x40, countA := 4, reset := 0x80000, stg := 0xF0F0F },
  { name := "CAR_F0", off := 0x400110, strideA := 0x40, countA := 4, stg := 0x3FFFFF },
  { name := "CAR_SRS_PER", off := 0x400114, strideA := 0x40, countA := 4, reset := 0x1, stg := 0x8FFF0FFF },
  { name := "CAR_SRS_SYM", off := 0x400118, strideA := 0x40, countA := 4, stg := 0x3FFF },
  { name := "CAR_STAT", off := 0x40011C, strideA := 0x40, countA := 4, ro := 0xE0070000 },
  { name := "TDD_CFG", off := 0x402000, strideA := 0x4, countA := 4, stg := 0x8000007F },
  { name := "TDD_STAT", off := 0x402010, w1c := 0xFF },
  { name := "TDD_DL", off := 0x402400, strideA := 0x400, countA := 4, strideB := 0x8, countB := 80, stg := 0x3FFF },
  { name := "TDD_UL", off := 0x402404, strideA := 0x400, countA := 4, strideB := 0x8, countB := 80, stg := 0x3FFF },
  { name := "SBFD_BAND", off := 0x403C00, strideA := 0x8, countA := 4, stg := 0x87FF0FFF },
  { name := "SBFD_GUARD", off := 0x403C04, strideA := 0x8, countA := 4, stg := 0xFFF },
  { name := "SBFD_STAT", off := 0x403C20, w1c := 0xF } ]
/-- Trellis. -/
def trRegs : List RegRow := [
  { name := "TR_CTRL", off := 0x600000, reset := 0x2, rw := 0x3 },
  { name := "TR_STATUS", off := 0x600004, ro := 0xF, w1c := 0x1F00 },
  { name := "TR_SCALE", off := 0x600008, stg := 0xF0F },
  { name := "TR_FB_BEAM", off := 0x60000C, stg := 0x80000FFF },
  { name := "TR_WC_CFG", off := 0x600010, reset := 0x210000C8, rw := 0xF30007FF },
  { name := "TR_WC_NOW", off := 0x600014, wo := 0x1 },
  { name := "TR_WS_LOCK", off := 0x600018, ro := 0xFF00, rw := 0x1 },
  { name := "TR_WS_GEN", off := 0x60001C, ro := 0xFFFF },
  { name := "TR_WC_REC", off := 0x600020, ro := 0xCF00FFFF },
  { name := "TR_WC_B_LO", off := 0x600024, ro := 0xFFFFFFFF },
  { name := "TR_WC_B_HI", off := 0x600028, ro := 0xFFFF },
  { name := "TR_NULL_CFG", off := 0x600100, strideA := 0x10, countA := 4, stg := 0xB0003FFF },
  { name := "TR_NULL_RNG", off := 0x600104, strideA := 0x10, countA := 4, stg := 0x7FF0FFF },
  { name := "TR_NULL_VEC", off := 0x600108, strideA := 0x10, countA := 4, stg := 0xFFF0FFF },
  { name := "TR_NULL_VEC2", off := 0x60010C, strideA := 0x10, countA := 4, stg := 0xFFF0FFF } ]
/-- Solver cluster. -/
def solRegs : List RegRow := [
  { name := "SOL_CTRL", off := 0x800000, reset := 0x80000000, rw := 0x80000100 },
  { name := "SOL_STATUS", off := 0x800004, w1c := 0x3F },
  { name := "SOL_CORE_AVAIL", off := 0x800008, reset := 0xFFFFFFFF, ro := 0xFFFFFFFF },
  { name := "SOL_CORE_BUSY", off := 0x80000C, ro := 0xFFFFFFFF },
  { name := "SOL_JOBQ", off := 0x800010, ro := 0x7F007F },
  { name := "SOL_KERNEL_VALID", off := 0x800014, reset := 0xE, ro := 0xFFFFFFFF },
  { name := "SOL_SRS_W0", off := 0x801000, strideA := 0x10, countA := 256, stg := 0xFFFFF000 },
  { name := "SOL_SRS_W1", off := 0x801004, strideA := 0x10, countA := 256, stg := 0xFFFF7FFF },
  { name := "SOL_SRS_W2", off := 0x801008, strideA := 0x10, countA := 256, stg := 0x7FF07FF },
  { name := "SOL_SRS_W3", off := 0x80100C, strideA := 0x10, countA := 256, stg := 0xFFE07FFF },
  { name := "SOL_JOB_W0", off := 0x802000, strideA := 0x40, countA := 64, rw := 0x7FFEFFFF, wo := 0x80000000 },
  { name := "SOL_JOB_W1", off := 0x802004, strideA := 0x40, countA := 64, rw := 0xFFFFFFFF },
  { name := "SOL_JOB_W2", off := 0x802008, strideA := 0x40, countA := 64, rw := 0xF7FF7FFF },
  { name := "SOL_JOB_W3", off := 0x80200C, strideA := 0x40, countA := 64, rw := 0x7FF },
  { name := "SOL_JOB_W4", off := 0x802010, strideA := 0x40, countA := 64, rw := 0xFFFFFFFF },
  { name := "SOL_JOB_W5", off := 0x802014, strideA := 0x40, countA := 64, rw := 0xFFFFFFFF },
  { name := "SOL_JOB_W6", off := 0x802018, strideA := 0x40, countA := 64, rw := 0xFFFFFF },
  { name := "SOL_JOB_W7", off := 0x80201C, strideA := 0x40, countA := 64, ro := 0xF8FFFFFF },
  { name := "SOL_JOB_W8", off := 0x802020, strideA := 0x40, countA := 64, ro := 0xFFFFFFFF },
  { name := "SOL_JOB_W9", off := 0x802024, strideA := 0x40, countA := 64, ro := 0xFFFF },
  { name := "SOL_CORE_STAT", off := 0x803000, strideA := 0x10, countA := 32, ro := 0xF0FF0FFF },
  { name := "SOL_CORE_PC", off := 0x803004, strideA := 0x10, countA := 32, ro := 0x3FFFFFFF } ]
/-- DMA channels and rings. -/
def dmaRegs : List RegRow := [
  { name := "DMA_CTRL", off := 0xC00000, strideA := 0x100, countA := 32, reset := 0x1, rw := 0x1, wo := 0x80000000 },
  { name := "DMA_STAT", off := 0xC00004, strideA := 0x100, countA := 32, ro := 0xF0FF0000, w1c := 0xF },
  { name := "DMA_HADDR_LO", off := 0xC00008, strideA := 0x100, countA := 32, ro := 0xFFFFFFFF },
  { name := "DMA_HADDR_HI", off := 0xC0000C, strideA := 0x100, countA := 32, ro := 0xFFFFFFFF },
  { name := "DMA_DADDR", off := 0xC00010, strideA := 0x100, countA := 32, ro := 0xFFFFFFF },
  { name := "DMA_LEN", off := 0xC00014, strideA := 0x100, countA := 32, ro := 0xFFFFFF },
  { name := "DMA_MODE", off := 0xC00018, strideA := 0x100, countA := 32, ro := 0xFF000000 },
  { name := "DMA_SH_HADDR_LO", off := 0xC00020, strideA := 0x100, countA := 32, rw := 0xFFFFFFFF },
  { name := "DMA_SH_HADDR_HI", off := 0xC00024, strideA := 0x100, countA := 32, rw := 0xFFFFFFFF },
  { name := "DMA_SH_DADDR", off := 0xC00028, strideA := 0x100, countA := 32, rw := 0xFFFFFFF },
  { name := "DMA_SH_LEN", off := 0xC0002C, strideA := 0x100, countA := 32, rw := 0xFFFFFF },
  { name := "DMA_SH_MODE", off := 0xC00030, strideA := 0x100, countA := 32, rw := 0xFF000000 },
  { name := "DMA_SH_COMMIT", off := 0xC00034, strideA := 0x100, countA := 32, wo := 0x1FFFF },
  { name := "DMA_SH_STAT", off := 0xC00038, strideA := 0x100, countA := 32, ro := 0x80FFFFFF, w1c := 0x40000000 },
  { name := "DMA_HO", off := 0xC0003C, strideA := 0x100, countA := 32, ro := 0xFFFFFFFF },
  { name := "RING_BASE_LO", off := 0xC02000, strideA := 0x40, countA := 32, rw := 0xFFFFFFE0 },
  { name := "RING_BASE_HI", off := 0xC02004, strideA := 0x40, countA := 32, rw := 0xFFFFFFFF },
  { name := "RING_CFG", off := 0xC02008, strideA := 0x40, countA := 32, reset := 0x310000, rw := 0x8FFF0FFF },
  { name := "RING_FILT", off := 0xC0200C, strideA := 0x40, countA := 32, rw := 0xFF0E },
  { name := "RING_DB", off := 0xC02010, strideA := 0x40, countA := 32, wo := 0xFFFFFFFF },
  { name := "RING_POS", off := 0xC02014, strideA := 0x40, countA := 32, ro := 0xFFF, st := 0xFFF },
  { name := "RING_STOP", off := 0xC02018, strideA := 0x40, countA := 32, ro := 0x80000FFF, st := 0x80000FFF },
  { name := "RING_STAT", off := 0xC0201C, strideA := 0x40, countA := 32, ro := 0xF000FFFF, w1c := 0x70000 },
  { name := "RING_DONE", off := 0xC02020, strideA := 0x40, countA := 32, ro := 0xFFFFFFFF },
  { name := "DMA_BUSY", off := 0xC03000, ro := 0xFFFFFFFF } ]
/-- Mailboxes. -/
def mbRegs : List RegRow := [
  { name := "MB_H2D_DATA", off := 0xD00000, strideA := 0x100, countA := 8, wo := 0xFFFFFFFF },
  { name := "MB_DB", off := 0xD00004, strideA := 0x100, countA := 8, wo := 0x1 },
  { name := "MB_ACK", off := 0xD00008, strideA := 0x100, countA := 8, ro := 0xFFFFFFFF },
  { name := "MB_H2D_STAT", off := 0xD0000C, strideA := 0x100, countA := 8, reset := 0x100000, ro := 0x1F1F1F },
  { name := "MB_D2H_DATA", off := 0xD00010, strideA := 0x100, countA := 8, rc := 0xFFFFFFFF },
  { name := "MB_D2H_STAT", off := 0xD00014, strideA := 0x100, countA := 8, ro := 0x1F1F },
  { name := "MB_CTRL", off := 0xD00018, strideA := 0x100, countA := 8, reset := 0x1, rw := 0x3, wo := 0x80000000 },
  { name := "MB_EVT", off := 0xD0001C, strideA := 0x100, countA := 8, w1c := 0x1F },
  { name := "MB_LOST", off := 0xD00020, strideA := 0x100, countA := 8, rc := 0xFFFFFFFF } ]
/-- Monitoring and recorders. -/
def monRegs : List RegRow := [
  { name := "MON_SNAP_CTRL", off := 0xE00000, rw := 0x10F, wo := 0x80000000 },
  { name := "MON_SNAP_STAT", off := 0xE00004, reset := 0x10, ro := 0x1F, w1c := 0x300 },
  { name := "MON_SNAP_REL", off := 0xE00008, wo := 0x3 },
  { name := "MON_SNAP_SEQ", off := 0xE0000C, reset := 0x1, ro := 0xFFFFFFFF },
  { name := "MON_EVT", off := 0xE00020, w1c := 0x3F },
  { name := "MON_IRQ_EN", off := 0xE00024, rw := 0x3F },
  { name := "SNAP_B_SEQ", off := 0xE00040, strideA := 0x10, countA := 2, ro := 0xFFFFFFFF },
  { name := "SNAP_B_INFO", off := 0xE00044, strideA := 0x10, countA := 2, ro := 0xFF1F0F00 },
  { name := "SNAP_B_TICK_LO", off := 0xE00048, strideA := 0x10, countA := 2, ro := 0xFFFFFFFF },
  { name := "SNAP_B_TICK_HI", off := 0xE0004C, strideA := 0x10, countA := 2, ro := 0xFFFFFFFF },
  { name := "REC_PKG_CTRL", off := 0xE00100, wo := 0xC0000000 },
  { name := "REC_PKG_STAT", off := 0xE00104, ro := 0xC0007FFF, w1c := 0x20000000, st := 0xC0000000 },
  { name := "REC_PKG_NEXT", off := 0xE00108, reset := 0x1, ro := 0x7FFFFFFF },
  { name := "REC_PAGE", off := 0xE0010C, rw := 0xF },
  { name := "REC_MARK", off := 0xE00110, wo := 0xFFFFFFFF },
  { name := "REC_MAP", off := 0xE00200, strideA := 0x4, countA := 32, rw := 0xFFFFFFFF },
  { name := "REC_LIST", off := 0xE00400, strideA := 0x40, countA := 16, strideB := 0x4, countB := 12, rw := 0x8FFFFFFC } ]
/-- Thermal. -/
def thRegs : List RegRow := [
  { name := "TH_CTRL", off := 0xF00000, reset := 0xC0000001, rw := 0xC0000003 },
  { name := "TH_STAT", off := 0xF00004, ro := 0xFF07, w1c := 0x18 },
  { name := "TH_THR", off := 0xF00008, reset := 0x786E645F, rw := 0xFFFFFFFF, st := 0xFFFFFFFF },
  { name := "TH_BOFF", off := 0xF0000C, reset := 0x1804, rw := 0x3F0F },
  { name := "TH_RESTART", off := 0xF00010, reset := 0xA5A, rw := 0xFFFF, st := 0xFFFF },
  { name := "TH_SHDN", off := 0xF00014, ro := 0xF0FFFFFF, st := 0xF0FFFFFF },
  { name := "TH_SHDN_T_LO", off := 0xF00018, ro := 0xFFFFFFFF, st := 0xFFFFFFFF },
  { name := "TH_SHDN_T_HI", off := 0xF0001C, ro := 0xFFFFFFFF, st := 0xFFFFFFFF },
  { name := "TH_EVT", off := 0xF00020, w1c := 0x3F },
  { name := "TH_IRQ_EN", off := 0xF00024, rw := 0x3F },
  { name := "TH_SENSE", off := 0xF00100, strideA := 0x4, countA := 46, ro := 0xF000FFFF },
  { name := "TH_PARCEL", off := 0xF00200, strideA := 0x4, countA := 8, ro := 0xC0FFFFFF },
  { name := "TH_PMULT", off := 0xF00240, strideA := 0x4, countA := 8, reset := 0x10000, ro := 0x1FFFF } ]
/-- Power. -/
def pwRegs : List RegRow := [
  { name := "PW_CFG", off := 0xF01000, reset := 0x3E80514, rw := 0xFFFFFFFF },
  { name := "PW_WAKE_EN", off := 0xF01004, reset := 0xF3F, rw := 0xF3F },
  { name := "PW_STAT", off := 0xF01008, ro := 0xFFFF0FFF },
  { name := "PW_REFUSE", off := 0xF0100C, ro := 0xFFFF },
  { name := "PW_LAST_WAKE", off := 0xF01010, ro := 0xF03FFFFF, st := 0xF03FFFFF },
  { name := "PW_WAKE_REC", off := 0xF01014, ro := 0xFF0FFFFF, st := 0xFF0FFFFF },
  { name := "PW_RET_FAIL", off := 0xF01018, w1c := 0xFFFFF },
  { name := "PW_DOORBELL", off := 0xF0101C, wo := 0x1 },
  { name := "PW_PAD_STAT", off := 0xF01020, ro := 0xFFFFFF, st := 0xFFFFFF },
  { name := "PW_PAD_REL", off := 0xF01024, wo := 0xFFFFFF },
  { name := "PW_PAD_CFG", off := 0xF01030, strideA := 0x4, countA := 4, reset := 0x20, rw := 0x131 },
  { name := "PW_EVT", off := 0xF01040, w1c := 0xFF },
  { name := "PW_IRQ_EN", off := 0xF01044, rw := 0xFF },
  { name := "PW_BLK_PATH", off := 0xF01050, strideA := 0x4, countA := 3, rw := 0xFFFFFFFF },
  { name := "PW_BLK_LEN", off := 0xF0105C, rw := 0xFFFFF } ]
/-- Common cascade registers. -/
def cxRegs : List RegRow := [
  { name := "CX_CFG", off := 0x80F0000, rw := 0x3 },
  { name := "CX_TSTAT", off := 0x80F0004, ro := 0xC0000000 },
  { name := "CX_CNT_OFS_LO", off := 0x80F0008, ro := 0xFFFFFFFF },
  { name := "CX_CNT_OFS_HI", off := 0x80F000C, ro := 0xFFFFFFFF } ]
/-- Secure window. -/
def celRegs : List RegRow := [
  { name := "CEL_STAT", off := 0x9000000, ro := 0xE000FF00, w1c := 0x7 },
  { name := "CEL_FILL", off := 0x9000004, ro := 0xFFFF003F },
  { name := "CEL_SEQ_LO", off := 0x9000008, ro := 0xFFFFFFFF },
  { name := "CEL_SEQ_HI", off := 0x900000C, ro := 0xFFFFFFFF },
  { name := "CEL_LOGS", off := 0x9000010, ro := 0x1FFF },
  { name := "SEC_STAT", off := 0x9000100, ro := 0x80FFFFFF },
  { name := "SEC_REVOKE", off := 0x9000104, reset := 0x30, ro := 0xFF },
  { name := "SEC_ARB", off := 0x9000114, strideA := 0x4, countA := 4, ro := 0xFFFFFFFF },
  { name := "SEC_KEYHASH", off := 0x9000200, strideA := 0x20, countA := 4, strideB := 0x4, countB := 8, ro := 0xFFFFFFFF },
  { name := "SEC_DBG", off := 0x9000300, ro := 0x80000007 },
  { name := "SEC_BUF_GEN", off := 0x9000304, ro := 0xFFFF } ]
/-- The table of the hub block that a BAR0 offset below the tiles, or above them, lies in (R9). -/
def hubTable (a : Nat) : List RegRow :=
  if 0x0 ≤ a ∧ a < 0x100000 then glRegs else
  if 0x100000 ≤ a ∧ a < 0x200000 then tbRegs else
  if 0x200000 ≤ a ∧ a < 0x400000 then fhRegs else
  if 0x400000 ≤ a ∧ a < 0x600000 then seRegs else
  if 0x600000 ≤ a ∧ a < 0x800000 then trRegs else
  if 0x800000 ≤ a ∧ a < 0xC00000 then solRegs else
  if 0xC00000 ≤ a ∧ a < 0xD00000 then dmaRegs else
  if 0xD00000 ≤ a ∧ a < 0xE00000 then mbRegs else
  if 0xE00000 ≤ a ∧ a < 0xF00000 then monRegs else
  if 0xF00000 ≤ a ∧ a < 0xF01000 then thRegs else
  if 0xF01000 ≤ a ∧ a < 0x1000000 then pwRegs else
  if 0x80F0000 ≤ a ∧ a < 0x8100000 then cxRegs else
  if 0x9000000 ≤ a ∧ a < 0xA000000 then celRegs else
  []
/-- The registers of a path block. -/
def pathRegs : List RegRow := [
  { name := "TX_CTRL", off := 0x0, reset := 0x6, rw := 0xE, stg := 0x1 },
  { name := "TX_STATUS", off := 0x4, reset := 0x7, ro := 0x41F, w1c := 0x200 },
  { name := "TX_NCO_LO", off := 0x8, stg := 0xFFFFFFFF },
  { name := "TX_NCO_HI", off := 0xC, stg := 0xFFFF },
  { name := "TX_NCO_PH", off := 0x10, stg := 0xFFFF },
  { name := "TX_GAIN", off := 0x14, reset := 0x4000, stg := 0xFFFFFFFF },
  { name := "TX_DELAY", off := 0x18, stg := 0xFFFF },
  { name := "TX_CFR", off := 0x1C, reset := 0xE00, stg := 0x80030FFF },
  { name := "TX_DAC", off := 0x20, reset := 0x1, stg := 0x13 },
  { name := "PR_CFG", off := 0x100, reset := 0x1000000, stg := 0x87FFE000 },
  { name := "PR_ADAPT", off := 0x104, reset := 0x408300A, rw := 0x8FFFFFFF },
  { name := "PR_LIMIT", off := 0x108, reset := 0x36508C0A, rw := 0xFFFFFFFF },
  { name := "PR_STAT", off := 0x10C, ro := 0xFC80FFFF, w1c := 0x3000000 },
  { name := "PR_GREF_LO", off := 0x110, rw := 0xFFFFFFFF },
  { name := "PR_GREF_HI", off := 0x114, rw := 0xFFFF },
  { name := "PR_LOOP", off := 0x118, ro := 0x8003FFFF },
  { name := "CAN_CFG", off := 0x200, reset := 0xF080000, stg := 0x9FFF01FF },
  { name := "CAN_ADAPT", off := 0x204, reset := 0x408300A, rw := 0x8FFFFFFF },
  { name := "CAN_STAT", off := 0x208, ro := 0xF080FFFF, w1c := 0x3000000 },
  { name := "CAN_DLY", off := 0x20C, ro := 0x80007FFF },
  { name := "RX_CTRL", off := 0x300, reset := 0x42, rw := 0x7A, stg := 0x1 },
  { name := "RX_STATUS", off := 0x304, ro := 0xD98, w1c := 0x260 },
  { name := "RX_NCO_LO", off := 0x308, stg := 0xFFFFFFFF },
  { name := "RX_NCO_HI", off := 0x30C, stg := 0xFFFF },
  { name := "RX_NCO_PH", off := 0x310, stg := 0xFFFF },
  { name := "RX_GAIN", off := 0x314, reset := 0x4000, stg := 0xFFFFFFFF },
  { name := "RX_DELAY", off := 0x318, stg := 0xFFFF },
  { name := "RX_SHIFT", off := 0x31C, stg := 0x3333 },
  { name := "RX_AGC_CFG", off := 0x320, reset := 0x13189F00, rw := 0xFFFFDF1F },
  { name := "RX_AGC_FE", off := 0x324, reset := 0x50000C8, rw := 0xFFC0FFFF },
  { name := "RX_AGC_FRM", off := 0x328, rw := 0xFFFFFFFF },
  { name := "RX_AGC_STAT", off := 0x32C, ro := 0xC01F1FFF },
  { name := "RX_DET_CFG", off := 0x330, reset := 0x3E82A18, rw := 0xFFFFFFFF },
  { name := "RX_DET_RES", off := 0x334, reset := 0xFFFFFFFF, ro := 0xFFFFFFFF },
  { name := "RX_ENV", off := 0x338, reset := 0xFFFF, ro := 0xFFFF },
  { name := "RX_FAST", off := 0x33C, reset := 0xFF00, rc := 0xFFFF },
  { name := "RX_PWR_LO", off := 0x340, ro := 0xFFFFFFFF },
  { name := "RX_PWR_HI", off := 0x344, ro := 0xFFFFFFFF },
  { name := "RX_PWR_N", off := 0x348, ro := 0xFFFFFFFF },
  { name := "RX_AGC_TAB", off := 0x380, strideA := 0x4, countA := 32, rw := 0xFFFFFFFF },
  { name := "ADC_CAL_CFG", off := 0x400, reset := 0xC064000A, rw := 0xC0FF00FF },
  { name := "ADC_STAT", off := 0x404, reset := 0x800688, ro := 0xFFEC0FFF },
  { name := "ADC_EVT", off := 0x408, w1c := 0x7 },
  { name := "CAL_TXM0", off := 0x500, ro := 0xFFFFFFFF },
  { name := "CAL_TXM1", off := 0x504, ro := 0xE0FFFFFF },
  { name := "CAL_RXM0", off := 0x508, ro := 0xFFFFFFFF },
  { name := "CAL_RXM1", off := 0x50C, ro := 0xE0FFFFFF },
  { name := "CAL_PSTAT", off := 0x510, ro := 0x7F7FFFFF, w1c := 0x80000000 },
  { name := "PR_COEF_LO", off := 0x1000, strideA := 0x8, countA := 64, stg := 0xFFFFFFFF },
  { name := "PR_COEF_HI", off := 0x1004, strideA := 0x8, countA := 64, stg := 0xFFFF },
  { name := "PR_GOOD_LO", off := 0x1400, strideA := 0x8, countA := 64, ro := 0xFFFFFFFF },
  { name := "PR_GOOD_HI", off := 0x1404, strideA := 0x8, countA := 64, ro := 0xFFFF },
  { name := "CAN_TAP_LO", off := 0x2000, strideA := 0x8, countA := 128, stg := 0xFFFFFFFF },
  { name := "CAN_TAP_HI", off := 0x2004, strideA := 0x8, countA := 128, stg := 0xFFFF },
  { name := "CAN_GOOD_LO", off := 0x2400, strideA := 0x8, countA := 128, ro := 0xFFFFFFFF },
  { name := "CAN_GOOD_HI", off := 0x2404, strideA := 0x8, countA := 128, ro := 0xFFFF } ]
/-- The registers of a row block. -/
def rowRegs : List RegRow := [
  { name := "ROW_TX_CFG", off := 0x0, reset := 0xC80001, rw := 0xFFFF0001, stg := 0x2 },
  { name := "ROW_TX_STAT", off := 0x4, ro := 0x1FFFF, w1c := 0xE0000 },
  { name := "TDD_TXT", off := 0x8, reset := 0x12C01F4, stg := 0xFFFFFFFF },
  { name := "TDD_RXT", off := 0xC, reset := 0xC801F4, stg := 0xFFFFFFFF },
  { name := "FE_CFG", off := 0x10, reset := 0x300817, rw := 0xF31F1F },
  { name := "FE_TIME", off := 0x14, reset := 0x1F4, rw := 0xFFFF },
  { name := "FE_QW0", off := 0x18, rw := 0xF0000000 },
  { name := "FE_QW1", off := 0x1C, wo := 0xFFFFFFFF },
  { name := "FE_QSTAT", off := 0x20, ro := 0x17F },
  { name := "FE_RDATA", off := 0x24, rc := 0xFFFFFFFF },
  { name := "ORX_CFG", off := 0x100, reset := 0x8A84000D, rw := 0x9FFF000F },
  { name := "ORX_STAT", off := 0x104, ro := 0xF000FFFF, w1c := 0xC000000 },
  { name := "ORX_ADC_CFG", off := 0x108, reset := 0xC064000A, rw := 0xC0FF00FF },
  { name := "ORX_ADC_STAT", off := 0x10C, reset := 0x800688, ro := 0xFFEC0FFF },
  { name := "ORX_ADC_EVT", off := 0x110, w1c := 0x7 } ]
/-- The registers of a parcel block (monitor ADC). -/
def parcelRegs : List RegRow := [
  { name := "MA_CFG", off := 0x0, reset := 0xC0143C00, rw := 0xF8FFFF0F },
  { name := "MA_STAT", off := 0x4, reset := 0x20000000, ro := 0xF0000000, w1c := 0x7 },
  { name := "MA_SEQ_LO", off := 0x8, rw := 0xFFFFFFFF },
  { name := "MA_SEQ_HI", off := 0xC, rw := 0xFFFFFFFF },
  { name := "MA_INJ", off := 0x10, wo := 0x8000000F },
  { name := "MA_INJ_RES", off := 0x14, ro := 0x4000FFFF, rc := 0x80000000 },
  { name := "MA_CAL", off := 0x18, wo := 0x1 },
  { name := "MA_TAKE", off := 0x1C, wo := 0xFFFF },
  { name := "MA_ALARM", off := 0x20, ro := 0xFFFF0000, w1c := 0xFFFF },
  { name := "MA_WIN", off := 0x100, strideA := 0x10, countA := 16, reset := 0x1FFF0000, rw := 0xFFFF0FFF },
  { name := "MA_RES_SUM", off := 0x104, strideA := 0x10, countA := 16, ro := 0xFFFFFFFF },
  { name := "MA_RES_CNT", off := 0x108, strideA := 0x10, countA := 16, ro := 0xC00FFFFF },
  { name := "MA_RES_MM", off := 0x10C, strideA := 0x10, countA := 16, reset := 0xFFF, ro := 0xFFF0FFF } ]
/-- The registers of a tile-common block (tile recorder). -/
def tileRegs : List RegRow := [
  { name := "REC_T_CTRL", off := 0x100, rw := 0x11FFFF00, wo := 0xE0000000 },
  { name := "REC_T_STAT", off := 0x104, ro := 0x61FF03FF, w1c := 0x18000000, st := 0x21FF0000 },
  { name := "REC_T_NEXT", off := 0x108, reset := 0x1, ro := 0x7FFFFFFF },
  { name := "REC_T_MAP", off := 0x200, strideA := 0x4, countA := 32, rw := 0xFFFFFFFF },
  { name := "REC_T_LIST", off := 0x400, strideA := 0x40, countA := 16, strideB := 0x4, countB := 12, rw := 0x8FFFFFFC } ]
/-- The registers of an Axnen link. -/
def linkRegs : List RegRow := [
  { name := "AX_CTRL", off := 0x0, reset := 0x40406020, rw := 0x40FFFFFF, wo := 0x80000000 },
  { name := "AX_STATUS", off := 0x4, ro := 0xF000003F, w1c := 0xF00 },
  { name := "AX_MAP", off := 0x8, ro := 0xFFFFFF },
  { name := "AX_LAT", off := 0xC, ro := 0x8000FFFF },
  { name := "AX_LANE", off := 0x100, strideA := 0x4, countA := 50, reset := 0xFF0000, ro := 0xFFFFFF00 } ]
/-- The further registers of a cascade port. -/
def cascRegs : List RegRow := [
  { name := "CX_PORT", off := 0x40, ro := 0xFFFF0003 },
  { name := "CX_ASYM", off := 0x44, rw := 0xFFFF } ]

/-- RX_AGC_TAB_n at reset: round(2^10 x 10^(n/20)), R334. -/
def agcTabReset : List Nat := [1024, 1149, 1289, 1446, 1623, 1821, 2043, 2292, 2572, 2886, 3238, 3633, 4077, 4574, 5132, 5758, 6461, 7249, 8134, 9126, 10240, 11489, 12891, 14464, 16229, 18210, 20431, 22925, 25722, 28860, 32382, 36333]


/-! ### Counters: the live offset of each count (families in table order, instances ascending, counts in listed order). -/

/-- R115. -/
def Cnt.fhPortRx (port i : Nat) : Nat := 0x204000 + 4 * (5 * port + i)
def Cnt.fhPortTx (port i : Nat) : Nat := 0x204000 + 4 * (40 + 2 * port + i)
def Cnt.fhClass (port cls i : Nat) : Nat := 0x204000 + 4 * (56 + 2 * (4 * port + cls) + i)
def Cnt.fhEaxc (e i : Nat) : Nat := 0x204000 + 4 * (120 + 14 * e + i)
def Cnt.fhUnmatched (i : Nat) : Nat := 0x204000 + 4 * (3704 + i)
def Cnt.fhFailRecs : Nat := 0x204000 + 4 * 3708
/-- R138. -/
def Cnt.seDlSat (p : Nat) : Nat := 0x404000 + 4 * p
def Cnt.seUlSat (p c : Nat) : Nat := 0x404000 + 4 * (96 + 4 * p + c)
def Cnt.seCarrier (c i : Nat) : Nat := 0x404000 + 4 * (480 + 4 * c + i)
def Cnt.sePrach (k i : Nat) : Nat := 0x404000 + 4 * (496 + 2 * k + i)
/-- R260, carrier family. -/
def Cnt.tddCarrier (c i : Nat) : Nat := 0x403800 + 4 * (2 * c + i)
/-- R167. -/
def Cnt.trDlSat (p : Nat) : Nat := 0x604000 + 4 * p
def Cnt.trUlSat (l : Nat) : Nat := 0x604000 + 4 * (96 + l)
def Cnt.trResolution (c i : Nat) : Nat := 0x604000 + 4 * (128 + 4 * c + i)
def Cnt.trPoisoned (dir : Nat) : Nat := 0x604000 + 4 * (144 + dir)
def Cnt.trCommit (i : Nat) : Nat := 0x604000 + 4 * (146 + i)
def Cnt.trCascade : Nat := 0x604000 + 4 * 152
/-- R192. -/
def Cnt.solSrs (c i : Nat) : Nat := 0x804000 + 4 * (3 * c + i)
def Cnt.solJob (j i : Nat) : Nat := 0x804000 + 4 * (12 + 4 * j + i)
def Cnt.solItemFail (reason : Nat) : Nat := 0x804000 + 4 * (268 + (reason - 1))
def Cnt.solCore (n i : Nat) : Nat := 0x804000 + 4 * (276 + 3 * n + i)
def Cnt.solKernel : Nat := 0x804000 + 4 * 372
/-- R356. -/
def Cnt.cal (i : Nat) : Nat := 0x800 + 4 * i
/-- R412, hub families. -/
def Cnt.svHubChk (chk i : Nat) : Nat := 0xC00 + 4 * (2 * (chk - 1) + i)
def Cnt.svEngine (p i : Nat) : Nat := 0xC00 + 4 * (16 + 3 * p + i)
def Cnt.svDecl (i : Nat) : Nat := 0xC00 + 4 * (304 + i)
/-- R476. -/
def Cnt.dma (ch i : Nat) : Nat := 0xC04000 + 4 * (10 * ch + i)
/-- R446. -/
def Cnt.chiast (m i : Nat) : Nat := 0xD04000 + 4 * (8 * m + i)
/-- R513. -/
def Cnt.monSnap (i : Nat) : Nat := 0xE04000 + 4 * i
def Cnt.monPkgRec (i : Nat) : Nat := 0xE04000 + 4 * (4 + i)
def Cnt.monTileRec (t i : Nat) : Nat := 0xE04000 + 4 * (8 + 6 * t + i)
def Cnt.monAdc (q i : Nat) : Nat := 0xE04000 + 4 * (32 + 9 * q + i)
def Cnt.monDelivery : Nat := 0xE04000 + 4 * 104
/-- R385. Link `l`: tile links 0-3, cascade ports 0-1 as 4-5. -/
def Cnt.axLink (l i : Nat) : Nat := 0x80E0000 + 4 * (9 * l + i)
def Cnt.axLane (l lane i : Nat) : Nat :=
  0x80E0000 + 4 * (54 + 3 * ((if l < 4 then 51 * l else 204 + 34 * (l - 4)) + lane) + i)
def Cnt.axRecords (k i : Nat) : Nat := 0x80E0000 + 4 * (54 + 816 + 4 * k + i)
/-- R534. -/
def Cnt.thSensor (n i : Nat) : Nat := 0xF04000 + 4 * (3 * n + i)
def Cnt.thParcel (q i : Nat) : Nat := 0xF04000 + 4 * (138 + 2 * q + i)
def Cnt.thPackage (i : Nat) : Nat := 0xF04000 + 4 * (154 + i)
/-- R562. -/
def Cnt.pwTile (t i : Nat) : Nat := 0xF04800 + 4 * (6 * t + i)
def Cnt.pwPackage (i : Nat) : Nat := 0xF04800 + 4 * (24 + i)
def Cnt.pwWake (src : Nat) : Nat := 0xF04800 + 4 * (32 + (src - 1))
def Cnt.pwBlank (i : Nat) : Nat := 0xF04800 + 4 * (38 + i)
/-- R260, tile families: path transmit (6), path mute time (5: fault, forced, not enabled, range change, blanked), row (7). -/
def Cnt.txPath (p i : Nat) : Nat := tileBlk (p / 24) + 0x10000 + 4 * (6 * (p % 24) + i)
def Cnt.txMuteTime (p i : Nat) : Nat := tileBlk (p / 24) + 0x10000 + 4 * (144 + 5 * (p % 24) + i)
def Cnt.txRow (r i : Nat) : Nat := tileBlk (r / 6) + 0x10000 + 4 * (264 + 7 * (r % 6) + i)
/-- R298. -/
def Cnt.prPath (p i : Nat) : Nat := tileBlk (p / 24) + 0x11000 + 4 * (8 * (p % 24) + i)
def Cnt.canPath (p i : Nat) : Nat := tileBlk (p / 24) + 0x11000 + 4 * (192 + 7 * (p % 24) + i)
def Cnt.orxRow (r i : Nat) : Nat := tileBlk (r / 6) + 0x11000 + 4 * (360 + 6 * (r % 6) + i)
/-- R333. -/
def Cnt.rxPath (p i : Nat) : Nat := tileBlk (p / 24) + 0x12000 + 4 * (8 * (p % 24) + i)
def Cnt.rxAgc (p i : Nat) : Nat := tileBlk (p / 24) + 0x12000 + 4 * (192 + 5 * (p % 24) + i)
def Cnt.rxAdc (p i : Nat) : Nat := tileBlk (p / 24) + 0x12000 + 4 * (312 + 7 * (p % 24) + i)
def Cnt.orxAdc (r i : Nat) : Nat := tileBlk (r / 6) + 0x12000 + 4 * (480 + 7 * (r % 6) + i)
/-- R412, tile families: failures at check points 0x13 to 0x19, and at 0x20 of an ORX. -/
def Cnt.svPath (p chk : Nat) : Nat := tileBlk (p / 24) + 0x13000 + 4 * (7 * (p % 24) + (chk - 0x13))
def Cnt.svOrx (r : Nat) : Nat := tileBlk (r / 6) + 0x13000 + 4 * (168 + r % 6)

/-- The counter areas that lie in the hub: live base and number of counters (R494). -/
def hubCounterAreas : List (Nat × Nat) :=
  [(0x204000, 3709), (0x404000, 512), (0x403800, 8), (0x604000, 153), (0x804000, 373), (0x800, 8), (0xC00, 311),
   (0xC04000, 320), (0xD04000, 64), (0xE04000, 105), (0x80E0000, 878), (0xF04000, 158), (0xF04800, 40)]

/-- The counter areas of a tile-common block: offset and number of counters (R494). -/
def tileCounterAreas : List (Nat × Nat) := [(0x10000, 306), (0x11000, 396), (0x12000, 522), (0x13000, 174)]

/-! ### Finding the register of an offset -/

/-- The instance of a row that an offset names, if it names one. -/
def RegRow.hit (r : RegRow) (off : Nat) : Option (Nat × Nat) :=
  if off < r.off then none
  else
    let d := off - r.off
    if r.countB = 1 then
      if d % r.strideA = 0 ∧ d / r.strideA < r.countA then some (d / r.strideA, 0) else none
    else
      let m := d % r.strideA
      if m % r.strideB = 0 ∧ d / r.strideA < r.countA ∧ m / r.strideB < r.countB then
        some (d / r.strideA, m / r.strideB) else none

/-- The first row of a table that an offset names, with the instance. -/
def findReg : List RegRow → Nat → Option (RegRow × Nat × Nat)
  | [], _ => none
  | r :: rs, off => match r.hit off with
    | some (i, j) => some (r, i, j)
    | none => findReg rs off

/-- The block an offset lies in: the unit that owns it and the offset inside the block (R9, R17, R386). -/
inductive Place where
  | hub
  | path (p : Nat)
  | row (r : Nat)
  | parcel (q : Nat)
  | tile (t : Nat)
  | link (l : Nat)
  | none
  deriving DecidableEq, Repr

/-- Where a BAR0 offset lies, R9, R17 and R386, with the offset inside that block. -/
def placeOf (a : Nat) : Place × Nat :=
  if a < 0x01000000 then (.hub, a)
  else if a < 0x05000000 then
    let t := a / 0x01000000 - 1
    let o := a % 0x01000000
    if o < 0x180000 then (.path (24 * t + o / 0x10000), o % 0x10000)
    else if 0xF00000 ≤ o ∧ o < 0xF06000 then (.row (6 * t + (o - 0xF00000) / 0x1000), o % 0x1000)
    else if 0xF80000 ≤ o ∧ o < 0xF82000 then (.parcel (2 * t + (o - 0xF80000) / 0x1000), o % 0x1000)
    else if 0xFC0000 ≤ o then (.tile t, o - 0xFC0000)
    else (.none, 0)
  else if 0x08000000 ≤ a ∧ a < 0x08040000 then (.link ((a - 0x08000000) / 0x10000), a % 0x10000)
  else if 0x08080000 ≤ a ∧ a < 0x080A0000 then (.link (4 + (a - 0x08080000) / 0x10000), a % 0x10000)
  else if a < 0x0A000000 then (.hub, a)
  else (.none, 0)

/-- The register row and instance that a live BAR0 offset names. -/
def regAt (a : Nat) : Option (RegRow × Nat × Nat) :=
  match placeOf a with
  | (.hub, o) => findReg (hubTable o) o
  | (.path _, o) => findReg pathRegs o
  | (.row _, o) => findReg rowRegs o
  | (.parcel _, o) => findReg parcelRegs o
  | (.tile _, o) => findReg tileRegs o
  | (.link l, o) =>
      match findReg linkRegs o with
      | some (r, i, j) => if r.name = "AX_LANE" ∧ 34 ≤ i ∧ 4 ≤ l then none else some (r, i, j)
      | none => if 4 ≤ l then findReg cascRegs o else none
  | (.none, _) => none

/-- The live offset that a staged-view offset stands for (R12; R116, R139, R168, R193, R261, R263, R265, R299, R303,
R334): the block's staged view, or `none` for an offset of no staged view. -/
def stagedToLive (a : Nat) : Option Nat :=
  if 0x300000 ≤ a ∧ a < 0x304000 then some (a - 0x100000)
  else if 0x500000 ≤ a ∧ a < 0x504000 then some (a - 0x100000)
  else if 0x700000 ≤ a ∧ a < 0x704000 then some (a - 0x100000)
  else if 0xA00000 ≤ a ∧ a < 0xA04000 then some (a - 0x200000)
  else match placeOf a with
    | (.path _, o) => if 0x8000 ≤ o then some (a - 0x8000) else none
    | (.row _, o) => if 0x800 ≤ o then some (a - 0x800) else none
    | _ => none

/-- Whether a live offset is a counter (R494). -/
def isCounter (a : Nat) : Bool :=
  a % 4 == 0 &&
  (hubCounterAreas.any (fun x => decide (x.1 ≤ a ∧ a < x.1 + 4 * x.2)) ||
   match placeOf a with
   | (.tile _, o) => tileCounterAreas.any (fun x => decide (x.1 ≤ o ∧ o < x.1 + 4 * x.2))
   | _ => false)

end Sys2Proof.Machine
end

