-- ==== Sys2Proof/Machine/Sparse.lean ====
section
/-!
DEFINITION. A table from natural numbers to values as a list in one canonical form: keys strictly rising, and no entry equal
to what an unlisted key reads as (`d`, an argument of every operation). Registers, stores and the records of the units all
use it; a `Sparse (BitVec 8)` is a list of `Host.Cell`.
-/
namespace Sys2Proof.Machine

/-- A table in canonical form: sorted by key, no repeats, no default entries (`Sparse.wf`). -/
abbrev Sparse (α : Type) := List (Nat × α)

/-- The value at a key; `d` gives what an unlisted key reads as. -/
def Sparse.get {α : Type} (d : Nat → α) : Sparse α → Nat → α
  | [], k => d k
  | (j, v) :: t, k => if k = j then v else if k < j then d k else Sparse.get d t k

/-- Remove a key. -/
def Sparse.del {α : Type} : Sparse α → Nat → Sparse α
  | [], _ => []
  | (j, v) :: t, k => if k = j then t else if k < j then (j, v) :: t else (j, v) :: Sparse.del t k

/-- Enter a value at a key, replacing any there. -/
def Sparse.ins {α : Type} : Sparse α → Nat → α → Sparse α
  | [], k, x => [(k, x)]
  | (j, v) :: t, k, x => if k = j then (k, x) :: t else if k < j then (k, x) :: (j, v) :: t else (j, v) :: Sparse.ins t k x

/-- Write a value at a key, keeping the canonical form: writing what an unlisted key reads as removes the entry. -/
def Sparse.set {α : Type} [DecidableEq α] (d : Nat → α) (m : Sparse α) (k : Nat) (x : α) : Sparse α :=
  if x = d k then Sparse.del m k else Sparse.ins m k x

/-- Keys strictly rising from a bound on. -/
def Sparse.sorted {α : Type} : Nat → Sparse α → Bool
  | _, [] => true
  | lo, (j, _) :: t => decide (lo ≤ j) && Sparse.sorted (j + 1) t

/-- The canonical form holds. -/
def Sparse.wf {α : Type} [DecidableEq α] (d : Nat → α) (m : Sparse α) : Bool :=
  Sparse.sorted 0 m && m.all (fun e => decide (e.2 ≠ d e.1))

/-- Keep the entries whose key satisfies a test (the others read as unlisted). -/
def Sparse.keep {α : Type} (p : Nat → Bool) (m : Sparse α) : Sparse α := m.filter (fun e => p e.1)

end Sys2Proof.Machine
end

