-- ==== Sys2Proof/Machine/Part.lean ====
section
/-!
DEFINITION. The three parts of the family (R1, R4), what each has (R2, R16, R20), and what every register reads as at reset.
-/
namespace Sys2Proof.Machine

/-- The part, R1. -/
inductive Part where
  | el9600
  | el9672
  | el9648
  deriving DecidableEq, Repr

/-- Number of RF tiles, R1. -/
def Part.tiles : Part → Nat
  | .el9600 => 4
  | .el9672 => 3
  | .el9648 => 2

def Part.paths (p : Part) : Nat := 24 * p.tiles
def Part.rows (p : Part) : Nat := 6 * p.tiles
def Part.parcels (p : Part) : Nat := 2 * p.tiles

/-- Number of cascade ports, R1. -/
def Part.casc : Part → Nat
  | .el9600 => 2
  | .el9672 => 1
  | .el9648 => 0

/-- Whether Axnen link `l` (tile links 0-3, cascade ports as 4-5) is present, R360. -/
def Part.hasLink (p : Part) (l : Nat) : Bool :=
  if l < 4 then decide (l < p.tiles) else decide (l - 4 < p.casc)

/-- Whether the unit of a block is present, R2. -/
def Part.has (pt : Part) : Place → Bool
  | .hub => true
  | .path p => decide (p < pt.paths)
  | .row r => decide (r < pt.rows)
  | .parcel q => decide (q < pt.parcels)
  | .tile t => decide (t < pt.tiles)
  | .link l => pt.hasLink l
  | .none => false

/-- The neighbourhood of a path in ascending path number, R20, R267. -/
def neighbours (p : Nat) : List Nat :=
  (if p % 4 = 0 ∧ p % 24 ≠ 0 then [p - 1] else []) ++ ((List.range 4).map (4 * (p / 4) + ·)).filter (· ≠ p) ++
  (if p % 4 = 3 ∧ p % 24 ≠ 23 then [p + 1] else [])

/-- Reset values that differ by part (R4, R35-R38, R563), by comparator (R81) or by array index (R299, R334, R387). -/
def resetSpecial (pt : Part) (a : Nat) : Option Nat :=
  match placeOf a with
  | (.hub, o) =>
    if o = 0 then some (match pt with | .el9600 => 0x9600F9B0 | .el9672 => 0x967275B0 | .el9648 => 0x964831B0)
    else if o = 0x10 then some 0xFFFFFFFF
    else if o = 0x14 then some (match pt with | .el9648 => 0x0000FFFF | _ => 0xFFFFFFFF)
    else if o = 0x18 then some (match pt with | .el9600 => 0xFFFFFFFF | .el9672 => 0xFF | .el9648 => 0)
    else if o = 0x1C then some (match pt with | .el9600 => 0xFFFFFF | .el9672 => 0x3FFFF | .el9648 => 0xFFF)
    else if o = 0x20 then some (match pt with | .el9600 => 0xF0 | .el9672 => 0x70 | .el9648 => 0x30)
    else if o = 0x24 then some (match pt with | .el9600 => 0xFF | .el9672 => 0x3F | .el9648 => 0x0F)
    else if o = 0xF01008 then some (match pt with | .el9600 => 0x0FFF0000 | .el9672 => 0x07FF0600 | .el9648 => 0x03FF06C0)
    else if 0x10010C ≤ o ∧ o < 0x10050C ∧ (o - 0x10010C) % 0x10 = 0 then
      some (if (o - 0x10010C) / 0x10 < 32 then 0x001F0020 else 0x001F0000)
    else none
  | (.path _, o) =>
    if o = 0x1004 ∨ o = 0x1404 then some 0x1000
    else if 0x380 ≤ o ∧ o < 0x400 ∧ o % 4 = 0 then some (agcTabReset.getD ((o - 0x380) / 4) 0)
    else none
  | (.link l, o) => if o = 8 then some (if l < 4 then 0x00303100 else 0x0020FF00) else none
  | _ => none

/-- What a register or counter reads as at reset (R11, R495): 0 for a counter, for an offset of no register and for an
absent unit (R2, R9). -/
def resetWord (pt : Part) (a : Nat) : Word :=
  if pt.has (placeOf a).1 then
    match resetSpecial pt a with
    | some v => toW v
    | none => match regAt a with
      | some (r, _, _) => toW r.reset
      | none => 0
  else 0

end Sys2Proof.Machine
end

