-- ==== Sys2Proof/Machine/State.lean ====
section
/-!
DEFINITION. The state of the block as plain data: every register of the spec in the register stores, and every piece of
state the spec gives the block beside its registers. `State.reset` is the block right after reset. Fault and Refusal are the
reasons for which a step can stop.
-/
namespace Sys2Proof.Machine

/-- Reasons for which the block stops. -/
inductive Fault where
  /-- No command of this model raises it: the spec gives the block no condition in which it stops for good (safe). -/
  | stopped
  deriving DecidableEq, Repr

/-- Reasons for which the model gives a command no meaning. -/
inductive Refusal where
  /-- Raised by an arm of `exec` for a command that has no meaning in this model yet (safe: nothing is claimed of it). -/
  | notModelled (mnemonic : String)
  deriving DecidableEq, Repr

/-! ### Commands in progress -/

/-- A Chiast command that replied ACCEPTED and has not sent its final notice (R430, R434): its mailbox, its tag, its opcode
and what it works on (a slot, a job, a comparator, a unit; 0 where it needs none). -/
structure CmdRef where
  mb : Nat
  tag : Nat
  op : Nat
  key : Nat := 0
  deriving DecidableEq, Repr

/-! ### Time base -/

/-- A comparator beside its registers: the target (short time) and period it was armed with (R81), and the scheduled
command it serves (R55). Its `arm` bit is in TB_CMP_CTRL. -/
structure CmpSt where
  target : Nat := 0
  period : Nat := 0
  ref : Option CmdRef := none
  deriving DecidableEq, Repr

/-- A line that has fired in the hub and whose hub action has not taken place yet (R60): the line, the tick its action takes
effect on, whether it is late (R57), the commands that ordered it, and whether it is a system order (R500). -/
structure Due where
  line : Nat
  target : Nat
  late : Bool
  refs : List CmdRef := []
  sys : Bool := false
  deriving DecidableEq, Repr

/-- A trigger message in flight to a tile (R31). -/
structure TrigMsg where
  tile : Nat
  line : Nat
  target : Nat
  late : Bool
  deriving DecidableEq, Repr

/-- An accepted step of local time that has not taken effect yet (R50): the reply it owes and the step. -/
structure PendStep where
  ref : CmdRef
  quiet : Bool
  relative : Bool
  ns : Int
  deriving DecidableEq, Repr

/-- The time base beside its registers. Times are in units of 2^-40 ns from the PTP epoch (R42). -/
structure TbSt where
  baseTime : Nat := 0
  baseCount : Nat := 0
  /-- The rate word in force before the base count (R42, R43): a rate change is received one tick before it applies. -/
  prevRate : Nat := 0x00A000000000
  /-- The tick of the last jump of local time (R50): power-on, a step, or the loss of local time. -/
  stepTick : Nat := 0
  cmps : Sparse CmpSt := []
  alarmTarget : Nat := 0
  dues : List Due := []
  msgs : List TrigMsg := []
  /-- Lines fired ahead of a known event (R61): the line and the event (its source's boundary). -/
  ahead : List (Nat × Int) := []
  /-- By line: the last tick for which it has fired, so that sources that fire it for one tick give one action (R60). -/
  lastFire : List (Nat × Nat) := []
  /-- By source code: the last boundary generated, in grid units (or seconds for PPS_OUT), so that it is not generated twice. -/
  lastSrc : List (Nat × Int) := []
  pendStep : Option PendStep := none
  /-- Tile actions that are due (R31, R60): line (2, 9, 10 or 11), tile, target tick and late. -/
  tileDues : List (Nat × Nat × Nat × Bool) := []
  /-- Last PPS_IN edge: tick, time and epoch, and whether it is new since the last read (R71). -/
  ppsTick : Nat := 0
  ppsTime : Nat := 0
  ppsEpoch : Nat := 0
  ppsNew : Bool := false
  /-- A read of TB_PPSIN_NS has frozen the other capture registers (R71). -/
  ppsFrozen : Bool := false
  ppsOut : Bool := false
  ppsRise : Nat := 0
  synceOut : Bool := false
  holdTick : Nat := 0
  holdSecs : Nat := 0
  syncTick : Nat := 0
  /-- Transmit timestamps waiting to be read: four words each, oldest first (R67). -/
  txts : List (List Word) := []
  /-- The halves captured by reads of _LO registers (R13): offset of the _HI register and the captured value. -/
  hiCap : List (Nat × Word) := []
  /-- The last values written to _LO registers whose _HI half has not been written (R13). -/
  loLatch : List (Nat × Word) := []
  /-- PTP tick alignment of each tile's counter (R30): bit t set when tile t counts with the hub. -/
  aligned : List Nat := []
  /-- Device states that the members of the system have reported to the lead (R380): package and state. -/
  peers : List (Nat × Nat) := []
  /-- The availability of the paths of the other packages, as last told (R180): package and mask. -/
  peerAvail : List (Nat × Nat) := []
  /-- The last package of the chain is an EL9672 (R18), as the chain's length came with it. -/
  lastSmall : Bool := false
  /-- By carrier: the last TDD switch delivered, as its tick (R31, R249). -/
  tddLast : Sparse Nat := []
  deriving DecidableEq, Repr

/-! ### Host control -/

/-- A packet to the host (R428, R430): its words, its tag, whether it is a notice, and whether it is final. -/
structure OutPkt where
  words : List Word
  tag : Nat
  notice : Bool := false
  final : Bool := false
  deriving DecidableEq, Repr

/-- A mailbox beside its registers (R422-R425, R434, R445). -/
structure Mbox where
  /-- Host-to-device words not yet acknowledged, oldest first; the first `published` are visible to device firmware. -/
  h2d : List Word := []
  published : Nat := 0
  /-- Tick of the last doorbell (R423). -/
  dbTick : Nat := 0
  /-- Device-to-host packets, oldest first; `popped` words of the first have been read. -/
  d2h : List OutPkt := []
  popped : Nat := 0
  /-- A reply that waits for room (R434). -/
  reply : Option OutPkt := none
  /-- Notices that wait for room, oldest first (R434). -/
  waiting : List OutPkt := []
  /-- Notices discarded since the last NOTICE_LOST (R434, R445). -/
  lostNew : Nat := 0
  evMask : Nat := 0
  deriving DecidableEq, Repr

/-- A captured staged view that awaits its commit tick (R441). -/
structure Capture where
  staged : Sparse Word
  target : Nat
  late : Bool
  refs : List CmdRef
  /-- The eAxC entries written since the capture before (R112). -/
  ents : List Nat := []
  deriving DecidableEq, Repr

/-- Host control beside the registers. -/
structure HostSt where
  mboxes : Sparse Mbox := []
  accepted : List CmdRef := []
  /-- Commands that a hub restart ended and whose ABORTED notice is still owed (R426). -/
  aborted : List CmdRef := []
  /-- Final notices decided when their commands were accepted, sent when the work ends: status and result words. -/
  plans : List (CmdRef × Nat × List Word) := []
  /-- Consecutive commands taken while a lower-priority mailbox waited (R432), and the priority last taken. -/
  passRun : Nat := 0
  lastPri : Nat := 0
  /-- Commit slot i, 0-7, and the command that holds it (R443). -/
  slots : List (Nat × CmdRef) := []
  /-- Captured staged views that await their commit ticks (R441), oldest first. -/
  captures : List Capture := []
  /-- SPI port in peripheral mode (R420), the bytes of its load stream (R603), and chip-select state of a write. -/
  spiPeriph : Bool := false
  spiStream : List Byte := []
  /-- The command that consumes the load stream (R603): its reference and length, and its own parameters. -/
  spiJob : Option (CmdRef × Nat × List Nat) := none
  /-- A SYS_RESTART whose restart is due: its command and the tick of its reply (R444). -/
  restart : Option (CmdRef × Nat) := none
  /-- The data of the last read completion returned to the host: the model's own view of what a read answers. -/
  readData : Word := 0
  /-- The words that the last SPI transaction returned: the model's own view (R420). -/
  spiOut : List Word := []
  /-- A command whose reply is sent when its work is done, during which no other is taken: its reference and quiet flag. -/
  busy : Option (CmdRef × Bool) := none
  /-- PERST_N is low: the PCIe function is down (R595). -/
  perst : Bool := false
  /-- MSI-X vectors signalled to the host, oldest first (R418). -/
  irqs : List Nat := []
  deriving DecidableEq, Repr

/-! ### Recorders and snapshots -/

/-- An event recorder beside its registers (R501-R509): slot number to the sixteen words of its record, the retired slots, the
records still to come before a freeze, and a memory test in progress. -/
structure RecSt where
  slots : Sparse (List Word) := []
  retired : List Nat := []
  post : Option Nat := none
  testing : Bool := false
  deriving DecidableEq, Repr

/-! ### Transmit path and rows -/

/-- The transmit values of a path that a load strobe applies together (R246): tx_en, NCO word, phase, TX_GAIN, TX_DELAY,
TX_CFR, TX_DAC. -/
structure TxVals where
  en : Bool := false
  nco : Nat := 0
  ph : Nat := 0
  gain : Nat := 0x4000
  delay : Nat := 0
  cfr : Nat := 0xE00
  dac : Nat := 1
  deriving DecidableEq, Repr

/-- A path's transmit state beside its registers (R243-R254). -/
structure TxSt where
  /-- The pending latch, filled by a configuration commit (R246). -/
  pend : Option TxVals := none
  /-- The values in force at the output. -/
  app : TxVals := {}
  /-- The mute reasons that hold (R248): fault, forced, not enabled, range change. -/
  mFault : Bool := false
  mForced : Bool := false
  mNotEn : Bool := true
  mRange : Bool := false
  /-- Tick of the strobe that began a range change (R245). -/
  rangeTick : Nat := 0
  /-- Tick up to which muted and blanked time has been counted (R248, R254). -/
  muteTick : Nat := 0
  blankTick : Nat := 0
  /-- Pads TXEN and RXEN (R251, R258). -/
  txen : Bool := false
  rxen : Bool := false
  /-- RXEN is held low until this tick (R252). -/
  rxHold : Nat := 0
  /-- The receive demand as last followed (R252). -/
  rxDem : Bool := false
  /-- Tick of the last fall of RXEN (R311). -/
  rxFall : Nat := 0
  /-- Last tick at which the output was cut: TXEN fell, a mute began or blank idle was entered (R277). -/
  broken : Nat := 0
  /-- A blanking window of line 9 is open until this tick (R541). -/
  blankEnd : Option Nat := none
  /-- The row's pads were latched; the DAC resumes at a load strobe after their release (R548). -/
  latched : Bool := false
  /-- The DAC leaves blank idle (R254). -/
  leaving : Bool := false
  /-- Tick of the strobe that last changed the values (R346). -/
  setTick : Nat := 0
  deriving DecidableEq, Repr

/-- An entry of a front-end queue (R256): the frame, its controls, the time of its trigger once it has occurred, and the
FE_READ command it serves. -/
structure FeEntry where
  frame : Word
  trig : Nat
  read : Bool
  verify : Bool
  trigTick : Option Nat := none
  ref : Option CmdRef := none
  /-- The tick of the push: the entry waits for the first trigger after it (R256). -/
  pushed : Nat := 0
  /-- The path and attenuation of an AGC frame (R330). -/
  agc : Option (Nat × Nat) := none
  deriving DecidableEq, Repr

/-- A row's state beside its registers (R246, R255-R258). -/
structure RowSt where
  /-- Load strobes that are due: target tick and late, in order of ticks (R246, R247). -/
  strobes : List (Nat × Bool) := []
  /-- Releases of front-end writes that are due (line 7), in order of ticks. -/
  releases : List Nat := []
  queue : List FeEntry := []
  active : Option FeEntry := none
  /-- Start of the frame on the bus, and the earliest tick of the next one (R255). -/
  actStart : Nat := 0
  idleFrom : Nat := 0
  rdValid : Bool := false
  verifyRun : Nat := 0
  padRun : Nat := 0
  /-- FE_CFG has been written since power-on (R258). -/
  feDriven : Bool := false
  csN : Bool := true
  /-- FE_SDIO while latched: 0 low, 1 high, 2 not driven (R547). -/
  sdio : Nat := 2
  feClk : Bool := false
  /-- AGC frames waiting for the bus, by path (R330). -/
  agcWait : List (Nat × FeEntry) := []
  deriving DecidableEq, Repr

/-- The old values that a carrier's TDD pattern keeps until a change takes effect (R253): the time from which the new values
hold, and the old registers. -/
structure TddOld where
  until_ : Nat
  regs : Sparse Word
  deriving DecidableEq, Repr

/-! ### The Cellar -/

/-- A record or set that the block has ordered and device firmware has not yet written whole to the Cellar (R53, R509, R527, R567,
R573): its type, instance and payload words, whether it is a set, the chunk to be written next, the sequence number of its
first record, and the command it serves. -/
structure CelOrder where
  kind : Nat
  payload : List Word
  inst : Nat := 0
  set : Bool := false
  chunk : Nat := 0
  seq : Nat := 0
  ref : Option CmdRef := none
  deriving DecidableEq, Repr

/-- A record of the Cellar (R566): its segment and its place there in units of 16 bytes, and its fields. -/
structure CelRec where
  seg : Nat
  off : Nat
  kind : Nat
  inst : Nat
  n : Nat
  seq : Nat
  last : Bool := false
  copied : Bool := false
  chunk : Nat := 0
  payload : List Word
  deriving DecidableEq, Repr

/-- The Cellar and the security engine beside their registers (R565-R587). -/
structure CelSt where
  /-- Valid records, in the order written. -/
  recs : List CelRec := []
  /-- Segments in use, oldest first, with how many 16-byte units of each are filled. -/
  segs : List (Nat × Nat) := [(0, 1)]
  /-- Read-backs that have failed in a row (R567). -/
  fails : Nat := 0
  /-- The segment that racking empties, and the command that ordered it (R570). -/
  rack : Option Nat := none
  rackRef : Option CmdRef := none
  /-- SEC_BUF, R587, and the command whose report fills it. -/
  buf : List Byte := []
  attest : Option (CmdRef × List Word) := none
  /-- The debug challenge in force (R586). -/
  challenge : Option (List Word) := none
  /-- The flash banks (R581): what each holds as an image. -/
  bankA : List Byte := []
  bankB : List Byte := []
  /-- Headers of the images in use: the running firmware, the installed calibration image, kernels by number. -/
  running : List Byte := []
  calImage : List Byte := []
  kernels : Sparse (List Byte) := []
  /-- A firmware image held in MGMT memory (R604). -/
  held : List Byte := []
  deriving DecidableEq, Repr


/-! ### Carriers -/

/-- The registers of a carrier that switch together at a slot boundary: CAR_CFG, CAR_OFS, CAR_ADV and CAR_F0 (R135). -/
structure CarVals where
  cfg : Word
  ofs : Word
  adv : Word
  f0 : Word
  deriving DecidableEq, Repr

/-- A switch of a carrier that awaits its boundary (R135, R630): the boundary as a time, and the new values. -/
structure CarSwitch where
  time : Nat
  vals : CarVals
  deriving DecidableEq, Repr

/-- A carrier beside its registers: switches pending, oldest first (R630); changes of CAR_PROC and of the SRS registers that
await their boundaries, oldest first; the values that the last of each has replaced, with the time up to which they held; and the end of its
reconfiguration slot (R135). -/
structure CarSt where
  switches : List CarSwitch := []
  old : Option CarSwitch := none
  proc : List (Nat × Word) := []
  procOld : Option (Nat × Word) := none
  srs : List (Nat × Word × Word) := []
  srsOld : Option (Nat × Word × Word) := none
  reconfEnd : Option Nat := none
  deriving DecidableEq, Repr

/-! ### Receive path -/

/-- The receive values of a path that a load strobe applies together (R326). -/
structure RxVals where
  en : Bool := false
  nco : Nat := 0
  ph : Nat := 0
  gain : Nat := 0x4000
  delay : Nat := 0
  shift : Nat := 0
  deriving DecidableEq, Repr

/-- A path's receive state beside its registers. -/
structure RxSt where
  pend : Option RxVals := none
  app : RxVals := {}
  /-- Tick of the strobe that last changed the values (R346). -/
  setTick : Nat := 0
  deriving DecidableEq, Repr

/-! ### Power states -/

/-- An entry to IDLE, RETAIN or DEEP in progress (R542): the scope (a tile, or 4 for the package), the target state code of
PW_STAT (1 IDLE, 2 RETAIN; 2 DEEP for the package), when phase 1 began, since when a block delays, and the command it serves. -/
structure PwEntry where
  scope : Nat
  target : Nat
  start : Nat
  delayFrom : Option Nat := none
  ref : Option CmdRef := none
  late : Bool := false
  sys : Bool := false
  /-- The tile was in IDLE when the entry to RETAIN began. -/
  idle : Bool := false
  /-- The ready time of PW_DEEP (R559), in short time. -/
  ready : Option Nat := none
  deriving DecidableEq, Repr

/-- A wake in progress (R553-R558): the scope, the step now running, when it and the wake began, whether the step has been
retried, the source and every source seen, and the command it serves. -/
structure PwWake where
  scope : Nat
  step : Nat
  stepStart : Nat
  start : Nat
  retried : Bool := false
  source : Nat
  seen : Nat
  late : Bool := false
  /-- The time by which a scheduled wake must be done (R559). -/
  dueBy : Option Nat := none
  ref : Option CmdRef := none
  deriving DecidableEq, Repr

/-- A change of tiles that is ordered and not begun (R559). -/
structure PwPend where
  tile : Nat
  target : Nat
  time : Option Nat
  /-- The short time at which the change starts (R559). -/
  begin_ : Nat
  ref : CmdRef
  deriving DecidableEq, Repr

/-- The power controller beside its registers. -/
structure PwSt where
  entries : List PwEntry := []
  wakes : List PwWake := []
  pends : List PwPend := []
  /-- Entries ordered whose phase 1 has not begun: the entry to start. -/
  orders : List PwEntry := []
  /-- Rows whose pads were latched by a shutdown (R548), as a mask. -/
  shdnLatch : Nat := 0
  /-- Power-enable and power-good pins: bit 0 hub, bit 1 + t tile t (R555). -/
  pen : Nat := 0
  ppg : Nat := 0
  /-- State code of each tile at entry to DEEP (R558). -/
  deepTiles : List Nat := []
  refclkLost : Bool := false
  /-- Reports of the packages in a system entry (R546): package and PW_REFUSE (0 for ready). -/
  reports : List (Nat × Nat) := []
  /-- A system entry whose GO has come (R546). -/
  sysGo : Bool := false
  deriving DecidableEq, Repr
/-! ### Press predistortion, leakage cancellers and observation receivers -/

/-- A complex word: its components and whether it is poisoned (R143, R389). -/
structure Cx where
  i : Int
  q : Int
  bad : Bool := false
  deriving DecidableEq, Repr

/-- The normal equations of a least-squares fit over captures (R280, R290): matrix, right side, and the divisor they share. -/
structure Fit where
  a : List (List Cx) := []
  b : List Cx := []
  m : Nat := 1
  deriving DecidableEq, Repr

/-- The identity set of Press coefficients as LO, HI words of the 64 slots (R271, R272). -/
def identityCoefs : List Word := [0, 0x1000] ++ List.replicate 126 0

/-- A path's Press loop beside its registers (R273, R279-R284). -/
structure PrSt where
  /-- The committed pending latch: PR_CFG and the coefficient words (R273). -/
  pend : Option (Word × List Word) := none
  /-- The adapted pending latch. -/
  adapted : Option (List Word) := none
  /-- The configuration and coefficients in force. -/
  cfg : Word := 0x01000000
  coefs : List Word := identityCoefs
  /-- Whether the adapted latch holds a revert to the last-good set, and whether the set in force is adapted. -/
  reverting : Bool := false
  adaptedLive : Bool := false
  /-- Valid captures collected toward the next update, and the tick of the last set taken (R280). -/
  caps : Nat := 0
  lastSet : Nat := 0
  /-- The path whose pending update is being computed. -/
  ready : Bool := false
  /-- Halvings of mu (R284). -/
  halvings : Nat := 0
  /-- NMSE before the last applied update, whether that update still awaits its judgement, and consecutive rises (R282). -/
  before : Option Int := none
  judge : Bool := false
  rises : Nat := 0
  /-- Consecutive captures above the divergence limit (R282). -/
  badCaps : Nat := 0
  /-- Captures of the current set and whether all were good; consecutive good sets (R283). -/
  setCaps : Nat := 0
  setGood : Bool := true
  goodSets : Nat := 0
  divTicks : List Nat := []
  /-- The tick at which the pause after a revert ends (R284). -/
  holdEnd : Option Nat := none
  /-- The gain reference G (R279). -/
  gref : Int × Int := (0, 0)
  /-- The fit over the captures collected (R280), the streams of the last capture (the path's and its neighbours'), and the last
  measured response of the ORX to x, in units of 2^-20 (R351). -/
  fit : Fit := {}
  cap : List (List Cx) := []
  resp : Option (Int × Int) := none
  /-- Neighbours whose coupled and leakage terms enter as zero (R269), as a mask of paths in force since a strobe. -/
  zeroed : List Nat := []
  deriving DecidableEq, Repr

/-- A receive path's leakage canceller beside its registers (R288-R294). -/
structure CanSt where
  pend : Option (Word × List Word) := none
  /-- The fit over the captures collected (R290). -/
  fit : Fit := {}
  adapted : Option (List Word) := none
  cfg : Word := 0x0F080000
  taps : List Word := []
  reverting : Bool := false
  caps : Nat := 0
  lastSet : Nat := 0
  ready : Bool := false
  zeroNext : Bool := false
  best : Int := 0
  goodCanc : Int := 0
  setCaps : Nat := 0
  setGood : Bool := true
  goodSets : Nat := 0
  lowRun : Nat := 0
  dropRun : Nat := 0
  divTicks : List Nat := []
  holdEnd : Option Nat := none
  deriving DecidableEq, Repr

/-- A capture that an ORX is taking (R276): its kind (0 Press, 1 SBFD, 2 calibration, 3 host), the observed or victim path, its
first tick, its length in samples and whether it is to be discarded. -/
structure OrxCap where
  kind : Nat
  path : Nat
  start : Nat
  len : Nat
  /-- The path whose coupler the ORX takes. -/
  obs : Nat
  discard : Bool := false
  deriving DecidableEq, Repr

/-- A host capture ordered by ORX_CAPTURE (R278): its command, position, length exponent, ring and time. -/
structure HostCap where
  ref : CmdRef
  pos : Nat
  log2 : Nat
  ring : Nat
  time : Option Nat
  deriving DecidableEq, Repr

/-- A row's observation receiver beside its registers (R275-R278). -/
structure OrxSt where
  cap : Option OrxCap := none
  host : Option HostCap := none
  /-- Press and SBFD captures started in the running round of shares (R278). -/
  pressRun : Nat := 0
  sbfdRun : Nat := 0
  nextPress : Nat := 0
  nextSbfd : Nat := 0
  nextObs : Nat := 0
  posTick : Nat := 0
  deriving DecidableEq, Repr

/-! ### ADCs and gain control -/

/-- An ADC beside its registers (R307-R316). Sets are listed by slice and position (key 4 * slice + position) as their terms:
offset in 1/16 LSB, gain in 2^-16, skew in 25 fs, and the three filter taps. -/
structure AdcSt where
  sets : Sparse (List Int) := []
  /-- Tick at which shadowing began, and from which the timeout of R312 runs. -/
  shadow : Nat := 0
  timeoutFrom : Nat := 0
  estimates : Nat := 0
  last : List Int := []
  /-- Tick at which the spare converged. -/
  converged : Option Nat := none
  /-- A handover as soon as converged, ignoring cal_sync (ADC_CAL action 2). -/
  handNow : Bool := false
  /-- The foreground calibration running: its start and command. -/
  foreground : Option (Nat × Option CmdRef) := some (0, none)
  /-- The slice under retest, and its command (R316). -/
  retest : Option (Nat × CmdRef) := none
  /-- Ticks at which the path last entered and left overload (R318). -/
  ovlTick : Nat := 0
  ovlEnd : Nat := 0
  deriving DecidableEq, Repr

/-- A path's gain control beside its registers (R328-R331). -/
structure AgcSt where
  /-- Configuration in force since the last AGC boundary: mode and att_man (R328). -/
  mode : Nat := 0
  /-- The path entered overload in the running interval (R329). -/
  overload : Bool := false
  /-- Tick from which the running interval counts. -/
  start : Nat := 0
  /-- Compensations ordered: the tick they apply on and the attenuation (R331). -/
  comp : List (Nat × Nat) := []
  /-- Start of the running detector window (R320). -/
  window : Nat := 0
  deriving DecidableEq, Repr

/-! ### Selvedge -/

/-- A repair self-test (R405): the unit kind and number, its command, the tick it began and the cause it was begun with. -/
structure SelfTest where
  kind : Nat
  unit : Nat
  ref : CmdRef
  start : Nat
  /-- A fault of the unit was declared during the test (R401). -/
  spoiled : Bool := false
  deriving DecidableEq, Repr

/-- An injection in progress (R410): check point, unit, words left, mode and the command it serves. -/
structure Injection where
  chk : Nat
  unit : Nat
  left : Nat
  mode : Nat
  ref : Option CmdRef
  deriving DecidableEq, Repr

/-- Fault handling beside its registers. A check point of a unit has the key 256 * check point + unit. -/
structure SvSt where
  /-- Units that took their cause from a parcel or tile fault (R401): kind, unit, and the kind and unit of the parent. -/
  took : List (Nat × Nat × Nat × Nat) := []
  /-- Consecutive intervals with a failure, by check point (R398). -/
  runs : Sparse Nat := []
  /-- Failures of the last second (R398): tick, check point and count, oldest first. -/
  recent : List (Nat × Nat × Nat) := []
  /-- Number of the last check interval judged, in whole microseconds of local time. -/
  interval : Nat := 0
  tests : List SelfTest := []
  /-- Failures that an injection has caused since the last check interval, by check point and unit: failures, poisoned words. -/
  acc : Sparse (Nat × Nat) := []
  inject : Option Injection := none
  /-- Tiles that a tile fault has lost and that have not been repowered since (R22). -/
  dead : List Nat := []
  deriving DecidableEq, Repr

/-! ### Array calibration -/

/-- A measurement of a path in an occasion (R346, R347): its gain as an RMS magnitude in units of 2^-24, its delay in 1/16 ps, its
phase in 2^-16 turn, and the lowest group SNR in dB. -/
structure CalMeas where
  gain : Nat
  delay : Int
  phase : Int
  snr : Nat
  word : Nat
  deriving DecidableEq, Repr

/-- The new alignment of an antenna that a cycle found (R348): TX_GAIN, TX_DELAY, RX_GAIN and RX_DELAY, where they change. -/
structure CalRes where
  ant : Nat
  tx : Option (Nat × Nat) := none
  rx : Option (Nat × Nat) := none
  deriving DecidableEq, Repr

/-- Array calibration beside its registers. Directions: 0 transmit, 1 receive; a measurement has the key 512 * direction + antenna. -/
structure CalSt where
  /-- A cycle has been requested and starts at the next eligible occasion (R345, R351, R353). -/
  request : Bool := false
  /-- Number of the last scheduled start since the grid origin (R345). -/
  lastStart : Int := -1
  /-- The slot of the carrier in which the last occasion was taken (R342), and the tick it ended. -/
  lastSlot : Option Int := none
  lastTick : Nat := 0
  meas : Sparse (Option CalMeas) := []
  /-- Discards of each measurement in this cycle, and those that are still to be repeated. -/
  strikes : Sparse Nat := []
  redo : List (Nat × Nat) := []
  /-- Paths whose ORX response a transmit occasion has stored, with the response (R351). -/
  stored : Sparse (Option (Int × Int)) := []
  /-- Alignment registers written in the staged view since the last configuration commit (R350), by live offset. -/
  touched : List Nat := []
  /-- The results of the last cycle that CAL_APPLY stages (R350). -/
  results : List CalRes := []
  deriving DecidableEq, Repr

/-! ### DMA and rings -/

/-- The receive timestamp of a frame (R66, R455): its port and class, whether timestamping was on, the time
(in units of 2^-40 ns) and the epoch. -/
structure RxStamp where
  port : Nat
  cls : Nat
  tsOk : Bool
  time : Nat
  epoch : Nat
  deriving DecidableEq, Repr

/-- An item that waits for a host-bound ring (R466, R467): the producer's code and detail, its length and its bytes where the
model holds them, the stamp of a received frame, how many bytes have been written, and the command it serves. -/
structure DevItem where
  code : Nat
  detail : Nat
  len : Nat
  data : List Byte := []
  stamp : Option RxStamp := none
  moved : Nat := 0
  ref : Option CmdRef := none
  /-- The snapshot bank whose copy the item carries (R510). -/
  bank : Option Nat := none
  deriving DecidableEq, Repr

/-- A command that consumes a LOAD ring (R463): the bytes it needs, those it has, and its own parameters. -/
structure LoadJob where
  ref : CmdRef
  need : Nat
  got : List Byte := []
  args : List Nat := []
  deriving DecidableEq, Repr

/-- A descriptor in progress (R453, R459): its index and words, whether a doorbell has arrived since it was fetched, the bytes it
has moved and the bytes read for it and not yet taken. -/
structure Desc where
  idx : Nat
  words : List Word
  db : Bool := false
  moved : Nat := 0
  data : List Byte := []
  /-- The function of its ring and its host address when it was fetched. -/
  func : Nat := 0
  addr : Nat := 0
  /-- A write of the command that consumes the ring was refused (R456). -/
  refused : Bool := false
  deriving DecidableEq, Repr

/-- A ring beside its registers (R458-R463). -/
structure RingSt where
  desc : Option Desc := none
  /-- The next descriptor may be fetched: the ring runs. `reread`: the engine re-reads W0 of last_idx. -/
  reread : Bool := false
  /-- The running item has begun, and one of its descriptors has failed (R457). -/
  inItem : Bool := false
  failed : Bool := false
  /-- Bytes of the running FRAME_TX item. -/
  frame : List Byte := []
  items : List DevItem := []
  load : Option LoadJob := none
  /-- A descriptor has been processed since the ring was enabled (R458). -/
  begun : Bool := false
  deriving DecidableEq, Repr

/-- A write of the device to host memory: the address and the bytes. -/
structure HostWrite where
  addr : Nat
  bytes : List Byte
  deriving DecidableEq, Repr

/-- The DMA engine beside its registers. -/
structure DmaSt where
  rings : Sparse RingSt := []
  /-- Channels whose direct transfer has passed its half point (R472). -/
  half : List Nat := []
  out : List HostWrite := []
  /-- By channel: bytes moved (R476). -/
  moved : Sparse Nat := []
  /-- The arbiter (R473): by channel, the beats granted to what it moves now, and the beats granted in a row to higher priorities while it
  waited; and the channel of the last beat. -/
  granted : Sparse Nat := []
  passed : Sparse Nat := []
  last : Nat := 31
  deriving DecidableEq, Repr


/-! ### Trellis -/

/-- A weight-store commit that is deferred (R156): the commands that ordered it, its deferrals, and its last evaluation's tick. -/
structure TrDefer where
  refs : List CmdRef
  defers : Nat
  at_ : Nat
  deriving DecidableEq, Repr

/-- An executed commit between T and R (R157): the switch boundary and the retirement as times, the ws_mode of the new store, the
mode of the old one, and whether B has passed. -/
structure TrExec where
  b : Nat
  r : Nat
  mode : Bool
  oldMode : Bool
  switched : Bool := false
  deriving DecidableEq, Repr

/-- The Trellis values that take effect together at a slot boundary (R160): TR_SCALE, TR_FB_BEAM, and for each carrier
TR_NULL_CFG, TR_NULL_RNG, TR_NULL_VEC and TR_NULL_VEC2. -/
structure TrVals where
  scale : Word := 0
  fb : Word := 0
  nulls : List Word := List.replicate 16 0
  deriving DecidableEq, Repr

/-- The Trellis beside its registers. -/
structure TrSt where
  /-- The BAR2 stores, byte by byte: the channel store, the two weight stores and the two beam tables with their valid maps, at the
  addresses that `barPhys` gives; what is unlisted reads 0. -/
  mem : List Host.Cell := []
  /-- The last values written to the low halves of 64-bit slots, not yet taken by a write of the high half (R155). -/
  lows : Sparse (Option Word) := []
  defer : Option TrDefer := none
  exec : Option TrExec := none
  /-- The tick and answer of the last finished evaluation (R60: one evaluation on a tick). -/
  lastEval : Option (Nat × Nat × List Word) := none
  /-- While the carry-forward copy runs: what has been written in the idle copies since R (R159). -/
  dirty : List Nat := []
  /-- Versions of the staged values, each with the time from which symbols use it (R160), oldest first, and the version now
  applied. -/
  vers : List (Nat × TrVals) := [(0, {})]
  appliedAt : Nat := 0
  /-- Jobs that hold the solver writer lock (R156, R182). -/
  solverLock : List Nat := []
  /-- Writer locks that the other packages have forwarded to the lead (R165): package and locks; and on a member the locks last
  forwarded. -/
  peerLocks : List (Nat × Nat) := []
  sentLocks : Nat := 0
  deriving DecidableEq, Repr

/-! ### The solver cluster -/

/-- A D register or data-memory slot of a solver core (R197, R198, R221): the 48-bit word, the residues of I and Q (the same in real
view) and the view (true real). -/
structure DWord where
  v : Nat := 0
  ri : Nat := 0
  rq : Nat := 0
  real : Bool := false
  deriving DecidableEq, Repr

/-- An accumulator: two signed 96-bit components with their residues. -/
structure AccW where
  i : Int := 0
  q : Int := 0
  ri : Nat := 0
  rq : Nat := 0
  deriving DecidableEq, Repr

/-- An active loop (R213): passes left, first and last bundle, and whether it rotates. -/
structure LoopLevel where
  left : Nat
  first : Nat
  last : Nat
  rot : Bool
  deriving DecidableEq, Repr

/-- What the M slot of a bundle has computed and the bundle has not written yet (R205): the D register (physical), accumulators, a
flag and SR. -/
structure MWrites where
  d : Option (Nat × DWord) := none
  accs : List (Nat × AccW) := []
  flag : Option (Nat × Bool) := none
  sr : Option Nat := none
  deriving DecidableEq, Repr

/-- An outstanding SGET (R218): store, source, count, tag, and the address with the base and length of its binding. -/
structure SGetD where
  store : Nat
  src : Nat
  count : Nat
  tag : Nat
  addr : Nat
  base : Nat
  len : Nat
  deriving DecidableEq, Repr

/-- An outstanding SPUT (R219): its job and subband, its vector slot, and the words read, each a 48-bit word with its tag. -/
structure SPutD where
  job : Nat
  sub : Nat := 0
  slot : Nat
  words : List (Nat × Nat)
  deriving DecidableEq, Repr

/-- A work item on a core (R225): its job, its subband, whether it is reissued, its start, E of its parameter block (R226), and whether
a poisoned word of its input has been read (R185). -/
structure WorkItem where
  job : Nat
  sub : Nat
  reissued : Bool
  start : Nat
  els : Nat := 96
  tainted : Bool := false
  deriving DecidableEq, Repr

/-- A solver core beside its registers (R197, R198). -/
structure CoreSt where
  item : Option WorkItem := none
  d : List DWord := List.replicate 32 {}
  acc : List AccW := List.replicate 4 {}
  a : List Nat := List.replicate 8 0
  cbBase : List Nat := List.replicate 4 0
  cbLen : List Nat := List.replicate 4 0
  /-- Bindings: 0 unbound, else the buffer number plus 1. -/
  binds : List Nat := List.replicate 8 0
  sr : Nat := 0
  flags : List Bool := List.replicate 4 false
  rrb : Nat := 0
  /-- Active loops, innermost first. -/
  loops : List LoopLevel := []
  pc : Nat := 0
  mem : Sparse DWord := []
  /-- The M slot of the running bundle, once it has issued. -/
  mw : Option MWrites := none
  gets : List SGetD := []
  puts : List SPutD := []
  /-- Cycles busy. -/
  busy : Nat := 0
  deriving DecidableEq, Repr

/-- A job beside its job-slot words (R178-R185). -/
structure JobSt where
  ref : Option CmdRef := none
  relTick : Nat := 0
  started : Bool := false
  /-- Subbands not begun, and those finished. -/
  todo : List Nat := []
  fin : List Nat := []
  /-- Subbands whose core failed once (R184). -/
  second : List Nat := []
  /-- Subbands of other packages whose slices have not all arrived (R189): subband, slices seen (input, package). -/
  remote : List (Nat × List (Nat × Nat)) := []
  /-- The availability mask of antennas (R180). -/
  mask : Nat := 0
  /-- Inputs that failed at the start, with their reasons (R187): they stand when the job restarts its items (R182). -/
  early : List (Nat × Nat) := []
  deriving DecidableEq, Repr

/-- A loaded kernel (R229): its entry bundle and code range. -/
structure Kernel where
  entry : Nat
  first : Nat
  last : Nat
  deriving DecidableEq, Repr

/-- The solver cluster beside its registers. -/
structure SolSt where
  cores : Sparse CoreSt := []
  jobs : Sparse JobSt := []
  kernels : Sparse (Option Kernel) := []
  /-- Program memory, the same in every core (R198, R229): bundle address to its 64 bits; none where the spec gives no code. -/
  prog : Sparse (Option Nat) := []
  /-- ueIds that extension 14 named in the latest type-5 section of a ueId (R186): ueId and the list. -/
  ext14 : List (Nat × List Nat) := []
  /-- Extension 8 factors by ueId. -/
  ext8 : List (Nat × Nat) := []
  deriving DecidableEq, Repr

/-! ### Fronthaul and symbol engines -/

/-- The fields of a section that its failure records name (R110). -/
structure SecHdr where
  port : Nat
  eaxc : Nat
  sectionId : Nat
  frameId : Nat
  subframeId : Nat
  slotId : Nat
  symbolId : Nat
  startPrb : Nat
  numPrb : Nat
  deriving DecidableEq, Repr

/-- An accepted C-plane section of the section table (R88, R102): its eAxC entry, direction and type, its carrier and slot (slots from
the grid origin, with the numerology and prefix it was read under), its symbols, its PRBs of the carrier, what it names, its
compression, and the air time of its first symbol. -/
structure Sec where
  hdr : SecHdr
  entry : Nat
  dl : Bool
  typ : Nat
  car : Nat
  mu : Nat
  ext : Bool
  slot : Int
  sym : Nat
  numSym : Nat
  prbs : List Nat
  beam : Nat
  ue : Nat
  comp : Nat × Nat
  air : Nat
  layer : Nat := 0
  /-- filterIndex, repeated at egress (R107). -/
  filt : Nat := 0
  /-- Its modulation compression parameters (R95, R97). -/
  mods : List ModComp := []
  deriving DecidableEq, Repr

/-- An accepted downlink U-plane section in the fronthaul buffer: its PRBs with twelve words each (R97), and whether its C-plane window
has been judged (R102). Words received over the cascade (R163) have the entry 256 + layer. -/
structure USec where
  hdr : SecHdr
  entry : Nat
  car : Nat
  slot : Int
  sym : Nat
  air : Nat
  data : List (Nat × List Cx)
  judged : Bool := false
  /-- The width of method-4 data, and its PRBs that still hold raw values because no C-plane section has given their scaling (R97). -/
  width : Nat := 0
  raw : List Nat := []
  /-- The numerology and prefix it was read under (R136). -/
  mu : Nat := 0
  ext : Bool := false
  deriving DecidableEq, Repr

/-- Receive windows of a carrier as registers held them from a commit on (R104): the commit's time, close, depth, cp_lead and
ul_cp_close. -/
structure WinVer where
  from_ : Nat
  close : Nat
  depth : Nat
  cpLead : Nat
  ulCp : Nat
  deriving DecidableEq, Repr

/-- Uplink layer words awaiting egress (R107): the entry, the C-plane section that covered them, symbol and end of the symbol, and the
words by PRB. -/
structure UlSec where
  sec : Sec
  sym : Nat
  endAir : Nat
  data : List (Nat × List Cx)
  deriving DecidableEq, Repr

/-- Uplink words of this package that await the partial of the next package (R164): the PRBs still missing, and since when. -/
structure Held where
  ul : UlSec
  missing : List Nat
  from_ : Nat
  deriving DecidableEq, Repr

/-- A frame that waits in a port's class queue (R90): the port and class, the tick it was queued on, its bytes with the FCS, and for
class 0 its eAxC entry and section, with the time by which the section's first byte must leave (R106). -/
structure EgrFrame where
  port : Nat
  cls : Nat
  at_ : Nat
  bytes : List Byte
  sec : Option (Nat × SecHdr) := none
  bound : Option Nat := none
  deriving DecidableEq, Repr

/-- An eCPRI message of a class-0 frame that is to be judged (R91): the port, its arrival time (R66), its place in the frame, the
ecpriPayload of its header and the bytes present. -/
structure FhIn where
  port : Nat
  time : Nat
  index : Nat
  size : Nat
  payload : List Byte
  deriving DecidableEq, Repr

/-- A PRACH occasion accepted on a stream (R133): its section, start and end as times, its repetitions, and the beam latched at its
start (R158). -/
structure PrachOcc where
  sec : Sec
  start : Nat
  stop : Nat
  reps : Nat
  seqLen : Nat
  /-- fftSize (log2), the spacing in Hz and frequencyOffset (R132). -/
  fft : Nat
  scs : Nat
  freqOffset : Int
  latched : Option (List Cx) := none
  deriving DecidableEq, Repr

/-- Fronthaul and engines beside their registers. -/
structure FhSt where
  /-- Expected ecpriSeqid by 2 * entry + plane (R91), and the next egress sequence ID by eAxC entry (R107). -/
  seqs : Sparse Nat := []
  egrSeq : Sparse Nat := []
  /-- Egress ports moved after a port failure, by entry (R112): the port plus 1. -/
  moved : Sparse Nat := []
  /-- Entries rewritten in the staged view since the last capture (R112). -/
  rewrote : List Nat := []
  secs : List Sec := []
  data : List USec := []
  /-- Failure records that wait for their ring (R109). -/
  waiting : List (List Word) := []
  /-- Earlier window values of each carrier (R104), oldest first; the last are the live registers'. -/
  wins : Sparse (List WinVer) := []
  /-- The air time of the last downlink and uplink symbol formed of each carrier, plus 1. -/
  lastDl : Sparse Nat := []
  lastUl : Sparse Nat := []
  /-- By path: the antenna words of the last downlink symbol formed (R144), in order of resource elements. -/
  dlWords : Sparse (List Cx) := []
  /-- By layer: the layer words of the last uplink symbol formed (R145). -/
  ulWords : Sparse (List Cx) := []
  ul : List UlSec := []
  held : List Held := []
  /-- Partials of the next package that came before this package had formed its own words (R164): the fields of the run header, the
  words by PRB, and when they came. -/
  early : List (Nat × List (Nat × List Cx) × Nat) := []
  /-- Sections that the lead forwards to the members, oldest first (R163). -/
  fwd : List Sec := []
  /-- Messages of class-0 frames that have arrived and are not judged, oldest first (R91, R100). -/
  inbox : List FhIn := []
  /-- By 4 * port + class: the level of the ingress policer in 1/8 bit, and the tick it held on (R89). -/
  police : Sparse (Nat × Nat) := []
  /-- Frames waiting at egress, in the order queued (R90), and by port the end of the frame on the wire, in 1/500 tick. -/
  egress : List EgrFrame := []
  portFree : Sparse Nat := []
  /-- Frames sent, by port and class, with their FCS, in the order sent: the model's own view of the wire. -/
  frames : List (Nat × Nat × List Byte) := []
  prach : Sparse (List PrachOcc) := []
  /-- Duplicate key pairs that are live (R119): the two entries. -/
  dups : List (Nat × Nat) := []
  deriving DecidableEq, Repr

/-! ### Axnen links -/

/-- One block of a cascade record (R371): the exponent, twelve mantissa pairs, and the block residue. -/
structure CascBlock where
  e : Nat
  ms : List (Int × Int)
  res : Nat
  deriving DecidableEq, Repr

/-- A record of the cascade stream (R370): its kind, the 53 bits [59:7] of its run header, and its blocks; a kind-5 record holds its
messages as words. -/
structure CascRec where
  kind : Nat
  hdr : Nat
  blocks : List CascBlock := []
  words : List Word := []
  deriving DecidableEq, Repr

/-- A message that a link has sent and that is not acknowledged (R366): its number, type, type-specific bits and payload, how often and
when it was sent last. -/
structure AxMsg where
  seq : Nat
  typ : Nat
  spec : Nat := 0
  payload : List Word := []
  sends : Nat := 1
  sent : Nat
  deriving DecidableEq, Repr

/-- A swap of a lane that is requested (R375): the logical lane, the physical lane it leaves, the spare, the time of the switch stripe,
whether the lane failed (else it is rotated), and the command that ordered it. -/
structure LaneSwap where
  logical : Nat
  lane : Nat
  spare : Nat
  at_ : Nat
  failed : Bool
  acked : Bool := false
  ref : Option CmdRef := none
  deriving DecidableEq, Repr

/-- A link beside its registers: links 0-3 are the tile links, 4 and 5 the cascade ports. -/
structure LinkSt where
  /-- The next sequence number to send and to receive, and the messages not acknowledged, oldest first (R366). -/
  txSeq : Nat := 0
  rxSeq : Nat := 0
  unacked : List AxMsg := []
  /-- Messages received in order and not acted on, as words, oldest first. -/
  inbox : List (List Word) := []
  /-- The link rate code taken at the last training of a tile link (R122). -/
  rate : Nat := 2
  /-- Tile link: the stream index expected next at each end (0 hub, 1 tile), plus 1 (0: none since training), and the sample words that the
  last stripe released, each with whether it is poisoned (R365, R368). -/
  next : Sparse Nat := []
  samples : List (Nat × Bool) := []
  /-- Cascade port: the bytes of the record stream received and not parsed, whether parsing is in step, the payload byte index
  expected next (R369, R372), and records received and not taken, oldest first. -/
  bytes : List Byte := []
  inStep : Bool := false
  byteIdx : Nat := 0
  recs : List CascRec := []
  /-- One more than the tick at which records were last lost on the way (R372); 0 for never. -/
  lossTick : Nat := 0
  /-- Records waiting to be sent, in the order of R369, oldest first. -/
  out : List CascRec := []
  /-- Time at which the last training ended: stripes are counted from it (R375). -/
  trained : Nat := 0
  swaps : List LaneSwap := []
  /-- Lanes that await retraining, with the time it ends (R376); lanes that failed, once for each failure; and consecutive
  low measurements of each lane. -/
  retrain : List (Nat × Nat) := []
  failures : List Nat := []
  low : Sparse Nat := []
  fomTick : Nat := 0
  /-- Cascade port: the package number that an ALIGN message from upstream gave, until bring-up completes (R39, R378). -/
  number : Option Nat := none
  /-- The command whose training runs (R384). -/
  trainRef : Option CmdRef := none
  deriving DecidableEq, Repr

/-! ### Monitoring -/

/-- The accumulator and tracker of a monitor channel (R483). -/
structure MaAcc where
  sum : Nat := 0
  cnt : Nat := 0
  mn : Nat := 0xFFF
  mx : Nat := 0
  full : Bool := false
  dly : Bool := false
  deriving DecidableEq, Repr

/-- What a monitor ADC is converting or is about to (R487-R489): an entry of its sequence with its nominal sampling tick, an injected
conversion, or a calibration. -/
inductive MaItem where
  | entry (chan nominal : Nat)
  | inject (chan : Nat)
  | cal
  deriving DecidableEq, Repr

/-- A monitor ADC beside its registers (R481-R493). -/
structure MaSt where
  accs : Sparse MaAcc := []
  /-- The running sequence: the next entry, the nominal sampling tick of entry 0, and the injected conversions and calibrations that have run
  since the last entry (R488). -/
  seq : Option (Nat × Nat × Nat × Nat) := none
  /-- A waiting or running injected conversion: channel, tick of the request, whether it waited when a calibration was ordered, and its
  command. -/
  inj : Option (Nat × Nat × Bool × Option CmdRef) := none
  /-- A calibration ordered or running, and its command. -/
  cal : Option (Option CmdRef) := none
  /-- The item that starts next or runs, and the tick it starts on. -/
  run : Option (MaItem × Nat) := none
  pdown : Bool := true
  /-- Tick until which start-up lasts (R490), and since when the converter is idle. -/
  awakeAt : Nat := 0
  idleFrom : Nat := 0
  lastCal : Nat := 0
  /-- A calibration must precede the first conversion (R493). -/
  needCal : Bool := true
  /-- By channel: whether the last results lay outside the window, and how many in a row (R492). -/
  winRun : Sparse (Bool × Nat) := []
  deriving DecidableEq, Repr

/-- A snapshot bank (R497-R500): the commands that ordered it, the tick S, whether the hub has latched, the tiles whose message is still to
come, and the counters latched, by live offset. -/
structure Bank where
  refs : List CmdRef := []
  target : Nat := 0
  seq : Nat := 0
  sys : Bool := false
  hub : Bool := false
  waiting : List Nat := []
  vals : Sparse Word := []
  deriving DecidableEq, Repr

/-- Monitoring beside its registers. -/
structure MonSt where
  adcs : Sparse MaSt := []
  banks : Sparse Bank := []
  deriving DecidableEq, Repr

/-! ### Thermal protection -/

/-- A temperature sensor beside its registers (R521, R523, R526, R532): readings in a row above warn, invalid, and above shutdown;
whether it has failed (until power-on); and its simulated reading in 1/8 degC. -/
structure SensorSt where
  hot : Nat := 0
  bad : Nat := 0
  overRun : Nat := 0
  failed : Bool := false
  sim : Option Int := none
  deriving DecidableEq, Repr

/-- Thermal protection beside its registers (R519-R530). -/
structure ThSt where
  sensors : Sparse SensorSt := []
  /-- By die (0-3 a tile, 4 the hub) whose shutdown sensors have failed: conversions in a row above shutdown (R521). -/
  dies : Sparse Nat := []
  /-- The last conversion's boundary, plus 1. -/
  last : Nat := 0
  /-- The shutdown path fires (R526): the sensor, its reading in 1/8 degC, and whether it is the emergency. -/
  fire : Option (Nat × Int × Bool) := none
  /-- Shutdown is latched, up to the boot of R528. -/
  latched : Bool := false
  /-- Every valid shutdown sensor has read below restart since this tick (R528). -/
  okSince : Option Nat := none
  /-- The parcels whose throttle temperature has been cleared to the start threshold since their tile entered RUN (R524). -/
  init : List Nat := []
  deriving DecidableEq, Repr

/-! ### Boot -/

/-- Reset and boot beside their registers (R592-R607). -/
structure BootSt where
  /-- The level of FAULT_N that a reset holds until the device leaves BOOT (R592, R599): `some true` low. -/
  faultN : Option Bool := some true
  /-- Fault records that a reset has torn, to be written at boot (R574): SV_LAST and the cause register of each. -/
  torn : List (List Word) := []
  deriving DecidableEq, Repr

/-! ### Samples -/

/-- A downlink symbol that has been formed and whose samples leave the balls (R130, R233): the carrier's values it was formed under, its
dl_shift, and the antenna words of each path in order of resource elements. -/
structure AirSym where
  car : Nat
  slot : Int
  sym : Nat
  vals : CarVals
  shift : Nat
  words : List (List Cx)
  deriving DecidableEq, Repr

/-- What the stages of a transmit path had in force from a tick on (R233-R243, R266-R270, R525): the values of R246, whether the output is
muted, whether it is in blank idle, the tick it was cut, inverse-sinc correction, the back-off multiplier, the Press configuration and
coefficients, and the neighbours that enter as zero. -/
structure TxSnap where
  tick : Nat
  vals : TxVals
  muted : Bool
  blanked : Bool
  broken : Nat
  isinc : Bool
  mult : Nat
  cfg : Word
  coefs : List Word
  zeroed : List Nat
  deriving DecidableEq, Repr

/-- What the stages of a receive path had in force from a tick on (R288, R304, R325-R331): the values of R326, whether receive is enabled,
rx_gate and RXEN, the AGC compensation entry, the canceller's configuration, taps and estimated delay, and the sources that enter as zero. -/
structure RxSnap where
  tick : Nat
  vals : RxVals
  live : Bool
  gate : Bool
  rxen : Bool
  comp : Word
  cfg : Word
  taps : List Word
  delay : Nat
  zeroed : List Nat
  deriving DecidableEq, Repr

/-- The ADC codes of a path that commands have brought (R304): up to which tick, and the codes from a tick on; the fast detector's last
blocks and the tick of the last clipped one (R318); the sum and count of R319; and the detectors of R320: the envelope in 2^-16, the highest
power, the sum of powers and their count in the running window. -/
structure RxFeed where
  fed : Nat := 0
  chunks : List (Nat × List Int) := []
  blocks : List Bool := []
  lastClip : Nat := 0
  pwr : Nat := 0
  pwrN : Nat := 0
  env : Nat := 0
  peak : Nat := 0
  sq : Nat := 0
  n : Nat := 0
  deriving DecidableEq, Repr

/-- Words of a tile link's sample stream that are poisoned on the way (R29, R368): the tile, whether in the uplink, the first of them and
how many (word 24 n + k is link sample n of path-in-tile k, counted from tick 0), and the ticks between which they show. -/
structure LinkLoss where
  tile : Nat
  up : Bool
  first : Int
  count : Nat
  tick : Nat
  until_ : Nat
  deriving DecidableEq, Repr

/-- The samples of the paths: downlink symbols on the air, the history of what each path's stages had in force (newest first), the codes
received, positions of ADCs whose samples are poisoned between two ticks (R314), the words of sounding symbols that await the
correlators (R134): carrier, slot, symbol, and the words by path; and the words that a tile link has lost (R29, R368). -/
structure AirSt where
  syms : List AirSym := []
  tx : Sparse (List TxSnap) := []
  rx : Sparse (List RxSnap) := []
  feed : Sparse RxFeed := []
  bad : List (Nat × Nat × Nat × Nat) := []
  srs : List (Nat × Int × Nat × List (List Cx)) := []
  lost : List LinkLoss := []
  deriving DecidableEq, Repr

/-! ### The whole block -/

/-- The state of the block. -/
structure State where
  /-- The part this block is (R1). -/
  part : Part := .el9600
  /-- The 64-bit tick counter of the time base (R40). -/
  tick : Nat := 0
  /-- Live registers and counters, by BAR0 offset (R8-R13); what is unlisted reads as `resetWord part`. -/
  live : Sparse Word := []
  /-- Staged values of STG fields, by the live BAR0 offset of their register (R10, R12). -/
  staged : Sparse Word := []
  tb : TbSt := {}
  host : HostSt := {}
  /-- Recorders: 0-3 of the tiles, 4 of the package (R501). -/
  recs : Sparse RecSt := []
  cars : Sparse CarSt := []
  tx : Sparse TxSt := []
  rx : Sparse RxSt := []
  pr : Sparse PrSt := []
  can : Sparse CanSt := []
  orx : Sparse OrxSt := []
  /-- ADCs: path p at p, the ORX of row r at 96 + r (R307, R317). -/
  adc : Sparse AdcSt := []
  agc : Sparse AgcSt := []
  /-- The samples of the paths (R233, R304). -/
  air : AirSt := {}
  rowst : Sparse RowSt := []
  /-- By carrier: the TDD values that still hold until a change takes effect (R253). -/
  tddOld : Sparse (Option TddOld) := []
  fh : FhSt := {}
  links : Sparse LinkSt := []
  tr : TrSt := {}
  sol : SolSt := {}
  cal : CalSt := {}
  sv : SvSt := {}
  dma : DmaSt := {}
  /-- Monitor ADCs and snapshot banks (R481-R500). -/
  mon : MonSt := {}
  pw : PwSt := {}
  th : ThSt := {}
  /-- Records ordered for the Cellar, oldest first. -/
  celOrders : List CelOrder := []
  cel : CelSt := {}
  boot : BootSt := {}
  /-- By 256 * row of the table of R28 + port, core or cascade link: words that the crossing has lost and that are still to pass, poisoned (R29). -/
  lost : Sparse Nat := []
  /-- Commands waiting to be taken by `step`, first in, first out. -/
  pending : List Instr := []
  /-- Number of free values drawn so far: the model's own field, not the spec's. -/
  fresh : Nat := 0
  deriving DecidableEq, Repr

/-- The Cellar of a provisioned part (R572): its identity set and the two anti-rollback records with counters at 0 (DESIGN CHOICE, log
entry 12: the spec gives no contents of the Cellar before the first boot; without these records R569 lets no boot complete). -/
def factoryCellar : CelSt := {
  recs := [
    { seg := 0, off := 1, kind := 0x02, inst := 0, n := 2, seq := 0, last := true, payload := [1, 0] },
    { seg := 0, off := 3, kind := 0x01, inst := 0, n := 3, seq := 1, payload := [0, 0, 0, 0] },
    { seg := 0, off := 6, kind := 0x01, inst := 1, n := 3, seq := 2, payload := [0, 0, 0, 0] }]
  segs := [(0, 9)] }

/-- The block right after reset, R11. -/
def State.reset : State := { cel := factoryCellar }

end Sys2Proof.Machine
end

