-- ==== Sys2Proof/Machine/Ops.lean ====
section
/-!
DEFINITION. The named operations over the register stores, the counters, the tick counter and local time (R8-R13, R40-R47,
R63), which every meaning uses.
-/
namespace Sys2Proof.Machine

/-- What a command's meaning answers. -/
abbrev Out := Host.Outcome State Fault Refusal

/-! ### Registers -/

/-- The live word of a register or counter. -/
def State.rd (s : State) (a : Nat) : Word := Sparse.get (resetWord s.part) s.live a

/-- Write a live word. -/
def State.wr (s : State) (a : Nat) (w : Word) : State :=
  { s with live := Sparse.set (resetWord s.part) s.live a w }

/-- The staged word of the register at live offset `a` (R12). -/
def State.srd (s : State) (a : Nat) : Word := Sparse.get (resetWord s.part) s.staged a

/-- Write a staged word. -/
def State.swr (s : State) (a : Nat) (w : Word) : State :=
  { s with staged := Sparse.set (resetWord s.part) s.staged a w }

/-- A field of a live register. -/
def State.rf (s : State) (a hi lo : Nat) : Nat := fld (s.rd a) hi lo

/-- One bit of a live register. -/
def State.rb (s : State) (a b : Nat) : Bool := bit (s.rd a) b

/-- Write a field of a live register. -/
def State.pf (s : State) (a hi lo v : Nat) : State := s.wr a (putFld (s.rd a) hi lo v)

/-- Write one bit of a live register. -/
def State.pb (s : State) (a b : Nat) (v : Bool) : State := s.pf a b b (b2n v)

/-- A field of a staged register. -/
def State.srf (s : State) (a hi lo : Nat) : Nat := fld (s.srd a) hi lo

/-- Write a field of a staged register. -/
def State.spf (s : State) (a hi lo v : Nat) : State := s.swr a (putFld (s.srd a) hi lo v)

/-- Add `n` to a 32-bit counter or register, wrapping (R115 and the other counter rules). -/
def State.bumpBy (s : State) (a n : Nat) : State := if n = 0 then s else s.wr a (toW ((s.rd a).toNat + n))

/-- Count one. -/
def State.bump (s : State) (a : Nat) : State := s.wr a (toW ((s.rd a).toNat + 1))

/-- Add 1 to a field that wraps. -/
def State.bumpF (s : State) (a hi lo : Nat) : State := s.pf a hi lo (s.rf a hi lo + 1)

/-- Add 1 to a register that saturates at 0xFFFF_FFFF. -/
def State.bumpSat (s : State) (a : Nat) : State :=
  if (s.rd a).toNat = 0xFFFFFFFF then s else s.bump a

/-- Add `n` to a field that saturates. -/
def State.bumpSatF (s : State) (a hi lo n : Nat) : State :=
  s.pf a hi lo (min (2 ^ (hi + 1 - lo) - 1) (s.rf a hi lo + n))

/-- A value of a _LO/_HI pair (R13). -/
def State.rdPair (s : State) (lo hi : Nat) : Nat := (s.rd lo).toNat + (s.rd hi).toNat * 2 ^ 32

/-- Write a _LO/_HI pair. -/
def State.wrPair (s : State) (lo hi v : Nat) : State := (s.wr lo (toW v)).wr hi (toW (v / 2 ^ 32))

def State.srdPair (s : State) (lo hi : Nat) : Nat := (s.srd lo).toNat + (s.srd hi).toNat * 2 ^ 32
def State.swrPair (s : State) (lo hi v : Nat) : State := (s.swr lo (toW v)).swr hi (toW (v / 2 ^ 32))

/-- Apply a function to the state once for each element of a list, in order. -/
def State.forEach {α : Type} (s : State) (l : List α) (f : State → α → State) : State := l.foldl f s

/-- Apply a function when a condition holds. -/
def State.when (s : State) (c : Bool) (f : State → State) : State := if c then f s else s

/-- The data a read returns to the host. -/
def State.answer (s : State) (w : Word) : State := { s with host := { s.host with readData := w } }

/-! ### Free values -/

/-- Draw one free value (a word) and advance the counter. -/
def State.draw (s : State) : Word × State := (Config.freeWord s.fresh, { s with fresh := s.fresh + 1 })

def State.drawNat (s : State) : Nat × State := (Config.freeNat s.fresh, { s with fresh := s.fresh + 1 })
def State.drawBool (s : State) : Bool × State := (Config.freeBool s.fresh, { s with fresh := s.fresh + 1 })

/-! ### The tick counter and local time -/

/-- One nanosecond in the units of local time (R42). -/
def nsU : Nat := 2 ^ 40

/-- The rate word, R41. -/
def State.rate (s : State) : Nat := s.rdPair Reg.TB_RATE_LO Reg.TB_RATE_HI

/-- Local time at a tick count, in units of 2^-40 ns, R42. Counts before the base count lie on the rate that held before it. -/
def State.timeAt (s : State) (n : Nat) : Nat :=
  if s.tb.baseCount ≤ n then s.tb.baseTime + (n - s.tb.baseCount) * s.rate
  else s.tb.baseTime - (s.tb.baseCount - n) * s.tb.prevRate

/-- Local time now, R42. -/
def State.now (s : State) : Nat := s.timeAt s.tick

/-- Whole nanoseconds of a time. -/
def nsOf (t : Nat) : Nat := t / nsU

/-- Short time, R45: the low 48 bits of the time in nanoseconds. -/
def shortOf (t : Nat) : Nat := nsOf t % 2 ^ 48

def State.shortNow (s : State) : Nat := shortOf s.now

/-- Seconds, nanoseconds and fractional nanoseconds (2^-16 ns, truncated) of a time, R44, R45. -/
def secOf (t : Nat) : Nat := nsOf t / 1000000000
def nanoOf (t : Nat) : Nat := nsOf t % 1000000000
def fracOf (t : Nat) : Nat := t / 2 ^ 24 % 2 ^ 16

/-- The time of a PTP time in seconds and nanoseconds. -/
def ptpTime (sec ns : Nat) : Nat := (sec * 1000000000 + ns) * nsU

/-- The first tick whose time reaches `t`: before the base count on the rate that held there. -/
def State.tickReaching (s : State) (t : Nat) : Nat :=
  if s.tb.baseTime < t then
    (if s.rate = 0 then s.tb.baseCount else s.tb.baseCount + (t - s.tb.baseTime + s.rate - 1) / s.rate)
  else s.tb.baseCount - (s.tb.baseTime - t) / s.tb.prevRate

/-- The least time that the current tick reaches and no tick before it did: after a jump (R52), the time jumped to. -/
def State.timeFrom (s : State) : Nat := if s.tb.stepTick = s.tick ∨ s.tick = 0 then s.now else s.timeAt (s.tick - 1) + 1

/-- The current epoch, R46. -/
def State.epoch (s : State) : Nat := s.rf Reg.TB_STATUS 23 16

/-- Ticks in a number of nanoseconds at 1.6 GHz, rounded up. -/
def ticksNs (ns : Nat) : Nat := (ns * 8 + 4) / 5

/-- The signed difference in ns from now to a short-time target, modulo 2^48 (R56). -/
def State.shortDiff (s : State) (target : Nat) : Int := sext (target + 2 ^ 48 - s.shortNow) 48

/-- A short-time target resolved to a full time, by its signed difference from now (R51); 0 when before the PTP epoch. -/
def State.resolve (s : State) (target : Nat) : Nat := ((nsOf s.now : Int) + s.shortDiff target).toNat * nsU

/-! ### The device state and the parts present -/

/-- The device state code of GL_STATE, R436. -/
def State.dev (s : State) : Nat := s.rf Reg.GL_STATE 3 0

def State.tiles (s : State) : List Nat := List.range s.part.tiles
def State.paths (s : State) : List Nat := List.range s.part.paths
def State.rows (s : State) : List Nat := List.range s.part.rows
def State.parcels (s : State) : List Nat := List.range s.part.parcels

/-- Whether an entry is in progress that asks the blocks of tile `t` (a tile, or 4 for the hub) to take on no new work (R542). -/
def State.quiet (s : State) (t : Nat) : Bool := s.pw.entries.any (fun e => e.scope == t || e.scope == 4)

/-- The power state of a tile in PW_STAT, R564: 0 RUN, 1 IDLE, 2 RETAIN, 3 absent, 4 ENTERING, 5 WAKING, 6 UNAVAIL. -/
def State.tileState (s : State) (t : Nat) : Nat := s.rf Reg.PW_STAT (3 * t + 2) (3 * t)

/-- Whether a tile is in RUN, or still working on its way out of it (R539, R542), and not lost to a tile fault (R22). -/
def State.tileRuns (s : State) (t : Nat) : Bool := (s.tileState t == 0 || s.tileState t == 4) && !s.sv.dead.contains t

/-- Whether power domain `d` (R33) is powered. -/
def State.domOn (s : State) (d : Nat) : Bool := s.rb Reg.PW_STAT (16 + d)

/-- Whether path `p` is present and not declared faulty (R35). -/
def State.pathAvail (s : State) (p : Nat) : Bool := s.rb (Reg.GL_PATH_AVAIL (p / 32)) (p % 32)
/-- Whether path `p` is available and its tile in RUN (R539). -/
def State.pathRuns (s : State) (p : Nat) : Bool := s.pathAvail p && s.tileRuns (p / 24)
def State.rowAvail (s : State) (r : Nat) : Bool := s.rb Reg.GL_ROW_AVAIL r
def State.parcelAvail (s : State) (q : Nat) : Bool := s.rb Reg.GL_PARCEL_AVAIL q
def State.tileAvail (s : State) (t : Nat) : Bool := s.rb Reg.GL_UNIT_AVAIL (4 + t)

/-- Whether the package is the lead of its system, or alone (R39). -/
def State.isLead (s : State) : Bool := s.rb Reg.GL_PKG_POS 4
def State.chainLen (s : State) : Nat := s.rf Reg.GL_PKG_POS 3 2 + 1

/-- Whether path `p` of this package is the system's reference path (R340). -/
def State.isRef (s : State) (p : Nat) : Bool := s.isLead && s.rf Reg.CAL_CFG 15 9 == p

/-! ### The radio frame grid, R63, R125 -/

/-- The grid origin as a time. -/
def State.gridOrigin (s : State) : Nat :=
  ptpTime (s.rdPair Reg.TB_GRID_ORG_SEC_LO Reg.TB_GRID_ORG_SEC_HI) (s.rd Reg.TB_GRID_ORG_NS).toNat

/-- The grid counts in units of 1/8 of 1/30.72 us, in which every symbol is whole: 768 units last 3,125 ns. -/
def State.gridUnits (s : State) (t : Nat) : Int :=
  (((t : Int) - (s.gridOrigin : Int)) * 768) / ((3125 * nsU : Nat) : Int)

/-- The time of a grid unit, in units of 2^-40 ns rounded up: the least time that has reached it. -/
def State.gridTime (s : State) (u : Int) : Nat :=
  ((s.gridOrigin : Int) + (u * ((3125 * nsU : Nat) : Int) + 767) / 768).toNat

/-- Grid units of a half-subframe (0.5 ms). -/
def halfSub : Nat := 122880

/-- Grid units of a normal-prefix slot of numerology `mu` without the long-symbol excess. -/
def slotUnits (mu : Nat) : Nat := 245504 / 2 ^ mu

/-- The start, in grid units, of slot `n` of numerology `mu` counted from the origin (R63). -/
def slotStart (mu : Nat) (n : Int) : Int :=
  if mu = 0 then n * 245760
  else
    let per : Int := ((2 ^ (mu - 1) : Nat) : Int)
    let h := n / per
    let k := n % per
    h * (halfSub : Int) + k * (slotUnits mu : Int) + (if k = 0 then 0 else 128)

/-- The slot of numerology `mu` that a grid unit lies in (R63). -/
def slotAt (mu : Nat) (u : Int) : Int :=
  if mu = 0 then u / 245760
  else
    let per : Int := ((2 ^ (mu - 1) : Nat) : Int)
    let h := u / (halfSub : Int)
    let r := u % (halfSub : Int)
    let first : Int := (slotUnits mu : Int) + 128
    h * per + (if r < first then 0 else 1 + (r - first) / (slotUnits mu : Int))

/-- TB_GRID_NOW, R80. -/
def State.gridNow (s : State) : Word :=
  let u := s.gridUnits s.now
  let frame := u / 2457600
  let sub := u % 2457600 / 245760
  let slot := slotAt 3 u % 8
  toW ((frame % 1024).toNat * 2 ^ 16 + sub.toNat * 2 ^ 8 + slot.toNat)

end Sys2Proof.Machine
end

