-- ==== Sys2Proof/Machine/Peek.lean ====
section
/-!
DEFINITION. Reading a register without side effects: the values that the block computes from its state when they are read
(counts, queue fills, the queue heads), the staged views (R12), write-only fields (R10), absent units (R2) and blocks whose
power domain is off (R540). A read's own side effects are the meaning of REGISTER_READ and of the read commands.
-/
namespace Sys2Proof.Machine

/-- The record of a path, row or mailbox. -/
def State.txOf (s : State) (p : Nat) : TxSt := Sparse.get (fun _ => {}) s.tx p
def State.setTx (s : State) (p : Nat) (x : TxSt) : State := { s with tx := Sparse.set (fun _ => {}) s.tx p x }
def State.rowOf (s : State) (r : Nat) : RowSt := Sparse.get (fun _ => {}) s.rowst r
def State.setRow (s : State) (r : Nat) (x : RowSt) : State := { s with rowst := Sparse.set (fun _ => {}) s.rowst r x }
def State.prOf (s : State) (p : Nat) : PrSt := Sparse.get (fun _ => {}) s.pr p
def State.setPr (s : State) (p : Nat) (x : PrSt) : State := { s with pr := Sparse.set (fun _ => {}) s.pr p x }
def State.canOf (s : State) (p : Nat) : CanSt := Sparse.get (fun _ => {}) s.can p
def State.setCan (s : State) (p : Nat) (x : CanSt) : State := { s with can := Sparse.set (fun _ => {}) s.can p x }
def State.orxOf (s : State) (r : Nat) : OrxSt := Sparse.get (fun _ => {}) s.orx r
def State.setOrx (s : State) (r : Nat) (x : OrxSt) : State := { s with orx := Sparse.set (fun _ => {}) s.orx r x }
def State.adcOf (s : State) (a : Nat) : AdcSt := Sparse.get (fun _ => {}) s.adc a
def State.setAdc (s : State) (a : Nat) (x : AdcSt) : State := { s with adc := Sparse.set (fun _ => {}) s.adc a x }
def State.agcOf (s : State) (p : Nat) : AgcSt := Sparse.get (fun _ => {}) s.agc p
def State.setAgc (s : State) (p : Nat) (x : AgcSt) : State := { s with agc := Sparse.set (fun _ => {}) s.agc p x }
def State.rxOf (s : State) (p : Nat) : RxSt := Sparse.get (fun _ => {}) s.rx p
def State.setRx (s : State) (p : Nat) (x : RxSt) : State := { s with rx := Sparse.set (fun _ => {}) s.rx p x }
def State.lnk (s : State) (l : Nat) : LinkSt := Sparse.get (fun _ => {}) s.links l
def State.setLnk (s : State) (l : Nat) (x : LinkSt) : State := { s with links := Sparse.set (fun _ => {}) s.links l x }
def State.mbox (s : State) (m : Nat) : Mbox := Sparse.get (fun _ => {}) s.host.mboxes m
def State.setMbox (s : State) (m : Nat) (b : Mbox) : State :=
  { s with host := { s.host with mboxes := Sparse.set (fun _ => {}) s.host.mboxes m b } }
def State.recOf (s : State) (r : Nat) : RecSt := Sparse.get (fun _ => {}) s.recs r
def State.setRec (s : State) (r : Nat) (x : RecSt) : State := { s with recs := Sparse.set (fun _ => {}) s.recs r x }
def State.cmpOf (s : State) (n : Nat) : CmpSt := Sparse.get (fun _ => {}) s.tb.cmps n
def State.setCmp (s : State) (n : Nat) (x : CmpSt) : State :=
  { s with tb := { s.tb with cmps := Sparse.set (fun _ => {}) s.tb.cmps n x } }

def State.ringOf (s : State) (n : Nat) : RingSt := Sparse.get (fun _ => {}) s.dma.rings n

/-- Whether a channel moves data (R477): a descriptor in progress, or a direct transfer that runs. -/
def State.chanBusy (s : State) (n : Nat) : Bool := (s.ringOf n).desc.isSome || s.rf (Reg.DMA_STAT n) 31 28 == 1

/-- Whether `len` bytes at a BAR2 offset reach the idle weight-store window (R154). -/
def inIdle (o len : Nat) : Bool := decide (o < 0x08000000 ∧ 0x04000000 < o + len)

/-- Whether channel `n` is writing the idle weight-store window (R464): a STORE_WRITE descriptor in progress, a descriptor that BF_LOAD
consumes, or a direct transfer. -/
def State.writesIdle (s : State) (n : Nat) : Bool :=
  let x := s.ringOf n
  let byDesc := x.desc.any fun d => match d.func with
    | 1 => inIdle (fld (wordAt d.words 3) 27 0) (fld (wordAt d.words 0) 23 0)
    | 0 => x.load.any (fun l => l.ref.op == 0x302 && inIdle (l.args.getD 0 0) l.need)
    | _ => false
  let mode := s.rd (Reg.DMA_MODE n)
  byDesc || (s.rf (Reg.DMA_STAT n) 31 28 == 1 && !bit mode 31 && fld mode 27 26 == 0 &&
    inIdle (s.rd (Reg.DMA_DADDR n)).toNat (s.rd (Reg.DMA_LEN n)).toNat)

/-- The writer locks held, as TR_WS_LOCK shows them: bit 0 host, bit 1 DMA, bit 2 solver (DESIGN CHOICE of the places, log entry 6); the DMA
lock is held while a channel writes the idle window (R156, R464). -/
def State.trLocks (s : State) : Nat :=
  b2n (s.rb Reg.TR_WS_LOCK 0) + 2 * b2n ((List.range 32).any s.writesIdle) + 4 * b2n (!s.tr.solverLock.isEmpty)

/-- Words in a device-to-host queue (R424). -/
def Mbox.words (b : Mbox) : Nat := (b.d2h.map (fun p => p.words.length)).sum - b.popped

/-- Complete packets in a device-to-host queue (R450): a packet some of whose words have been read is no longer complete. -/
def Mbox.packets (b : Mbox) : Nat := if b.popped = 0 then b.d2h.length else b.d2h.length - 1

/-- The word at the head of a device-to-host queue. -/
def Mbox.head (b : Mbox) : Option Word :=
  match b.d2h with
  | [] => none
  | p :: _ => p.words[b.popped]?

/-- MB_H2D_STAT, R450. -/
def Mbox.h2dStat (b : Mbox) : Word :=
  toW ((16 - b.h2d.length) * 2 ^ 16 + b.published * 2 ^ 8 + (b.h2d.length - b.published))

/-- MB_D2H_STAT, R450. -/
def Mbox.d2hStat (b : Mbox) : Word := toW (b.packets * 2 ^ 8 + b.words)

/-- Whole seconds of holdover, R68, R69. -/
def State.holdSecs (s : State) : Nat :=
  if s.rb Reg.TB_STATUS 1 then (s.tick - s.tb.holdTick) / 1600000000 else s.tb.holdSecs

/-- Whole muted microseconds of a path not yet added to its counter, and the index of that counter (R248, R260). -/
def State.muteOwed (s : State) (p : Nat) : Nat × Nat :=
  let why := s.rf (Reg.TX_STATUS p) 3 1
  (if why = 0 then 0 else (s.tick - (s.txOf p).muteTick) / 1600, why - 1)

/-- Whole blanked microseconds of a path not yet added to its counter (R254, R260). -/
def State.blankOwed (s : State) (p : Nat) : Nat :=
  if s.rb (Reg.TX_STATUS p) 4 then (s.tick - (s.txOf p).blankTick) / 1600 else 0

/-- The live offset of the counter that an offset of a snapshot bank holds (R494): bank areas in the table's order. -/
def bankCounter (o : Nat) : Option Nat :=
  let areas : List (Nat × Nat) := [(0x0, 0x204000), (0x4000, 0x404000), (0x5000, 0x403800), (0x6000, 0x604000), (0x7000, 0x804000),
    (0x8000, 0x800), (0x9000, 0xC00), (0xA000, 0xC04000), (0xB000, 0xD04000), (0xC000, 0xE04000), (0xD000, 0x80E0000), (0xE000, 0xF04000),
    (0xF000, 0xF04800)]
  if 0x10000 ≤ o then
    let t := (o - 0x10000) / 0x4000
    let r := (o - 0x10000) % 0x4000
    (tileCounterAreas.find? (fun (x : Nat × Nat) => decide (x.1 - 0x10000 ≤ r ∧ r < x.1 - 0x10000 + 4 * x.2))).map
      (fun (_ : Nat × Nat) => tileBlk t + 0x10000 + r)
  else
    let a := areas.foldl (fun (best : Nat × Nat) x => if x.1 ≤ o then x else best) (0x0, 0x204000)
    let n := ((hubCounterAreas.find? (fun (x : Nat × Nat) => x.1 == a.2)).map Prod.snd).getD 0
    if o - a.1 < 4 * n then some (a.2 + (o - a.1)) else none

/-- A word of a snapshot bank (R494, R499): a bank that is FREE or FILLING reads 0. -/
def State.bankWord (s : State) (b o : Nat) : Word :=
  if s.rf Reg.MON_SNAP_STAT (2 * b + 1) (2 * b) < 2 then 0
  else match bankCounter (o / 4 * 4) with
    | some a => Sparse.get (fun _ => 0) (Sparse.get (fun _ => {}) s.mon.banks b).vals a
    | none => 0

/-- A word of a record in a recorder's window (R501, R508, R509). -/
def State.recWord (s : State) (rec slot w : Nat) : Word :=
  if slot ∈ (s.recOf rec).retired then (if w = 1 then 0xFF000000 else 0)
  else if rec = 4 ∧ s.rf Reg.REC_PKG_STAT 31 30 = 2 then 0
  else wordAt (Sparse.get (fun _ => []) (s.recOf rec).slots slot) w

/-- The state that MA_STAT shows (R489, R490, R518). -/
def State.maState (s : State) (q : Nat) : Nat :=
  let x : MaSt := Sparse.get (fun _ => {}) s.mon.adcs q
  if !s.rb (Reg.MA_CFG q) 31 then 0
  else match x.run, x.cal with
    | some (.cal, t), _ => if t ≤ s.tick then 6 else 5
    | _, some _ => 5
    | some (_, t), none => if t ≤ s.tick then 4 else if s.tick < x.awakeAt then 3 else 1
    | none, none => if x.pdown then 2 else 1

/-- The hub values computed on a read, by live offset. -/
def State.computedHub (s : State) (a : Nat) : Option Word :=
  if a = Reg.TB_COUNT_LO then some (toW s.tick)
  else if a = Reg.TB_COUNT_HI then some (toW (s.tick / 2 ^ 32))
  else if a = Reg.TB_HOLD_SEC then some (toW s.holdSecs)
  else if a = Reg.TB_GRID_NOW then some s.gridNow
  else if a = Reg.TB_TXTS_STAT then some (toW s.tb.txts.length)
  else if Reg.TB_TXTS_W0 ≤ a ∧ a ≤ Reg.TB_TXTS_W3 ∧ a % 4 = 0 then
    some (wordAt (s.tb.txts.headD []) ((a - Reg.TB_TXTS_W0) / 4))
  else if 0xD00000 ≤ a ∧ a < 0xD00800 then
    let b := s.mbox ((a - 0xD00000) / 0x100)
    if a % 0x100 = 0x0C then some b.h2dStat
    else if a % 0x100 = 0x10 then some (b.head.getD 0)
    else if a % 0x100 = 0x14 then some b.d2hStat
    else none
  else if a = Reg.TR_WS_LOCK then some (toW (s.trLocks * 256 + b2n (s.rb Reg.TR_WS_LOCK 0)))
  else if a = Reg.SOL_CORE_BUSY then
    some (toW (maskOf ((List.range 32).filter (fun c => ((Sparse.get (fun _ => {}) s.sol.cores c : CoreSt)).item.isSome))))
  else if a = Reg.SOL_JOBQ then
    let n := fun (v : Nat) => ((List.range 64).filter (fun j => s.rf (Reg.SOL_JOB_W7 j) 31 28 == v)).length
    some (toW (n 3 * 65536 + n 2))
  else if let some c := (List.range 32).find? (fun c => a == Cnt.solCore c 2) then
    let x : CoreSt := Sparse.get (fun _ => {}) s.sol.cores c
    some (toW ((x.busy + (x.item.map (fun i => s.tick - i.start)).getD 0) / 65536))
  else if a = Reg.DMA_BUSY then some (toW (maskOf ((List.range 32).filter s.chanBusy)))
  else if 0x9010000 ≤ a ∧ a < 0x9012000 then
    some (toW ((List.range 4).foldl (fun v k => v + (s.cel.buf.getD (a - 0x9010000 + k) 0).toNat * 2 ^ (8 * k)) 0))
  else if 0xE10000 ≤ a ∧ a < 0xE20000 then
    some (s.recWord 4 (s.rf Reg.REC_PAGE 3 0 * 1024 + (a - 0xE10000) / 64) (a / 4 % 16))
  else if 0xE40000 ≤ a ∧ a < 0xE80000 then some (s.bankWord ((a - 0xE40000) / 0x20000) ((a - 0xE40000) % 0x20000))
  else none

/-- Divergences of the last 10 s (R284, R301). -/
def State.recentDivs (s : State) (l : List Nat) : List Nat := l.filter (fun t => decide (s.tick < t + 16000000000))

/-- The values of a tile's units computed on a read. -/
def State.computedTile (s : State) (pl : Place) (o : Nat) : Option Word :=
  match pl with
  | .path p =>
    if o = 0x10C then some (putFld (s.rd (Reg.PR_STAT p)) 27 26 (min 3 (s.recentDivs (s.prOf p).divTicks).length)) else none
  | .row r =>
    if o = 0x20 then some (toW (b2n (s.rowOf r).rdValid * 256 + (s.rowOf r).queue.length)) else none
  | .parcel q => if o = 0x4 then some (putFld (s.rd (Reg.MA_STAT q)) 31 28 (s.maState q)) else none
  | .tile t =>
    if 0x20000 ≤ o ∧ o < 0x28000 then some (s.recWord t ((o - 0x20000) / 64) (o / 4 % 16))
    else if 0x10240 ≤ o ∧ o < 0x10420 ∧ o % 4 = 0 then
      let p := 24 * t + (o - 0x10240) / 20
      let i := (o - 0x10240) / 4 % 5
      let owed := s.muteOwed p
      some (toW ((s.rd (tileBlk t + o)).toNat + (if i = 4 then s.blankOwed p else if i = owed.2 then owed.1 else 0)))
    else none
  | _ => none

/-- The live value of a register or counter, computed where the block computes it. -/
def State.peekLive (s : State) (a : Nat) : Word :=
  let (pl, o) := placeOf a
  if !s.part.has pl then 0
  else match pl with
    | .hub => (s.computedHub a).getD (s.rd a)
    | _ => (s.computedTile pl o).getD (s.rd a)

/-- The power domain of a block (R33): the block reads 0 while its domain is off (R540). MGMT blocks give domain 1. -/
def domainOf (a : Nat) : Nat :=
  match placeOf a with
  | (.hub, o) =>
    if o < 0x100000 then 1
    else if o < 0x200000 then 2
    else if o < 0x400000 then 3
    else if o < 0x800000 then 5
    else if o < 0xC00000 then 6
    else if 0x80F0000 ≤ o ∧ o < 0x8100000 then 4
    else if 0x80E0000 ≤ o ∧ o < 0x80F0000 then 5
    else 1
  | (.path p, _) => 8 + p / 24
  | (.row r, _) => 8 + r / 6
  | (.parcel q, _) => 8 + q / 2
  | (.tile t, _) => 8 + t
  | (.link l, _) => if l < 4 then 5 else 4
  | (.none, _) => 1

/-- A word from a part that carries the mask `m`. -/
def maskW (w : Word) (m : Nat) : Word := w &&& toW m

/-- A read of BAR0 without side effects: a staged view gives its STG fields' staged values and the other fields' live
values (R12). -/
def State.peek (s : State) (a : Nat) : Word :=
  match stagedToLive a with
  | some l =>
    match regAt l with
    | some (r, _, _) =>
      if s.part.has (placeOf l).1 then
        maskW (s.srd l) r.stg ||| maskW (s.peekLive l) (0xFFFFFFFF - r.stg)
      else 0
    | none => 0
  | none => s.peekLive a

/-- Write a word to the staged view of a register (R12): its STG fields only. A write of an alignment register is noted until the next
configuration commit (R350). -/
def State.stage (s : State) (a : Nat) (w : Word) : State :=
  match regAt a with
  | some (r, _, _) =>
    let s1 := s.swr a (maskW w r.stg)
    if (r.name = "TX_GAIN" ∨ r.name = "TX_DELAY" ∨ r.name = "RX_GAIN" ∨ r.name = "RX_DELAY") ∧ a ∉ s1.cal.touched then
      { s1 with cal := { s1.cal with touched := a :: s1.cal.touched } }
    else if (r.name = "FH_EAXC_KEY" ∨ r.name = "FH_EAXC_ENT") ∧ (a - Reg.FH_EAXC_KEY 0) / 8 ∉ s1.fh.rewrote then
      { s1 with fh := { s1.fh with rewrote := (a - Reg.FH_EAXC_KEY 0) / 8 :: s1.fh.rewrote } }
    else s1
  | none => s

/-- Write a word to a register at its live offset as the access codes of its fields say (R10, R12), without effects of its own:
RW fields take the value, W1C fields clear where 1 is written, STG fields go to the staged view. -/
def State.poke (s : State) (a : Nat) (w : Word) : State :=
  match regAt a with
  | some (r, _, _) =>
    let old := s.rd a
    let kept := maskW old (0xFFFFFFFF - r.rw)
    let clr := maskW w r.w1c
    let s1 := s.wr a ((kept ||| maskW w r.rw) &&& ~~~ clr)
    if r.stg = 0 then s1 else s1.stage a w
  | none => s

end Sys2Proof.Machine
end

