-- ==== Sys2Proof/Machine/Flags.lean ====
section
/-!
DEFINITION. Raising a flag and the interrupt it carries: the event registers with their enables and MSI-X vectors (R418, R511,
R531, R563), the fault summary and FAULT_N (R409, R413), and mailbox events.
-/
namespace Sys2Proof.Machine

/-- Signal an MSI-X vector (R418). -/
def State.irq (s : State) (v : Nat) : State := { s with host := { s.host with irqs := s.host.irqs ++ [v] } }

/-- Set bit `b` of an event register; when its enable is 1, signal the vector. -/
def State.raiseEvt (s : State) (evt en vec b : Nat) : State :=
  let s1 := s.pb evt b true
  if s.rb en b then s1.irq vec else s1

/-- MON_EVT, R511: vector 44. -/
def State.monEvt (s : State) (b : Nat) : State := s.raiseEvt Reg.MON_EVT Reg.MON_IRQ_EN 44 b
/-- TH_EVT, R531: vector 42. -/
def State.thEvt (s : State) (b : Nat) : State := s.raiseEvt Reg.TH_EVT Reg.TH_IRQ_EN 42 b
/-- PW_EVT, R563: vector 43. -/
def State.pwEvt (s : State) (b : Nat) : State := s.raiseEvt Reg.PW_EVT Reg.PW_IRQ_EN 43 b

/-- An access to a block whose domain is off: off_acc is set and counted (R540). -/
def State.offAccess (s : State) : State := (s.pwEvt 7).bump (Cnt.pwPackage 6)

/-- Whether a register belongs to a tile that a tile fault has lost (R22): its blocks answer nothing until it is repowered. -/
def State.lostTo (s : State) (a : Nat) : Bool := 8 ≤ domainOf a && s.sv.dead.contains (domainOf a - 8)

/-- A host access to a register: nothing of an absent unit (R2) or of a lost tile (R22) or outside the management domain's time; a block whose domain is off counts it
(R540). -/
def State.access (s : State) (a : Nat) (f : State → State) : State :=
  if !s.domOn 1 ∨ !s.part.has (placeOf a).1 then s
  else if !s.domOn (domainOf a) then s.offAccess
  else if s.lostTo a then s
  else f s

/-- A host read of a register whose reading does something: 0 where it may not be reached. -/
def State.accessRead (s : State) (a : Nat) (f : State → State) : State := (s.answer 0).access a f

/-- FAULT_N follows the summary and its mask: fault_out reads 1 while a masked summary bit is set (R409, R413, R414). -/
def State.faultOut (s : State) : State :=
  s.pb Reg.SV_FAULT_SUM 31 (Nat.land (s.rf Reg.SV_FAULT_SUM 8 0) (s.rf Reg.SV_FAULT_MASK 8 0) != 0)

/-- Set a bit of the fault summary: vector 41 (R418) and FAULT_N (R409). -/
def State.faultSum (s : State) (b : Nat) : State := ((s.pb Reg.SV_FAULT_SUM b true).irq 41).faultOut

/-- Set a bit of MB_EVT. -/
def State.mbEvt (s : State) (m b : Nat) : State := s.pb (Reg.MB_EVT m) b true

end Sys2Proof.Machine
end

