-- ==== Sys2Proof/Machine/Events.lean ====
section
/-!
DEFINITION. Recording an event in an event recorder (R501-R509): the record's words, the register list, and what a full, frozen
or failed recorder does.
-/
namespace Sys2Proof.Machine

/-- The offset of a recorder's map, list or next register: recorders 0-3 of the tiles (R516), 4 of the package (R514). -/
def recMapReg (rec n : Nat) : Nat := if rec = 4 then Reg.REC_MAP n else Reg.REC_T_MAP rec n
def recListReg (rec l i : Nat) : Nat := if rec = 4 then Reg.REC_LIST l i else Reg.REC_T_LIST rec l i
def recNextReg (rec : Nat) : Nat := if rec = 4 then Reg.REC_PKG_NEXT else Reg.REC_T_NEXT rec
def recStatReg (rec : Nat) : Nat := if rec = 4 then Reg.REC_PKG_STAT else Reg.REC_T_STAT rec

/-- A register as a record's list reads it: without side effects, and the time registers as captured on the event's tick
(R505). -/
def State.peekRec (s : State) (a : Nat) : Word :=
  if a = Reg.TB_NOW_NS then toW (nanoOf s.now)
  else if a = Reg.TB_NOW_FRAC then toW (fracOf s.now)
  else if a = Reg.TB_NOW_SEC_LO then toW (secOf s.now)
  else if a = Reg.TB_NOW_SEC_HI then toW (secOf s.now / 2 ^ 32 % 2 ^ 16)
  else if a = Reg.TB_NOW_EPOCH then toW (s.epoch + b2n (s.rb Reg.TB_STATUS 1) * 256 + b2n (s.rb Reg.TB_STATUS 2) * 512)
  else s.peek a

/-- The list that a recorder maps an event code to, R505. -/
def State.recList (s : State) (rec code : Nat) : Nat := s.rf (recMapReg rec (code / 8)) (4 * (code % 8) + 3) (4 * (code % 8))

/-- The values of the valid entries of a list, in entry order (R505). -/
def State.recValues (s : State) (rec l : Nat) : List Word :=
  ((List.range 12).filter (fun i => s.rb (recListReg rec l i) 31)).map
    (fun i => s.peekRec (s.rf (recListReg rec l i) 27 2 * 4))

/-- The sixteen words of a record, R502. -/
def State.recWords (s : State) (rec seq code src : Nat) (late : Bool) (detail : Word) : List Word :=
  let l := s.recList rec code
  let vs := s.recValues rec l
  let w1 := code * 2 ^ 24 + src * 2 ^ 20 + vs.length * 2 ^ 16 + l * 2 ^ 12 + b2n late * 2 ^ 11
  [toW seq, toW w1, detail] ++ vs ++ List.replicate (13 - vs.length) 0

/-- Order a record for the Cellar. -/
def State.orderRecord (s : State) (kind : Nat) (payload : List Word) : State :=
  { s with celOrders := s.celOrders ++ [{ kind := kind, payload := payload }] }

/-- Order a fault record (type 0x30) with its source and its words, R574. -/
def State.faultRecord (s : State) (source : Nat) (ws : List Word) : State :=
  s.orderRecord 0x30 ([toW source, toW s.tick, toW (s.tick / 2 ^ 32), toW (s.dev * 256 + s.epoch)] ++ ws)

/-- Whether a package event is kept in the Cellar while the package recorder is FAILED (R509). -/
def keptWhileFailed (code : Nat) : Bool :=
  code == 0x0A || code == 0x0B || code == 0x13 || decide (0x60 ≤ code ∧ code ≤ 0x7F)

/-- An event sent to the package recorder, R501-R509. -/
def State.pkgEvent (s : State) (code src : Nat) (late : Bool) (detail : Word) : State :=
  let seq := s.rf Reg.REC_PKG_NEXT 30 0
  let s1 := s.wr Reg.REC_PKG_NEXT (toW ((seq + 1) % 2 ^ 31))
  match s.rf Reg.REC_PKG_STAT 31 30 with
  | 0 =>
    let fill := s.rf Reg.REC_PKG_STAT 14 0
    let x := s.recOf 4
    let x1 := { x with slots := Sparse.set (fun _ => []) x.slots fill (s.recWords 4 seq code src late detail) }
    let s2 := ((s1.setRec 4 x1).pf Reg.REC_PKG_STAT 14 0 (fill + 1)).bump (Cnt.monPkgRec 0)
    if fill = 16383 then (s2.pf Reg.REC_PKG_STAT 31 30 1).monEvt 2 else s2
  | 1 => s1.bump (Cnt.monPkgRec 1)
  | _ =>
    if keptWhileFailed code then s1.faultRecord 1 (s.recWords 4 seq code src late detail)
    else s1.bump (Cnt.monPkgRec 2)

/-- An event sent to the recorder of tile `t`, R501-R508. A tile that is not powered records nothing. -/
def State.tileEvent (s : State) (t code src : Nat) (late : Bool) (detail : Word) : State :=
  if !s.domOn (8 + t) then s
  else
    let seq := s.rf (Reg.REC_T_NEXT t) 30 0
    let s1 := s.wr (Reg.REC_T_NEXT t) (toW ((seq + 1) % 2 ^ 31))
    if s.rb (Reg.REC_T_STAT t) 30 then s1.bump (Cnt.monTileRec t 2)
    else
      let x := s.recOf t
      let slot := seq % 512
      let s2 :=
        if slot ∈ x.retired then s1.bump (Cnt.monTileRec t 3)
        else
          let old := Sparse.get (fun _ => []) x.slots slot
          let x1 := { x with slots := Sparse.set (fun _ => []) x.slots slot (s.recWords t seq code src late detail) }
          let s2 := (s1.setRec t x1).bump (Cnt.monTileRec t 0)
          if old = [] then s2.bumpSatF (Reg.REC_T_STAT t) 9 0 1 else s2.bump (Cnt.monTileRec t 1)
      let x2 := s2.recOf t
      match x2.post with
      | some n =>
        if n ≤ 1 then (s2.setRec t { x2 with post := none }).pb (Reg.REC_T_STAT t) 30 true
        else s2.setRec t { x2 with post := some (n - 1) }
      | none =>
        let ctrl := s2.rd (Reg.REC_T_CTRL t)
        if bit ctrl 28 && fld ctrl 15 8 == code then
          if fld ctrl 24 16 = 0 then s2.pb (Reg.REC_T_STAT t) 30 true
          else s2.setRec t { x2 with post := some (fld ctrl 24 16) }
        else s2

/-- An event sent to a recorder: 0-3 of the tiles, 4 of the package. -/
def State.event (s : State) (rec code src : Nat) (late : Bool) (detail : Nat) : State :=
  if rec = 4 then s.pkgEvent code src late (toW detail) else s.tileEvent rec code src late (toW detail)

/-- An event of the hub sent to the package recorder. -/
def State.hubEvent (s : State) (code detail : Nat) : State := s.pkgEvent code 4 false (toW detail)

/-- SV_LAST, R414. -/
def lastWord (cls cause chk unit : Nat) : Word := toW (cls * 2 ^ 28 + cause * 2 ^ 20 + chk * 2 ^ 12 + unit % 2 ^ 12)

/-- The detail of events 0x0A and 0x0B, R504. -/
def faultDetail (cls cause chk unit : Nat) : Nat := chk * 2 ^ 24 + cls * 2 ^ 20 + cause * 2 ^ 12 + unit % 2 ^ 12

/-- A spared fault (R399): spared in the summary, event 0x0B in the recorder of the detecting die; no unit is faulted. -/
def State.spared (s : State) (chk unit die : Nat) : State :=
  let s1 := ((s.wr Reg.SV_LAST (lastWord 7 0 chk unit)).bump (Cnt.svDecl 6)).faultSum 6
  s1.event die 0x0B die false (faultDetail 7 0 chk unit)

end Sys2Proof.Machine
end

