-- ==== Sys2Proof/Machine/Grid.lean ====
section
/-!
DEFINITION. Carriers on the frame grid: the symbols of a carrier (R125, R126), which symbols its TDD pattern makes downlink and
uplink (R249, R250), and the transmit and receive demands of a path (R251). Grid units are those of `gridUnits`.
-/
namespace Sys2Proof.Machine

def State.car (s : State) (c : Nat) : CarSt := Sparse.get (fun _ => {}) s.cars c
def State.setCar (s : State) (c : Nat) (x : CarSt) : State := { s with cars := Sparse.set (fun _ => {}) s.cars c x }

/-- Numerology and prefix of a CAR_CFG word (R141). -/
def cfgMu (w : Word) : Nat := fld w 25 24
def cfgExt (w : Word) : Bool := bit w 23
def cfgDl (w : Word) : Bool := bit w 31
def cfgUl (w : Word) : Bool := bit w 30
def cfgValid (w : Word) : Bool := cfgDl w || cfgUl w
def cfgNprb (w : Word) : Nat := fld w 10 0 + 1
def cfgFft (w : Word) : Nat := fld w 19 16

/-- Transform blocks of a carrier, R123. -/
def carBlocks (cfg : Word) : Nat :=
  let pmax := [17, 34, 68, 136, 273, 546].getD (cfgFft cfg - 8) 546
  (cfgNprb cfg + pmax - 1) / pmax

/-- The subcarrier spacing in kHz. -/
def carScs (cfg : Word) : Nat := 15 * 2 ^ cfgMu cfg

/-- The span of a carrier in kHz, and its signed offset in kHz (R121). -/
def carSpan (cfg : Word) : Nat := cfgNprb cfg * 12 * carScs cfg
def carOfs (ofs : Word) : Int := 5 * sext ofs.toNat 18

/-- The transform size of a carrier. -/
def carN (cfg : Word) : Nat := 2 ^ cfgFft cfg

/-- The first PRB of block `k` and its number of PRBs (R123). -/
def blockStart (cfg : Word) (k : Nat) : Nat := k * cfgNprb cfg / carBlocks cfg
def blockCount (cfg : Word) (k : Nat) : Nat := blockStart cfg (k + 1) - blockStart cfg k

/-- The subcarrier of the carrier on which bin 0 of block `k` lies, R123. -/
def blockZero (cfg : Word) (k : Nat) : Nat := 12 * blockStart cfg k + 6 * blockCount cfg k

/-- The live configuration of carrier `c`. -/
def State.carCfg (s : State) (c : Nat) : Word := s.rd (Reg.CAR_CFG c)

/-- A carrier is valid when dl_en or ul_en is 1 in its live configuration, R120. -/
def State.carValid (s : State) (c : Nat) : Bool := cfgValid (s.carCfg c)

/-- Downlink advance and uplink compensation in ns, held to the ranges of R120 (R129). -/
def State.dlAdv (s : State) (c : Nat) : Nat := min 50000 (s.rf (Reg.CAR_ADV c) 15 0)
def State.ulComp (s : State) (c : Nat) : Nat := min 2000 (s.rf (Reg.CAR_ADV c) 26 16)

/-- Symbols of a slot: 14, or 12 under extended prefix (R120). -/
def symsPerSlot (ext : Bool) : Nat := if ext then 12 else 14

/-- The start of slot `n` of a carrier, in grid units (R126). -/
def carSlotStart (mu : Nat) (ext : Bool) (n : Int) : Int :=
  if ext then n * ((245760 / 2 ^ mu : Nat) : Int) else slotStart mu n

/-- The slot of a carrier that a grid unit lies in (R126). -/
def carSlotAt (mu : Nat) (ext : Bool) (u : Int) : Int :=
  if ext then u / ((245760 / 2 ^ mu : Nat) : Int) else slotAt mu u

/-- Long symbols before symbol `l` of a normal-prefix slot: the symbols that start on a half-subframe boundary (R125). -/
def longBefore (mu : Nat) (n : Int) (l : Nat) : Nat :=
  if mu = 0 then (if l = 0 then 0 else if l ≤ 7 then 1 else 2)
  else if l = 0 then 0
  else if n % ((2 ^ (mu - 1) : Nat) : Int) = 0 then 1 else 0

/-- The start of symbol `l` of slot `n`, in grid units (R126). -/
def symStart (mu : Nat) (ext : Bool) (n : Int) (l : Nat) : Int :=
  carSlotStart mu ext n +
    (if ext then ((l * (20480 / 2 ^ mu) : Nat) : Int)
     else ((l * (17536 / 2 ^ mu) + 128 * longBefore mu n l : Nat) : Int))

/-- The symbol of a slot that a grid unit lies in. -/
def symAt (mu : Nat) (ext : Bool) (n : Int) (u : Int) : Nat :=
  ((List.range (symsPerSlot ext)).filter (fun l => decide (symStart mu ext n l ≤ u))).length - 1

/-- The end of symbol `l` of slot `n`, in grid units. -/
def symEnd (mu : Nat) (ext : Bool) (n : Int) (l : Nat) : Int :=
  if l + 1 < symsPerSlot ext then symStart mu ext n (l + 1) else carSlotStart mu ext (n + 1)

/-- The time of a grid unit, rounded down to 2^-40 ns. -/
def State.gridTimeF (s : State) (u : Int) : Int := (s.gridOrigin : Int) + u * ((3125 * nsU : Nat) : Int) / 768

/-- The first slot boundary of a numerology and prefix at or after a time: its time (R135, R157). -/
def State.slotBoundaryFrom (s : State) (mu : Nat) (ext : Bool) (t : Nat) : Nat :=
  let u := s.gridUnits t
  let n := carSlotAt mu ext u
  let b := s.gridTime (carSlotStart mu ext n)
  if t ≤ b then b else s.gridTime (carSlotStart mu ext (n + 1))

/-- The first symbol boundary of a carrier at or after a time. -/
def State.symBoundaryFrom (s : State) (mu : Nat) (ext : Bool) (t : Nat) : Nat :=
  let u := s.gridUnits t
  let n := carSlotAt mu ext u
  let l := symAt mu ext n u
  let b := s.gridTime (symStart mu ext n l)
  if t ≤ b then b else s.gridTime (symEnd mu ext n l)

/-- A TDD register for a symbol of carrier `c` whose air time is `air`: the old value while a change has not taken effect for
symbols that began before its boundary (R253). -/
def State.tddReg (s : State) (c : Nat) (air : Int) (a : Nat) : Word :=
  match Sparse.get (fun _ => none) s.tddOld c with
  | some o => if air < (o.until_ : Int) then Sparse.get s.rd o.regs a else s.rd a
  | none => s.rd a

/-- Whether symbol `l` of slot `n` of carrier `c` is downlink (R249, R250). -/
def State.isDl (s : State) (c : Nat) (air : Int) (n : Int) (l : Nat) : Bool :=
  let cfg := s.carCfg c
  if !cfgValid cfg then false
  else
    let t := s.tddReg c air (Reg.TDD_CFG c)
    if bit t 31 then
      let j := (n % ((fld t 6 0 + 1 : Nat) : Int)).toNat
      decide (l < symsPerSlot (cfgExt cfg)) && bit (s.tddReg c air (Reg.TDD_DL c j)) l
    else cfgDl cfg

/-- Whether symbol `l` of slot `n` of carrier `c` is uplink (R249, R250). -/
def State.isUl (s : State) (c : Nat) (air : Int) (n : Int) (l : Nat) : Bool :=
  let cfg := s.carCfg c
  if !cfgValid cfg then false
  else
    let t := s.tddReg c air (Reg.TDD_CFG c)
    if bit t 31 then
      let j := (n % ((fld t 6 0 + 1 : Nat) : Int)).toNat
      decide (l < symsPerSlot (cfgExt cfg)) && bit (s.tddReg c air (Reg.TDD_UL c j)) l
    else cfgUl cfg

/-- Whether a symbol of carrier `c` that satisfies `want` covers the time `t`, its span being widened by `before` ns ahead of
its air time and `after` ns past its end (both signed) (R251). The edges are rounded down to a tick, so `t` is the time of the
tick after the one asked about. -/
def State.covers (s : State) (c : Nat) (want : Int → Int → Nat → Bool) (before after : Int) (t : Nat) : Bool :=
  let cfg := s.carCfg c
  let mu := cfgMu cfg
  let ext := cfgExt cfg
  let ti : Int := (t : Int)
  let lo := s.gridUnits ((ti - after * (nsU : Int)).toNat)
  let hi := s.gridUnits ((ti + before * (nsU : Int)).toNat)
  let n0 := carSlotAt mu ext lo - 1
  let k := (carSlotAt mu ext hi - n0 + 1).toNat
  (List.range (min k 16)).any fun i =>
    let n := n0 + (i : Int)
    (List.range (symsPerSlot ext)).any fun l =>
      let air := s.gridTimeF (symStart mu ext n l)
      let fin := s.gridTimeF (symEnd mu ext n l)
      decide (air - before * (nsU : Int) < ti) && decide (ti ≤ fin + after * (nsU : Int)) && want air n l

/-- The transmit demand of a row's paths from carrier `c` at tick `n`, R251. -/
def State.txDemandC (s : State) (r c : Nat) (n : Nat) : Bool :=
  let t := s.timeAt (n + 1)
  let m := s.tddReg c (t : Int) (Reg.TDD_TXT r)
  s.covers c (fun air k l => s.isDl c air k l) ((s.dlAdv c : Int) + (min 10000 (fld m 15 0) : Nat)) ((min 10000 (fld m 31 16) : Nat) - (s.dlAdv c : Int)) t

/-- The receive demand of a row's paths from carrier `c` at tick `n`, R251. -/
def State.rxDemandC (s : State) (r c : Nat) (n : Nat) : Bool :=
  let t := s.timeAt (n + 1)
  let m := s.tddReg c (t : Int) (Reg.TDD_RXT r)
  s.covers c (fun air k l => s.isUl c air k l) ((min 10000 (fld m 15 0) : Nat) - (s.ulComp c : Int)) ((min 10000 (fld m 31 16) : Nat) + (s.ulComp c : Int)) t

/-- The demands of all carriers joined, R251. -/
def State.txDemand (s : State) (r n : Nat) : Bool := (List.range 4).any (fun c => s.txDemandC r c n)
def State.rxDemand (s : State) (r n : Nat) : Bool := (List.range 4).any (fun c => s.rxDemandC r c n)

/-- Whether no transmit demand of a row begins in the `ticks` after tick `n` (R254). Symbols are at least 13,000 ticks long,
so a demand that begins there is seen at one of the ticks sampled every 800 ticks. -/
def State.txQuietFor (s : State) (r n ticks : Nat) : Bool :=
  (List.range (ticks / 800 + 1)).all (fun i => !s.txDemand r (n + min ticks (800 * i)))

end Sys2Proof.Machine
end

