-- ==== Sys2Proof/Machine/Bar2.lean ====
section
/-!
DEFINITION. The stores behind BAR2: their windows (R154, R171), their words and tags (R14, R388, R389) and writes to them (R155,
R157).
-/
namespace Sys2Proof.Machine

/-- The residue of a signed value, R388. -/
def residue (v : Int) : Nat := (v % 15).toNat

/-- The 48-bit word of a complex value: I in [47:24], Q in [23:0] (R143). -/
def packCx (i q : Int) : Nat := wrapN i 24 * 2 ^ 24 + wrapN q 24

/-- The Selvedge tag of a complex value: the residue of I in the upper nibble (R388). -/
def tagCx (i q : Int) : Nat := residue i * 16 + residue q

/-- The tag of a 48-bit word. -/
def tag48 (v : Nat) : Nat := tagCx (sext (v / 2 ^ 24) 24) (sext v 24)

/-! ### The memory -/

/-- One byte of the stores; unlisted bytes read 0 (DESIGN CHOICE, log entry 5). -/
def State.memByte (s : State) (a : Nat) : Byte := Sparse.get (fun _ => 0) s.tr.mem a

/-- Write one byte of the stores. -/
def State.setByte (s : State) (a : Nat) (b : Byte) : State :=
  { s with tr := { s.tr with mem := Sparse.set (fun _ => 0) s.tr.mem a b } }

/-- Write `n` bytes, least significant first. -/
def State.setBytes (s : State) (a n v : Nat) : State :=
  s.forEach (List.range n) fun u k => u.setByte (a + k) (BitVec.ofNat 8 (v / 2 ^ (8 * k)))

/-- Read `n` bytes, least significant first. -/
def State.memNat (s : State) (a n : Nat) : Nat :=
  (List.range n).foldl (fun v k => v + (s.memByte (a + k)).toNat * 2 ^ (8 * k)) 0

/-- A complex word of a 64-bit slot as its consumer takes it (R14, R393), and whether its check counts a failure. -/
def State.readSlot (s : State) (a : Nat) : Cx × Bool :=
  let v := s.memNat a 6
  let tag := (s.memByte (a + 6)).toNat
  let sealed := tag / 16 = 15 ∨ tag % 16 = 15
  ({ i := sext (v / 2 ^ 24) 24, q := sext v 24, bad := decide (tag ≠ tag48 v) }, decide (tag ≠ tag48 v ∧ ¬sealed))

/-- Write a 48-bit word to a slot with the tag of its value, R155. -/
def State.writeSlot (s : State) (a v : Nat) : State := (s.setBytes a 6 v).setByte (a + 6) (BitVec.ofNat 8 (tag48 v))

/-- Write a complex word to a slot; a poisoned one keeps its poison in the tag (R395). -/
def State.writeCx (s : State) (a : Nat) (w : Cx) : State :=
  let u := s.writeSlot a (packCx (satN w.i 24) (satN w.q 24))
  if w.bad then u.setByte (a + 6) 0xFF else u

/-! ### Windows -/

/-- The physical store that is live. -/
def State.liveStore (s : State) : Nat := s.rf Reg.TR_STATUS 0 0

/-- Where weight store `k` and beam table `k` lie in the memory. -/
def wsBase (k : Nat) : Nat := 0x04000000 + k * 0x04000000
def btBase (k : Nat) : Nat := 0x0C000000 + k * 0x00400000

/-- The window of R154 that a BAR2 offset lies in: 0 channel store, 1 idle weight store, 2 live weight store, 3 staged beam table
and map, 4 live beam table and map; and the offset in it. -/
def barWindow (o : Nat) : Nat × Nat :=
  if o < 0x04000000 then (0, o)
  else if o < 0x08000000 then (1, o - 0x04000000)
  else if o < 0x0C000000 then (2, o - 0x08000000)
  else if o < 0x0C400000 then (3, o - 0x0C000000)
  else if o < 0x0C800000 then (4, o - 0x0C400000)
  else (5, o)

/-- What lies at an offset of a window (R154, R171, R153, R173): nothing, a 32-bit word with its writable bits, or a 64-bit
slot. -/
inductive BarCell where
  | none
  | word (mask : Nat)
  | slot
  deriving DecidableEq, Repr

/-- The writable bits of word `k` of a UE or host-set entry (R153) and of a directory entry (R173). -/
def entryMask (k : Nat) : Nat := [0xFFFF7FFF, 0xCF7FF7FF, 0x00007FFF].getD k 0
def dirMask (k : Nat) : Nat := [0xFFFF7FFF, 0xCF7FF7FF, 0xC0007FFF, 0xFFFFFFFF, 0xFFFFFFFF].getD k 0

/-- The cell at an offset of a window. -/
def barCell (w o : Nat) : BarCell :=
  if w = 0 then
    if o < 0x10000 then .word (dirMask (o / 4 % 8))
    else if o < 0x20000 then .slot
    else if o < 0x20000 + 21674 * 0x300 then .slot
    else .none
  else if w = 1 ∨ w = 2 then
    if o < 0x28000 then .word (entryMask (o / 4 % 8))
    else if o < 0x100000 then .none
    else if o < 0x100000 + 28672 * 0x300 then .slot
    else .none
  else if w = 3 ∨ w = 4 then
    if o < 0x300000 then .slot
    else if o < 0x300200 then .word 0xFFFFFFFF
    else .none
  else .none

/-- The memory address of an offset of a window: the windows of the stores and tables follow the live store (R154). -/
def State.barPhys (s : State) (w o : Nat) : Nat :=
  let live := s.liveStore
  if w = 0 then o
  else if w = 1 then wsBase (1 - live) + o
  else if w = 2 then wsBase live + o
  else if w = 3 then btBase (1 - live) + o
  else btBase live + o

/-- The part of the idle copies that the carry-forward copy takes or leaves whole (R159): an entry, a vector slot, a beam entry or
a word of the valid map. -/
def granule (a : Nat) : Nat :=
  if a < btBase 0 then
    let o := (a - wsBase 0) % 0x04000000
    let b := a - o
    if o < 0x28000 then b + o / 32 * 32 else b + 0x100000 + (o - 0x100000) / 0x300 * 0x300
  else
    let o := (a - btBase 0) % 0x00400000
    let b := a - o
    if o < 0x300000 then b + o / 0x300 * 0x300 else b + o / 4 * 4

/-- Note a write to the idle copies while the carry-forward copy runs (R159). -/
def State.markDirty (s : State) (a : Nat) : State :=
  if s.rb Reg.TR_STATUS 2 ∧ wsBase 0 ≤ a ∧ granule a ∉ s.tr.dirty then
    { s with tr := { s.tr with dirty := granule a :: s.tr.dirty } }
  else s

/-- A read of a 32-bit word of BAR2 (R14, R154, R171). -/
def State.readBar2 (s : State) (o : Nat) : Word :=
  let (w, off) := barWindow (o / 4 * 4)
  match barCell w off with
  | .none => 0
  | _ => toW (s.memNat (s.barPhys w off) 4)

/-- The mask of the bits that four byte enables select (R8). -/
def enableMask (be : Nat) : Nat := (List.range 4).foldl (fun m k => if bitN be k then m + 0xFF * 2 ^ (8 * k) else m) 0

/-- The old bits where the mask is 0, the new bits where it is 1. -/
def mergeBits (old new mask : Nat) : Nat := ((toW old &&& toW (0xFFFFFFFF - mask)) ||| (toW new &&& toW mask)).toNat

/-- What a BAR2 write came to: done, refused because the store is frozen (R157), or discarded. -/
inductive BarWrite where
  | done
  | frozen
  | discarded
  deriving DecidableEq, Repr

/-- A write of one 32-bit word of BAR2 with byte enables (R155, R157, R171): a slot is written when its high half is; offsets that
are not listed discard the write; a read-only window counts it and sets wr_live; a frozen one counts it and sets wr_pend. -/
def State.writeBar2 (s : State) (o : Nat) (v : Word) (be : Nat) : State × BarWrite :=
  let (w, off) := barWindow (o / 4 * 4)
  if w = 2 ∨ w = 4 then ((s.bump (Cnt.trCommit 4)).pb Reg.TR_STATUS 8 true, .discarded)
  else match barCell w off with
  | .none => (s, .discarded)
  | c =>
    if (w = 1 ∨ w = 3) ∧ s.rb Reg.TR_STATUS 1 then ((s.bump (Cnt.trCommit 3)).pb Reg.TR_STATUS 9 true, .frozen)
    else
      let a := s.barPhys w off
      let m := enableMask be
      match c with
      | .word mask =>
        let new := mergeBits (s.memNat a 4) v.toNat ((toW m &&& toW mask).toNat)
        ((s.setBytes a 4 new).markDirty a, .done)
      | _ =>
        let slot := a / 8 * 8
        let low := ((Sparse.get (fun _ => none) s.tr.lows slot).map BitVec.toNat).getD (s.memNat slot 4)
        if a = slot then
          ({ s with tr := { s.tr with lows := Sparse.set (fun _ => none) s.tr.lows slot (some (toW (mergeBits low v.toNat m))) } }, .done)
        else
          let hi := mergeBits (s.memNat a 2) (v.toNat % 2 ^ 16) (m % 2 ^ 16)
          let s1 := { s with tr := { s.tr with lows := Sparse.set (fun _ => none) s.tr.lows slot none } }
          ((s1.writeSlot slot (hi * 2 ^ 32 + low)).markDirty slot, .done)

/-- A write of bytes to BAR2, four at a time (R464); true when any word was refused because the store is frozen. -/
def State.writeBytes2 : State → Nat → List Byte → State × Bool
  | s, o, b0 :: b1 :: b2 :: b3 :: rest =>
    let v := toW (b0.toNat + b1.toNat * 2 ^ 8 + b2.toNat * 2 ^ 16 + b3.toNat * 2 ^ 24)
    let (s1, r) := s.writeBar2 o v 15
    let (s2, bad) := s1.writeBytes2 (o + 4) rest
    (s2, bad || r == .frozen)
  | s, _, _ => (s, false)

/-! ### Windows of a carrier -/

/-- The close value of a carrier's downlink U-plane window in ns: at least 40 us plus its downlink advance (R101). -/
def State.winClose (s : State) (c : Nat) : Nat := max (s.rf (Reg.FH_WIN_CLOSE c) 19 0) (40000 + s.dlAdv c)
def State.winDepth (s : State) (c : Nat) : Nat := s.rf (Reg.FH_WIN_DEPTH c) 19 0
def State.winCpLead (s : State) (c : Nat) : Nat := max (s.rf (Reg.FH_WIN_CPLEAD c) 19 0) 10000
def State.winUlCp (s : State) (c : Nat) : Nat := max (s.rf (Reg.FH_WIN_ULCP c) 19 0) 10000

/-- The lead of a weight-store commit in ns: lead_us within its limits, and at least L (R157, R169). -/
def State.commitLead (s : State) : Nat :=
  let cs := (List.range 4).filter (fun c => cfgDl (s.carCfg c))
  let l := cs.foldl (fun m c => max m (s.winClose c + s.winCpLead c)) 0
  max (1000 * clampN (s.rf Reg.TR_WC_CFG 10 0) 50 2000) (l + 10000)

/-- The first slot boundary of wc_mu at or after now plus the lead (R157, R160): its time. -/
def State.commitBoundary (s : State) : Nat :=
  s.slotBoundaryFrom (s.rf Reg.TR_WC_CFG 25 24) false (s.now + s.commitLead * nsU)

/-- The Trellis values that a symbol with this air time uses (R160). -/
def State.trVals (s : State) (air : Nat) : TrVals :=
  (s.tr.vers.foldl (fun (v : TrVals) (x : Nat × TrVals) => if x.1 ≤ air then x.2 else v) {})

/-- The store, and its ws_mode, that a symbol with this air time uses (R157). -/
def State.storeFor (s : State) (air : Nat) : Nat × Bool :=
  let live := s.liveStore
  let mode := s.rb Reg.TR_STATUS 3
  match s.tr.exec with
  | none => (live, mode)
  | some e =>
    let new := if e.switched then live else 1 - live
    if e.b ≤ air then (new, e.mode) else (1 - new, e.oldMode)

end Sys2Proof.Machine
end

