-- ==== Sys2Proof/Machine/Signal.lean ====
section
/-!
DEFINITION. The arithmetic of the sample stages (R123, R127, R128, R130, R131, R233-R242, R266-R270, R288, R304, R305): complex words, trigonometry,
transforms, and each stage of the transmit and receive chains as a function of the streams that enter it. A stream gives the sample of
each index; the index of a sample is its time at the RF balls (R235, R306).
-/
namespace Sys2Proof.Machine

/-! ### Complex words -/

/-- A stream of complex samples. -/
abbrev Sig := Int → Cx

def cx0 : Cx := { i := 0, q := 0 }
def cxBad : Cx := { i := 0, q := 0, bad := true }
def Cx.isZero (a : Cx) : Bool := !a.bad && a.i == 0 && a.q == 0

/-- Divide by 2^n, to nearest with ties away from zero. -/
def roundShift (v : Int) (n : Nat) : Int :=
  if n = 0 then v
  else if 0 ≤ v then (v + 2 ^ (n - 1)) / 2 ^ n
  else -((-v + 2 ^ (n - 1)) / 2 ^ n)

/-- Division by a positive number to the nearest, ties away from zero. -/
def divRound (a : Int) (b : Nat) : Int :=
  if 0 ≤ a then (2 * a + b) / (2 * b : Nat) else -((2 * (-a) + b) / (2 * b : Nat))

/-- The exact complex product, and the conjugate. -/
def cxMul (a b : Cx) : Cx := { i := a.i * b.i - a.q * b.q, q := a.i * b.q + a.q * b.i, bad := a.bad || b.bad }
def cxConj (a : Cx) : Cx := { a with q := -a.q }
def cxAdd (a b : Cx) : Cx := { i := a.i + b.i, q := a.q + b.q, bad := a.bad || b.bad }
def cxSub (a b : Cx) : Cx := { i := a.i - b.i, q := a.q - b.q, bad := a.bad || b.bad }
def cxSum (l : List Cx) : Cx := l.foldl cxAdd cx0

/-- The exact sum of products (R144). -/
def cxDot (l : List (Cx × Cx)) : Cx := l.foldl (fun (acc : Cx) (p : Cx × Cx) => cxAdd acc (cxMul p.1 p.2)) cx0

/-- Both components divided by 2^n, to nearest with ties away from zero. -/
def cxRound (n : Nat) (a : Cx) : Cx := { a with i := roundShift a.i n, q := roundShift a.q n }

/-- Both components held to `w` bits, and how many did not fit (R234, R305); a poisoned word carries zero. -/
def cxSat (w : Nat) (a : Cx) : Cx × Nat :=
  if a.bad then (cxBad, 0)
  else ({ i := satN a.i w, q := satN a.q w }, b2n (satN a.i w != a.i) + b2n (satN a.q w != a.q))

/-- |x|^2. -/
def Cx.power (a : Cx) : Nat := (a.i * a.i + a.q * a.q).toNat

/-- A signed component shifted left. -/
def cxShl (n : Nat) (a : Cx) : Cx := { a with i := a.i * 2 ^ n, q := a.q * 2 ^ n }

/-! ### Angles -/

/-- pi times 2^64. -/
def pi64 : Nat := 57952155664616982739

/-- Cosine and sine of x * 2^-64 radians, in units of 2^-64, by their power series (for x up to a quarter turn). -/
def cosSin64 (x : Int) : Int × Int :=
  let x2 := x * x / 2 ^ 64
  let series := fun (first : Int) (odd : Nat) => ((List.range 16).foldl (fun (a : Int × Int) (k : Nat) =>
    let t := -(a.2 * x2 / 2 ^ 64) / (((2 * k + 1 + odd) * (2 * k + 2 + odd) : Nat) : Int)
    (a.1 + t, t)) (first, first)).1
  (series (2 ^ 64) 0, series x 1)

/-- Cosine and sine of `num / den` turns in units of 2^-60, exact at the quarters (DESIGN CHOICE of the precision, log entry 50). -/
def turn (num : Int) (den : Nat) : Int × Int :=
  let quarter := 4 * num / (den : Int)
  let r := 4 * num - quarter * (den : Int)
  let (c, s) := cosSin64 (r * ((pi64 / 2 : Nat) : Int) / (den : Int))
  let c := roundShift c 4
  let s := roundShift s 4
  match (quarter % 4).toNat with
  | 0 => (c, s)
  | 1 => (-s, c)
  | 2 => (-c, -s)
  | _ => (s, -c)

/-- A word turned by `num / den` turns: the exact product with the cosine and sine of `turn`, in units of 2^-60 of the word. -/
def cxTurn (a : Cx) (num : Int) (den : Nat) : Cx :=
  let t := turn num den
  cxMul a { i := t.1, q := t.2 }

/-! ### Filters and transforms -/

/-- A filter of a stage at sample `n` of the stream that enters it. The spec gives its bands and not its taps: its output is a value of
`Config.filter`, of the 64 samples about `n`; zeros give zero, and a poisoned sample poisons what it reaches (R314). -/
def fir (stage par phase : Nat) (x : Sig) (n : Int) : Cx :=
  let w := (List.range 64).map (fun k => x (n - 31 + (k : Int)))
  if w.any Cx.bad then cxBad
  else if w.all Cx.isZero then cx0
  else
    let y := Config.filter stage par phase (w.map (fun a => (a.i, a.q)))
    { i := y.1, q := y.2 }

/-- Sample `m` of the unnormalised inverse transform of size `n` of bins (R130), in units of 2^-60. -/
def idft (n : Nat) (bins : List (Int × Cx)) (m : Int) : Cx :=
  cxSum (bins.map (fun (b : Int × Cx) => cxTurn b.2 (b.1 * m % (n : Int)) n))

/-- Bin `k` of the forward transform of size `n` (R131), in units of 2^-60. -/
def dft (n : Nat) (xs : List Cx) (k : Int) : Cx :=
  cxSum (xs.zipIdx.map (fun (x : Cx × Nat) => cxTurn x.1 (-(k * (x.2 : Int)) % (n : Int)) n))

/-! ### The transmit stages, R233-R242 -/

/-- Half-band interpolation of the link stream by `d` to 3.2 GS/s. -/
def upSample (d : Nat) (link : Sig) (n : Int) : Cx := (cxSat 24 (fir 1 d (n % (d : Int)).toNat link (n / (d : Int)))).1

/-- The delay of TX_DELAY or RX_DELAY: coarse in whole samples, fine in 1/256 sample (R236, R325). -/
def delaySample (word : Nat) (x : Sig) (n : Int) : Cx :=
  let at_ := n - ((word / 256 : Nat) : Int)
  if word % 256 = 0 then x at_ else (cxSat 24 (fir 2 0 (word % 256) x at_)).1

/-- The multiplier (g cos, g sin) of a gain in units of 2^-`unit` and an angle in 2^-16 turn, in units of 2^-22 (R237). -/
def multiplier (g unit angle : Nat) : Cx :=
  let t := turn (angle : Int) 65536
  cxRound (60 + unit - 22) { i := (g : Int) * t.1, q := (g : Int) * t.2 }

/-- The gain stage: the exact product, rounded and saturated. -/
def gainSample (m x : Cx) : Cx × Nat := cxSat 24 (cxRound 22 (cxMul x m))

/-- Crest reduction: the threshold in the units of a component (R238). -/
def crestThr (cfr : Nat) : Nat := cfr % 4096 * 2048

/-- Whether sample `n` is a peak above the threshold. -/
def crestPeak (thr : Nat) (x : Sig) (n : Int) : Bool :=
  !(x n).bad && decide (thr * thr < (x n).power) && decide ((x (n - 1)).power ≤ (x n).power) && decide ((x (n + 1)).power < (x n).power)

/-- One pass of the crest stage: each peak within reach subtracts its pulse. The pulse is confined to the spans of the valid downlink
carriers, which `spans` names; the spec gives no more of it, so it is a value of `Config.crestPulse`. -/
def crestPass (thr : Nat) (spans : List Nat) (x : Sig) (n : Int) : Cx :=
  ((List.range 64).map (fun k => n - 32 + (k : Int))).foldl (fun (a : Cx) (j : Int) =>
    if crestPeak thr x j then
      let p := Config.crestPulse thr spans ((x j).i, (x j).q) (n - j)
      { a with i := a.i - p.1, q := a.q - p.2 }
    else a) (x n)

/-- The stream after a number of passes. -/
def crestPasses (thr : Nat) (spans : List Nat) (x : Sig) : Nat → Sig
  | 0 => x
  | k + 1 => fun n => (cxSat 24 (crestPass thr spans (crestPasses thr spans x k) n)).1

/-- The crest stage at a sample (R238): its output, the components that saturated, and whether its peak was reduced. -/
def crestSample (cfr : Nat) (spans : List Nat) (x : Sig) (n : Int) : Cx × Nat × Nat :=
  if bitN cfr 31 then
    let thr := crestThr cfr
    let passes := cfr / 2 ^ 16 % 4 + 1
    let last := crestPasses thr spans x (passes - 1)
    let y := cxSat 24 (crestPass thr spans last n)
    (y.1, y.2, b2n ((List.range passes).any (fun k => crestPeak thr (crestPasses thr spans x k) n)))
  else (x n, 0, 0)

/-- The components of a coefficient or tap word pair: I in bits [47:24], Q in [23:0] (R143). -/
def pairI (lo hi : Word) : Int := sext ((lo.toNat + hi.toNat % 2 ^ 16 * 2 ^ 32) / 2 ^ 24) 24
def pairQ (lo _hi : Word) : Int := sext lo.toNat 24
/-- The word pair of two components. -/
def pairLo (i q : Int) : Word := toW (wrapN q 24 + wrapN i 24 * 2 ^ 24)
def pairHi (i : Int) : Word := toW (wrapN i 24 / 2 ^ 8)

/-- Slot `n` of a set of coefficients or taps. -/
def slotCx (ws : List Word) (n : Nat) : Cx :=
  let lo := wordAt ws (2 * n)
  let hi := wordAt ws (2 * n + 1)
  { i := pairI lo hi, q := pairQ lo hi }

/-- The model sizes of a PR_CFG word (R300): K, M, the tap spacing, Kc and Mc. -/
def prK (cfg : Word) : Nat := clampN (fld cfg 26 24) 1 6
def prM (cfg : Word) : Nat := min 11 (fld cfg 23 20) + 1
def prD (cfg : Word) : Nat := [1, 2, 4, 4].getD (fld cfg 19 18) 4
def prKc (cfg : Word) : Nat := fld cfg 17 16 + 1
def prMc (cfg : Word) : Nat := fld cfg 15 14 + 1

/-- The envelope e (R266). -/
def envelopeOf (x : Cx) : Nat := (roundShift (x.power : Int) 23).toNat

/-- A word times the envelope, over 2^23. -/
def timesEnv (x : Cx) (e : Nat) : Cx := cxRound 23 { x with i := x.i * (e : Int), q := x.q * (e : Int) }

/-- The basis terms psi_1 .. psi_K of a sample, and the components that did not fit in 26 bits (R266). -/
def psiTerms (k : Nat) (x : Cx) : List Cx × Nat :=
  (List.range (k - 1)).foldl (fun (a : List Cx × Nat) _ =>
    let y := timesEnv (a.1.getLastD x) (envelopeOf x)
    let i := satN y.i 26
    let q := satN y.q 26
    (a.1 ++ [{ y with i := i, q := q }], a.2 + b2n (i != y.i) + b2n (q != y.q))) ([x], 0)

/-- Template `k` of a neighbour's sample `xq` beside the path's own (R267). -/
def phiTerm (k : Nat) (xp xq : Cx) : Cx :=
  let e := envelopeOf xp
  if k = 0 then xq
  else if k = 1 then timesEnv xq e
  else if k = 2 then cxRound 23 (cxMul (cxConj xq) (cxRound 23 (cxMul xp xp)))
  else timesEnv (timesEnv xq e) e

/-- The terms of the Press model of a path at sample `n`, each with its slot (R266, R267, R271): `x` is the path's stream, `qs` its
neighbours' in slot order. -/
def pressTerms (cfg : Word) (x : Sig) (qs : List Sig) (n : Int) : List (Nat × Cx) :=
  let d : Int := (prD cfg : Int)
  let self := (List.range (prM cfg)).flatMap fun (m : Nat) =>
    (psiTerms (prK cfg) (x (n - (m : Int) * d))).1.zipIdx.map (fun (t : Cx × Nat) => ((m * prK cfg + t.2 : Nat), t.1))
  let cpl := if bit cfg 13 then
      qs.zipIdx.flatMap fun (q : Sig × Nat) => (List.range (prMc cfg)).flatMap fun (m : Nat) => (List.range (prKc cfg)).map fun (k : Nat) =>
        let at_ := n - (m : Int) * d
        ((48 + q.2 * prKc cfg * prMc cfg + m * prKc cfg + k : Nat), phiTerm k (x at_) (q.1 at_))
    else []
  self ++ cpl

/-- The Press at a sample (R266-R268, R270): its output and the components that saturated; a poisoned sample of the path or of a neighbour
poisons it. With en = 0 the sample passes. -/
def pressSample (cfg : Word) (coefs : List Word) (x : Sig) (qs : List Sig) (n : Int) : Cx × Nat :=
  if bit cfg 31 then
    let y := cxSat 24 (cxRound 20 (cxDot ((pressTerms cfg x qs n).map (fun (t : Nat × Cx) => (slotCx coefs t.1, t.2)))))
    if y.1.bad then y else (y.1, y.2 + (psiTerms (prK cfg) (x n)).2)
  else (x n, 0)

/-- Interpolation by 5 to 16.0 GS/s, with the thermal back-off multiplier in units of 2^-16 (R233, R525), at DAC clock `k`. -/
def interpSample (par mult : Nat) (y : Sig) (k : Int) : Cx × Nat :=
  let v := fir 3 par (k % 5).toNat y (k / 5)
  cxSat 24 (cxRound 16 { v with i := v.i * (mult : Int), q := v.q * (mult : Int) })

/-- The NCO phase of a word and phase offset at DAC clock `k` (R241); a receive path's at ADC sample k is the same with
2 * word (R322). -/
def ncoPhase (word ph k : Nat) : Nat := (word * k + ph * 2 ^ 32) % 2 ^ 48

/-- The real value that leaves the NCO (R233, R240, R241): conjugated in mixed mode, turned by the phase as a 20-bit angle. -/
def ncoSample (mixed : Bool) (phase : Nat) (x : Cx) : Int :=
  let a := if mixed then cxConj x else x
  roundShift (cxTurn a ((phase / 2 ^ 28 : Nat) : Int) (2 ^ 20)).i 60

/-- The 14-bit code of a 24-bit value, and whether it clipped (R234). -/
def dacCode (v : Int) : Int × Bool :=
  let c := roundShift v 10
  (satN c 14, satN c 14 != c)

/-- The full-scale current of a range, in mA (R242). -/
def ifsOf (range : Nat) : Nat := 10 * (range + 1)

/-- The currents IP and IN of an output of `code` / 64 in a range, in units of 1 mA / 2^20 (R242). -/
def dacCurrents (range : Nat) (code64 : Int) : Int × Int :=
  let ip := (ifsOf range : Int) * (8192 * 64 + code64)
  (ip, (ifsOf range : Int) * 2 ^ 20 - ip)

/-! ### The receive stages, R304, R305 -/

/-- The mixer at ADC sample `k` (R304, R322): a code tagged as v = code * 2^12, times twice e^(-j phase), in units of 2^-16. -/
def mixSample (phase : Nat) (bad : Bool) (code : Int) : Cx :=
  if bad then cxBad
  else cxRound 44 (cxTurn { i := code * 2 ^ 13, q := 0 } (-(phase : Int)) (2 ^ 48))

/-- Resampling by 2/5 to 3.2 GS/s, then x 2^sh0. -/
def resample (sh : Nat) (m : Sig) (n : Int) : Cx × Nat :=
  cxSat 24 (cxRound 16 (cxShl sh (fir 4 0 (n % 2).toNat m (5 * n / 2))))

/-- A half-band stage by 2, then x 2^sh (stage `i` from 1). -/
def decimate (i sh : Nat) (x : Sig) (n : Int) : Cx × Nat := cxSat 24 (cxShl sh (fir 5 i 0 x (2 * n)))

/-- The 16-bit link word of a 24-bit one, and the components that saturated. -/
def linkRound (x : Cx) : Cx × Nat := cxSat 16 (cxRound 8 x)

end Sys2Proof.Machine
end

