-- ==== Sys2Proof/Machine/Casc.lean ====
section
/-!
DEFINITION. What travels between the packages of a system: the ends of the chain (R39, R378), the cascade words of a block (R163, R371)
and the records that carry layer data, partial sums, estimates and slices (R370).
-/
namespace Sys2Proof.Machine

/-- State of a link, R387: 0 OFF, 1 TRAIN, 2 ACTIVE, 3 QUIET, 4 FAILED. -/
def State.linkState (s : State) (l : Nat) : Nat := s.rf (Reg.AX_STATUS l) 31 28
def State.setLinkState (s : State) (l v : Nat) : State := s.pf (Reg.AX_STATUS l) 31 28 v

/-- The cascade port whose direction is `dir` (1 upstream, 2 downstream) and that is ACTIVE, as a link (R386). -/
def State.port (s : State) (dir : Nat) : Option Nat :=
  [4, 5].find? (fun l => s.part.hasLink l && s.rf (Reg.CX_PORT l) 1 0 == dir && s.linkState l == 2)

/-- Packages that the chain reaches (R24). -/
def State.reach (s : State) : Nat := if s.rf Reg.GL_PKG_POS 3 2 = 0 then 1 else clampN (s.rf Reg.GL_PKG_POS 11 8) 1 4

/-- This package's number in its chain. -/
def State.pkgNum (s : State) : Nat := s.rf Reg.GL_PKG_POS 1 0

/-- Whether an antenna number names a path that is absent (R18): of this package's own part, or of an EL9672 at the end of the chain. -/
def State.antAbsent (s : State) (a : Nat) : Bool :=
  if a / 96 = s.pkgNum then decide (s.part.paths ≤ a % 96)
  else s.tb.lastSmall && a / 96 == s.rf Reg.GL_PKG_POS 3 2 && decide (72 ≤ a % 96)

/-- The cascade words of twelve words (R163, R371): the smallest exponent that fits every component; the block residue is 15 when any
word is poisoned. -/
def cascBlock (ws : List Cx) : CascBlock :=
  let fits := fun (e : Nat) => ws.all (fun w => satN (roundShift w.i e) 16 == roundShift w.i e && satN (roundShift w.q e) 16 == roundShift w.q e)
  let e := ((List.range 8).find? fits).getD 8
  let ms := ws.map (fun w => (satN (roundShift w.i e) 16, satN (roundShift w.q e) 16))
  let res := if ws.any Cx.bad then 15 else (ms.foldl (fun r (m : Int × Int) => r + residue m.1 + residue m.2) 0) % 15
  { e := e, ms := ms, res := res }

/-- The words that a receiver takes from a block: all poisoned where the residues of the mantissas disagree with the block's (R371). -/
def blockWords (b : CascBlock) : List Cx :=
  let bad := (b.ms.foldl (fun r (m : Int × Int) => r + residue m.1 + residue m.2) 0) % 15 != b.res
  b.ms.map (fun (m : Int × Int) => { i := m.1 * 2 ^ b.e, q := m.2 * 2 ^ b.e, bad := bad })

/-- The run header bits [59:7] of a kind-1 or kind-2 record, R370. -/
def layerHdr (car : Nat) (h : SecHdr) (sym layer start n : Nat) : Nat :=
  car * 2 ^ 51 + h.frameId % 2 ^ 8 * 2 ^ 41 + h.subframeId % 2 ^ 4 * 2 ^ 37 + h.slotId % 2 ^ 6 * 2 ^ 31 + sym % 2 ^ 4 * 2 ^ 27 +
    layer % 2 ^ 5 * 2 ^ 22 + start % 2 ^ 11 * 2 ^ 11 + (n - 1) % 2 ^ 11

/-- The run header bits of a kind-3 or kind-4 record, R370. -/
def slotHdr (slot src dst first : Nat) : Nat := slot % 2 ^ 15 * 2 ^ 38 + src % 4 * 2 ^ 36 + dst % 4 * 2 ^ 34 + first % 2 ^ 9 * 2 ^ 25

/-- The place of a record among those that wait (R369): messages, then layer data, then estimates and vector slices. -/
def recClass (kind : Nat) : Nat := if kind = 5 then 0 else if kind ≤ 2 then 1 else 2

/-- Enter a record behind those that go before it or came before it. -/
def insertRec (r : CascRec) : List CascRec → List CascRec
  | [] => [r]
  | x :: rest => if recClass r.kind < recClass x.kind then r :: x :: rest else x :: insertRec r rest

/-- Send a record on a link, if there is one. -/
def State.sendRec (s : State) (l : Option Nat) (r : CascRec) : State :=
  match l with
  | none => s
  | some l => s.setLnk l { s.lnk l with out := insertRec r (s.lnk l).out }

/-- The port toward a package of the chain. -/
def State.toward (s : State) (dst : Nat) : Option Nat := if dst < s.pkgNum then s.port 1 else s.port 2

/-- Send a message on a link (R366): it takes the next number and waits for its acknowledgement; at most 128 wait. -/
def State.sendMsg (s : State) (l typ spec : Nat) (payload : List Word) : State :=
  let x := s.lnk l
  if x.unacked.length < 128 then
    let m : AxMsg := { seq := x.txSeq, typ := typ, spec := spec, payload := payload, sent := s.tick }
    s.setLnk l { x with txSeq := (x.txSeq + 1) % 256, unacked := x.unacked ++ [m] }
  else s

/-- The lead relays a change of its time to the members (R379): a TIME message; kinds 0 rate, 1 step, 2 holdover, 3 grid origin. -/
def State.relayTime (s : State) (kind : Nat) (ws : List Word) : State :=
  match s.port 2 with
  | some l => if s.reach = 1 ∨ !s.isLead then s else s.sendMsg l 7 kind (toW s.tick :: toW (s.tick / 2 ^ 32) :: ws)
  | none => s

/-- Pass the state of a package on in a direction of the chain (R49, R180): a CTRL message with the code 0x7F3, the package's number, its
device state and its GL_PATH_AVAIL (DESIGN CHOICE, log entry 45). -/
def State.passState (s : State) (dir pkg dev avail : Nat) : State :=
  match s.port dir with
  | some l => s.sendMsg l 0xB 0x7F3 [toW pkg, toW dev, toW avail, toW (avail / 2 ^ 32), toW (avail / 2 ^ 64)]
  | none => s

/-- The mask of this package's available paths, GL_PATH_AVAIL. -/
def State.ownAvail (s : State) : Nat := ((List.range 3).map (fun k => (s.rd (Reg.GL_PATH_AVAIL k)).toNat * 2 ^ (32 * k))).sum

/-- A package of a system tells the others its device state and which of its paths are available (R49, R180). -/
def State.tellState (s : State) : State :=
  if s.rf Reg.GL_PKG_POS 3 2 = 0 then s
  else (s.passState 1 s.pkgNum s.dev s.ownAvail).passState 2 s.pkgNum s.dev s.ownAvail

/-- What another package has told of itself (R49, R180) is kept. -/
def State.hearState (s : State) (pkg dev avail : Nat) : State :=
  { s with tb := { s.tb with
    peers := s.tb.peers.filter (fun (x : Nat × Nat) => x.1 ≠ pkg) ++ [(pkg, dev)]
    peerAvail := s.tb.peerAvail.filter (fun (x : Nat × Nat) => x.1 ≠ pkg) ++ [(pkg, avail)] } }

/-- The lead copies a command's parameters to the reachable members (R188, R352): a CTRL message down the chain. -/
def State.copyDown (s : State) (op : Nat) (params : List Word) : State :=
  match s.port 2 with
  | some l => if s.reach = 1 ∨ !s.isLead then s else s.sendMsg l 0xB op params
  | none => s

end Sys2Proof.Machine
end

