-- ==== Sys2Proof/Machine/Air.lean ====
section
/-!
DEFINITION. The samples of the paths as the block holds them: what each stage has in force at a sample, the streams of the transmit and receive
chains (R130, R233-R243, R266-R270, R288, R304-R306, R324-R327), the outputs of the DACs (R242, R243), and the passage of time, in which
samples run through the transmit chain and are counted (R234, R238, R260, R298).
-/
namespace Sys2Proof.Machine

/-! ### What is in force -/

/-- What the transmit stages of path `p` have in force now. -/
def State.txSnap (s : State) (p : Nat) : TxSnap :=
  let x := s.txOf p
  let y := s.prOf p
  { tick := s.tick, vals := x.app, muted := s.rb (Reg.TX_STATUS p) 0, blanked := s.rb (Reg.TX_STATUS p) 4, broken := x.broken
    isinc := s.rb (Reg.TX_CTRL p) 2, mult := s.rf (Reg.TH_PMULT (p / 12)) 16 0, cfg := y.cfg, coefs := y.coefs, zeroed := y.zeroed }

/-- d0 of a canceller (R288, R290): the estimated delay in whole samples when dly_auto is 1, else can_dly. -/
def State.canDelay (s : State) (p : Nat) : Nat :=
  let cfg := (s.canOf p).cfg
  if bit cfg 19 then (if s.rb (Reg.CAN_DLY p) 31 then (s.rf (Reg.CAN_DLY p) 14 0 + 32) / 64 else 0) else fld cfg 8 0

/-- What the receive stages of path `p` have in force now. -/
def State.rxSnap (s : State) (p : Nat) : RxSnap :=
  let c := s.canOf p
  { tick := s.tick, vals := (s.rxOf p).app, live := s.rb (Reg.RX_STATUS p) 3, gate := s.rb (Reg.RX_CTRL p) 1, rxen := (s.txOf p).rxen
    comp := s.rd (Reg.RX_AGC_TAB p (s.rf (Reg.RX_AGC_STAT p) 20 16)), cfg := c.cfg, taps := c.taps, delay := s.canDelay p
    zeroed := (s.prOf p).zeroed }

/-- What path `p` had in force at a tick: by its history, else what it has now. -/
def State.txAt (s : State) (p : Nat) (t : Int) : TxSnap :=
  let h := Sparse.get (fun _ => []) s.air.tx p
  match h.find? (fun x => decide ((x.tick : Int) ≤ t)) with
  | some x => x
  | none => h.getLast?.getD (s.txSnap p)
def State.rxAt (s : State) (p : Nat) (t : Int) : RxSnap :=
  let h := Sparse.get (fun _ => []) s.air.rx p
  match h.find? (fun x => decide ((x.tick : Int) ≤ t)) with
  | some x => x
  | none => h.getLast?.getD (s.rxSnap p)

/-- Ticks of a link sample, by the rate that the path's tile link took (R122). -/
def State.linkTicks (s : State) (p : Nat) : Nat := [4, 2, 1].getD (s.lnk (p / 24)).rate 1

/-! ### The downlink stream, R123, R127-R130 -/

/-- The first grid unit of the useful part of a symbol (R127): its last 1 / spacing. -/
def usefulStart (cfg : Word) (slot : Int) (sym : Nat) : Int :=
  symEnd (cfgMu cfg) (cfgExt cfg) slot sym - ((16384 / 2 ^ cfgMu cfg : Nat) : Int)

/-- A grid unit as an index of the carrier's block samples (N x spacing per second); it is whole at the ends of symbols and prefixes. -/
def blockIndex (cfg : Word) (u : Int) : Int := u * ((carN cfg * carScs cfg : Nat) : Int) / 245760

/-- The samples of the prefix of a symbol. -/
def prefixLen (cfg : Word) (slot : Int) (sym : Nat) : Int :=
  blockIndex cfg (usefulStart cfg slot sym) - blockIndex cfg (symStart (cfgMu cfg) (cfgExt cfg) slot sym)

/-- The place of an index, from the grid origin in block samples, at a time that lies `lead` ns behind it (R129), as a number and its
divisor. -/
def State.blockPlace (s : State) (cfg : Word) (t : Nat) (lead : Int) : Int :=
  ((t : Int) + lead * (nsU : Int) - (s.gridOrigin : Int)) * ((carN cfg * carScs cfg : Nat) : Int)
def placeUnit : Nat := 1000000 * nsU

/-- The bins of block `k`: each resource element of its PRBs (R123). -/
def blockBins (cfg : Word) (k : Nat) (ws : List Cx) : List (Int × Cx) :=
  (List.range (12 * blockCount cfg k)).map (fun i =>
    let sc := 12 * blockStart cfg k + i
    ((sc : Int) - (blockZero cfg k : Int), ws.getD sc cx0))

/-- The turn of the phase compensation of R128: -f0 times the start of the useful part from the start of its subframe; f0 in 5 kHz. -/
def f0Turn (f0 : Word) (u : Int) : Int := -((fld f0 21 0 : Int) * (u % 245760))

/-- Sample `g` of block `k` of a symbol at a path, prefix included, in units of 2^-16 (R127, R128, R130); zero outside the symbol. A poisoned
resource element enters as zero (R397). -/
def AirSym.block (y : AirSym) (p k : Nat) (g : Int) : Cx :=
  let cfg := y.vals.cfg
  let u := usefulStart cfg y.slot y.sym
  let m := g - blockIndex cfg u
  let ws := (y.words.getD p []).map (fun w => if w.bad then cx0 else w)
  if m < -(prefixLen cfg y.slot y.sym) ∨ (carN cfg : Int) ≤ m ∨ ws.all Cx.isZero then cx0
  else
    let v := cxRound (28 + y.shift) (idft (carN cfg) (blockBins cfg k ws) m)
    cxRound 76 (cxTurn v (f0Turn y.vals.f0 u) 49152)

/-- The symbols on the air of one carrier under one set of values. -/
def State.airLike (s : State) (y : AirSym) : List AirSym := s.air.syms.filter (fun x => x.car == y.car && x.vals == y.vals)

/-- The stream of block `k` of those symbols at a path. -/
def blockStream (ys : List AirSym) (p k : Nat) : Sig := fun g => cxSum (ys.map (fun y => y.block p k g))

/-- The share of one set of symbols in the link sample at tick `t` of a path, in units of 2^-76: the blocks resampled, and shifted to their
places from the path centre. A block's shift counts from the symbol's useful part, the carrier's offset from tick 0 (DESIGN CHOICE, log
entry 52). -/
def State.linkShare (s : State) (ys : List AirSym) (y : AirSym) (p t : Nat) : Cx :=
  let cfg := y.vals.cfg
  let a := s.blockPlace cfg (s.timeAt t) (min 50000 (fld y.vals.adv 15 0) : Nat)
  let g := a / (placeUnit : Int)
  let here := ys.find? (fun x => decide (blockIndex cfg (symStart (cfgMu cfg) (cfgExt cfg) x.slot x.sym) ≤ g ∧
    g < blockIndex cfg (symEnd (cfgMu cfg) (cfgExt cfg) x.slot x.sym)))
  let u := (here.map (fun x => blockIndex cfg (usefulStart cfg x.slot x.sym))).getD g
  let den := carN cfg * placeUnit
  cxSum ((List.range (carBlocks cfg)).map (fun k =>
    let v := fir 0 (carN cfg * carScs cfg) (a % (placeUnit : Int)).toNat (blockStream ys p k) g
    let off := (blockZero cfg k : Int) - (6 * cfgNprb cfg : Nat)
    cxTurn v (off * (a - u * (placeUnit : Int)) * 1600000 + carOfs y.vals.ofs * (t : Int) * (den : Int)) (den * 1600000)))

/-- One symbol of each carrier and set of values on the air. -/
def State.airKinds (s : State) : List AirSym :=
  s.air.syms.foldl (fun (l : List AirSym) y => if l.any (fun x => x.car == y.car && x.vals == y.vals) then l else l ++ [y]) []

/-- Whether the word of path `p` in link sample `j` was lost on its tile link (R29, R368). -/
def State.linkLost (s : State) (isUp : Bool) (p : Nat) (j : Int) : Bool :=
  s.air.lost.any fun x =>
    let w := 24 * j + ((p % 24 : Nat) : Int)
    x.tile == p / 24 && x.up == isUp && decide (x.first ≤ w ∧ w < x.first + (x.count : Int))

/-- `n` words of the stream of tile link `t`, from word `w` on, are lost. -/
def State.loseWords (s : State) (t : Nat) (isUp : Bool) (w : Int) (n : Nat) : State :=
  if n = 0 then s
  else
    let x : LinkLoss := {
      tile := t, up := isUp, first := w, count := n, tick := s.tick
      until_ := max s.tick (((w + (n : Int)) / 24 + 2).toNat * s.linkTicks (24 * t)) + 1024 }
    { s with air := { s.air with lost := s.air.lost ++ [x] } }

/-- The first word of the stream of tile link `t` that has not passed. -/
def State.streamNow (s : State) (t : Nat) : Nat := 24 * (s.tick / s.linkTicks (24 * t) + 1)

/-- The stream word that the index of a stripe's header names: the one with that number modulo 2^24 nearest to the present (R363; DESIGN
CHOICE that the count runs from tick 0, log entry 57). -/
def State.streamWord (s : State) (t idx : Nat) : Int :=
  (s.streamNow t : Int) + sext (wrapN ((idx : Int) - (s.streamNow t : Int)) 24) 24

/-- Link sample `j` of a path (R130): the sum of the carriers, rounded at bit 8 and saturated to 16 bits, and the components that saturated. -/
def State.linkWord (s : State) (p : Nat) (j : Int) : Cx × Nat :=
  if s.linkLost false p j then (cxBad, 0)
  else if s.air.syms = [] ∨ j < 0 then (cx0, 0)
  else cxSat 16 (cxRound 84 (cxSum (s.airKinds.map (fun y => s.linkShare (s.airLike y) y p (j.toNat * s.linkTicks p)))))

/-! ### The transmit chain, R233 -/

/-- The tick in which sample `n` of the 3.2 GS/s stages leaves the balls. -/
def tickOf (n : Int) : Int := n / 2

/-- The valid downlink carriers' spans (R238). -/
def State.dlSpans (s : State) : List Nat :=
  ((List.range 4).filter (fun c => cfgDl (s.carCfg c))).flatMap (fun c => [(s.carCfg c).toNat, (s.rd (Reg.CAR_OFS c)).toNat])

/-- The stream after up-conversion, and after delay, gain and phase. -/
def State.upAt (s : State) (p : Nat) : Sig := fun n =>
  upSample (2 * s.linkTicks p) (fun j => cxShl 8 (s.linkWord p j).1) n
def State.gainAt (s : State) (p : Nat) (n : Int) : Cx × Nat :=
  let v := (s.txAt p (tickOf n)).vals
  gainSample (multiplier (v.gain % 65536) 14 (v.gain / 65536)) (delaySample v.delay (s.upAt p) n)

/-- The crest stage (R238), and x_p: the Press input of a path (R266). -/
def State.crestAt (s : State) (p : Nat) (n : Int) : Cx × Nat × Nat :=
  crestSample (s.txAt p (tickOf n)).vals.cfr s.dlSpans (fun m => (s.gainAt p m).1) n
def State.xAt (s : State) (p : Nat) : Sig := fun n => (s.crestAt p n).1

/-- A neighbour's sample as it enters the coupled and leakage terms of path `p` (R269): zero while it is muted or in blank idle, and when a
strobe has removed it. -/
def State.sourceAt (s : State) (zeroed : List Nat) (q : Nat) : Sig := fun n =>
  let h := s.txAt q (tickOf n)
  if h.muted || h.blanked || zeroed.contains q then cx0 else s.xAt q n

/-- The Press output (R266-R270). -/
def State.yAt (s : State) (p : Nat) (n : Int) : Cx × Nat :=
  let h := s.txAt p (tickOf n)
  pressSample h.cfg h.coefs (s.xAt p) ((neighbours p).map (s.sourceAt h.zeroed)) n

/-- The tick of a DAC clock. -/
def dacTick (k : Int) : Int := k / 10

/-- The interpolator's output at DAC clock `k`. -/
def State.interpAt (s : State) (p : Nat) (k : Int) : Cx × Nat :=
  let h := s.txAt p (dacTick k)
  interpSample (if h.isinc then 1 + h.vals.dac / 16 % 2 else 0) h.mult (fun n => (s.yAt p n).1) k

/-- The code at DAC clock `k`, with whether it clipped (R234); `none` where the sample at the DAC input is poisoned (R243). -/
def State.codeAt (s : State) (p : Nat) (k : Int) : Option (Int × Bool) :=
  let h := s.txAt p (dacTick k)
  let x := (s.interpAt p k).1
  if x.bad then none else some (dacCode (ncoSample (bitN h.vals.dac 4) (ncoPhase h.vals.nco h.vals.ph k.toNat) x))

/-- The output of a DAC at clock `k` in 1/64 of a code (R242, R243): the mute level while muted or in blank idle, after a linear ramp of 64
clocks from the code that stood when the output was cut; a poisoned sample is at the mute level. -/
def State.levelAt (s : State) (p : Nat) (k : Int) : Int :=
  let h := s.txAt p (dacTick k)
  let cut : Int := 10 * (h.broken : Int)
  let code := fun (j : Int) => ((s.codeAt p j).map Prod.fst).getD 0
  let before := s.txAt p (dacTick (cut - 1))
  if h.muted || h.blanked then
    (if cut ≤ k ∧ k < cut + 64 ∧ 0 < h.broken ∧ !before.muted ∧ !before.blanked then code (cut - 1) * (63 - (k - cut)) else 0)
  else 64 * code k

/-- The currents IP and IN of path `p` now, in units of 1 mA / 2^20 (R242); a DAC whose tile is not powered drives none (R244). -/
def State.dacOut (s : State) (p : Nat) : Int × Int :=
  if s.domOn (8 + p / 24) then dacCurrents ((s.txOf p).app.dac % 4) (s.levelAt p (10 * (s.tick : Int))) else (0, 0)

/-! ### Counting the transmit chain -/

/-- What one tick of a path's transmit chain adds to the counters (R130, R234, R238, R243, R268): link components that saturated, gain-stage
saturations, crest reductions, DAC clips, poisoned samples muted and Press saturations. -/
def State.txTally (s : State) (p : Nat) (t : Int) : List Nat :=
  let ns := [2 * t, 2 * t + 1]
  let ks := (List.range 10).map (fun i => 10 * t + (i : Int))
  let d : Int := (s.linkTicks p : Int)
  let h := s.txAt p t
  let link := if t % d = 0 then (s.linkWord p (t / d)).2 else 0
  let gain := (ns.map (fun n => (s.gainAt p n).2 + (s.crestAt p n).2.1)).sum
  let crest := (ns.map (fun n => (s.crestAt p n).2.2)).sum
  let press := (ns.map (fun n => (s.yAt p n).2)).sum
  let live := if h.blanked then [] else ks
  let interp := (live.map (fun k => (s.interpAt p k).2)).sum
  let out := if h.muted then [] else live.map (s.codeAt p)
  [link, gain + interp, crest, (out.filter (fun c => c.any Prod.snd)).length, (out.filter Option.isNone).length, press]

/-- Samples are counted 256 ticks after they leave the balls, when every sample that a stage looks ahead to is decided. -/
def airLag : Nat := 256

/-- The ticks in which the symbols on the air, and words lost on the way, are heard. -/
def State.airSpan (s : State) : Int × Int :=
  let at_ := fun (y : AirSym) (u : Int) => (s.tickReaching (s.gridTime u - min 50000 (fld y.vals.adv 15 0) * nsU) : Int)
  let lo := s.air.syms.map (fun y => at_ y (symStart (cfgMu y.vals.cfg) (cfgExt y.vals.cfg) y.slot y.sym) - 1024) ++
    s.air.lost.map (fun x => (x.tick : Int))
  let hi := s.air.syms.map (fun y => at_ y (symEnd (cfgMu y.vals.cfg) (cfgExt y.vals.cfg) y.slot y.sym) + 1024) ++
    s.air.lost.map (fun x => (x.until_ : Int))
  (lo.foldl min (lo.headD 0), hi.foldl max (hi.headD 0))

/-- The counters of one path's transmit chain take the ticks [a, b). -/
def State.countTx (s : State) (p : Nat) (a b : Int) : State :=
  let add := (List.range (b - a).toNat).foldl (fun (l : List Nat) i => (l.zip (s.txTally p (a + (i : Int)))).map (fun (x : Nat × Nat) => x.1 + x.2))
    (List.replicate 6 0)
  let n := fun i => add.getD i 0
  ((((((s.bumpBy (Cnt.seDlSat p) (n 0)).bumpBy (Cnt.txPath p 0) (n 1)).bumpBy (Cnt.txPath p 1) (n 2)).bumpBy (Cnt.txPath p 2)
    (n 3)).bumpBy (Cnt.txPath p 3) (n 4)).bumpBy (Cnt.prPath p 7) (n 5))

/-- The samples up to tick `n` run through the transmit chains. -/
def State.runTx (s : State) (n : Nat) : State :=
  if s.air.syms = [] ∧ s.air.lost = [] then s
  else
    let (lo, hi) := s.airSpan
    let a := max lo ((s.tick : Int) - (airLag : Int))
    let b := min hi ((n : Int) - (airLag : Int))
    s.forEach (s.paths.filter (fun p => s.domOn (8 + p / 24))) fun u p => u.countTx p a b

/-! ### The passage of time -/

/-- No sample is on its way: no symbol on the air, no receive settings applied, no codes received, and no word lost. -/
def State.airQuiet (s : State) : Bool := s.air.syms.isEmpty && s.rx.isEmpty && s.air.feed.isEmpty && s.air.lost.isEmpty

/-- Add what a path has in force to its history, when it has changed. -/
def noteTx (h : List TxSnap) (x : TxSnap) : List TxSnap :=
  match h with
  | [] => [x]
  | y :: _ => if { y with tick := x.tick } = x then h else x :: h
def noteRx (h : List RxSnap) (x : RxSnap) : List RxSnap :=
  match h with
  | [] => [x]
  | y :: _ => if { y with tick := x.tick } = x then h else x :: h

/-- Before time moves on, each path whose samples matter notes what it has in force. -/
def State.note (s : State) : State :=
  let txs := if s.air.syms.isEmpty then [] else s.paths
  let rxs := s.paths.filter (fun p => (s.rx.map Prod.fst).contains p || (s.air.feed.map Prod.fst).contains p)
  { s with air := { s.air with
    tx := txs.foldl (fun m p => Sparse.set (fun _ => []) m p (noteTx (Sparse.get (fun _ => []) m p) (s.txSnap p))) s.air.tx
    rx := rxs.foldl (fun m p => Sparse.set (fun _ => []) m p (noteRx (Sparse.get (fun _ => []) m p) (s.rxSnap p))) s.air.rx } }

/-- The tick back to which samples are kept: 200 us, or to the start of the earliest PRACH occasion that is being received (R133). -/
def State.airKeep (s : State) (n : Nat) : Nat :=
  let occ := s.fh.prach.flatMap (fun (x : Nat × List PrachOcc) => (x.2.filter (fun o => o.latched.isSome)).map (fun o => s.tickReaching o.start - 4096))
  occ.foldl min (n - 320000)

/-- The histories from a tick on: what is newer, and the last entry before. -/
def keepTx (k : Nat) : List TxSnap → List TxSnap
  | [] => []
  | x :: rest => if x.tick ≤ k then [x] else x :: keepTx k rest
def keepRx (k : Nat) : List RxSnap → List RxSnap
  | [] => []
  | x :: rest => if x.tick ≤ k then [x] else x :: keepRx k rest

/-- Samples that no stage can still look back to are let go. -/
def State.airDrop (s : State) (n : Nat) : State :=
  let k := s.airKeep n
  let syms := s.air.syms.filter (fun y => decide (k < s.tickReaching (s.gridTime (symEnd (cfgMu y.vals.cfg) (cfgExt y.vals.cfg) y.slot y.sym)) + 1024))
  let old := fun (c : Nat × List Int) => decide (k < c.1 + c.2.length / 5)
  { s with air := { s.air with
    syms := syms
    tx := if syms.isEmpty then [] else s.air.tx.map (fun (x : Nat × List TxSnap) => (x.1, keepTx k x.2))
    rx := s.air.rx.map (fun (x : Nat × List RxSnap) => (x.1, keepRx k x.2))
    feed := s.air.feed.map (fun (x : Nat × RxFeed) => (x.1, { x.2 with chunks := x.2.chunks.filter old }))
    bad := s.air.bad.filter (fun b => decide (k < b.2.2.2))
    lost := s.air.lost.filter (fun x => decide (k < x.until_)) } }

/-- Carry the tick counter forward to a moment that lies ahead (an event that comes about at that tick): the samples on their way run
through the chains. -/
def State.advanceTo (s : State) (n : Nat) : State :=
  if n ≤ s.tick then s
  else if s.airQuiet then { s with tick := n }
  else
    let s1 := (s.note.runTx n).airDrop n
    { s1 with tick := n }

/-! ### The receive chain, R304 -/

/-- The code of ADC sample `k` of a path, and whether it is poisoned (R314); codes that no command brought are 0. -/
def State.adcAt (s : State) (p : Nat) (k : Int) : Int × Bool :=
  let f := Sparse.get (fun _ => {}) s.air.feed p
  let bad := s.air.bad.any (fun b => b.1 == p && decide (k % 4 = (b.2.1 : Int)) && decide (5 * (b.2.2.1 : Int) ≤ k ∧ k < 5 * (b.2.2.2 : Int)))
  match f.chunks.find? (fun (c : Nat × List Int) => decide (5 * (c.1 : Int) ≤ k ∧ k < 5 * (c.1 : Int) + (c.2.length : Int))) with
  | some c => (c.2.getD (k - 5 * (c.1 : Int)).toNat 0, bad)
  | none => (0, bad)

/-- The mixer's output, and the resampler's with the components that saturated. -/
def State.mixAt (s : State) (p : Nat) : Sig := fun k =>
  let v := (s.rxAt p (k / 5)).vals
  let c := s.adcAt p k
  if k < 0 then cx0 else mixSample (ncoPhase (2 * v.nco) v.ph k.toNat) c.2 c.1
def State.resampleAt (s : State) (p : Nat) (n : Int) : Cx × Nat :=
  resample ((s.rxAt p (tickOf n)).vals.shift % 4) (s.mixAt p) n

/-- The source stream xs~ of a canceller (R288): turned by the phase of the receive NCO of `v` less that of the transmit centre of `q`; a
poisoned sample enters as zero (R289). -/
def State.canSource (s : State) (v q : Nat) : Sig := fun n =>
  let h := s.rxAt v (tickOf n)
  let t := s.txAt q (tickOf n)
  let x := if q = v then (if t.muted || t.blanked then cx0 else s.xAt q n) else s.sourceAt h.zeroed q n
  let rx : Int := (ncoPhase h.vals.nco h.vals.ph (5 * n).toNat : Int)
  let tx : Int := (ncoPhase t.vals.nco t.vals.ph (5 * n).toNat : Int)
  if x.bad then cx0 else cxRound 60 (cxTurn x (if bitN t.vals.dac 4 then rx + tx else rx - tx) (2 ^ 48))

/-- Linear and nonlinear taps of a CAN_CFG word, and its slots per source (R288, R301). -/
def canLm (cfg : Word) : Nat := fld cfg 28 24 + 1
def canNm (cfg : Word) : Nat := min 8 (fld cfg 23 20)
def canSlots (cfg : Word) : Nat := canLm cfg + canNm cfg

/-- c_v(n), R288. -/
def State.cancelAt (s : State) (v : Nat) (n : Int) : Cx :=
  let h := s.rxAt v (tickOf n)
  let d : Int := n - (h.delay : Int)
  let terms := (v :: neighbours v).zipIdx.flatMap fun (q : Nat × Nat) =>
    let base := q.2 * canSlots h.cfg
    let src := s.canSource v q.1
    (List.range (canLm h.cfg)).map (fun (m : Nat) => (slotCx h.taps (base + m), src (d - (m : Int)))) ++
      (List.range (canNm h.cfg)).map (fun (m : Nat) =>
        let at_ := d - (m : Int)
        (slotCx h.taps (base + canLm h.cfg + m), timesEnv (src at_) (envelopeOf (s.xAt q.1 at_))))
  cxRound (22 - fld h.cfg 18 16) (cxDot terms)

/-- The stream after leakage subtraction (R288, R324), with the components that saturated. -/
def State.subtractAt (s : State) (p : Nat) (n : Int) : Cx × Nat :=
  let r := (s.resampleAt p n).1
  if bit (s.rxAt p (tickOf n)).cfg 31 then cxSat 24 (cxSub r (s.cancelAt p n)) else (r, 0)

/-- Sources of a canceller whose sample is poisoned at `n` (R289). -/
def State.badSources (s : State) (p : Nat) (n : Int) : Nat :=
  if bit (s.rxAt p (tickOf n)).cfg 31 then ((p :: neighbours p).filter (fun q => (s.xAt q n).bad)).length else 0

/-- The gain stage: the delayed stream times RX_GAIN and the AGC compensation factor (R325, R331). -/
def State.rxGainAt (s : State) (p : Nat) (n : Int) : Cx × Nat :=
  let h := s.rxAt p (tickOf n)
  let m := multiplier (h.vals.gain % 65536 * fld h.comp 15 0) 24 (h.vals.gain / 65536 + fld h.comp 31 16)
  gainSample m (delaySample h.vals.delay (fun k => (s.subtractAt p k).1) n)

/-- The output of decimation stage `i` at its sample `j` (stage 0 is the gain stage), with the components that saturated. -/
def State.decimAt (s : State) (p : Nat) : Nat → Int → Cx × Nat
  | 0, j => s.rxGainAt p j
  | i + 1, j =>
    let h := s.rxAt p (j * ((2 ^ i : Nat) : Int))
    decimate (i + 1) (h.vals.shift / 2 ^ (4 * (i + 1)) % 4) (fun m => (s.decimAt p i m).1) j

/-- Decimation stages of a path (R304). -/
def State.rxStages (s : State) (p : Nat) : Nat := [3, 2, 1].getD (s.lnk (p / 24)).rate 1

/-- Whether the samples of a tick are measured (R319, R320), and whether they pass (R327). -/
def RxSnap.heard (h : RxSnap) : Bool := !h.gate || h.rxen
def RxSnap.passes (h : RxSnap) : Bool := h.live && h.heard

/-- The uplink link word `j` of a path (R304, R327), with the components that saturated. -/
def State.rxWord (s : State) (p : Nat) (j : Int) : Cx × Nat :=
  if s.linkLost true p j then (cxBad, 0)
  else if (s.rxAt p (j * (s.linkTicks p : Int))).passes then linkRound (s.decimAt p (s.rxStages p) j).1 else (cx0, 0)

end Sys2Proof.Machine
end

