-- ==== Sys2Proof/Machine/Mute.lean ====
section
/-!
DEFINITION. Muting a path (R243-R248), its enable pads (R251, R252, R258) and its blank idle (R254).
-/
namespace Sys2Proof.Machine

/-- The lowest mute reason that holds, R248; 0 when none does. -/
def TxSt.why (x : TxSt) : Nat :=
  if x.mFault then 1 else if x.mForced then 2 else if x.mNotEn then 3 else if x.mRange then 4 else 0

/-- Whether the path is muted for reason 1, 2 or 3: its TXEN pad is held low (R248). -/
def TxSt.held (x : TxSt) : Bool := decide (1 ≤ x.why ∧ x.why ≤ 3)

/-- Add the whole microseconds a path has been muted and blanked to its counters (R248, R254, R260). -/
def State.settle (s : State) (p : Nat) : State :=
  let (n, i) := s.muteOwed p
  let b := s.blankOwed p
  let x := s.txOf p
  let s1 := ((s.bumpBy (Cnt.txMuteTime p i) n).bumpBy (Cnt.txMuteTime p 4) b)
  s1.setTx p { x with muteTick := x.muteTick + 1600 * n, blankTick := x.blankTick + 1600 * b }

/-- Queue entries of a row that wait for a pad's rise take its trigger time, the rise less fe_adv (R256). -/
def State.padTrigger (s : State) (r kind : Nat) : State :=
  let x := s.rowOf r
  let at_ := s.tick - ticksNs (min 10000 (s.rf (Reg.FE_TIME r) 15 0))
  s.setRow r { x with queue := x.queue.map (fun e =>
    if e.trig = kind ∧ e.trigTick = none ∧ e.pushed ≤ at_ then { e with trigTick := some at_ } else e) }

/-- Enter blank idle (R254). A path muted for reason 1, 2 or 3 is muted and not blanked (DEDUCED, log entry 44). -/
def State.blankEnter (s : State) (p : Nat) : State :=
  if s.rb (Reg.TX_STATUS p) 4 ∨ (s.txOf p).held then s
  else (s.setTx p { s.txOf p with blankTick := s.tick, leaving := false, broken := s.tick }).pb (Reg.TX_STATUS p) 4 true

/-- Leave blank idle, counting the blanked time. A path stays blanked while its row's pads are latched and until the load strobe after
their release (R548), and while its tile's calibration data has not been loaded again (R551). -/
def State.blankLeave (s : State) (p : Nat) : State :=
  if (s.txOf p).latched ∨ s.rb Reg.PW_PAD_STAT (p / 4) ∨ s.rb Reg.PW_RET_FAIL (12 + p / 24) then s
  else if s.rb (Reg.TX_STATUS p) 4 then (s.settle p).pb (Reg.TX_STATUS p) 4 false else s

/-- Whether a path's DAC may be in blank idle: blank_en, TXEN low, and no TXEN rise within `ticks` (R254). -/
def State.mayBlank (s : State) (p ticks : Nat) : Bool :=
  s.rb (Reg.TX_CTRL p) 1 && !(s.txOf p).txen && s.txQuietFor (p / 4) s.tick ticks

/-- Drive a path's pads (R251, R252): `tx` and `rx` are the demands that the path may follow. While the row's pads are latched
they hold their levels (R548). -/
def State.drivePads (s : State) (p : Nat) (tx rx : Bool) : State :=
  if s.rb Reg.PW_PAD_STAT (p / 4) then s else
  let r := p / 4
  let x := s.txOf p
  let duplex := s.rb (Reg.ROW_TX_CFG r) 1
  let txRise := tx && !x.txen
  let txFall := !tx && x.txen
  let hold := if txFall then s.tick + ticksNs (min 10000 (s.rf (Reg.ROW_TX_CFG r) 31 16)) else x.rxHold
  let rxMay := duplex || (!tx && decide (hold ≤ s.tick))
  let rxOn := rx && rxMay
  let rxRise := rxOn && !x.rxen
  let overlap := !duplex && rx && !x.rxDem && !rxMay
  let conflict := !duplex && txRise && x.rxen
  let s1 := s.setTx p { x with
    txen := tx, rxen := rxOn, rxHold := hold, rxDem := rx, rxFall := if x.rxen && !rxOn then s.tick else x.rxFall
    broken := if txFall then s.tick else x.broken }
  let s2 := (s1.bumpBy (Cnt.txRow r 4) (b2n overlap)).bumpBy (Cnt.txRow r 5) (b2n conflict)
  let s3 := s2.when txRise (fun u => (u.blankLeave p).padTrigger r 2)
  let s4 := s3.when rxRise (fun u => u.padTrigger r 3)
  s4.when (txFall && s.rb (Reg.TX_CTRL p) 1 && s.txQuietFor r s.tick 6400) (fun u => u.blankEnter p)

/-- Bring mute_why and muted in TX_STATUS, and the TXEN pad, to the reasons that hold (R248). -/
def State.muteUpdate (s : State) (p : Nat) : State :=
  let x := s.txOf p
  let why := x.why
  let old := s.rf (Reg.TX_STATUS p) 3 1
  if why = old then s
  else
    let s1 := s.settle p
    let s2 := s1.setTx p { s1.txOf p with muteTick := s.tick, broken := s.tick }
    let s3 := (s2.pf (Reg.TX_STATUS p) 3 1 why).pb (Reg.TX_STATUS p) 0 (why != 0)
    if x.held then
      let s4 := s3.pb (Reg.TX_STATUS p) 4 false
      if x.txen then s4.drivePads p false x.rxDem else s4
    else if 1 ≤ old ∧ old ≤ 3 ∧ (x.latched ∨ x.blankEnd.isSome ∨ s3.mayBlank p 6400) then s3.blankEnter p
    else s3

/-- Mute a path for a fault (reason 1). -/
def State.muteFault (s : State) (p : Nat) : State := (s.setTx p { s.txOf p with mFault := true }).muteUpdate p

/-- Mute a path by force (reason 2). -/
def State.muteForce (s : State) (p : Nat) : State := (s.setTx p { s.txOf p with mForced := true }).muteUpdate p

/-- The DACs of tile `t` lose their power (R244): muted as not enabled until a load strobe. -/
def State.muteTile (s : State) (t : Nat) : State :=
  s.forEach (s.paths.filter (fun p => p / 24 == t)) fun u p => (u.setTx p { u.txOf p with mNotEn := true }).muteUpdate p

/-- Mute every present path by force (R436). -/
def State.muteAllForce (s : State) : State := s.forEach s.paths State.muteForce

/-- Whether the device state holds every path in mute of reason 2, R436. -/
def stateMutes (dev : Nat) : Bool := dev == 2 || dev == 6 || dev == 8

/-- Bring rx_live to the receive enable of R327: rx_en in force, the path available, its ADC ready, and the device in a state
whose signal path runs (R436). -/
def State.rxUpdate (s : State) (p : Nat) : State :=
  s.pb (Reg.RX_STATUS p) 3
    ((s.rxOf p).app.en && s.pathAvail p && s.rb (Reg.RX_STATUS p) 4 && !stateMutes s.dev)

/-- Follow the demands at the current tick for one path (R251, R252); in a blanking window TXEN stays low (R541). -/
def State.followDemands (s : State) (p : Nat) : State :=
  let tx := s.txDemand (p / 4) s.tick && (s.txOf p).blankEnd.isNone && !(s.txOf p).held
  let rx := s.rxDemand (p / 4) s.tick && s.rb (Reg.RX_STATUS p) 3
  s.drivePads p tx rx

end Sys2Proof.Machine
end

