-- ==== Sys2Proof/Machine/Chiast.lean ====
section
/-!
DEFINITION. The Chiast protocol: mailboxes, replies and notices (R421-R434, R445), the order in which a command is judged
(R431, R439), and a change of the device state (R435-R437).
-/
namespace Sys2Proof

/-- The command's reference when it is accepted for an item. -/
def Pkt.ref (p : Pkt) (op key : Nat) : Machine.CmdRef := { mb := p.mb, tag := p.tag, op := op, key := key }

/-- The parameter words of a packet as naturals. -/
def Pkt.arg (p : Pkt) (i : Nat) : Nat := (Machine.wordAt p.params i).toNat

/-- Exactly `n` parameters and no flag. -/
def Pkt.is (p : Pkt) (n : Nat) : Bool := p.params.length == n && p.flags == 0

end Sys2Proof

namespace Sys2Proof.Machine

/-! ### Words to the host -/

/-- A reply or notice header word, R428. -/
def header (status tag len : Nat) : Word := toW (status * 2 ^ 16 + tag * 2 ^ 8 + len)

/-- The status codes of R429. -/
def stOK : Nat := 0x0000
def stACCEPTED : Nat := 0x0001
def stSTATE : Nat := 0x0100
def stPARAM : Nat := 0x0101
def stOPCODE : Nat := 0x0102
def stBUSY : Nat := 0x0103
def stRESOURCE : Nat := 0x0104
def stDENIED : Nat := 0x0105
def stABORTED : Nat := 0x0200
def stTIMEOUT : Nat := 0x0201
def stITEM : Nat := 0x0300
def stPARTIAL : Nat := 0x0301

/-- Whether a packet fits whole in the device-to-host queue of a mailbox, R424. -/
def Mbox.fits (b : Mbox) (p : OutPkt) : Bool := decide (b.words + p.words.length ≤ 16)

/-- Push a packet into the device-to-host queue and signal the vector while irq_en is 1 (R424). -/
def State.pushPkt (s : State) (m : Nat) (p : OutPkt) : State :=
  let b := s.mbox m
  let s1 := s.setMbox m { b with d2h := b.d2h ++ [p] }
  let s2 := if p.notice then s1.bump (Cnt.chiast m 5) else s1
  if s.rb (Reg.MB_CTRL m) 0 ∧ m ≠ 4 ∧ m ≠ 5 then s2.irq m else s2

/-- Send a notice: at once when it fits and none waits before it; otherwise it waits, up to 128; beyond that a non-final
notice is discarded and counted (R434). -/
def State.notify (s : State) (m : Nat) (p : OutPkt) : State :=
  let b := s.mbox m
  if b.fits p ∧ b.reply = none ∧ b.waiting = [] then s.pushPkt m p
  else if b.waiting.length < 128 ∨ p.final then s.setMbox m { b with waiting := b.waiting ++ [p] }
  else ((s.setMbox m { b with lostNew := b.lostNew + 1 }).bumpSatF (Reg.MB_LOST m) 31 16 1).bump (Cnt.chiast m 7)

/-- The packet of a notice of a command, R430. -/
def noticePkt (status : Nat) (r : CmdRef) (last : Bool) (res : List Word) : OutPkt :=
  { words := header status r.tag (1 + res.length) :: toW (r.op * 2 ^ 20 + b2n last) :: res, tag := r.tag, notice := true,
    final := last }

/-- An event notice: tag 0x00, status OK, R445. -/
def eventPkt (code detail : Nat) : OutPkt :=
  { words := [header 0 0 2, 1, toW (code * 2 ^ 24 + detail % 2 ^ 24)], tag := 0, notice := true }

/-- Send an event notice on every mailbox 0-3 whose mask has the bit (R445). -/
def State.eventNotice (s : State) (b code detail : Nat) : State :=
  s.forEach (List.range 4) fun u m => if bitN (u.mbox m).evMask b then u.notify m (eventPkt code detail) else u

/-- A notice that is not final (R430). -/
def State.noticeMore (s : State) (r : CmdRef) (status : Nat) (res : List Word) : State :=
  s.notify r.mb (noticePkt status r false res)

/-- The final notice of a command that replied ACCEPTED: its tag is free again (R430). -/
def State.finish (s : State) (r : CmdRef) (status : Nat) (res : List Word) : State :=
  let s1 := { s with host := { s.host with accepted := s.host.accepted.filter (· ≠ r) } }
  if r ∈ s.host.accepted then s1.notify r.mb (noticePkt status r true res) else s

/-- The accepted commands of an opcode that work on a given item. -/
def State.refsOf (s : State) (op key : Nat) : List CmdRef := s.host.accepted.filter (fun r => r.op = op ∧ r.key = key)

/-- The accepted commands of an opcode, whatever they work on. -/
def State.refsOp (s : State) (op : Nat) : List CmdRef := s.host.accepted.filter (fun r => r.op = op)

/-- Finish every accepted command of an opcode that works on an item. -/
def State.finishAll (s : State) (op key status : Nat) (res : List Word) : State :=
  s.forEach (s.refsOf op key) fun u r => u.finish r status res

/-! ### Words from the host -/

/-- The header word of a command packet, R427. -/
def cmdHeader (op : Nat) (p : Pkt) : Word :=
  toW (op * 2 ^ 20 + p.params.length * 2 ^ 14 + p.tag * 2 ^ 6 + b2n p.quiet * 2 ^ 5 + p.flags)

/-- Acknowledge `n` words of a mailbox with a code (R423). -/
def State.ackWords (s : State) (m n code : Nat) : State :=
  if n = 0 then s
  else
    let b := s.mbox m
    let s1 := s.setMbox m { b with h2d := b.h2d.drop n, published := b.published - n }
    let s2 := (s1.pf (Reg.MB_ACK m) 31 16 (s.rf (Reg.MB_ACK m) 31 16 + n)).pf (Reg.MB_ACK m) 15 0 code
    if s.rb (Reg.MB_CTRL m) 1 ∧ m ≠ 4 ∧ m ≠ 5 then s2.irq m else s2

/-- The priority number of a mailbox, 1 the highest (R421). -/
def mboxPri (m : Nat) : Nat := [1, 4, 5, 6, 2, 3, 7, 8].getD m 9

/-- Whether a mailbox holds a complete published packet. -/
def Mbox.complete (b : Mbox) : Bool :=
  match b.h2d with
  | [] => false
  | h :: _ => decide (fld h 19 14 + 1 ≤ b.published)

/-- The mailboxes from which device firmware could take a command now, beside `m` itself. -/
def State.candidates (s : State) (m : Nat) : List Nat :=
  (List.range 8).filter fun k => k == m || ((s.mbox k).complete && (s.mbox k).reply == none)

/-- The mailbox device firmware takes from next (R432): the highest priority; after 8 commands in a row that passed a waiting
mailbox over, the highest-priority one that was passed over. -/
def State.nextMbox (s : State) (m : Nat) : Nat :=
  let cs := s.candidates m
  let best := fun (l : List Nat) => l.foldl (fun a k => if mboxPri k < mboxPri a then k else a) (l.headD m)
  let passed := cs.filter (fun k => decide (s.host.lastPri < mboxPri k))
  if 8 ≤ s.host.passRun ∧ passed ≠ [] then best passed else best cs

/-- Whether debug is unlocked for a scope bit (R586): 0 mailboxes 6 and 7, 1 test access port, 2 opcodes 0xF00-0xFFF. -/
def State.debugOpen (s : State) (b : Nat) : Bool := s.rb Reg.SEC_DBG 31 && s.rb Reg.SEC_DBG b

/-- Whether device firmware takes this packet now (R424, R432, R434, R436): no command is taken in OFF or BOOT or while a
reply waits; a mailbox that holds published words gives its oldest packet, so this must be it; a mailbox that holds none is
given the packet with the command (DESIGN CHOICE, log entry 4). -/
def State.takes (s : State) (op : Nat) (p : Pkt) : Bool :=
  let b := s.mbox p.mb
  let ws := cmdHeader op p :: p.params
  decide (p.mb < 8) && s.domOn 1 && s.tb.pendStep.isNone && s.host.busy.isNone && s.dev != 0 && s.dev != 1 && b.reply == none &&
    (b.published == 0 && b.h2d == [] || (decide (ws.length ≤ b.published) && b.h2d.take ws.length == ws)) &&
    (!(p.mb == 4 || p.mb == 5) || decide (p.mb - 4 < s.part.casc)) && s.nextMbox p.mb == p.mb

/-- Take the packet: its words are acknowledged with OK (R423), the command is counted, and the pass-over run kept (R432). -/
def State.takeCmd (s : State) (op : Nat) (p : Pkt) : State :=
  let n := p.params.length + 1
  let b := s.mbox p.mb
  let s0 := if b.published = 0 then s.setMbox p.mb { b with h2d := cmdHeader op p :: p.params, published := n } else s
  let lower := (s.candidates p.mb).any (fun k => decide (mboxPri p.mb < mboxPri k))
  let s1 := { s0 with host := { s0.host with
    passRun := if lower ∧ s.host.passRun < 8 then s.host.passRun + 1 else 0, lastPri := mboxPri p.mb } }
  (s1.ackWords p.mb n stOK).bump (Cnt.chiast p.mb 0)

/-- The index of the reply counter of a status, R446. -/
def replyCount (m status : Nat) : Option Nat :=
  if status = stOK then some (Cnt.chiast m 1)
  else if status = stACCEPTED then some (Cnt.chiast m 2)
  else if status = stSTATE then some (Cnt.chiast m 3)
  else if 0x0101 ≤ status ∧ status ≤ 0x0105 then some (Cnt.chiast m 4)
  else none

/-- Send the reply of a command: pushed when it fits, else it waits and the mailbox takes no further command (R424, R434).
An OK reply of a quiet command is not sent (R427). -/
def State.reply (s : State) (p : Pkt) (status : Nat) (res : List Word) : State :=
  if p.quiet ∧ status = stOK then s
  else
    let pkt : OutPkt := { words := header status p.tag res.length :: res, tag := p.tag }
    let s1 := match replyCount p.mb status with
      | some a => s.bump a
      | none => s
    let b := s1.mbox p.mb
    if b.fits pkt then s1.pushPkt p.mb pkt else s1.setMbox p.mb { b with reply := some pkt }

/-! ### Judging a command -/

/-- Whether an opcode is accepted in a device state, R439 (the bounds of a group inside a range are its own chapter's). -/
def acceptedIn (op dev : Nat) : Bool :=
  let stby := dev == 2; let rdy := dev == 3; let svc := dev == 4; let tst := dev == 5
  let rcv := dev == 6; let slp := dev == 7; let flt := dev == 8
  let run := stby || rdy || svc || tst
  let rng := fun a b => decide (a ≤ op ∧ op ≤ b)
  if rng 0x000 0x003 || op == 0x008 then run || rcv || slp || flt
  else if rng 0x004 0x006 then run
  else if op == 0x007 then stby || rdy || tst || rcv || flt
  else if op == 0x030 then run || rcv || flt
  else if op == 0x031 || op == 0x032 || op == 0x034 then run
  else if op == 0x033 || op == 0x200 || op == 0x213 || op == 0x406 then stby || rdy
  else if op == 0x040 || op == 0x044 || op == 0x100 then run || rcv || slp || flt
  else if op == 0x041 || op == 0x042 then run
  else if op == 0x043 then tst
  else if op == 0x101 || op == 0x103 || op == 0x108 then run || rcv
  else if op == 0x102 || op == 0x106 then stby || rdy || tst || rcv
  else if op == 0x104 || op == 0x105 then run
  else if op == 0x107 then run || rcv || slp
  else if op == 0x205 || op == 0x212 || op == 0x214 || op == 0x307 || op == 0x403 then run || rcv
  else if rng 0x201 0x207 || rng 0x210 0x211 || rng 0x300 0x306 || rng 0x400 0x407 || rng 0x500 0x508 || rng 0x520 0x525 then run
  else if op == 0x526 || op == 0x602 || op == 0x608 || op == 0x60B || op == 0x60D || op == 0x702 then rdy || svc || tst
  else if op == 0x509 || op == 0x527 || op == 0x604 || op == 0x609 || op == 0x706 then run || rcv || flt
  else if rng 0x600 0x60C || rng 0x700 0x705 then run
  else if rng 0x800 0x83F then run || rcv || flt
  else if rng 0x840 0x87F then run || rcv || slp || flt
  else if rng 0x880 0x8FF then run
  else if rng 0x900 0x93F then run || slp
  else if rng 0x940 0x97F || rng 0xA00 0xA3F then run || rcv || slp || flt
  else if rng 0xA40 0xA7F then stby || rdy || tst || rcv
  else if rng 0xA80 0xAFF then stby || tst || rcv
  else if rng 0xF00 0xFFF then tst || rcv
  else false

/-- Whether a tag is in use on its mailbox, R430. -/
def State.tagInUse (s : State) (m tag : Nat) : Bool := s.host.accepted.any (fun r => r.mb == m && r.tag == tag)

/-- The result word of STATE_CONFLICT, R433. -/
def State.stateWord (s : State) : Word := toW (s.rf Reg.GL_STATE 11 8 * 16 + s.dev)

/-- What a command's execution answers (step 6 of R431, and its own BUSY, NO_RESOURCE and outcome statuses). -/
inductive Verdict where
  | ok (res : List Word)
  | accepted (key : Nat) (res : List Word)
  | status (code : Nat) (res : List Word)
  /-- The reply is sent later, when the command's work is done; no other command is taken until then (R50). -/
  | later
  deriving DecidableEq, Repr

/-- A Chiast command: taken under R432, judged in the order of R431, executed and answered. `valid` is step 2 beside the tag,
`stateOk` the command's own refusal by state (step 3), `allowed` step 4; `body` is the execution and answers the new state.
A packet that is not taken now leaves the block as it is. -/
def State.command (s : State) (op : Nat) (p : Pkt) (valid stateOk allowed : Bool) (body : State → State × Verdict) : State :=
  if !s.takes op p then s
  else if (p.mb = 6 ∨ p.mb = 7) ∧ !s.debugOpen 0 then
    ((s.takeCmd op p).pf (Reg.MB_ACK p.mb) 15 0 stDENIED)
  else if 14 < p.params.length then
    ((s.ackWords p.mb (max (s.mbox p.mb).h2d.length (p.params.length + 1)) stPARAM).mbEvt p.mb 4).reply p stPARAM []
  else
    let s1 := s.takeCmd op p
    if p.tag = 0 ∨ 255 < p.tag ∨ s.tagInUse p.mb p.tag ∨ !valid then s1.reply p stPARAM []
    else if !(acceptedIn op s.dev && stateOk) then s1.reply p stSTATE [s.stateWord]
    else if !allowed then s1.reply p stDENIED []
    else match body s1 with
      | (s2, .ok res) => s2.reply p stOK res
      | (s2, .status code res) => s2.reply p code res
      | (s2, .later) => s2
      | (s2, .accepted key res) =>
        if 32 ≤ (s.host.accepted.filter (fun r => r.mb = p.mb)).length then s1.reply p stRESOURCE []
        else
          let s3 := { s2 with host := { s2.host with accepted := s2.host.accepted ++ [p.ref op key] } }
          s3.reply p stACCEPTED res

/-! ### Firmware comparators -/

/-- Whether comparator `n` is armed. -/
def State.armed (s : State) (n : Nat) : Bool := s.rb (Reg.TB_CMP_CTRL n) 0

/-- The lowest firmware comparator that is not armed, R55. -/
def State.freeCmp (s : State) : Option Nat := (List.range 32).find? (fun n => !s.armed n)

/-- Disarm a comparator. -/
def State.disarm (s : State) (n : Nat) : State := (s.pb (Reg.TB_CMP_CTRL n) 0 false).setCmp n {}

/-! ### The device state -/

/-- Cancel what an accepted command has scheduled and not begun (R435): its comparator, its commit slot and its place in the
table of pending power changes is freed. -/
def State.cancelScheduled (s : State) (r : CmdRef) : State :=
  let s1 := s.forEach (List.range 32) fun u n => if (u.cmpOf n).ref = some r then u.disarm n else u
  let slots := s1.host.slots.filter (fun x => x.2 ≠ r)
  let s2 := s1.pf Reg.GL_CMT_STAT 27 24 slots.length
  { s2 with
    host := { s2.host with slots := slots }
    pw := { s2.pw with pends := s2.pw.pends.filter (fun x => x.ref ≠ r), orders := s2.pw.orders.filter (fun x => x.ref ≠ some r) } }

/-- Simulated readings end when the device leaves TEST (R532). -/
def State.endSimulation (s : State) : State :=
  { s with th := { s.th with sensors := s.th.sensors.foldl (fun l (x : Nat × SensorSt) =>
      Sparse.set (fun _ => {}) l x.1 { x.2 with sim := none }) s.th.sensors } }

/-- The device enters a state (R435-R437, R448): GL_STATE records it; a new visit begins (R49); the states that hold every path
in mute do so (R436); accepted commands whose opcode the state refuses end with STATE_CONFLICT (R435). -/
def State.enterState (s : State) (new cause : Nat) : State :=
  let old := s.dev
  let gl := s.rd Reg.GL_STATE
  let g1 := putFld (putFld (putFld gl 3 0 new) 11 8 old) 23 16 cause
  let g2 := if new = 7 then putFld g1 15 12 old else g1
  let s1 := (s.wr Reg.GL_STATE g2).pb Reg.TB_STEP_INFO 8 false
  let s2 := s1.when (stateMutes new) State.muteAllForce
  let s3 := (s2.forEach s2.paths State.rxUpdate).when (old == 5 && new != 5) State.endSimulation
  let s4 := s3.eventNotice 0 0x01 (cause * 2 ^ 16 + old * 2 ^ 8 + new)
  (s4.forEach (s.host.accepted.filter (fun r => !acceptedIn r.op new)) fun u r =>
    (u.cancelScheduled r).finish r stSTATE [u.stateWord]).tellState

end Sys2Proof.Machine
end

