-- ==== Sys2Proof/Machine/Lines.lean ====
section
/-!
DEFINITION. Action lines and what fires them: trigger messages (R31), comparators (R55-R59), the trigger matrix (R60, R61) and the
boundaries of the frame grid (R63).
-/
namespace Sys2Proof.Machine

/-- Whether a line is tile-bound, R60. -/
def tileBound (line : Nat) : Bool := decide (line ≤ 11) && line != 1

/-- Reserved lines behave as line 31, R60. -/
def lineOf (line : Nat) : Nat := if 14 ≤ line then 31 else line

/-- An action takes effect late, R57: counted, recorded, and signalled while late_irq_en is 1. -/
def State.lateAction (s : State) (line cmp : Nat) : State :=
  let s1 := (s.bumpSat Reg.TB_LATE_CNT).hubEvent 0x02 (line * 256 + cmp)
  if s.rb Reg.TB_CTRL 2 then s1.irq 40 else s1

/-- Add a hub action that is due; sources that fire a line for the same tick give one action (R60). -/
def addDue (l : List Due) (d : Due) : List Due :=
  match l.find? (fun x => x.line == d.line && x.target == d.target) with
  | some x =>
    l.map (fun y => if y = x then { x with refs := x.refs ++ d.refs, sys := x.sys || d.sys, late := x.late && d.late } else y)
  | none => l ++ [d]

/-- Send trigger messages of a line to every present tile, R31. -/
def State.sendTriggers (s : State) (line target : Nat) (late : Bool) : State :=
  let new := (s.tiles.map (fun t => ({ tile := t, line := line, target := target, late := late } : TrigMsg))).filter
    (fun m => !s.tb.msgs.any (fun x => x.tile == m.tile && x.line == m.line && x.target == m.target))
  { s with tb := { s.tb with msgs := s.tb.msgs ++ new } }

/-- Whether a line has fired for a tick already (R60: sources that fire it for one tick give one action). -/
def State.firedFor (s : State) (line target : Nat) : Bool := s.tb.lastFire.any (fun x => x == (line, target))

/-- Note the tick a line has fired for. -/
def State.markFire (s : State) (line target : Nat) : State :=
  { s with tb := { s.tb with lastFire := s.tb.lastFire.filter (fun (x : Nat × Nat) => x.1 ≠ line) ++ [(line, target)] } }

/-- The action of a line that fires in the hub takes effect on tick `target` (R60). -/
def State.actLine (s : State) (line target : Nat) (late : Bool) (refs : List CmdRef) (sys : Bool) : State :=
  let due : Due := { line := line, target := target, late := late, refs := refs, sys := sys }
  if line = 13 then s.irq 40
  else if 3 ≤ line ∧ line ≤ 6 then (s.pb Reg.TDD_STAT (line - 3) true).bump (Cnt.tddCarrier (line - 3) 1)
  else if line = 0 ∨ line = 2 ∨ line = 11 then
    let s1 := s.sendTriggers line target late
    { s1 with tb := { s1.tb with dues := addDue s1.tb.dues due } }
  else if line = 1 ∨ line = 12 ∨ (line = 31 ∧ refs ≠ []) then { s with tb := { s.tb with dues := addDue s.tb.dues due } }
  else if 7 ≤ line ∧ line ≤ 10 then s.sendTriggers line target late
  else s

/-- A line fires in the hub (R60): once for a tick, whichever sources fire it. A firing that serves a command joins the action that is due. -/
def State.fireLine (s : State) (line target : Nat) (late : Bool) (refs : List CmdRef) (sys : Bool) : State :=
  if s.firedFor line target ∧ refs = [] then s else (s.markFire line target).actLine line target late refs sys

/-- Take the first hub action that is due on a line. -/
def State.takeDue (s : State) (line : Nat) : Option (Due × State) :=
  match s.tb.dues.find? (fun d => d.line == line) with
  | some d => some (d, { s with tb := { s.tb with dues := s.tb.dues.erase d } })
  | none => none

/-- Whether a configuration or weight-store commit whose tick is `t` or before has not been performed yet: on one tick commits come first (R62;
that another action of the tick waits for it is DEDUCED, log entry 43). -/
def State.commitFirst (s : State) (t : Nat) : Bool :=
  s.host.captures.any (fun c => decide (c.target ≤ max t s.tick)) || s.tb.dues.any (fun d => decide (d.line ≤ 1 ∧ d.target ≤ max t s.tick))

/-! ### Comparators -/

/-- The tick on which a comparator's line fires in the hub (R56, R58): the first tick that reaches the target, less 1,600 on a
tile-bound line; and the tick of the target. -/
def State.cmpTicks (s : State) (line target : Nat) : Nat × Nat :=
  let t := s.tickReaching (s.resolve target)
  (if tileBound line then t - 1600 else t, t)

/-- The next target of a periodic comparator, R59: the old target plus the period, or, when that has passed, the first whole
number of periods after now. -/
def State.nextTarget (s : State) (line target period : Nat) : Nat :=
  let per := max period (if tileBound line then 1000 else 100)
  let t1 := (target + per) % 2 ^ 48
  let d := s.shortDiff t1
  if 0 < d then t1 else (t1 + ((-d).toNat / per + 1) * per) % 2 ^ 48

/-- Whether the firing of a comparator serves a system order: a SNAP_AT for the whole system (R500). -/
def CmpSt.sys (x : CmpSt) : Bool := x.ref.any (fun r => r.op == 0x800 && r.key / 2 % 2 == 1)

/-- The flags and count of a comparator that fires (R57, R81). -/
def firedCtrl (w : Word) (late : Bool) : Word :=
  let c := putFld (putFld w 15 8 (fld w 15 8 + 1)) 2 2 1
  if late then putFld c 3 3 1 else c

/-- A comparator fires (R56-R59): flags and count, late, the line, and re-arming. -/
def State.fireCmp (s : State) (n : Nat) : State :=
  let line := lineOf (s.rf (Reg.TB_CMP_CTRL n) 20 16)
  let x := s.cmpOf n
  let (fireTick, tgtTick) := s.cmpTicks line x.target
  let late := decide (fireTick < s.tick)
  let s1 := s.advanceTo fireTick
  let target := if tileBound line then (if late then s1.tick + 1600 else tgtTick) else s1.tick
  let s2 := s1.wr (Reg.TB_CMP_CTRL n) (firedCtrl (s1.rd (Reg.TB_CMP_CTRL n)) late)
  let s3 := if late then s2.lateAction line n else s2
  let s4 :=
    if x.period = 0 then s3.disarm n
    else
      let t := s3.nextTarget line x.target x.period
      ((s3.setCmp n { x with target := t }).wr (Reg.TB_CMP_TGT_LO n) (toW t)).wr (Reg.TB_CMP_TGT_HI n) (toW (t / 2 ^ 32))
  s4.fireLine line target late x.ref.toList x.sys

/-- Whether a comparator's firing tick has come or passed. -/
def State.cmpDueNow (s : State) (n : Nat) : Bool :=
  decide ((s.cmpTicks (lineOf (s.rf (Reg.TB_CMP_CTRL n) 20 16)) (s.cmpOf n).target).1 < s.tick)

/-- Arm a comparator with a target, period and line (R81); one whose firing tick has passed fires at once (R58). -/
def State.armCmp (s : State) (n target period : Nat) (ref : Option CmdRef) : State :=
  let s1 := (s.setCmp n { target := target % 2 ^ 48, period := period, ref := ref }).pb (Reg.TB_CMP_CTRL n) 0 true
  if s1.cmpDueNow n then s1.fireCmp n else s1

/-- Arm a firmware comparator for a scheduled command (R55, R58): its line and its target registers are written; its count and flags are
kept (R81). It is armed on the tick of acceptance, of the 50 us that R58 allows (DESIGN CHOICE, log entry 34). -/
def State.schedule (s : State) (n line target period : Nat) (ref : Option CmdRef) : State :=
  let s1 := ((s.wr (Reg.TB_CMP_TGT_LO n) (toW target)).wr (Reg.TB_CMP_TGT_HI n) (toW (target / 2 ^ 32 % 2 ^ 16))).wr
    (Reg.TB_CMP_PER n) (toW period)
  (s1.pf (Reg.TB_CMP_CTRL n) 20 16 line).armCmp n target period ref

/-- The short-time target of a PTP time in parameters i, i+1, i+2 (seconds [47:32], seconds [31:0], nanoseconds). -/
def ptpParam (ps : List Word) (i : Nat) : Nat :=
  ptpTime (fld (wordAt ps i) 15 0 * 2 ^ 32 + (wordAt ps (i + 1)).toNat) (wordAt ps (i + 2)).toNat

/-- Whether the time parameters at i are a PTP time whose target may be armed: nanoseconds below 10^9 and at most 2^47 - 1 ns
ahead of now (R45, R56). -/
def State.ptpOk (s : State) (ps : List Word) (i : Nat) : Bool :=
  decide ((wordAt ps (i + 2)).toNat < 1000000000 ∧ (wordAt ps i).toNat < 2 ^ 16 ∧
    nsOf (ptpParam ps i) ≤ nsOf s.now + (2 ^ 47 - 1))

/-! ### The trigger matrix -/

/-- The lines that a source is routed to through TB_TRIG_SEL (R61, R82). -/
def State.routed (s : State) (src : Nat) : List Nat :=
  (List.range 14).filter fun l => s.rb (Reg.TB_TRIG_SEL l) 8 && s.rf (Reg.TB_TRIG_SEL l) 4 0 == src

/-- A source fires the hub lines it is routed to, on the tick of its event (R61). -/
def State.fireHubRoutes (s : State) (src : Nat) : State :=
  s.forEach ((s.routed src).filter (fun l => !tileBound l)) fun u l => u.fireLine l u.tick false [] false

/-- The tile-bound lines of a source that have not fired yet for the event `ev`. -/
def State.aheadLines (s : State) (src : Nat) (ev : Int) : List Nat :=
  (s.routed src).filter fun l => tileBound l && !s.tb.ahead.any (fun x => x == (l, ev))

/-- Fire the tile-bound lines of a source for an event on tick `at_` (R61): on time when at least 1,600 ticks remain, else with
the current tick plus 1,600 and late. A late action of such a source has no comparator: the comparator field of its event 0x02 is a free
value (DESIGN CHOICE, log entry 24). -/
def State.fireAhead (s : State) (src : Nat) (ev : Int) (at_ : Nat) : State :=
  let late := decide (at_ < s.tick + 1600)
  let target := if late then s.tick + 1600 else at_
  s.forEach (s.aheadLines src ev) fun u l =>
    let u1 := { u with tb := { u.tb with ahead := (u.tb.ahead.filter (fun (x : Nat × Int) => x.1 ≠ l)) ++ [(l, ev)] } }
    let u2 := if late then
        let (w, u') := u1.drawNat
        u'.lateAction l (w % 64)
      else u1
    u2.fireLine l target late [] false

/-! ### Boundaries of the frame grid -/

/-- The boundary of a source at or before a grid unit, R61, R63, R126. -/
def State.floorBound (s : State) (src : Nat) (u : Int) : Int :=
  if src = 1 then u / 2457600 * 2457600
  else if src = 2 then u / 245760 * 245760
  else if src ≤ 6 then slotStart (src - 3) (slotAt (src - 3) u)
  else
    let cfg := s.carCfg (src - 7)
    let n := carSlotAt (cfgMu cfg) (cfgExt cfg) u
    symStart (cfgMu cfg) (cfgExt cfg) n (symAt (cfgMu cfg) (cfgExt cfg) n u)

/-- The boundary of a source after one of its boundaries. -/
def State.succBound (s : State) (src : Nat) (b : Int) : Int :=
  if src = 1 then b + 2457600
  else if src = 2 then b + 245760
  else if src ≤ 6 then slotStart (src - 3) (slotAt (src - 3) b + 1)
  else
    let cfg := s.carCfg (src - 7)
    let n := carSlotAt (cfgMu cfg) (cfgExt cfg) b
    symEnd (cfgMu cfg) (cfgExt cfg) n (symAt (cfgMu cfg) (cfgExt cfg) n b)

/-- The next boundary of a source: the first that the current tick or a later one reaches first, and that has not been generated
(R52, R63). -/
def State.nextBound (s : State) (src : Nat) : Int :=
  let t := s.timeFrom
  let f := s.floorBound src (s.gridUnits t)
  let b := if t ≤ s.gridTime f then f else s.succBound src f
  if s.tb.lastSrc.any (fun x => x.1 == src && decide (b ≤ x.2) && decide (x.2 - b ≤ 2)) then s.succBound src b else b

/-- Remember the last boundary generated of a source. -/
def State.markSrc (s : State) (src : Nat) (b : Int) : State :=
  { s with tb := { s.tb with lastSrc := (s.tb.lastSrc.filter (fun (x : Nat × Int) => x.1 ≠ src)) ++ [(src, b)] } }

/-- The next rising edge of PPS_OUT, R72: the whole second plus the offset, as seconds. -/
def State.ppsOfs (s : State) : Int :=
  let o := sext (s.rd Reg.TB_PPSOUT_OFS).toNat 32
  if o < -500000000 then -500000000 else if o > 500000000 then 500000000 else o

/-- The second whose PPS_OUT edge comes next. -/
def State.nextPps (s : State) : Int :=
  let t := s.timeFrom
  let ns : Int := ((t + nsU - 1) / nsU : Nat)
  let k := (ns - s.ppsOfs + 999999999) / 1000000000
  if s.tb.lastSrc.any (fun x => x == (0x0C, k)) then k + 1 else k

/-- The tick on which the PPS_OUT edge of a second falls. -/
def State.ppsTickOf (s : State) (k : Int) : Nat := s.tickReaching ((k * 1000000000 + s.ppsOfs).toNat * nsU)

/-- Whether PPS_OUT runs, R72. -/
def State.ppsRuns (s : State) : Bool :=
  s.rb Reg.TB_PPSOUT_CFG 0 && (s.rb Reg.TB_STATUS 0 || s.rb Reg.TB_PPSOUT_CFG 1)

/-- PPS_OUT is held low while it does not run (R72): a pulse ends at once when `en` or `force` is cleared. -/
def State.ppsFollow (s : State) : State :=
  if s.ppsRuns then s else { s with tb := { s.tb with ppsOut := false } }

/-- The Sync timeout runs from this tick (R68). -/
def State.restartSync (s : State) : State := { s with tb := { s.tb with syncTick := s.tick } }

/-- Forget the boundaries generated and fired ahead of some sources: they are generated anew from the present time (R52, R61). -/
def State.resetSources (s : State) (which : Nat → Bool) : State :=
  { s with tb := { s.tb with
    lastSrc := s.tb.lastSrc.filter (fun (x : Nat × Int) => !which x.1)
    ahead := s.tb.ahead.filter (fun (x : Nat × Int) => !which (s.rf (Reg.TB_TRIG_SEL x.1) 4 0)) } }

/-- The sources whose timing differs from what it was in `old` start anew (R61): the grid's with the grid origin, PPS_OUT with its offset. -/
def State.retime (s old : State) : State :=
  s.resetSources fun src =>
    (decide (src ≤ 0x0A) && s.gridOrigin != old.gridOrigin) || (src == 0x0C && s.ppsOfs != old.ppsOfs)

end Sys2Proof.Machine
end

