-- ==== Sys2Proof/Machine/Carrier.lean ====
section
/-!
DEFINITION. Carriers (R120-R142): the rules a set of carriers must meet, their loads, the switch to new values (R135, R630), and the
carrier commands (R137).
-/
namespace Sys2Proof.Machine

/-! ### Rules -/

/-- The link rate in force in kHz (R122, R139): the lowest that a tile link took at its last training. -/
def rateOf (code : Nat) : Nat := [400000, 800000, 1600000].getD code 1600000
def State.linkRate (s : State) : Nat := (s.tiles.map (fun t => rateOf (s.lnk t).rate)).foldl min 1600000

/-- The rules of one carrier: transform size, reference frequency, blocks, span and place in the band (R120, R121, R123). -/
def State.carOk (s : State) (v : CarVals) : Bool :=
  let f := fld v.f0 21 0
  !cfgValid v.cfg || (decide (8 ≤ cfgFft v.cfg ∧ cfgFft v.cfg ≤ 13) && decide (f = 0 ∨ (80000 ≤ f ∧ f ≤ 2800000)) &&
    decide (carBlocks v.cfg ≤ 4) && decide (carSpan v.cfg ≤ 400000) &&
    decide (8 * (2 * (carOfs v.ofs).natAbs + carSpan v.cfg) ≤ 6 * s.linkRate))

/-- Whether two carriers' spans overlap; they may touch (R121). -/
def carOverlap (a b : CarVals) : Bool :=
  cfgValid a.cfg && cfgValid b.cfg &&
    decide (2 * (carOfs a.ofs - carOfs b.ofs).natAbs < carSpan a.cfg + carSpan b.cfg)

/-- The load of a set of carriers in a direction: blocks, and the sum of N x spacing in kS/s (R124). -/
def carLoad (vs : List CarVals) (dl : Bool) : Nat × Nat :=
  vs.foldl (fun (a : Nat × Nat) v =>
    if (if dl then cfgDl v.cfg else cfgUl v.cfg) then
      (a.1 + carBlocks v.cfg, a.2 + carBlocks v.cfg * 2 ^ cfgFft v.cfg * carScs v.cfg)
    else a) (0, 0)

/-- SE_LOAD of a set of carriers, R140. -/
def loadWord (vs : List CarVals) (dl : Bool) : Word :=
  let (b, k) := carLoad vs dl
  toW (min b 15 * 2 ^ 16 + min ((k + 999) / 1000) 8191)

/-- Why a set of carriers is refused (R124): `none`, a capacity breach, or another rule. A transform size outside R120 has no load. -/
def State.carsRefused (s : State) (vs : List CarVals) : Option Nat :=
  let pairs := (List.range vs.length).flatMap (fun i => (List.range i).map (fun j => (i, j)))
  let at_ := fun i => vs.getD i { cfg := 0, ofs := 0, adv := 0, f0 := 0 }
  let sized := vs.filter (fun v => decide (8 ≤ cfgFft v.cfg ∧ cfgFft v.cfg ≤ 13))
  let tooDear := fun (l : Nat × Nat) => decide (8 < l.1 ∨ 1600000 < l.2)
  if tooDear (carLoad sized true) || tooDear (carLoad sized false) then some stRESOURCE
  else if vs.any (fun v => !s.carOk v) || pairs.any (fun (p : Nat × Nat) => carOverlap (at_ p.1) (at_ p.2)) then some stPARAM
  else none

/-! ### Values -/

/-- The live values of a carrier, and the staged ones. -/
def State.carLive (s : State) (c : Nat) : CarVals :=
  { cfg := s.rd (Reg.CAR_CFG c), ofs := s.rd (Reg.CAR_OFS c), adv := s.rd (Reg.CAR_ADV c), f0 := s.rd (Reg.CAR_F0 c) }
def State.carStaged (s : State) (c : Nat) : CarVals :=
  { cfg := s.srd (Reg.CAR_CFG c), ofs := s.srd (Reg.CAR_OFS c), adv := s.srd (Reg.CAR_ADV c), f0 := s.srd (Reg.CAR_F0 c) }

/-- The values that will be in force after every pending switch (R630). -/
def State.carNext (s : State) (c : Nat) : CarVals :=
  match (s.car c).switches.getLast? with
  | some w => w.vals
  | none => s.carLive c

/-- The values in force at a time (R136), of the values that held before the last switch, the live ones and those pending. -/
def State.carAt (s : State) (c t : Nat) : CarVals :=
  match (s.car c).old with
  | some o => if t < o.time then o.vals else (s.car c).switches.foldl (fun v w => if w.time ≤ t then w.vals else v) (s.carLive c)
  | none => (s.car c).switches.foldl (fun v w => if w.time ≤ t then w.vals else v) (s.carLive c)

/-- The values under which symbol `l` of slot `n` of carrier `c` is named (R136): the newest whose reign the symbol, so read, falls in. -/
def State.carNamed (s : State) (c : Nat) (n : Int) (l : Nat) : CarVals :=
  let air := fun (v : CarVals) => s.gridTime (symStart (cfgMu v.cfg) (cfgExt v.cfg) n l)
  match (s.car c).switches.reverse.find? (fun w => decide (w.time ≤ air w.vals)) with
  | some w => w.vals
  | none => match (s.car c).old with
    | some o => if air o.vals < o.time ∧ air (s.carLive c) < o.time then o.vals else s.carLive c
    | none => s.carLive c

/-- The values of CAR_PROC and of the SRS registers in force at a time (R135). -/
def State.procAt (s : State) (c t : Nat) : Word :=
  match (s.car c).procOld with
  | some o => if t < o.1 then o.2 else (s.car c).proc.foldl (fun v w => if w.1 ≤ t then w.2 else v) (s.rd (Reg.CAR_PROC c))
  | none => (s.car c).proc.foldl (fun v w => if w.1 ≤ t then w.2 else v) (s.rd (Reg.CAR_PROC c))
def State.srsAt (s : State) (c t : Nat) : Word × Word :=
  let live := (s.rd (Reg.CAR_SRS_PER c), s.rd (Reg.CAR_SRS_SYM c))
  match (s.car c).srsOld with
  | some o => if t < o.1 then o.2 else (s.car c).srs.foldl (fun v w => if w.1 ≤ t then w.2 else v) live
  | none => (s.car c).srs.foldl (fun v w => if w.1 ≤ t then w.2 else v) live

/-- Downlink advance and uplink compensation in ns in force at a time (R129). -/
def State.dlAdvAt (s : State) (c t : Nat) : Nat := min 50000 (fld (s.carAt c t).adv 15 0)
def State.ulCompAt (s : State) (c t : Nat) : Nat := min 2000 (fld (s.carAt c t).adv 26 16)

/-- The first slot boundary, or symbol boundary, of carrier `c` at or after a time, under the values in force there (R135): a pending switch
is such a boundary. -/
def State.carBoundary (s : State) (c : Nat) (sym : Bool) (t : Nat) : Nat :=
  let cfg := (s.carAt c t).cfg
  let b := if sym then s.symBoundaryFrom (cfgMu cfg) (cfgExt cfg) t else s.slotBoundaryFrom (cfgMu cfg) (cfgExt cfg) t
  (s.car c).switches.foldl (fun b w => if t ≤ w.time then min b w.time else b) b

/-- Whether a time lies in a reconfiguration slot of carrier `c` (R135): of its last switch or of a pending one. -/
def State.inReconf (s : State) (c t : Nat) : Bool :=
  (s.car c).reconfEnd.any (fun e => decide (t < e) && (s.car c).old.all (fun o => decide (o.time ≤ t))) ||
    (s.car c).switches.any (fun w => decide (w.time ≤ t) && decide (t < s.slotBoundaryFrom (cfgMu w.vals.cfg) (cfgExt w.vals.cfg) (w.time + 1)))

/-- A commit changes carrier `c` (R135, R630): the switch waits for the first slot boundary in its own numerology at or after the
commit tick and any pending switch; at the pending boundary itself only the later values take effect. -/
def State.switchCar (s : State) (c : Nat) (v : CarVals) : State :=
  let x := s.car c
  let from_ := match x.switches.getLast? with
    | some w => max s.timeFrom w.time
    | none => s.timeFrom
  let t := s.slotBoundaryFrom (cfgMu v.cfg) (cfgExt v.cfg) from_
  let keep := x.switches.filter (fun w => w.time ≠ t)
  s.setCar c { x with switches := keep ++ [{ time := t, vals := v }] }

/-- A commit changes CAR_PROC, or the SRS registers, of carrier `c`: they wait for their own boundary, after those already pending (R135,
R630). -/
def State.switchProc (s : State) (c : Nat) (w : Word) : State :=
  let x := s.car c
  let t := s.carBoundary c true (max s.timeFrom ((x.proc.getLast?.map Prod.fst).getD 0))
  s.setCar c { x with proc := x.proc.filter (fun (p : Nat × Word) => p.1 ≠ t) ++ [(t, w)] }
def State.switchSrs (s : State) (c : Nat) (per sym : Word) : State :=
  let x := s.car c
  let t := s.carBoundary c false (max s.timeFrom ((x.srs.getLast?.map Prod.fst).getD 0))
  s.setCar c { x with srs := x.srs.filter (fun (p : Nat × Word × Word) => p.1 ≠ t) ++ [(t, per, sym)] }

/-! ### The switch -/

/-- Show the live carriers' loads (R140) and the status of a carrier (R142). -/
def State.showCar (s : State) (c : Nat) (reconf : Bool) : State :=
  let vs := (List.range 4).map s.carLive
  let w := s.carCfg c
  let stat := b2n (cfgDl w) * 2 ^ 31 + b2n (cfgUl w) * 2 ^ 30 + b2n reconf * 2 ^ 29 + (if cfgValid w then carBlocks w else 0) * 2 ^ 16
  ((s.wr (Reg.CAR_STAT c) (toW stat)).wr Reg.SE_LOAD_DL (loadWord vs true)).wr Reg.SE_LOAD_UL (loadWord vs false)

/-- What carrier `c` awaits next: 0 a switch, 1 the end of its reconfiguration slot, 2 CAR_PROC, 3 the SRS registers; and its time. -/
def State.carNextEvent (s : State) (c : Nat) : Option (Nat × Nat) :=
  let x := s.car c
  let es := (x.reconfEnd.toList.map (fun t => (1, t))) ++ (x.switches.map (fun w => (0, w.time))) ++
    (x.proc.map (fun (p : Nat × Word) => (2, p.1))) ++ (x.srs.map (fun (p : Nat × Word × Word) => (3, p.1)))
  es.foldl (fun (best : Option (Nat × Nat)) e => match best with
    | none => some e
    | some b => if e.2 < b.2 then some e else some b) none

/-- CARRIER_SWITCH, R135, R630: carrier `c` reaches its next boundary. At a switch its new values become live for one reconfiguration
slot; CAR_PROC and the SRS registers change at their own boundaries. -/
def execCarrierSwitch (c : Nat) (s : State) : Out :=
  match s.carNextEvent c with
  | none => .next s
  | some (kind, t) =>
    if 4 ≤ c then .next s
    else
      let s0 := s.advanceTo (s.tickReaching t)
      let x := s0.car c
      if kind = 1 then .next ((s0.setCar c { x with reconfEnd := none }).showCar c false)
      else if kind = 2 then
        match x.proc with
        | [] => .next s0
        | p :: rest => .next ((s0.wr (Reg.CAR_PROC c) p.2).setCar c { x with proc := rest, procOld := some (t, s0.rd (Reg.CAR_PROC c)) })
      else if kind = 3 then
        match x.srs with
        | [] => .next s0
        | p :: rest => .next (((s0.wr (Reg.CAR_SRS_PER c) p.2.1).wr (Reg.CAR_SRS_SYM c) p.2.2).setCar c {
            x with srs := rest, srsOld := some (t, s0.rd (Reg.CAR_SRS_PER c), s0.rd (Reg.CAR_SRS_SYM c)) })
      else
        match x.switches with
        | [] => .next s0
        | w :: rest =>
          let s1 := (((s0.wr (Reg.CAR_CFG c) w.vals.cfg).wr (Reg.CAR_OFS c) w.vals.ofs).wr (Reg.CAR_ADV c) w.vals.adv).wr
            (Reg.CAR_F0 c) w.vals.f0
          let mu := cfgMu w.vals.cfg
          let ext := cfgExt w.vals.cfg
          let stop := s1.slotBoundaryFrom mu ext (w.time + 1)
          let again := x.old.any (fun o => o.time == w.time)
          let s2 := s1.setCar c { x with
            switches := rest, reconfEnd := some stop, old := if again then x.old else some { time := w.time, vals := s0.carLive c } }
          .next ((s2.when (!again) (fun u => u.bump (Cnt.seCarrier c 2))).showCar c true)

/-- SE_CTRL_WRITE, R122: link_rate changes in STANDBY and READY only; it is taken by the links at their next training. -/
def execSeCtrlWrite (w : Word) (s : State) : Out :=
  .next (s.access Reg.SE_CTRL fun s =>
    if s.dev = 2 ∨ s.dev = 3 then s.poke Reg.SE_CTRL w
    else s.pb Reg.SE_STATUS 0 true)

/-! ### Commands -/

/-- CAR_SET: carrier; CAR_CFG, CAR_OFS, CAR_ADV, CAR_PROC, CAR_F0, staged; the reply gives the blocks. -/
def execCarSet (p : Pkt) (s : State) : Out :=
  let c := p.arg 0
  let v : CarVals := { cfg := wordAt p.params 1, ofs := wordAt p.params 2, adv := wordAt p.params 3, f0 := wordAt p.params 5 }
  let f := fld v.f0 21 0
  let range := decide (8 ≤ cfgFft v.cfg ∧ cfgFft v.cfg ≤ 13 ∧ (f = 0 ∨ (80000 ≤ f ∧ f ≤ 2800000)) ∧
    fld v.adv 15 0 ≤ 50000 ∧ fld v.adv 26 16 ≤ 2000)
  .next (s.command 0x210 p (p.is 6 && decide (c < 4) && range && decide (carBlocks v.cfg ≤ 4)) true true fun u =>
    let u1 := (((u.stage (Reg.CAR_CFG c) v.cfg).stage (Reg.CAR_OFS c) v.ofs).stage (Reg.CAR_ADV c) v.adv)
    ((u1.stage (Reg.CAR_PROC c) (wordAt p.params 4)).stage (Reg.CAR_F0 c) v.f0, .ok [toW (carBlocks v.cfg)]))

/-- CAR_SRS_SET: carrier; CAR_SRS_PER, CAR_SRS_SYM, staged. -/
def execCarSrsSet (p : Pkt) (s : State) : Out :=
  let c := p.arg 0
  .next (s.command 0x211 p (p.is 3 && decide (c < 4 ∧ fld (wordAt p.params 1) 11 0 ≤ 2560)) true true fun u =>
    ((u.stage (Reg.CAR_SRS_PER c) (wordAt p.params 1)).stage (Reg.CAR_SRS_SYM c) (wordAt p.params 2), .ok []))

/-- CAR_QUERY: SE_LOAD_DL and SE_LOAD_UL of the staged configuration. -/
def execCarQuery (p : Pkt) (s : State) : Out :=
  .next (s.command 0x212 p (p.is 0) true true fun u =>
    let vs := (List.range 4).map u.carStaged
    (u, .ok [loadWord vs true, loadWord vs false]))

/-- SE_LINK_RATE: code 0-2. -/
def execSeLinkRate (p : Pkt) (s : State) : Out :=
  .next (s.command 0x213 p (p.is 1 && decide (p.arg 0 < 3)) true true fun u => (u.pf Reg.SE_CTRL 1 0 (p.arg 0), .ok []))

/-- CAR_STATUS: CAR_STAT of a carrier. -/
def execCarStatus (p : Pkt) (s : State) : Out :=
  .next (s.command 0x214 p (p.is 1 && decide (p.arg 0 < 4)) true true fun u => (u, .ok [u.peek (Reg.CAR_STAT (p.arg 0))]))

end Sys2Proof.Machine
end

