-- ==== Sys2Proof/Machine/Inject.lean ====
section
/-!
DEFINITION. Words that pass a check point (R394, R410, R412) or a crossing (R29), and what the cascade carries of them (R163, R371).
-/
namespace Sys2Proof.Machine

/-- Whether a check at a check point of a unit is altered by a running injection (R410): the mode, and the injection with one word
less. The notice of the command that ordered it is sent when the last word has been altered. -/
def State.injected (s : State) (chk unit : Nat) : Option Nat × State :=
  match s.sv.inject with
  | none => (none, s)
  | some i =>
    if i.chk = chk ∧ i.unit = unit then
      if i.left ≤ 1 then
        let s1 := ({ s with sv := { s.sv with inject := none } }).pb Reg.SV_STAT 1 false
        (some i.mode, match i.ref with
          | some r => s1.finish r stOK []
          | none => s1)
      else (some i.mode, { s with sv := { s.sv with inject := some { i with left := i.left - 1 } } })
    else (none, s)

/-- The counters of hub check point `code` (R394, R412): check failures and words poisoned. -/
def State.hubCheck (s : State) (code fails bad : Nat) : State :=
  (s.bumpBy (Cnt.svHubChk code 0) fails).bumpBy (Cnt.svHubChk code 1) bad

/-- Count `fails` failures of the checks at a check point of a unit, and `bad` words poisoned there (R394, R412). -/
def State.countCheck (s : State) (chk unit fails bad : Nat) : State :=
  if 1 ≤ chk ∧ chk ≤ 8 then s.hubCheck chk fails bad
  else if chk = 0x10 then s.bumpBy (Cnt.svEngine unit 0) fails
  else if chk = 0x11 then s.bumpBy (Cnt.svEngine unit 1) fails
  else if 0x13 ≤ chk ∧ chk ≤ 0x19 then s.bumpBy (Cnt.svPath unit chk) fails
  else if chk = 0x20 then s.bumpBy (Cnt.svOrx unit) fails
  else s

/-- The injection alters the checks of `n` words (R410): mode 0 fails them, which counts at once (R412) and toward R398, mode 1 poisons the
words. -/
def State.injectCount (s : State) (i : Injection) (n : Nat) : State :=
  let unit := if i.chk ≤ 8 then 0 else i.unit
  let fails := if i.mode = 0 then n else 0
  let key := 256 * i.chk + unit
  let old := Sparse.get (fun _ => (0, 0)) s.sv.acc key
  let s1 := ({ s with sv := { s.sv with
    acc := Sparse.set (fun _ => (0, 0)) s.sv.acc key (old.1 + fails, old.2 + n)
    inject := if i.left ≤ n then none else some { i with left := i.left - n } } } : State).countCheck i.chk unit fails n
  if n < i.left then s1
  else
    let s2 := s1.pb Reg.SV_STAT 1 false
    match i.ref with
    | some r => s2.finish r stOK []
    | none => s2

/-- How many of the next `n` words that pass a check point of a unit a running injection alters (R410). -/
def State.injectLeft (s : State) (chk unit n : Nat) : Nat :=
  match s.sv.inject with
  | none => 0
  | some i => if i.chk = chk ∧ (chk ≤ 8 ∨ i.unit = unit) then min i.left n else 0

/-- Words that pass a check point of a unit: a running injection poisons as many of them as it has left (R410). Words that leave a hub check
point poisoned are counted there (R412). -/
def State.injectWords (s : State) (chk unit : Nat) (ws : List Cx) : State × List Cx :=
  let k := s.injectLeft chk unit ws.length
  let s1 := match s.sv.inject with
    | some i => if 0 < k then s.injectCount i k else s
    | none => s
  (s1.countCheck chk unit 0 ((ws.drop k).filter Cx.bad).length, (ws.take k).map (fun w => { w with bad := true }) ++ ws.drop k)

/-- Words that pass a crossing: as many as it has lost are poisoned (R29). -/
def State.crossWords (s : State) (row unit : Nat) (ws : List Cx) : State × List Cx :=
  let k := 256 * row + unit
  let n := Sparse.get (fun _ => 0) s.lost k
  if n = 0 then (s, ws)
  else ({ s with lost := Sparse.set (fun _ => 0) s.lost k (n - ws.length) },
    (ws.take n).map (fun w => { w with bad := true }) ++ ws.drop n)

/-- The same for the words of PRBs. -/
def State.crossPrbs (s : State) (row unit : Nat) (l : List (Nat × List Cx)) : State × List (Nat × List Cx) :=
  l.foldl (fun (a : State × List (Nat × List Cx)) (d : Nat × List Cx) =>
    let (u, ws) := a.1.crossWords row unit d.2
    (u, a.2 ++ [(d.1, ws)])) (s, [])

/-- The same for a list of lists; unit `u` is the place in the list where `byUnit` holds. -/
def State.injectLists (s : State) (chk : Nat) (byUnit : Bool) (l : List (List Cx)) : State × List (List Cx) :=
  l.zipIdx.foldl (fun (a : State × List (List Cx)) (x : List Cx × Nat) =>
    let (u, y) := a.1.injectWords chk (if byUnit then x.2 else 0) x.1
    (u, a.2 ++ [y])) (s, [])

/-- Cascade words of twelve words at a time, checked at the sender (R163, R371, R394). -/
def State.cascBlocks (s : State) (l : List (List Cx)) : State × List CascBlock :=
  let (s1, ws) := s.injectLists 0x08 false l
  (s1, ws.map cascBlock)

/-- Cascade words that arrive on a link: those of its words that the crossing has lost are poisoned, and the block with them (R29). -/
def State.crossBlocks (s : State) (l : Nat) (bs : List CascBlock) : State × List CascBlock :=
  bs.foldl (fun (a : State × List CascBlock) b =>
    let (u, ws) := a.1.crossWords 5 l (b.ms.map (fun (m : Int × Int) => { i := m.1, q := m.2 }))
    (u, a.2 ++ [if ws.any Cx.bad then { b with res := 15 } else b])) (s, [])

/-- Send 96 elements of a channel slot (kind 3) or a vector slot (kind 4) to a package, R189. -/
def State.sendSlot (s : State) (kind slot dst first : Nat) (els : List Cx) : State :=
  let (s1, bs) := s.cascBlocks ((List.range 8).map (fun (k : Nat) => (els.drop (12 * k)).take 12))
  s1.sendRec (s1.toward dst) { kind := kind, hdr := slotHdr slot s.pkgNum dst first, blocks := bs }

end Sys2Proof.Machine
end

