-- ==== Sys2Proof/Machine/Wake.lean ====
section
/-!
DEFINITION. Wake sources and the start of a wake (R553, R554, R556), abandoning an entry (R543, R544, R546), a tile whose wake fails
(R557), and latching and releasing pads (R547, R548).
-/
namespace Sys2Proof.Machine

/-- The package state in PW_STAT, R564: 0 RUN, 1 ENTERING, 2 DEEP, 3 WAKING, 4 WAKE_FAIL. -/
def State.pkgState (s : State) : Nat := s.rf Reg.PW_STAT 31 28
def State.setPkg (s : State) (v : Nat) : State := s.pf Reg.PW_STAT 31 28 v
def State.setTileState (s : State) (t v : Nat) : State := s.pf Reg.PW_STAT (3 * t + 2) (3 * t) v
/-- The monitor ADCs of a tile that is powered start with cleared accumulators and trackers, and calibrate before their first conversion (R493). -/
def State.freshAdcs (s : State) (t : Nat) : State :=
  s.forEach [2 * t, 2 * t + 1] fun u q =>
    let x : MaSt := { winRun := (Sparse.get (fun _ => {}) u.mon.adcs q).winRun, lastCal := u.tick, idleFrom := u.tick }
    { u with mon := { u.mon with adcs := Sparse.set (fun _ => {}) u.mon.adcs q x } }

/-- Switch a power domain on or off (R33). -/
def State.setDom (s : State) (d : Nat) (v : Bool) : State :=
  let s1 := ({ s with sv := { s.sv with dead := if v then s.sv.dead.filter (fun t => t + 8 ≠ d) else s.sv.dead } } : State).pb Reg.PW_STAT (16 + d) v
  if 8 ≤ d then (if v then s1.freshAdcs (d - 8) else s1.muteTile (d - 8)) else s1

/-- Record that a scope has entered a power state: event 0x70 (R560). -/
def State.powerEvent (s : State) (scope code : Nat) : State :=
  s.hubEvent 0x70 ((if scope = 4 then 0xF else scope) * 256 + code)

/-- Whether a command still has work to do: an entry, an order, a change that waits, or a wake. -/
def State.powerWork (s : State) (r : CmdRef) : Bool :=
  (s.pw.entries ++ s.pw.orders).any (fun x => x.ref == some r) || s.pw.pends.any (fun x => x.ref == r) ||
    s.pw.wakes.any (fun x => x.ref == some r)

/-- One notice of PW_TILE for a tile: PW_REFUSE and late in [31]; final with the command's last tile (R561). -/
def State.tileNotice (s : State) (ref : Option CmdRef) (status : Nat) (late : Bool) : State :=
  match ref with
  | none => s
  | some r =>
    let w := [toW ((s.rd Reg.PW_REFUSE).toNat + b2n late * 2 ^ 31)]
    if s.powerWork r then s.noticeMore r status w else s.finish r status w

/-- CTRL message codes of a system entry (R546): a package's report, GO and ABANDON. -/
def opReport : Nat := 0x7E0
def opGo : Nat := 0x7E1
def opAbandon : Nat := 0x7E2

/-- The refusal of an entry, R543: PW_REFUSE, refused, event 0x71, the counters, the blocks resume and the command ends. `pkg` is the package
that abandoned first in a system entry. -/
def State.abandonHere (s : State) (e : PwEntry) (reason dom pkg : Nat) : State :=
  let s1 := { s with pw := { s.pw with entries := s.pw.entries.erase e, reports := if e.scope = 4 then [] else s.pw.reports
                                       sysGo := if e.scope = 4 then false else s.pw.sysGo } }
  let s2 := ((s1.wr Reg.PW_REFUSE (toW (reason * 256 + dom))).pwEvt 1).hubEvent 0x71 (reason * 256 + dom)
  if e.scope = 4 then
    let s3 := (s2.setPkg 0).bump (Cnt.pwPackage 1)
    match e.ref with
    | some r => s3.finish r stITEM [toW (reason * 256 + dom + b2n e.sys * pkg * 2 ^ 16)]
    | none => s3
  else
    let s3 := (s2.setTileState e.scope (if e.idle then 1 else 0)).bump (Cnt.pwTile e.scope 2)
    s3.tileNotice e.ref stITEM e.late

/-- An entry is abandoned (R543). In a system entry a member reports it to the lead, and the lead sends ABANDON down the chain (R546). -/
def State.abandonEntry (s : State) (e : PwEntry) (reason dom : Nat) : State :=
  let s1 := s.abandonHere e reason dom s.pkgNum
  let w := toW (reason * 256 + dom)
  if !e.sys then s1
  else if s.isLead then s1.copyDown opAbandon [w]
  else match s.port 1 with
    | some l => s1.sendMsg l 0xB opReport [toW s.pkgNum, w]
    | none => s1

/-- The mask bit of a wake source. -/
def srcBit (src : Nat) : Nat := 2 ^ (src - 1)

/-- A wake of a tile begins (R555): from RETAIN at step 5; from IDLE at once with no step to run (shown as step 8). -/
def State.startTileWake (s : State) (t src : Nat) (ref : Option CmdRef) (dueBy : Option Nat) (late : Bool) : State :=
  let w : PwWake := {
    scope := t, step := if s.tileState t = 1 then 8 else 5, stepStart := s.tick, start := s.tick, source := src,
    seen := srcBit src, ref := ref, dueBy := dueBy, late := late }
  let s1 := (s.setTileState t 5).bump (Cnt.pwTile t 3)
  let s2 := if w.step = 5 then { s1 with pw := { s1.pw with pen := setBitN s1.pw.pen (1 + t) } } else s1
  { s2 with pw := { s2.pw with wakes := s2.pw.wakes ++ [w] } }

/-- A wake of the package from DEEP begins (R555, step 1). -/
def State.startPkgWake (s : State) (src : Nat) : State :=
  let w : PwWake := { scope := 4, step := 1, stepStart := s.tick, start := s.tick, source := src, seen := srcBit src }
  let s1 := ((s.setPkg 3).bump (Cnt.pwPackage 2)).bump (Cnt.pwWake src)
  { s1 with pw := { s1.pw with wakes := s1.pw.wakes ++ [w], pen := setBitN s1.pw.pen 0 } }

/-- Note a source that arrives while a scope is waking (R554). -/
def State.seenSource (s : State) (scope src : Nat) : State :=
  { s with pw := { s.pw with wakes := s.pw.wakes.map (fun w =>
      if w.scope = scope then
        { w with seen := Nat.lor w.seen (srcBit src), source := if w.start = s.tick ∧ w.source ≠ 0 then min w.source src else w.source }
      else w) } }

/-- A wake source for the package, R544, R553, R554, R556. -/
def State.wakePackage (s : State) (src : Nat) : State :=
  match s.pkgState with
  | 1 =>
    match s.pw.entries.find? (fun e => e.scope == 4) with
    | some e => s.abandonEntry e 0x0D 0
    | none => s
  | 2 => s.startPkgWake src
  | 3 => s.seenSource 4 src
  | 4 =>
    ((s.wr Reg.PW_LAST_WAKE (toW (src * 2 ^ 28 + Nat.lor (s.rf Reg.PW_LAST_WAKE 21 16) (srcBit src) * 2 ^ 16))).irq 43)
  | _ => s

/-- A wake source for one tile. -/
def State.wakeTile (s : State) (t src : Nat) : State :=
  match s.tileState t with
  | 1 | 2 => s.startTileWake t src none none false
  | 4 =>
    match s.pw.entries.find? (fun e => e.scope == t) with
    | some e => s.abandonEntry e 0x0D 0
    | none => s
  | 5 => s.seenSource t src
  | _ => s

/-- A wake source arrives (R553): ignored while its enable is 0. `tiles` names the tiles of sources 5 and 6. -/
def State.wakeArrive (s : State) (src : Nat) (tiles : List Nat) : State :=
  if src = 0 ∨ 6 < src ∨ !s.rb Reg.PW_WAKE_EN (src - 1) then s
  else if src = 1 ∨ src = 2 ∨ src = 4 then s.wakePackage src
  else
    let asleep := s.pkgState == 2 || s.pkgState == 3 || s.pkgState == 4 || s.pkgState == 1
    if src = 3 ∧ asleep then s.wakePackage src
    else
      let ts := if src = 3 then s.tiles.filter (fun t => s.rb Reg.PW_WAKE_EN (8 + t)) else tiles
      let hit := ts.filter (fun t => t < s.part.tiles ∧ (s.tileState t = 1 ∨ s.tileState t = 2 ∨ s.tileState t = 4 ∨ s.tileState t = 5))
      let started := ts.any (fun t => s.tileState t = 1 ∨ s.tileState t = 2)
      (s.forEach hit fun u t => u.wakeTile t src).when started (fun u => u.bump (Cnt.pwWake src))

/-! ### Wakes of tiles -/

/-- Move the running wake of a scope to a step. -/
def State.setWakeStep (s : State) (scope step : Nat) : State :=
  { s with pw := { s.pw with wakes := s.pw.wakes.map (fun w =>
      if w.scope = scope then { w with step := step, stepStart := s.tick, retried := false } else w) } }

/-- The notice of PW_WAKE_RETRY for tiles, when none of its tiles is still waking (R556, R557): its key is the mask of tiles. -/
def State.retryNotice (s : State) (r : CmdRef) : State :=
  if s.powerWork r then s
  else
    let bad := (List.range 4).any (fun t => bitN r.key t && s.tileState t == 6)
    s.finish r (if bad then stITEM else stOK) [s.rd Reg.PW_WAKE_REC]

/-- A tile fails its wake (R557): PEN_TILEt low, left in RETAIN and marked unavailable. -/
def State.failTileWake (s : State) (t : Nat) : State :=
  match s.pw.wakes.find? (fun w => w.scope == t) with
  | none => s
  | some w =>
    let s1 := { s with pw := { s.pw with
      wakes := s.pw.wakes.erase w, pen := clrBitN s.pw.pen (1 + t), ppg := clrBitN s.pw.ppg (1 + t) } }
    let s2 := (((s1.setDom (8 + t) false).setTileState t 6).setLinkState t 0).pb Reg.GL_UNIT_AVAIL (8 + t) true
    let s3 := ((s2.pf Reg.PW_WAKE_REC 31 28 w.step).pb Reg.PW_WAKE_REC (24 + t) true).hubEvent 0x75 (t * 256 + w.step)
    let s4 := (s3.pwEvt 4).bump (Cnt.pwTile t 5)
    match w.ref with
    | some r => if r.op = 0x904 then s4.retryNotice r else s4.tileNotice (some r) stITEM false
    | none => s4

/-! ### Pads -/

/-- Drive the front-end pads of a row to their sleep values and latch them (R547, R548). A latch that stands is kept. -/
def State.latchRow (s : State) (r : Nat) : State :=
  if s.part.rows ≤ r ∨ s.rb Reg.PW_PAD_STAT r then s
  else
    let cfg := s.rd (Reg.PW_PAD_CFG (r / 6))
    let s1 := s.setRow r { s.rowOf r with
      csN := true, feClk := s.rb (Reg.FE_CFG r) 16, sdio := min 2 (fld cfg 5 4), active := none }
    let s2 := s1.forEach [4 * r, 4 * r + 1, 4 * r + 2, 4 * r + 3] fun u p =>
      let x := u.txOf p
      let v := u.blankEnter p
      v.setTx p { v.txOf p with
        txen := false, rxen := bit cfg 0, latched := true, broken := if x.txen then u.tick else x.broken
        rxFall := if x.rxen && !bit cfg 0 then u.tick else x.rxFall }
    s2.pb Reg.PW_PAD_STAT r true

/-- Release the pad latches of rows (R548): PW_PAD_STAT, event 0x78, and the pads take their chain values. The DACs resume at the next load
strobe of the row. -/
def State.releasePads (s : State) (mask : Nat) : State :=
  let have_ := Nat.land mask (s.rf Reg.PW_PAD_STAT 23 0)
  if have_ = 0 then s
  else
    let s1 := s.pf Reg.PW_PAD_STAT 23 0 (s.rf Reg.PW_PAD_STAT 23 0 - have_)
    let s2 := { s1 with pw := { s1.pw with shdnLatch := s1.pw.shdnLatch - Nat.land s1.pw.shdnLatch have_ } }
    let s3 := s2.forEach (bitsSet have_ 24) fun u r =>
      (u.setRow r { u.rowOf r with sdio := 2 }).forEach [4 * r, 4 * r + 1, 4 * r + 2, 4 * r + 3] fun v p => v.followDemands p
    s3.hubEvent 0x78 have_

end Sys2Proof.Machine
end

