-- ==== Sys2Proof/Machine/Rings.lean ====
section
/-!
DEFINITION. Rings as the other blocks use them: an item handed to a host-bound ring (R467) and a command that consumes a LOAD ring
(R463).
-/
namespace Sys2Proof.Machine

def State.setRing (s : State) (n : Nat) (x : RingSt) : State :=
  { s with dma := { s.dma with rings := Sparse.set (fun _ => {}) s.dma.rings n x } }

/-- The state of a ring in RING_STAT (R480): 0 OFF, 1 RUNNING, 2 STOPPED, 3 ERROR, 4 DRAINING. -/
def State.ringState (s : State) (n : Nat) : Nat := s.rf (Reg.RING_STAT n) 31 28
def State.setRingState (s : State) (n v : Nat) : State := s.pf (Reg.RING_STAT n) 31 28 v

/-- The function of an enabled ring (R452). -/
def State.ringFunc (s : State) (n : Nat) : Option Nat :=
  if n < 32 ∧ s.rb (Reg.RING_CFG n) 31 then some (s.rf (Reg.RING_CFG n) 27 24) else none

/-- Show the number of items that wait for a ring's descriptors (R480). -/
def State.showWaiting (s : State) (n : Nat) : State := s.pf (Reg.RING_STAT n) 15 0 (min 0xFFFF (s.ringOf n).items.length)

/-- Hand an item to a host-bound ring: it waits there for descriptors (R467). -/
def State.deliver (s : State) (n : Nat) (i : DevItem) : State :=
  let x := s.ringOf n
  (s.setRing n { x with items := x.items ++ [i] }).showWaiting n

/-- Whether a ring is an enabled LOAD ring, and whether a command is consuming it (R463). -/
def State.loadRing (s : State) (n : Nat) : Bool := decide (n < 16) && s.ringFunc n == some 0
def State.loadBusy (s : State) (n : Nat) : Bool := (s.ringOf n).load.isSome

/-- A command begins to consume a LOAD ring (R463). -/
def State.startLoad (s : State) (n : Nat) (ref : CmdRef) (need : Nat) (args : List Nat) : State :=
  s.setRing n { s.ringOf n with load := some { ref := ref, need := need, args := args } }

end Sys2Proof.Machine
end

