-- ==== Sys2Proof/Machine/SolBase.lean ====
section
/-!
DEFINITION. What the solver rows share: cores and jobs, failed items (R187), landing bursts (R182), core failures and program errors
(R184, R228), completion (R179, R185), release (R181), and pausing at a weight-store commit (R182).
-/
namespace Sys2Proof.Machine

def State.coreOf (s : State) (c : Nat) : CoreSt := Sparse.get (fun _ => {}) s.sol.cores c
def State.setCore (s : State) (c : Nat) (x : CoreSt) : State :=
  { s with sol := { s.sol with cores := Sparse.set (fun _ => {}) s.sol.cores c x } }
def State.jobOf (s : State) (j : Nat) : JobSt := Sparse.get (fun _ => {}) s.sol.jobs j
def State.setJob (s : State) (j : Nat) (x : JobSt) : State :=
  { s with sol := { s.sol with jobs := Sparse.set (fun _ => {}) s.sol.jobs j x } }

/-- Word `w` of job slot `j`. -/
def State.jobW (s : State) (j w : Nat) : Word := s.rd (Reg.SOL_JOB_W0 j + 4 * w)

/-- Fields of W0, R196. -/
def State.jobRel (s : State) (j : Nat) : Bool := bit (s.jobW j 0) 30
def State.jobPeriodic (s : State) (j : Nat) : Bool := bit (s.jobW j 0) 29 && s.jobRel j
def State.jobHold (s : State) (j : Nat) : Bool := bit (s.jobW j 0) 28
def State.jobDir (s : State) (j : Nat) : Nat := fld (s.jobW j 0) 26 25
def State.jobKernel (s : State) (j : Nat) : Nat := fld (s.jobW j 0) 20 17
def State.jobInputs (s : State) (j : Nat) : Nat := fld (s.jobW j 0) 4 0 + 1
def State.jobGroups (s : State) (j : Nat) : Nat := fld (s.jobW j 3) 10 0 + 1

/-- The state of a job, W7 [31:28]: 0 FREE, 1 PENDING, 2 QUEUED, 3 RUNNING, 4 PAUSED, 5 DONE, 6 DONE_PARTIAL, 7 FAILED, 8 ABORTED. -/
def State.jobState (s : State) (j : Nat) : Nat := s.rf (Reg.SOL_JOB_W7 j) 31 28
def State.setJobState (s : State) (j v : Nat) : State := s.pf (Reg.SOL_JOB_W7 j) 31 28 v

/-- Whether a job is neither FREE nor final. -/
def State.jobActive (s : State) (j : Nat) : Bool := decide (1 ≤ s.jobState j ∧ s.jobState j ≤ 4)

/-- E of a job's mask: every antenna of the packages reached (R180). -/
def State.elements (s : State) : Nat := 96 * s.reach

/-- Whether a work item of a default kernel produces no vector: a word of its input was poisoned (R185). The program of kernels 1-3, which
finds the poison by TPOIS, is not given (DEDUCED, log entry 46). -/
def State.silent (s : State) (i : WorkItem) : Bool := i.tainted && decide (s.jobKernel i.job ≤ 3)

/-- Word `w` of directory entry `d`, R173. -/
def State.dirWord (s : State) (d w : Nat) : Word := if d < 2048 then toW (s.memNat (32 * d + 4 * w) 4) else 0

/-- The interferer entries of a job (R178, R186): nintf from intf_first; for kernels 1-3 also the ueIds that extension 14 named in the
latest type-5 section of the first input, where their entries are valid, at most 31 in all. -/
def State.jobIntf (s : State) (j : Nat) : List Nat :=
  let own := (List.range (fld (s.jobW j 1) 20 16)).map (fun i => fld (s.jobW j 1) 31 21 + i)
  let ue := fld (s.dirWord (fld (s.jobW j 0) 15 5) 0) 14 0
  let named := ((s.sol.ext14.find? (fun (x : Nat × List Nat) => x.1 == ue)).map Prod.snd).getD []
  let found := named.filterMap (fun u => (List.range 2048).find? (fun d =>
    bit (s.dirWord d 0) 31 && fld (s.dirWord d 0) 14 0 == u))
  (if s.jobKernel j ≤ 3 then own ++ found else own).take 31

/-- The package that owns group `i` of a job (R189). -/
def State.owner (s : State) (j i : Nat) : Nat :=
  if s.rb Reg.SOL_CTRL 8 then i * s.reach / s.jobGroups j else 0

/-- The subbands this package solves, and those it awaits from others. -/
def State.ownSubs (s : State) (j : Nat) : List Nat :=
  (List.range (s.jobGroups j)).filter (fun i => s.reach == 1 || s.owner j i == s.pkgNum)
def State.farSubs (s : State) (j : Nat) : List Nat :=
  (List.range (s.jobGroups j)).filter (fun i => !(s.reach == 1 || s.owner j i == s.pkgNum))

/-! ### Items -/

/-- The items of one input (R178, R179): each output UE entry is one, and in split mode a job with dir = 2 has two for each input. -/
def State.itemsPer (s : State) (j : Nat) : Nat := if s.rb Reg.TR_CTRL 0 ∧ s.jobDir j = 2 then 2 else 1

/-- Items of input `k` fail with a reason (R187): the first reason is shown and the failures counted. -/
def State.failItems (s : State) (j k items reason : Nat) : State :=
  let s1 := s.pb (Reg.SOL_JOB_W8 j) k true
  let n := s1.rf (Reg.SOL_JOB_W7 j) 15 8
  let s2 := if n = 0 then s1.pf (Reg.SOL_JOB_W7 j) 23 16 reason else s1
  let s3 := (s2.pf (Reg.SOL_JOB_W7 j) 15 8 (n + items)).bumpBy (Cnt.solJob j 1) items
  if 1 ≤ reason ∧ reason ≤ 8 then s3.bumpBy (Cnt.solItemFail reason) items else s3

/-- Every item of input `k` fails with a reason, unless they have failed. -/
def State.failItem (s : State) (j k reason : Nat) : State :=
  if s.rb (Reg.SOL_JOB_W8 j) k then s else s.failItems j k (s.itemsPer j) reason

/-- Every input of a job fails. -/
def State.failAll (s : State) (j reason : Nat) : State :=
  s.forEach (List.range (s.jobInputs j)) fun u k => u.failItem j k reason

/-- The memory address of an idle UE entry. -/
def State.idleUe (s : State) (idx : Nat) : Nat := wsBase (1 - s.liveStore) + 0x20 * idx

/-- The UE entries of input `k` of a job, each with its first vector slot (R152, R178). -/
def State.itemEntries (s : State) (j k : Nat) : List (Nat × Nat) :=
  let ue := fld (s.dirWord (fld (s.jobW j 0) 15 5 + k) 0) 14 0
  let out := fld (s.jobW j 2) 14 0
  let ng := s.jobGroups j
  if !s.rb Reg.TR_CTRL 0 then [(ue % 4096, out + k * ng)]
  else if s.jobDir j = 0 then [(ue % 2048, out + k * ng)]
  else if s.jobDir j = 1 then [(2048 + ue % 2048, out + k * ng)]
  else [(ue % 2048, out + k * ng), (2048 + ue % 2048, out + (s.jobInputs j + k) * ng)]

/-- Write the UE entries of the items of an input that have succeeded (R179); a pinned entry refuses the write and fails its item (R150,
R187). -/
def State.writeItem (s : State) (j k : Nat) : State :=
  let ue := fld (s.dirWord (fld (s.jobW j 0) 15 5 + k) 0) 14 0
  s.forEach (s.itemEntries j k) fun u (e : Nat × Nat) =>
    let a := u.idleUe e.1
    if bitN (u.memNat a 4) 30 then (u.bump (Cnt.trCommit 5)).failItems j k 1 2
    else
      let old := u.memNat a 4
      let w0 := 2 ^ 31 + bitsN old 30 30 * 2 ^ 30 + bitsN old 28 16 * 2 ^ 16 + ue
      let w1 := fld (u.jobW j 0) 22 21 * 2 ^ 30 + fld (u.jobW j 2) 31 28 * 2 ^ 24 + fld (u.jobW j 2) 26 16 * 2 ^ 12 +
        (u.jobGroups j - 1)
      let u1 := (((u.setBytes a 4 w0).setBytes (a + 4) 4 w1).setBytes (a + 8) 4 e.2).markDirty a
      u1.pf (Reg.SOL_JOB_W7 j) 7 0 (u1.rf (Reg.SOL_JOB_W7 j) 7 0 + 1)

/-! ### The end of a job -/

/-- A core stops what it runs and is idle; its cycles are counted (R192). Bursts waiting in its stream port stay there. -/
def State.idleCore (s : State) (c : Nat) : State :=
  let x := s.coreOf c
  let busy := x.busy + (match x.item with
    | some i => s.tick - i.start
    | none => 0)
  ((s.setCore c { x with item := none, mw := none, gets := [], loops := [], busy := busy }).pf (Reg.SOL_CORE_STAT c) 31 28 0).wr
    (Cnt.solCore c 2) (toW (busy / 65536))

/-- The cores that run items of a job. -/
def State.coresOn (s : State) (j : Nat) : List Nat :=
  (List.range 32).filter (fun c => (s.coreOf c).item.any (fun i => i.job == j))

/-- A member forwards its lock state to the lead when it has changed (R165). -/
def State.forwardLocks (s : State) : State :=
  match s.port 1 with
  | some l =>
    if s.isLead ∨ s.trLocks = s.tr.sentLocks then s
    else ({ s with tr := { s.tr with sentLocks := s.trLocks } } : State).sendMsg l 8 0 [toW s.pkgNum, toW s.trLocks]
  | none => s

/-- Release the writer lock of a job. -/
def State.unlock (s : State) (j : Nat) : State :=
  if j ∈ s.tr.solverLock then
    ({ s with tr := { s.tr with solverLock := s.tr.solverLock.filter (· ≠ j) } } : State).forwardLocks
  else s

/-- The words of a job's notice: slot, W7, W8. -/
def State.jobWords (s : State) (j : Nat) : List Word := [toW j, s.jobW j 7, s.jobW j 8]

/-- A job ends in a state: its lock is released and the completion counted and reported; a periodic job returns to PENDING
(R181, R185). -/
def State.endJob (s : State) (j state : Nat) : State :=
  let s1 := ((s.setJobState j state).unlock j).bump (Cnt.solJob j 0)
  let s2 := s1.pf (Reg.SOL_JOB_W9 j) 15 0 (s1.rf (Reg.SOL_JOB_W9 j) 15 0 + 1)
  let x := s2.jobOf j
  let s3 := s2.setJob j { x with todo := [], fin := [], second := [], remote := [], started := false }
  if s3.jobPeriodic j ∧ state ≠ 8 then
    let s4 := match x.ref with
      | some r => s3.noticeMore r stOK (s3.jobWords j)
      | none => s3
    s4.setJobState j 1
  else
    match x.ref with
    | some r =>
      let st := if state = 5 then stOK else if state = 6 then stPARTIAL else stITEM
      (s3.finish r st (s3.jobWords j)).setJob j { s3.jobOf j with ref := none }
    | none => s3

/-- The state that a job's failed items give, R185. -/
def State.outcome (s : State) (j : Nat) : Nat :=
  let n := s.rf (Reg.SOL_JOB_W7 j) 15 8
  if n = 0 then 5 else if s.jobInputs j * s.itemsPer j ≤ n then 7 else 6

/-- A RUNNING job whose last subband has finished and whose bursts have landed writes its UE entries and ends (R179, R185). -/
def State.tryComplete (s : State) (j : Nat) : State :=
  let x := s.jobOf j
  let waiting := (List.range 32).any (fun c => (s.coreOf c).puts.any (fun p => p.job == j))
  if s.jobState j = 3 ∧ x.todo = [] ∧ (s.coresOn j) = [] ∧ x.remote = [] ∧ !s.rb Reg.TR_STATUS 1 ∧ !waiting then
    let s1 := s.forEach (List.range (s.jobInputs j)) fun u k => if u.rb (Reg.SOL_JOB_W8 j) k then u else u.writeItem j k
    s1.endJob j (s1.outcome j)
  else s

/-- A subband has finished. -/
def State.subDone (s : State) (j sub : Nat) : State :=
  (s.setJob j { s.jobOf j with fin := (s.jobOf j).fin ++ [sub] }).tryComplete j

/-- Stop a job (R183, R191): the items that have not been written fail with DEADLINE and its cores become idle. -/
def State.stopJob (s : State) (j state : Nat) : State :=
  let s1 := s.forEach (s.coresOn j) State.idleCore
  let s2 := s1.forEach (List.range 32) fun u c => u.setCore c { u.coreOf c with puts := (u.coreOf c).puts.filter (fun p => p.job ≠ j) }
  let s3 := s2.failAll j 1
  s3.endJob j (if state = 8 then 8 else s3.outcome j)

/-! ### Cores -/

/-- Record a fault of a core (R231): cause, kernel, job, subband and bundle. -/
def State.coreFault (s : State) (c cause : Nat) : State :=
  let x := s.coreOf c
  match x.item with
  | none => s
  | some i =>
    let st := s.rd (Reg.SOL_CORE_STAT c)
    let st1 := putFld (putFld (putFld st 23 16 cause) 11 8 (s.jobKernel i.job)) 7 0 (fld st 7 0 + 1)
    (s.wr (Reg.SOL_CORE_STAT c) st1).wr (Reg.SOL_CORE_PC c) (toW (i.job * 2 ^ 24 + i.sub * 2 ^ 13 + x.pc))

/-- A core gives up its item: its bursts that wait are dropped, those of items that have ended stay in the stream port (R182, R184). -/
def State.dropItem (s : State) (c : Nat) (i : WorkItem) : State :=
  let s1 := s.idleCore c
  s1.setCore c { s1.coreOf c with puts := (s1.coreOf c).puts.filter (fun p => !(p.job == i.job && p.sub == i.sub)) }

/-- Give a core's item back to its job's queue (R184). -/
def State.reissue (s : State) (c : Nat) : State :=
  match (s.coreOf c).item with
  | none => s
  | some i =>
    let s1 := s.dropItem c i
    let x := s1.jobOf i.job
    if i.sub ∈ x.second then (s1.failAll i.job 5).subDone i.job i.sub
    else s1.setJob i.job { x with todo := i.sub :: x.todo, second := i.sub :: x.second }

/-- A solver core fails (R184): it is taken out of service, recorded, and its item is reissued. -/
def State.coreFail (s : State) (c cause : Nat) : State :=
  let s1 := (((s.coreFault c cause).pb Reg.SOL_CORE_AVAIL c false).pb Reg.SOL_STATUS 3 true).bump (Cnt.solCore c 1)
  let s2 := (s1.hubEvent 0x05 (cause * 2 ^ 8 + c)).spared 0x30 c 4
  (s2.reissue c).pf (Reg.SOL_CORE_STAT c) 31 28 3

/-- A program error ends the work item of a core: every input of the subband fails with CORE (R228). -/
def State.progError (s : State) (c cause : Nat) : State :=
  match (s.coreOf c).item with
  | none => s
  | some i => (((s.coreFault c cause).idleCore c).failAll i.job 5).subDone i.job i.sub

/-! ### Bursts -/

/-- Write one burst into the idle weight store: this package's 96 elements of each vector (R189), whole. -/
def State.writeBurst (s : State) (p : SPutD) : State :=
  let base := wsBase (1 - s.liveStore) + 0x100000 + p.slot * 0x300
  let ws := (p.words.drop (96 * s.pkgNum)).take 96
  (s.forEach (ws.zipIdx) fun u (w : (Nat × Nat) × Nat) =>
    (u.setBytes (base + 8 * w.2) 6 w.1.1).setByte (base + 8 * w.2 + 6) (BitVec.ofNat 8 w.1.2)).markDirty base

/-- Send the other packages of the system their elements of a vector (R189, R370). -/
def State.sendSlices (s : State) (p : SPutD) : State :=
  s.forEach ((List.range s.reach).filter (· ≠ s.pkgNum)) fun u m =>
    let els := ((p.words.drop (96 * m)).take 96).map (fun (w : Nat × Nat) =>
      ({ i := sext (w.1 / 2 ^ 24) 24, q := sext w.1 24, bad := decide (w.2 ≠ tag48 w.1) } : Cx))
    u.sendSlot 4 p.slot m 0 els

/-- The oldest burst of a core lands (R182), and its slices leave for the other packages (R189). -/
def State.landBurst (s : State) (c : Nat) : State :=
  match (s.coreOf c).puts with
  | [] => s
  | p :: rest => (((s.setCore c { s.coreOf c with puts := rest }).writeBurst p).sendSlices p).tryComplete p.job

/-- Every burst issued before T lands before T (R182). -/
def State.landAll (s : State) : State :=
  s.forEach (List.range 32) fun u c => u.forEach (u.coreOf c).puts fun v _ => v.landBurst c

/-! ### Release and pause -/

/-- A job is released (R181): it is QUEUED with its release tick, a hold job takes the writer lock (R182), and its record is new. -/
def State.releaseJob (s : State) (j : Nat) : State :=
  let s1 := (s.wr (Reg.SOL_JOB_W7 j) (toW (2 * 2 ^ 28))).wr (Reg.SOL_JOB_W8 j) 0
  let own := s1.ownSubs j
  let s2 := s1.setJob j { s1.jobOf j with
    relTick := s1.tick, todo := own, fin := [], second := [], started := false, early := []
    remote := (s1.farSubs j).map (fun i => (i, [])) }
  let s3 := if s2.jobHold j ∧ j ∉ s2.tr.solverLock then ({ s2 with tr := { s2.tr with solverLock := s2.tr.solverLock ++ [j] } } : State).forwardLocks else s2
  if own = [] then s3.setJobState j 3 else s3

/-- At the tick T of an executed commit, a running job without a lock pauses (R182). -/
def State.pauseJobs (s : State) : State :=
  s.forEach (List.range 64) fun u j => if u.jobState j = 3 ∧ !u.jobHold j then u.setJobState j 4 else u

/-- At R paused jobs resume; without a carry-forward copy they restart all of their items, but for those that failed at the start (R182). -/
def State.resumeJobs (s : State) : State :=
  s.forEach ((List.range 64).filter (fun j => s.jobState j = 4)) fun u j =>
    let u1 := u.setJobState j 3
    if u1.rb Reg.TR_CTRL 1 then u1.tryComplete j
    else
      let u2 := u1.forEach (u1.coresOn j) State.idleCore
      let x := u2.jobOf j
      let reason := ((x.early.head?).map Prod.snd).getD 0
      let u3 := (u2.pf (Reg.SOL_JOB_W7 j) 23 0 (reason * 2 ^ 16 + x.early.length * u2.itemsPer j * 2 ^ 8)).wr (Reg.SOL_JOB_W8 j)
        (toW (maskOf (x.early.map Prod.fst)))
      u3.setJob j { x with todo := u3.ownSubs j, fin := [], second := [], remote := (u3.farSubs j).map (fun i => (i, [])) }

end Sys2Proof.Machine
end

