-- ==== Sys2Proof/Machine/CoreWord.lean ====
section
/-!
DEFINITION. Words of a solver core: views and poison (R199, R223), residues (R221), saturation and requantisation (R202, R222), the
exponent and reciprocal functions (R203, R204), and the instruction words (R206, R207).
-/
namespace Sys2Proof

/-! ### Instruction words (R206, R207): the 32 bits of a slot from its opcode and fields, and whether the fields fit -/

def FmtMA.word (op : Nat) (f : FmtMA) : Nat :=
  op * 2 ^ 26 + f.acc * 2 ^ 24 + f.acc2 * 2 ^ 22 + f.x * 2 ^ 17 + f.y * 2 ^ 12 + f.z * 2 ^ 7 + Machine.b2n f.cj * 2 ^ 6 + Machine.b2n f.ng * 2 ^ 5 +
    Machine.b2n f.clr * 2 ^ 4
def FmtMA.fits (f : FmtMA) : Bool := decide (f.acc < 4 ∧ f.acc2 < 4 ∧ f.x < 32 ∧ f.y < 32 ∧ f.z < 32)
def FmtMP.word (op : Nat) (f : FmtMP) : Nat :=
  op * 2 ^ 26 + f.dst * 2 ^ 21 + f.x * 2 ^ 16 + f.y * 2 ^ 11 + Machine.b2n f.cj * 2 ^ 10 + f.k * 2 ^ 4 + Machine.b2n f.rnd * 2 ^ 3
def FmtMP.fits (f : FmtMP) : Bool := decide (f.dst < 32 ∧ f.x < 32 ∧ f.y < 32 ∧ f.k < 64)
def FmtMQ.word (op : Nat) (f : FmtMQ) : Nat :=
  op * 2 ^ 26 + f.dst * 2 ^ 21 + f.acc * 2 ^ 19 + Machine.b2n f.real * 2 ^ 18 + f.k * 2 ^ 12 + Machine.b2n f.rnd * 2 ^ 11 + Machine.b2n f.clr * 2 ^ 10
def FmtMQ.fits (f : FmtMQ) : Bool := decide (f.dst < 32 ∧ f.acc < 4 ∧ f.k < 64)
def FmtMR.word (op : Nat) (f : FmtMR) : Nat :=
  op * 2 ^ 26 + f.dst * 2 ^ 21 + f.a * 2 ^ 16 + f.b * 2 ^ 11 + Machine.b2n f.real * 2 ^ 10 + f.imm6 * 2 ^ 4 + f.flag * 2 ^ 2
def FmtMR.fits (f : FmtMR) : Bool := decide (f.dst < 32 ∧ f.a < 32 ∧ f.b < 32 ∧ f.imm6 < 64 ∧ f.flag < 4)
def FmtMI.word (op : Nat) (f : FmtMI) : Nat := op * 2 ^ 26 + f.dst * 2 ^ 21 + f.imm20
def FmtMI.fits (f : FmtMI) : Bool := decide (f.dst < 32 ∧ f.imm20 < 2 ^ 20)
def FmtXL.word (op : Nat) (f : FmtXL) : Nat := op * 2 ^ 26 + f.d * 2 ^ 21 + f.a * 2 ^ 18 + f.step * 2 ^ 8
def FmtXL.fits (f : FmtXL) : Bool := decide (f.d < 32 ∧ f.a < 8 ∧ f.step < 2 ^ 10)
def FmtXD.word (op : Nat) (f : FmtXD) : Nat :=
  op * 2 ^ 26 + f.d1 * 2 ^ 21 + f.d2 * 2 ^ 16 + f.a1 * 2 ^ 13 + f.a2 * 2 ^ 10 + f.step1 * 2 ^ 5 + f.step2
def FmtXD.fits (f : FmtXD) : Bool := decide (f.d1 < 32 ∧ f.d2 < 32 ∧ f.a1 < 8 ∧ f.a2 < 8 ∧ f.step1 < 32 ∧ f.step2 < 32)
def FmtXA.word (op : Nat) (f : FmtXA) : Nat :=
  op * 2 ^ 26 + f.idx * 2 ^ 23 + Machine.b2n f.src * 2 ^ 22 + f.d * 2 ^ 17 + f.imm17
def FmtXA.fits (f : FmtXA) : Bool := decide (f.idx < 8 ∧ f.d < 32 ∧ f.imm17 < 2 ^ 17)
def FmtXS.word (op : Nat) (f : FmtXS) : Nat :=
  op * 2 ^ 26 + f.a * 2 ^ 23 + f.d * 2 ^ 18 + f.store * 2 ^ 16 + f.count * 2 ^ 9 + f.tag * 2 ^ 7 + Machine.b2n f.all * 2 ^ 6
def FmtXS.fits (f : FmtXS) : Bool := decide (f.a < 8 ∧ f.d < 32 ∧ f.store < 4 ∧ f.count < 128 ∧ f.tag < 4)
def FmtXC.word (op : Nat) (f : FmtXC) : Nat :=
  op * 2 ^ 26 + Machine.b2n f.rot * 2 ^ 25 + Machine.b2n f.src * 2 ^ 24 + f.last * 2 ^ 11 + f.count
def FmtXC.fits (f : FmtXC) : Bool := decide (f.last < 2 ^ 13 ∧ f.count < 2 ^ 11)
def FmtXB.word (op : Nat) (f : FmtXB) : Nat := op * 2 ^ 26 + f.flag * 2 ^ 24 + Machine.b2n f.sense * 2 ^ 23 + f.target
def FmtXB.fits (f : FmtXB) : Bool := decide (f.flag < 4 ∧ f.target < 2 ^ 13)
def FmtXE.word (op : Nat) (f : FmtXE) : Nat := op * 2 ^ 26 + f.d1 * 2 ^ 21 + f.d2 * 2 ^ 16 + f.imm4
def FmtXE.fits (f : FmtXE) : Bool := decide (f.d1 < 32 ∧ f.d2 < 32 ∧ f.imm4 < 16)

end Sys2Proof

namespace Sys2Proof.Machine

/-! ### Operands -/

/-- An operand in complex view: components, residues, and whether it is poisoned (R199, R223). -/
structure OpC where
  i : Int
  q : Int
  ri : Nat
  rq : Nat
  bad : Bool
  deriving DecidableEq, Repr

/-- An operand in real view. -/
structure OpR where
  x : Int
  r : Nat
  bad : Bool
  deriving DecidableEq, Repr

/-- Whether a word is poisoned, R223. -/
def DWord.poisoned (w : DWord) : Bool := w.ri == 15 || w.rq == 15

/-- A word read in complex view: one in real view is read poisoned. -/
def DWord.asC (w : DWord) : OpC :=
  { i := sext (w.v / 2 ^ 24) 24, q := sext w.v 24, ri := w.ri, rq := w.rq, bad := w.poisoned || w.real }

/-- A word read in real view: one in complex view is read poisoned. -/
def DWord.asR (w : DWord) : OpR := { x := sext w.v 48, r := w.ri, bad := w.poisoned || !w.real }

/-- A complex result; a poisoned one is poisoned in both residues. -/
def mkC (bad : Bool) (i q : Int) (ri rq : Nat) : DWord :=
  { v := packCx i q, ri := if bad then 15 else ri, rq := if bad then 15 else rq, real := false }

/-- A real result. -/
def mkR (bad : Bool) (x : Int) (r : Nat) : DWord :=
  { v := wrapN x 48, ri := if bad then 15 else r, rq := if bad then 15 else r, real := true }

/-- A real result whose residue is formed from its value (control values, R221). -/
def mkCtl (bad : Bool) (x : Int) : DWord := mkR bad x (residue x)

/-- Poison a word in both residues. -/
def DWord.seal (w : DWord) : DWord := { w with ri := 15, rq := 15 }

/-! ### Residue arithmetic, modulo 15 -/

def rAdd (a b : Nat) : Nat := (a + b) % 15
def rSub (a b : Nat) : Nat := (a + 15 - b % 15) % 15
def rMul (a b : Nat) : Nat := a * b % 15
def rNeg (a : Nat) : Nat := (15 - a % 15) % 15
/-- Times 2^n. -/
def rShl (a n : Nat) : Nat := a * 2 ^ (n % 4) % 15

/-! ### Saturation and requantisation -/

/-- Saturate to `n` bits: the value, its residue (of the limit when it saturates) and how many components saturated (R202, R221). -/
def satR (v : Int) (r n : Nat) : Int × Nat × Nat :=
  let w := satN v n
  if w = v then (v, r, 0) else (w, residue w, 1)

/-- Requantise by `k` (R202, R222): the rounded value, its residue, and whether the residue check passes. `floor` rounds toward minus
infinity. -/
def requant (v : Int) (r k : Nat) (floor : Bool) : Int × Nat × Bool :=
  let kept := shrI v k
  let dropped := v - kept * ((2 ^ k : Nat) : Int)
  let half : Int := if k = 0 then 1 else ((2 ^ (k - 1) : Nat) : Int)
  let up := !floor && k != 0 && (decide (half < dropped) || (decide (dropped = half) && decide (0 ≤ v)))
  let pass := decide (r % 15 = rAdd (rShl (residue kept) k) (residue dropped))
  (if up then kept + 1 else kept, if up then rAdd (residue kept) 1 else residue kept, pass)

/-- Add a component to an accumulator component, saturating to 96 bits (R201). -/
def accAdd (clr ng : Bool) (a : Int) (ra : Nat) (p : Int) (rp : Nat) : Int × Nat :=
  let base := if clr then 0 else a
  let rb := if clr then 0 else ra
  let v := if ng then base - p else base + p
  let r := if ng then rSub rb rp else rAdd rb rp
  let (w, rw, _) := satR v r 96
  (w, rw)

/-! ### Exponents and reciprocals -/

/-- Leading bits equal to the sign bit, minus 1, of an `n`-bit value (R203). -/
def expOf (v : Int) (n : Nat) : Nat :=
  let u := if v < 0 then (-v - 1).toNat else v.toNat
  n - 1 - (if u = 0 then 0 else Nat.log2 u + 1)

/-- RCP, R204: round(2^45 / (x / 2^47)), saturating at 2^47 - 1; the value and whether it saturated. -/
def rcpOf (x : Int) : Int × Bool :=
  if x < 2 ^ 45 ∨ 2 ^ 47 ≤ x then (2 ^ 47 - 1, true)
  else
    let y := (2 ^ 93 + x) / (2 * x)
    if 2 ^ 47 ≤ y then (2 ^ 47 - 1, true) else (y, false)

/-- RSQ, R204: round(2^45 / sqrt(x / 2^47)). -/
def rsqOf (x : Int) : Int × Bool :=
  if x < 2 ^ 45 ∨ 2 ^ 47 ≤ x then (2 ^ 47 - 1, true)
  else
    let y : Int := (((isqrt (2 ^ 139 / x.toNat) + 1) / 2 : Nat) : Int)
    if 2 ^ 47 ≤ y then (2 ^ 47 - 1, true) else (y, false)

/-- The condition that imm6 selects (R208): 0 equal, 1 not equal, 2 less, 3 less or equal, 4 greater, 5 greater or equal. -/
def condOf (n : Nat) (a b : Int) : Bool :=
  match n with
  | 0 => a == b
  | 1 => a != b
  | 2 => decide (a < b)
  | 3 => decide (a ≤ b)
  | 4 => decide (b < a)
  | _ => decide (b ≤ a)

/-! ### Legal instruction words -/

/-- Whether a word is a legal M-slot instruction (R206, R208): a listed opcode, reserved bits 0, a listed condition. -/
def legalM (w : Nat) : Bool :=
  let op := w / 2 ^ 26
  if op = 1 ∨ op = 2 ∨ op = 3 then w % 16 == 0
  else if op = 4 then w % 8 == 0
  else if op = 5 then w % 2 ^ 10 == 0
  else if op = 0x1A ∨ op = 0x1B then w % 4 == 0 && decide (bitsN w 9 4 ≤ 5)
  else if op ≤ 0x1D then w % 4 == 0
  else if op ≤ 0x1F then !bitN w 20
  else false

/-- Whether a word is a legal X-slot instruction (R207, R209): a listed opcode, reserved bits 0, and fields that name something. -/
def legalX (w : Nat) : Bool :=
  let op := w / 2 ^ 26
  let imm := w % 2 ^ 17
  if op = 0 ∨ op = 0x20 ∨ op = 0x21 then w % 2 ^ 8 == 0
  else if op = 0x22 ∨ op = 0x23 then true
  else if 0x28 ≤ op ∧ op ≤ 0x2A then true
  else if op = 0x2C ∨ op = 0x2D then decide (bitsN w 25 23 < 4)
  else if op = 0x2E then decide (imm ≤ 4)
  else if op = 0x30 then w % 2 ^ 6 == 0 && decide (1 ≤ bitsN w 15 9 ∧ bitsN w 15 9 ≤ 96)
  else if op = 0x31 then w % 2 ^ 6 == 0 && bitsN w 17 16 == 1
  else if op = 0x32 then w % 2 ^ 6 == 0
  else if op = 0x38 then true
  else if op = 0x39 ∨ op = 0x3A then bitsN w 22 13 == 0
  else if op = 0x3B ∨ op = 0x3F then bitsN w 15 4 == 0
  else false

/-! ### Registers of a core -/

/-- The physical register that a name refers to, R214. -/
def CoreSt.phys (x : CoreSt) (n : Nat) : Nat := if n < 16 then n else 16 + (n - 16 + x.rrb) % 16

/-- The D register that a name refers to. -/
def CoreSt.reg (x : CoreSt) (n : Nat) : DWord := x.d.getD (x.phys n) {}

def CoreSt.accOf (x : CoreSt) (n : Nat) : AccW := x.acc.getD n {}
def AccW.poisoned (a : AccW) : Bool := a.ri == 15 || a.rq == 15

/-- A bundle of program memory, where the model has its code. -/
def State.bundle (s : State) (pc : Nat) : Option Nat := Sparse.get (fun _ => none) s.sol.prog pc

end Sys2Proof.Machine
end

