-- ==== Sys2Proof/Machine/Section.lean ====
section
/-!
DEFINITION. Sections of the fronthaul: the eAxC table (R92, R119), failure records (R109-R111), receive windows (R101, R104), the air time
of a section (R136), and the channel estimates that sounding and type-6 sections write (R175, R177).
-/
namespace Sys2Proof.Machine

/-! ### The eAxC table -/

/-- The lowest entry whose valid key has this eAxC ID and direction (R119). -/
def State.eaxcKey (s : State) (eaxc : Nat) (dl : Bool) : Option Nat :=
  (List.range 256).find? fun e =>
    let k := s.rd (Reg.FH_EAXC_KEY e)
    bit k 31 && bit k 30 == dl && fld k 15 0 == eaxc

/-- Fields of an entry, R119. -/
def State.eKind (s : State) (e : Nat) : Nat := s.rf (Reg.FH_EAXC_ENT e) 31 30
def State.eLayer (s : State) (e : Nat) : Nat := s.rf (Reg.FH_EAXC_ENT e) 29 25
def State.eWidth (s : State) (e : Nat) : Nat :=
  let w := s.rf (Reg.FH_EAXC_ENT e) 24 21
  if w = 0 then 16 else w
def State.eMeth (s : State) (e : Nat) : Nat := s.rf (Reg.FH_EAXC_ENT e) 20 17
def State.eDyn (s : State) (e : Nat) : Bool := s.rb (Reg.FH_EAXC_ENT e) 16
def State.eIngress (s : State) (e port : Nat) : Bool := s.rb (Reg.FH_EAXC_ENT e) (8 + port)

/-- The entry that an eAxC ID and direction match: one of kind 3, or of kind 1 with a stream above 7, matches nothing (R119). -/
def State.entryOf (s : State) (eaxc : Nat) (dl : Bool) : Option Nat :=
  match s.eaxcKey eaxc dl with
  | none => none
  | some e => if s.eKind e = 3 ∨ (s.eKind e = 1 ∧ 7 < s.eLayer e) then none else some e

/-- The carrier and segment that an eAxC ID's CC_id maps to (R92, R118). -/
def State.ccOf (s : State) (eaxc : Nat) : Option (Nat × Nat) :=
  let f := s.rd Reg.FH_EAXC_FMT
  let cc := eaxc / 2 ^ fld f 3 0 % 2 ^ fld f 7 4
  let m := s.rd (Reg.FH_CC_MAP cc)
  if cc < 16 ∧ bit m 4 then some (fld m 1 0, fld m 3 3) else none

/-! ### Failure records -/

/-- The index of a reason's counter in its eAxC entry (R111, R115). -/
def reasonCount (reason : Nat) : Option Nat :=
  if 1 ≤ reason ∧ reason ≤ 5 then some reason
  else if 9 ≤ reason ∧ reason ≤ 14 then some (reason - 3)
  else none

/-- Count a reason: per eAxC, or unmatched (R115). -/
def State.countReason (s : State) (entry : Option Nat) (reason : Nat) : State :=
  if 6 ≤ reason ∧ reason ≤ 8 then s.bump (Cnt.fhUnmatched (reason - 6))
  else match entry, reasonCount reason with
    | some e, some i => s.bump (Cnt.fhEaxc e i)
    | _, _ => s

/-- Write a failure record (R109, R110): it waits in order for its ring; one that finds 1,024 waiting is discarded and counted. -/
def State.failRecord (s : State) (h : SecHdr) (reason : Nat) (dl cplane : Bool) (start num : Nat) (detail : Nat) : State :=
  if !s.rb Reg.FH_FAIL_CFG 31 then s
  else
    let seq := s.rf Reg.FH_FAIL_SEQ 15 0
    let ws := [toW (seq * 2 ^ 16 + reason * 2 ^ 8 + b2n dl * 2 ^ 7 + b2n cplane * 2 ^ 6 + h.port * 2 ^ 3),
      toW (h.eaxc * 2 ^ 16 + h.sectionId % 2 ^ 12),
      toW (h.frameId * 2 ^ 24 + h.subframeId * 2 ^ 20 + h.slotId * 2 ^ 14 + h.symbolId * 2 ^ 8 + s.epoch),
      toW (start % 2 ^ 10 * 2 ^ 22 + num % 2 ^ 8 * 2 ^ 14 + detail % 2 ^ 14)]
    let s1 := s.pf Reg.FH_FAIL_SEQ 15 0 (seq + 1)
    if 1024 ≤ s1.fh.waiting.length then (s1.bump Reg.FH_FAIL_LOST).pb Reg.FH_STATUS 11 true
    else { (s1.bump Cnt.fhFailRecs) with fh := { s1.fh with waiting := s1.fh.waiting ++ [ws] } }

/-- A whole section fails: it is counted and recorded with its own PRB fields (R110). -/
def State.rejectSec (s : State) (entry : Option Nat) (h : SecHdr) (reason : Nat) (dl cplane : Bool) (detail : Nat) : State :=
  (s.countReason entry reason).failRecord h reason dl cplane h.startPrb h.numPrb detail

/-- The first run of a rising list of PRBs: its start and length. -/
def firstRun : List Nat → Nat × Nat
  | [] => (0, 0)
  | p :: rest => (p, 1 + ((rest.zipIdx).takeWhile (fun (x : Nat × Nat) => x.1 == p + 1 + x.2)).length)

/-- Some of a section's PRBs fail (NO_CPLANE, OUT_OF_RANGE under R136): the record names the first run of them, numbered in the
segment, and how many there are (R110). -/
def State.rejectPrbs (s : State) (entry : Nat) (h : SecHdr) (reason : Nat) (dl cplane : Bool) (prbs : List Nat) : State :=
  let seg := ((s.ccOf h.eaxc).map Prod.snd).getD 0
  let (first, len) := firstRun prbs
  (s.countReason (some entry) reason).failRecord h reason dl cplane (first - 1024 * seg) (if len ≤ 255 then len else 0) prbs.length

/-- FAIL_RECORD_POST, R109: the oldest waiting record goes to its ring when the ring is enabled, is a DELIVER ring, runs and is not full. -/
def execFailRecordPost (s : State) : Out :=
  let ring := 16 + s.rf Reg.FH_FAIL_CFG 3 0
  match s.fh.waiting with
  | [] => .next s
  | ws :: rest =>
    if s.ringFunc ring = some 9 ∧ s.ringState ring = 1 ∧ (s.ringOf ring).items = [] then
      let s1 := { s with fh := { s.fh with waiting := rest } }
      .next (s1.deliver ring { code := 1, detail := fld (wordAt ws 0) 31 16, len := 16, data := ws.flatMap leBytes })
    else .next s

/-! ### Windows -/

/-- The window values of a carrier for a symbol with air time `t` (R104): the newest whose own downlink U-plane window opens after
their commit, else older ones. -/
def State.winFor (s : State) (c t : Nat) : WinVer :=
  let now : WinVer := {
    from_ := 0
    close := s.rf (Reg.FH_WIN_CLOSE c) 19 0
    depth := s.winDepth c
    cpLead := s.rf (Reg.FH_WIN_CPLEAD c) 19 0
    ulCp := s.rf (Reg.FH_WIN_ULCP c) 19 0 }
  let vs := Sparse.get (fun _ => []) s.fh.wins c
  let clamp := fun (w : WinVer) => ({ w with close := max w.close (40000 + s.dlAdvAt c t), cpLead := max w.cpLead 10000, ulCp := max w.ulCp 10000 } : WinVer)
  let opens := fun (w : WinVer) => decide (w.from_ < t - ((clamp w).close + w.depth) * nsU)
  clamp ((vs.reverse.find? opens).getD (vs.headD now))

/-- When a window of a symbol with air time `t` opens and closes (R101): downlink U-plane, downlink C-plane, uplink C-plane. -/
def State.window (s : State) (c t : Nat) (dl cplane : Bool) : Int × Int :=
  let w := s.winFor c t
  let close := if !dl then w.ulCp else if cplane then w.close + w.cpLead else w.close
  ((t : Int) - (((close + w.depth) * nsU : Nat) : Int), (t : Int) - ((close * nsU : Nat) : Int))

/-- EARLY or LATE with its detail in units of 100 ns, for an arrival at `arr` (R102, R110). -/
def State.judge (s : State) (arr c t : Nat) (dl cplane : Bool) : Option (Nat × Nat) :=
  let (o, e) := s.window c t dl cplane
  let now : Int := arr
  let unit : Int := ((100 * nsU : Nat) : Int)
  let enc := fun (d : Int) => wrapN (if d < -8191 then -8191 else if 8191 < d then 8191 else d) 14
  if now < o then some (1, enc (-((o - now) / unit)))
  else if e < now then some (2, enc ((now - e) / unit))
  else none

/-! ### Air time -/

/-- The slot of a numerology that frameId, subframeId and slotId name: in the frame nearest to now (R136). -/
def State.slotNamed (s : State) (mu frameId subframeId slotId : Nat) : Int :=
  let f0 := s.gridUnits s.now / 2457600
  let f := f0 + sext ((((frameId : Int) - f0) % 256).toNat) 8
  (f * 10 + subframeId) * ((2 ^ mu : Nat) : Int) + slotId

/-- The configuration under which the fields of a section are read (R136): the newest pending switch of numerology or prefix whose
boundary the slot, so read, reaches; else the live one. Answers the configuration word and the slot. -/
def State.readUnder (s : State) (c frameId subframeId slotId : Nat) : Word × Int :=
  let slot := fun (w : Word) => s.slotNamed (cfgMu w) frameId subframeId slotId
  let start := fun (w : Word) => s.gridTime (carSlotStart (cfgMu w) (cfgExt w) (slot w))
  match (s.car c).switches.reverse.find? (fun x => decide (x.time ≤ start x.vals.cfg)) with
  | some x => (x.vals.cfg, slot x.vals.cfg)
  | none => (s.carCfg c, slot (s.carCfg c))

/-- Whether frameId, subframeId, slotId and symbol lie in range for a configuration (R93). -/
def idsOk (cfg : Word) (frameId subframeId slotId symbol : Nat) : Bool :=
  decide (frameId < 256 ∧ subframeId < 10 ∧ slotId < 2 ^ cfgMu cfg ∧ symbol < symsPerSlot (cfgExt cfg))

/-- The air time of symbol `l` of slot `n` (R126). -/
def State.airOf (s : State) (cfg : Word) (n : Int) (l : Nat) : Nat := s.gridTime (symStart (cfgMu cfg) (cfgExt cfg) n l)

/-- The PRBs of a carrier that a section names, or `none` where it reaches beyond its carrier or segment (R93). -/
def secPrbs (cfg : Word) (seg start num : Nat) (alloc : Option (List Nat)) : Option (List Nat) :=
  let base := 1024 * seg
  let stop := min (cfgNprb cfg) (base + 1024)
  match alloc with
  | some l => if l.all (fun p => decide (base + p < stop)) then some (l.map (base + ·)) else none
  | none =>
    let n := if num = 0 then stop - (base + start) else num
    if base + start < stop ∧ base + start + n ≤ stop then some ((List.range n).map (base + start + ·)) else none

/-! ### Channel estimates -/

/-- Words of SRS entry `e` (R195). -/
def State.srsW (s : State) (e w : Nat) : Word := s.rd (Reg.SOL_SRS_W0 e + 4 * w)

/-- Groups of an SRS entry with groups of `g` PRBs (R175). -/
def srsGroups (w2 : Word) (g : Nat) : Nat := (fld w2 10 0 + 1 + g - 1) / g

/-- Consecutive slots of a group: one for each package of the system (R175). -/
def State.groupSlots (s : State) : Nat := s.rf Reg.GL_PKG_POS 3 2 + 1

/-- The package that holds group `i` of an estimate (R175, R189). -/
def State.holder (s : State) (i ng : Nat) : Nat := if s.rb Reg.SOL_CTRL 8 then i * s.reach / ng else 0

/-- Whether this package does. -/
def State.holds (s : State) (i ng : Nat) : Bool := s.groupSlots == 1 || s.holder i ng == s.pkgNum

/-- Write one group of an estimate: 96 elements in one burst at the offset of package `m` (R175, R176). -/
def State.writeGroup (s : State) (slot m : Nat) (els : List Cx) : State :=
  s.forEach ((els.take 96).zipIdx) fun u (x : Cx × Nat) => u.writeCx (0x20000 + (slot + m) * 0x300 + 8 * x.2) x.1

/-- Write the directory entry of port `k` of SRS entry `e` (R173, R175): kind, the next seq, where the estimate lies and when it was
made. -/
def State.writeDir (s : State) (e k kind g snr : Nat) : State :=
  let w0 := s.srsW e 0
  let w1 := s.srsW e 1
  let w2 := s.srsW e 2
  let w3 := s.srsW e 3
  let ng := srsGroups w2 g
  let n := s.groupSlots
  let d := fld w3 31 21 + k
  let a := 32 * d
  let seq := (fld (toW (s.memNat a 4)) 28 16 + 1) % 8192
  let base := fld w3 14 0 + k * ng * n
  if 2048 ≤ d then s
  else
    let v0 := 2 ^ 31 + kind * 2 ^ 29 + seq * 2 ^ 16 + (fld w1 14 0 + k) % 2 ^ 15
    let v1 := fld w0 28 27 * 2 ^ 30 + (g - 1) * 2 ^ 24 + fld w2 26 16 * 2 ^ 12 + (ng - 1)
    let v2 := (n - 1) * 2 ^ 30 + base
    let t := s.shortNow
    ((((s.setBytes a 4 v0).setBytes (a + 4) 4 v1).setBytes (a + 8) 4 v2).setBytes (a + 12) 4 (t % 2 ^ 32)).setBytes (a + 16) 4
      (snr % 256 * 2 ^ 24 + s.epoch * 2 ^ 16 + t / 2 ^ 32)

/-- Write the estimate of port `k` of SRS entry `e`, group by group (R175). Elements beyond the store are not written. -/
def State.writeEstimate (s : State) (e k kind g snr : Nat) (groups : List (List Cx)) : State :=
  let w3 := s.srsW e 3
  let ng := srsGroups (s.srsW e 2) g
  let n := s.groupSlots
  let s1 := s.forEach ((groups.take ng).zipIdx) fun u (x : List Cx × Nat) =>
    let slot := fld w3 14 0 + (k * ng + x.2) * n
    if u.holds x.2 ng ∧ slot + n ≤ 21674 then
      if kind = 1 then u.forEach (List.range n) fun v m => v.writeGroup slot m (x.1.drop (96 * m))
      else u.writeGroup slot u.pkgNum x.1
    else if kind ≠ 1 ∧ slot + n ≤ 21674 then
      u.sendSlot 3 (slot + u.pkgNum) (u.holder x.2 ng) 0 (x.1.take 96)
    else u
  s1.writeDir e k kind g snr

end Sys2Proof.Machine
end

