-- ==== Sys2Proof/Machine/Frame.lean ====
section
/-!
DEFINITION. The fronthaul ports and their Ethernet frames: port state (R83-R85, R112), the classes and the policing of received frames
(R86-R89), wake frames (R113), the frames that leave (R90, R107) and the order in which a port sends them.
-/
namespace Sys2Proof.Machine

/-! ### Ports -/

/-- The ports of a mode, R83. -/
def modePorts (mode : Nat) : List Nat :=
  if mode = 0 then List.range 8 else if mode = 1 then [0, 2, 4, 6] else [0, 4]

/-- Whether a port exists in the mode in force. -/
def State.portPresent (s : State) (n : Nat) : Bool := (modePorts (s.rf Reg.FH_PORT_MODE 1 0)).contains n
def State.portUp (s : State) (n : Nat) : Bool := decide (n < 8) && s.rb Reg.FH_STATUS n && s.domOn 3

/-- The largest frame of a port, R117. -/
def State.maxFrame (s : State) (n : Nat) : Nat := clampN (s.rf (Reg.FH_PORT_CFG n) 30 17) 1518 9216

/-- Change the port mode (R85): the mode in force changes nothing; another takes every port down until it has trained. -/
def State.setPortMode (s : State) (m : Nat) : State :=
  if s.rf Reg.FH_PORT_MODE 1 0 = m then s else (s.pf Reg.FH_PORT_MODE 1 0 m).pf Reg.FH_STATUS 7 0 0

/-- FH_PORT_MODE_WRITE, R85. -/
def execFhPortModeWrite (w : Word) (s : State) : Out :=
  .next (s.access Reg.FH_PORT_MODE fun s =>
    if fld w 1 0 = 3 ∨ !(s.dev = 2 ∨ s.dev = 3) then s.pb Reg.FH_STATUS 9 true
    else s.setPortMode (fld w 1 0))

/-- FH_EAXC_FMT_WRITE, R118: the widths must sum to 16 with at most 4 bits of CC_id. -/
def execFhEaxcFmtWrite (w : Word) (s : State) : Out :=
  .next (s.access Reg.FH_EAXC_FMT fun s =>
    if fld w 15 12 + fld w 11 8 + fld w 7 4 + fld w 3 0 = 16 ∧ fld w 7 4 ≤ 4 then s.poke Reg.FH_EAXC_FMT w
    else s.pb Reg.FH_STATUS 8 true)

/-- FH_FAIL_LOST_READ, R109. -/
def execFhFailLostRead (s : State) : Out := .next (s.accessRead Reg.FH_FAIL_LOST fun s => (s.answer (s.rd Reg.FH_FAIL_LOST)).wr Reg.FH_FAIL_LOST 0)

/-- FH_BUF_PEAK_READ, R116. -/
def execFhBufPeakRead (s : State) : Out := .next (s.accessRead Reg.FH_BUF_STAT fun s => (s.answer (s.rd Reg.FH_BUF_STAT)).pf Reg.FH_BUF_STAT 31 16 0)

/-- PORT_LINK_UP, R84. -/
def execPortLinkUp (n : Nat) (s : State) : Out :=
  .next (if n < 8 ∧ s.domOn 3 ∧ s.portPresent n ∧ s.rb (Reg.FH_PORT_CFG n) 31 then s.pb Reg.FH_STATUS n true else s)

/-- The egress port of an entry (R107, R112). -/
def State.egrPort (s : State) (e : Nat) : Nat :=
  let m := Sparse.get (fun _ => 0) s.fh.moved e
  if m = 0 then s.rf (Reg.FH_EAXC_ENT e) 7 5 else m - 1

/-- Lanes of a port in the mode in force: 100 Gb/s each (R83). -/
def State.portLanes (s : State) : Nat := [1, 2, 4].getD (s.rf Reg.FH_PORT_MODE 1 0) 4

/-- How long a frame of `len` bytes lasts on a port, in 1/500 tick. -/
def State.frameSpan (s : State) (len : Nat) : Nat := len * 64 / s.portLanes

/-! ### Bytes -/

/-- A big-endian number of `n` bytes at `i` of a frame. -/
def be (bs : List Byte) (i n : Nat) : Nat := (bs.drop i |>.take n).foldl (fun v b => v * 256 + b.toNat) 0

/-- The `n` bytes of a number, most significant first. -/
def beBytes (v n : Nat) : List Byte := (List.range n).map (fun k => BitVec.ofNat 8 (v / 256 ^ (n - 1 - k)))

/-- Bytes with those from `i` on replaced. -/
def splice (bs : List Byte) (i : Nat) (x : List Byte) : List Byte := bs.take i ++ x ++ bs.drop (i + x.length)

/-- Fields given as values and widths, packed most significant bit first and filled with zeros to whole bytes. -/
def packBits (l : List (Nat × Nat)) : List Byte :=
  let r := l.foldl (fun (a : Nat × Nat) (x : Nat × Nat) => (a.1 * 2 ^ x.2 + x.1 % 2 ^ x.2, a.2 + x.2)) (0, 0)
  let k := (r.2 + 7) / 8
  beBytes (r.1 * 2 ^ (8 * k - r.2)) k

/-- The one's-complement sum of `n` 16-bit words of a packet: 0xFFFF over a packet whose checksum is right. -/
def inetSum (bs : List Byte) : Nat → Nat
  | 0 => 0
  | n + 1 =>
    let r := inetSum bs n + be bs (2 * n) 1 * 256 + be bs (2 * n + 1) 1
    r % 65536 + r / 65536

/-- The frame check sequence of Ethernet. -/
def frameFcs (bs : List Byte) : List Byte :=
  let c := bs.foldl (fun c b => (List.range 8).foldl (fun c i => crcBitR 0xEDB88320 c (bitN b.toNat i)) c) 0xFFFFFFFF
  leBytes (toW (Nat.xor 0xFFFFFFFF c))

/-- Whether a frame ends in its frame check sequence. -/
def fcsRight (bs : List Byte) : Bool := bs.drop (bs.length - 4) == frameFcs (bs.take (bs.length - 4))

/-! ### Received frames -/

/-- What a frame carries under R86 and R87: its Ethertype, whether it has one 802.1Q tag or two tags, its VID, where its payload begins, and
the offset of an eCPRI header with whether the checksums over it are right. -/
structure FrameView where
  etype : Nat
  tagged : Bool
  twice : Bool
  vid : Nat
  payload : Nat
  ecpri : Option (Nat × Bool)
  deriving DecidableEq, Repr

/-- Where the eCPRI header lies in a UDP packet at offset `o`, and whether its checksums are right (R87): IPv4 without options or fragments,
or IPv6 without extension headers. A UDP checksum of zero is not checked over IPv4. -/
def State.udpEcpri (s : State) (n : Nat) (bs : List Byte) (etype o : Nat) : Option (Nat × Bool) :=
  let cfg := s.rd (Reg.FH_PORT_CFG n)
  let port := s.rf Reg.FH_UDP_CFG 15 0
  let sumOk := fun (u len : Nat) (pseudo : List Byte) => inetSum (pseudo ++ (bs.drop u).take len ++ [0]) ((pseudo.length + len + 1) / 2) == 0xFFFF
  if !bit cfg 15 then none
  else if !bit cfg 14 then
    let u := o + 20
    let len := be bs (u + 4) 2
    if etype = 0x0800 ∧ be bs o 1 = 0x45 ∧ be bs (o + 6) 2 % 2 ^ 14 = 0 ∧ be bs (o + 9) 1 = 17 ∧ be bs (u + 2) 2 = port then
      some (u + 8, inetSum ((bs.drop o).take 20) 10 == 0xFFFF &&
        (be bs (u + 6) 2 == 0 || sumOk u len ((bs.drop (o + 12)).take 8 ++ [0, 17, BitVec.ofNat 8 (len / 256), BitVec.ofNat 8 len])))
    else none
  else
    let u := o + 40
    let len := be bs (u + 4) 2
    if etype = 0x86DD ∧ be bs o 1 / 16 = 6 ∧ be bs (o + 6) 1 = 17 ∧ be bs (u + 2) 2 = port then
      some (u + 8, sumOk u len ((bs.drop (o + 8)).take 32 ++ [0, 0, BitVec.ofNat 8 (len / 256), BitVec.ofNat 8 len, 0, 0, 0, 17]))
    else none

/-- Read a frame received on port `n`. -/
def State.viewFrame (s : State) (n : Nat) (bs : List Byte) : FrameView :=
  let t := be bs 12 2
  let tagged := t == 0x8100
  let etype := if tagged then be bs 16 2 else t
  let o := if tagged then 18 else 14
  { etype := etype, tagged := tagged, twice := etype == 0x8100 || etype == 0x88A8
    vid := if tagged then be bs 14 2 % 4096 else 0, payload := o
    ecpri := if etype = 0xAEFE then some (o, true) else if tagged then s.udpEcpri n bs etype o else none }

/-- Whether a VID is listed for a class (R86, R118): classes 1 and 2 act as 2. -/
def State.vidListed (s : State) (vid cls : Nat) : Bool :=
  (List.range 16).any fun k =>
    let w := s.rd (Reg.FH_VID k)
    let c := if fld w 13 12 = 1 then 2 else fld w 13 12
    bit w 31 && fld w 11 0 == vid && c == cls

/-- The class of a received frame, R86: the first rule of the table that matches. -/
def State.classify (s : State) (f : FrameView) (bs : List Byte) : Nat :=
  let bulk := if s.vidListed f.vid 3 then 3 else 2
  if f.etype = 0x88F7 then 1
  else if !f.tagged ∨ f.twice then 2
  else if s.vidListed f.vid 0 then
    match f.ecpri with
    | some (o, _) => if be bs (o + 1) 1 = 0 ∨ be bs (o + 1) 1 = 2 then 0 else 2
    | none => bulk
  else bulk

/-- Whether a frame is a wake frame, R113. -/
def State.isWake (s : State) (f : FrameView) (bs : List Byte) : Bool :=
  let listed := (List.range 16).any fun k => s.rb (Reg.FH_VID k) 31 && s.rf (Reg.FH_VID k) 11 0 == f.vid
  s.rb Reg.FH_WAKE_CFG 31 && f.etype == s.rf Reg.FH_WAKE_CFG 15 0 && f.tagged && listed && be bs f.payload 2 == 1 &&
    be bs (f.payload + 4) 4 == (s.rd Reg.FH_WAKE_KEY).toNat

/-- A wake frame, R113: the lead passes it to the packages of the package mask over the cascade; the tile mask wakes tiles of this one. -/
def State.wakeFrame (s : State) (f : FrameView) (bs : List Byte) : State :=
  let pkgs := be bs (f.payload + 2) 1 % 16
  let tiles := be bs (f.payload + 3) 1 % 16
  let s1 := match s.port 2 with
    | some l => if s.isLead ∧ s.reach ≠ 1 then s.sendMsg l 9 (pkgs * 16 + tiles) [] else s
    | none => s
  if !s1.isLead ∨ bitN pkgs 0 then s1.wakeArrive 5 (bitsSet tiles 4) else s1

/-- Bytes that wait in a class share (R88): received frames that wait for their ring, and frames that wait to leave. -/
def State.shareUse (s : State) (cls : Nat) : Nat :=
  ((List.range 32).map (fun n => (((s.ringOf n).items.filter (fun i => i.stamp.any (fun t => t.cls == cls))).map DevItem.len).sum)).sum +
    ((s.fh.egress.filter (fun f => f.cls == cls)).map (fun f => f.bytes.length)).sum
def shareSize (cls : Nat) : Nat := [1048576, 524288, 1572864, 2097152].getD cls 0

/-- The time `t` as a timestamp of a port, with the port's correction added (R66, R80; that it is added is DEDUCED, log entry 37): ingress in
[15:0], egress from bit 16. -/
def State.stampAt (s : State) (n lo t : Nat) : Nat :=
  ((t : Int) + sext (s.rf (Reg.TB_PORT_DLY n) (lo + 15) lo) 16 * 2 ^ 36).toNat

/-- The time at a count in 1/500 tick (R42). -/
def State.timeFine (s : State) (u : Nat) : Nat := s.timeAt (u / 500) + u % 500 * s.rate / 500

/-- The time of the first bit of a frame whose last byte arrives now (R66). -/
def State.frameStart (s : State) (len : Nat) : Nat := s.timeFine (500 * s.tick - s.frameSpan len)

/-- Hand a received frame to the lowest enabled FRAME_RX ring that takes its port and class, or drop it, counted (R466, R476). -/
def State.frameToHost (s : State) (n cls : Nat) (bs : List Byte) : State :=
  let on := s.rb Reg.TB_PTP_CFG 16
  let stamp : RxStamp := { port := n, cls := cls, tsOk := on, time := s.stampAt n 0 (s.frameStart bs.length), epoch := s.epoch }
  match (List.range 32).find? (fun r => s.ringFunc r == some 8 && s.rb (Reg.RING_FILT r) (8 + n) && s.rb (Reg.RING_FILT r) cls) with
  | some r => s.deliver r { code := 0, detail := n * 8 + cls, len := bs.length, data := bs, stamp := some stamp }
  | none => s.bump (Cnt.dma (((List.range 32).find? (fun r => s.ringFunc r == some 8)).getD 16) 9)

/-- The ingress rate of a class in Gb/s (R89, R117). -/
def State.classRate (s : State) (n cls : Nat) : Nat :=
  if cls = 1 then 1 else if cls = 2 then s.rf (Reg.FH_PORT_CFG n) 7 4 else s.rf (Reg.FH_PORT_CFG n) 3 0

/-- Police a frame of classes 1 to 3 (R89): a bucket that drains at the class's rate and holds one largest frame and the burst that
`Config.policeBurst` leaves open. Answers whether the frame conforms, and the state with the new level. -/
def State.policed (s : State) (n cls len : Nat) : Bool × State :=
  let k := 4 * n + cls
  let old := Sparse.get (fun _ => (0, 0)) s.fh.police k
  let level := old.1 - 5 * s.classRate n cls * (s.tick - old.2)
  let full := level + 64 * len
  let ok := s.classRate n cls != 0 && decide (full ≤ 64 * (s.maxFrame n + Config.policeBurst n cls))
  (ok, { s with fh := { s.fh with police := Sparse.set (fun _ => (0, 0)) s.fh.police k (if ok then full else level, s.tick) } })

/-- The messages of a frame from its first common header on (R91): the concatenation bit says that another follows, aligned to four bytes. -/
def ecpriSplit : Nat → List Byte → List (Nat × List Byte)
  | 0, _ => []
  | k + 1, bs =>
    let size := be bs 2 2
    let m := (size, (bs.drop 4).take size)
    if bs.length < 4 then [] else if be bs 0 1 % 2 = 1 then m :: ecpriSplit k (bs.drop (4 + (size + 3) / 4 * 4)) else [m]

/-- A class-0 frame is taken: its messages wait to be judged (R91). -/
def State.takeFrame (s : State) (n o : Nat) (bs : List Byte) : State :=
  let ms := ecpriSplit bs.length ((bs.take (bs.length - 4)).drop o)
  let time := s.stampAt n 0 s.now
  let ins := ms.zipIdx.map (fun (m : (Nat × List Byte) × Nat) =>
    ({ port := n, time := time, index := m.2, size := m.1.1, payload := m.1.2 } : FhIn))
  { s with fh := { s.fh with inbox := s.fh.inbox ++ ins } }

/-- Whether a frame is a Sync message that the Sync timeout watches for (R68, R79). -/
def State.isSync (s : State) (n : Nat) (f : FrameView) (bs : List Byte) : Bool :=
  f.etype == 0x88F7 && be bs f.payload 1 % 16 == 0 && be bs (f.payload + 4) 1 == s.rf Reg.TB_PTP_CFG 15 8 && n == s.rf Reg.TB_PTP_CFG 2 0

/-- FRAME_RECEIVE, R84, R86-R89, R91, R113: a frame with its FCS has arrived on port `n`. The messages of a class-0 frame are judged by
ECPRI_MESSAGE; a wrong IP or UDP checksum stops the frame at step 2 of R100. Frames shorter than 64 bytes are no frames a port receives. -/
def execFrameReceive (n : Nat) (bs : List Byte) (s : State) : Out :=
  if !s.portUp n then .next s
  else
    let s1 := (s.bump (Cnt.fhPortRx n 0)).bumpBy (Cnt.fhPortRx n 1) bs.length
    if !fcsRight bs then .next (s1.bump (Cnt.fhPortRx n 2))
    else if bs.length < 64 then .next s1
    else if s1.maxFrame n < bs.length then .next (s1.bump (Cnt.fhPortRx n 3))
    else
      let f := s1.viewFrame n bs
      if f.etype = 0x8808 then .next (s1.bump (Cnt.fhPortRx n 4))
      else
        let wake := s1.isWake f bs
        let cls := if wake then 2 else s1.classify f bs
        let s2 := (s1.when wake (fun u => u.wakeFrame f bs)).when (s1.isSync n f bs) State.restartSync
        if cls = 0 then
          let s3 := s2.bump (Cnt.fhClass n 0 0)
          .next (match f.ecpri with
            | some (o, true) => s3.takeFrame n o bs
            | _ => s3)
        else
          let (ok, s3) := s2.policed n cls bs.length
          if !ok ∨ shareSize cls < s3.shareUse cls + bs.length then .next (s3.bump (Cnt.fhClass n cls 1))
          else .next ((s3.bump (Cnt.fhClass n cls 0)).frameToHost n cls bs)

/-! ### Frames that leave -/

/-- The headers of a frame of class 0 before its eCPRI message (R107, R116): the port's template with the Ethertype, and with
udp_en the lengths and checksums filled in. -/
def State.frameHead (s : State) (port : Nat) (msg : List Byte) : List Byte :=
  let cfg := s.rd (Reg.FH_PORT_CFG port)
  let tpl := (List.range 16).flatMap (fun k => leBytes (s.rd (Reg.FH_HDR_TPL port k)))
  let mac := tpl.take 16
  let udpLen := 8 + msg.length
  let udp := fun (o : Nat) (pseudo : List Byte) =>
    let h := splice (splice ((tpl.drop o).take 8) 4 (beBytes udpLen 2)) 6 [0, 0]
    let c := 0xFFFF - inetSum (pseudo ++ h ++ msg ++ [0]) ((pseudo.length + udpLen + 1) / 2)
    splice h 6 (beBytes (if c = 0 then 0xFFFF else c) 2)
  if !bit cfg 15 then mac ++ beBytes 0xAEFE 2
  else if !bit cfg 14 then
    let h := splice (splice ((tpl.drop 16).take 20) 2 (beBytes (20 + udpLen) 2)) 10 [0, 0]
    let ip := splice h 10 (beBytes (0xFFFF - inetSum h 10) 2)
    mac ++ beBytes 0x0800 2 ++ ip ++ udp 36 ((ip.drop 12).take 8 ++ [0, 17] ++ beBytes udpLen 2)
  else
    let ip := splice ((tpl.drop 16).take 40) 4 (beBytes udpLen 2)
    mac ++ beBytes 0x86DD 2 ++ ip ++ udp 56 ((ip.drop 8).take 32 ++ beBytes udpLen 4 ++ [0, 0, 0, 17])

/-- Whether a frame is a PTP event message that is timestamped (R65): Sync, Delay_Req, Pdelay_Req or Pdelay_Resp, tagged or not, and not
one-step. -/
def ptpEvent (bs : List Byte) : Option Nat :=
  let tagged := be bs 12 2 == 0x8100
  let o := if tagged then 18 else 14
  let typ := be bs o 1 % 16
  if be bs (o - 2) 2 = 0x88F7 ∧ typ < 4 ∧ (typ = 1 ∨ typ = 2 ∨ bitN (be bs (o + 6) 1) 1) then some o else none

/-- Enter the transmit timestamp of a frame whose first bit leaves at `t` into its queue (R65, R67). -/
def State.txStamp (s : State) (port : Nat) (bs : List Byte) (t : Nat) : State :=
  match ptpEvent bs with
  | none => s
  | some o =>
    if !s.rb Reg.TB_PTP_CFG 16 then s
    else if 128 ≤ s.tb.txts.length then s.pb Reg.TB_STATUS 7 true
    else
      let t := s.stampAt port 16 t
      let ws := [toW (nanoOf t), toW (secOf t), toW (2 ^ 31 + port * 2 ^ 24 + s.epoch * 2 ^ 16 + secOf t / 2 ^ 32 % 2 ^ 16),
        toW (be bs (o + 30) 2 * 2 ^ 16 + fracOf t)]
      { s with tb := { s.tb with txts := s.tb.txts ++ [ws] } }

/-- A port sends a frame of its queues from `start` on, in 1/500 tick (R90): counted (R115), stamped (R65), and recorded where the first
byte of its section leaves late (R108). -/
def State.sendFrame (s : State) (start : Nat) (f : EgrFrame) : State :=
  let s1 := { s with fh := { s.fh with
    egress := s.fh.egress.erase f
    portFree := Sparse.set (fun _ => 0) s.fh.portFree f.port (start + s.frameSpan f.bytes.length)
    frames := s.fh.frames ++ [(f.port, f.cls, f.bytes)] } }
  let s2 := (s1.bump (Cnt.fhPortTx f.port 0)).bumpBy (Cnt.fhPortTx f.port 1) f.bytes.length
  match f.sec with
  | none => s2.txStamp f.port f.bytes (s2.timeFine start)
  | some (e, h) =>
    let s3 := s2.bump (Cnt.fhEaxc e 13)
    if f.bound.any (fun b => decide (b < s3.timeFine start)) then s3.rejectSec (some e) h 0x0D false false 0 else s3

/-- The frame that port `n` sends next, and when, in 1/500 tick (R90): the oldest frame of the lowest class among those queued when the port
becomes free. -/
def State.egressNext (s : State) (n : Nat) : Option (Nat × EgrFrame) :=
  match s.fh.egress.filter (fun f => f.port == n) with
  | [] => none
  | f :: rest =>
    let start := max (Sparse.get (fun _ => 0) s.fh.portFree n) (500 * f.at_)
    some (start, (rest.filter (fun x => decide (500 * x.at_ ≤ start))).foldl (fun (b : EgrFrame) x => if x.cls < b.cls then x else b) f)

/-- Port `n` sends the frames whose turn has come by now; `fuel` bounds their number. -/
def State.egressPort (s : State) (n : Nat) : Nat → State
  | 0 => s
  | k + 1 =>
    match s.egressNext n with
    | none => s
    | some (start, f) => if start ≤ 500 * s.tick then (s.sendFrame start f).egressPort n k else s

/-- Every port sends the frames whose turn has come by now (R90). -/
def State.egressRun (s : State) : State := s.forEach (List.range 8) fun u n => u.egressPort n u.fh.egress.length

/-- Queue a frame on a port in its class (R90): it leaves at once where the port is free. -/
def State.queueFrame (s : State) (f : EgrFrame) : State :=
  ({ s with fh := { s.fh with egress := s.fh.egress ++ [f] } } : State).egressRun

/-- One tick passes with nothing commanded (R40; DESIGN CHOICE, log entry 1): frames whose turn has come leave. -/
def State.idle (s : State) : State := (s.advanceTo (s.tick + 1)).egressRun

/-- PORT_LINK_DOWN, R112: recorded; the egress of every entry on the port that has a backup moves to it. Frames already built for the port are
lost, class-0 sections among them with EGRESS_LATE. -/
def execPortLinkDown (n : Nat) (s : State) : Out :=
  if !(decide (n < 8) && s.rb Reg.FH_STATUS n) then .next s
  else
    let s0 := s.egressRun
    let s1 := (s0.pb Reg.FH_STATUS n false).hubEvent 0x06 n
    let es := (List.range 256).filter fun e => s1.rb (Reg.FH_EAXC_KEY e) 31 && s1.egrPort e == n && s1.rb (Reg.FH_EAXC_ENT e) 1 &&
      Sparse.get (fun _ => 0) s1.fh.moved e == 0
    let mv := es.foldl (fun m e => Sparse.set (fun _ => 0) m e (s1.rf (Reg.FH_EAXC_ENT e) 4 2 + 1)) s1.fh.moved
    let lost := s1.fh.egress.filter (fun f => f.port == n)
    let s2 := { s1 with fh := { s1.fh with moved := mv, egress := s1.fh.egress.filter (fun f => f.port != n) } }
    let s3 := s2.forEach lost fun u f => match f.sec, f.bound with
      | some (e, h), some _ => u.rejectSec (some e) h 0x0D false false 0
      | _, _ => u
    .next (s3.when (es != []) (fun u => u.spared 0 n 4))

end Sys2Proof.Machine
end

