-- ==== Sys2Proof/Machine/Fronthaul.lean ====
section
/-!
DEFINITION. Sections of the fronthaul: the ingress order of a message (R100-R103), uplink egress (R107, R108), admission (R105) and the
fronthaul commands (R114).
-/
namespace Sys2Proof.Machine

/-! ### Messages -/

/-- The record fields of a section of a message. -/
def secHdr (m : EcpriMsg) (x : SecIn) : SecHdr := {
  port := m.port
  eaxc := m.eaxc
  sectionId := x.sectionId
  frameId := m.frameId
  subframeId := m.subframeId
  slotId := m.slotId
  symbolId := m.symbolId
  startPrb := x.startPrb
  numPrb := x.numPrb }

/-- Whether an extension is listed and allowed for a section type (R95, R150). -/
def extOk (typ : Nat) (dl : Bool) (meth : Nat) (x : SecIn) (t : Nat) : Bool :=
  if t = 4 ∨ t = 5 then typ == 1 && dl && meth == 4
  else if t = 6 then typ == 1 || typ == 3 || typ == 5
  else if t = 8 ∨ t = 14 ∨ t = 15 then typ == 5
  else if t = 10 then (typ == 1 || typ == 5) && !(x.group.any (fun (g : Nat × Nat) => g.1 == 2))
  else if t = 12 then typ == 1 || typ == 5
  else if t = 13 then typ == 1 || typ == 3
  else if t = 21 then typ == 6
  else false

/-- Whether a method and width are supported (R96): method 4 for downlink data only. -/
def compOk (c : Nat × Nat) (dl : Bool) : Bool :=
  (c.1 == 0 && c.2 == 16) || (c.1 == 1 && decide (6 ≤ c.2 ∧ c.2 ≤ 16)) || (c.1 == 4 && dl && decide (1 ≤ c.2 ∧ c.2 ≤ 4))

/-- The compression that applies to a section, R96. -/
def State.secComp (s : State) (e : Nat) (x : SecIn) : Option (Nat × Nat) :=
  if s.eDyn e then x.comp else some (s.eMeth e, s.eWidth e)

/-- Decompress a component, R97; a value of method 4 is kept as sent until its scaling is known. -/
def decomp (c : Nat × Nat) (exp : Nat) (v : Int) : Int := if c.1 = 4 then v else if c.1 = 1 then v * 2 ^ (exp + 8) else v * 2 ^ 8

/-- Decompress a PRB: twelve words, and whether its exponent cannot be represented (R97). -/
def decompPrb (c : Nat × Nat) (p : PrbIn) : List Cx × Bool :=
  if c.1 = 1 ∧ 16 < p.exp + c.2 then (List.replicate 12 { i := 0, q := 0 }, true)
  else ((List.range 12).map (fun k =>
    let (i, q) := p.iq.getD k (0, 0)
    { i := satN (decomp c p.exp i) 24, q := satN (decomp c p.exp q) 24 }), false)

/-- A component of method 4 with width `w` under the section's parameters (R97; the meaning of csf and modCompScaler is O-RAN's, PRESUMED, log
entry 38): the point moved by half a step where csf is set, times mantissa x 2^-11 x 2^-exponent. -/
def modPoint (w : Nat) (m : ModComp) (v : Int) : Int :=
  let n := (2 * v + (b2n m.csf : Nat)) * (m.mant : Int) * 2 ^ 23
  satN (roundShift n (w + 11 + m.exp)) 24

/-- The words of a PRB of method 4: each resource element under the set whose mask names it. -/
def modWords (w : Nat) (ms : List ModComp) (ws : List Cx) : List Cx :=
  ws.zipIdx.map fun (x : Cx × Nat) =>
    match ms.find? (fun m => bitN m.mask x.2) with
    | some m => { x.1 with i := modPoint w m x.1.i, q := modPoint w m x.1.q }
    | none => { x.1 with i := 0, q := 0 }

/-- Bytes of the class-0 downlink share in use: a 64-bit slot for each word (R88). -/
def State.bufUse (s : State) : Nat := (s.fh.data.map (fun u => 96 * u.data.length)).sum

/-- Show the occupancy and its peak in KiB (R116). -/
def State.showBuf (s : State) : State :=
  let k := (s.bufUse + 1023) / 1024
  (s.pf Reg.FH_BUF_STAT 15 0 k).pf Reg.FH_BUF_STAT 31 16 (max (s.rf Reg.FH_BUF_STAT 31 16) k)

/-- Whether a section covers a PRB on a symbol of a slot. -/
def Sec.covers (x : Sec) (slot : Int) (sym prb : Nat) : Bool :=
  x.slot == slot && decide (x.sym ≤ sym ∧ sym < x.sym + x.numSym) && x.prbs.contains prb

/-- The accepted downlink C-plane section of an entry that covers a PRB on a symbol (R102): type 6 carries no data. -/
def State.coverOf (s : State) (e : Nat) (slot : Int) (sym prb : Nat) : Option Sec :=
  s.fh.secs.find? fun c => c.dl && c.typ != 6 && (c.entry == e || e == 256 + c.layer) && c.covers slot sym prb
def State.covered (s : State) (e : Nat) (slot : Int) (sym prb : Nat) : Bool := (s.coverOf e slot sym prb).isSome

/-- Judge the C-plane of buffered U-plane sections (R102): PRBs that no section covers are dropped and recorded. -/
def State.judgeCplane (s : State) (pick : USec → Bool) : State :=
  (s.forEach (s.fh.data.filter (fun u => pick u && !u.judged)) fun v u =>
    let bad := (u.data.map Prod.fst).filter (fun p => !v.covered u.entry u.slot u.sym p)
    let keep : USec := { u with judged := true, data := u.data.filter (fun (d : Nat × List Cx) => !bad.contains d.1) }
    let v1 := { v with fh := { v.fh with data := v.fh.data.map (fun y => if y = u then keep else y) } }
    if bad = [] then v1 else v1.rejectPrbs u.entry u.hdr 0x0A true false bad).showBuf

/-- The start and end, as times, of a PRACH occasion: timeOffset after the section's first symbol, and its repetitions (R132). -/
def prachTimes (air : Nat) (x : PrachIn) (reps : Nat) : Nat × Nat :=
  let start := air + x.timeOffset * 1000000 * nsU / 30720
  (start, start + reps * 1000000000 * nsU / max 1 x.scs)

/-- Whether the PRACH parameters are supported, R132: the occasion's bins lie inside the carrier's span. -/
def prachOk (cfg : Word) (x : PrachIn) (numSymbol : Nat) : Bool :=
  ((x.seqLen == 839 && (x.scs == 1250 || x.scs == 5000)) ||
    (x.seqLen == 139 && (x.scs == 15000 || x.scs == 30000 || x.scs == 60000 || x.scs == 120000))) &&
  decide (8 ≤ x.fft ∧ x.fft ≤ 12 ∧ 10 * x.seqLen ≤ 8 * 2 ^ x.fft ∧ x.timeOffset ≤ 16383 ∧ 1 ≤ numSymbol ∧ numSymbol ≤ 12) &&
  decide (-((carSpan cfg * 1000 : Nat) : Int) ≤ x.freqOffset * x.scs ∧
    x.freqOffset * x.scs + ((2 * x.seqLen * x.scs : Nat) : Int) ≤ ((carSpan cfg * 1000 : Nat) : Int))

/-- The SRS entry and port that a type-6 section writes (R177). -/
def State.srsFor (s : State) (c ue : Nat) : Option (Nat × Nat) :=
  ((List.range 256).find? (fun e =>
    bit (s.srsW e 0) 31 && bit (s.srsW e 0) 30 && fld (s.srsW e 0) 28 27 == c &&
      decide (fld (s.srsW e 1) 14 0 ≤ ue ∧ ue < fld (s.srsW e 1) 14 0 + 2 ^ fld (s.srsW e 0) 26 25))).map
    (fun e => (e, ue - fld (s.srsW e 1) 14 0))

/-- Entries of the section table in use (R88): accepted sections and PRACH occasions. -/
def State.tableUse (s : State) : Nat :=
  s.fh.secs.length + (s.fh.prach.map (fun (x : Nat × List PrachOcc) => x.2.length)).sum

/-- Whether an accepted section has the same entry, sectionId and symbol and a PRB in common (R102). -/
def State.duplicate (s : State) (x : Sec) : Bool :=
  s.fh.secs.any fun c => c.entry == x.entry && c.hdr.sectionId == x.hdr.sectionId && c.slot == x.slot &&
    decide (c.sym < x.sym + x.numSym ∧ x.sym < c.sym + c.numSym) && c.prbs.any (fun p => x.prbs.contains p)

/-- Whether the table is full or the section is a duplicate: it is rejected, else it goes on (R102, step 6 of R100). -/
def State.admitC (s : State) (x : Sec) (yes : State → State) : State :=
  if s.duplicate x then s.rejectSec (some x.entry) x.hdr 3 x.dl true 0
  else if 16384 ≤ s.tableUse then (s.rejectSec (some x.entry) x.hdr 0x0B x.dl true 0).pb Reg.FH_STATUS 12 true
  else yes (s.bump (Cnt.fhEaxc x.entry 0))

/-- The contiguous runs of a list of PRBs. -/
def runsOf (fuel : Nat) (l : List (Nat × List Cx)) : List (List (Nat × List Cx)) :=
  match fuel, l with
  | _, [] => []
  | 0, l => [l]
  | k + 1, l =>
    let n := (firstRun (l.map Prod.fst)).2
    l.take n :: runsOf k (l.drop n)

/-- The lead of a system forwards layer words of an accepted section to the next package, one record for each run of PRBs (R163, R370). -/
def State.forwardLayer (s : State) (u : USec) (data : List (Nat × List Cx)) : State :=
  if s.reach = 1 then s
  else s.forEach (runsOf data.length data) fun v r =>
    let (v, bs) := v.cascBlocks (r.map Prod.snd)
    v.sendRec (v.port 2) {
      kind := 1, hdr := layerHdr u.car u.hdr u.sym (v.eLayer u.entry) ((r.map Prod.fst).headD 0) r.length, blocks := bs }

/-- Scale the method-4 data of a buffered section that accepted C-plane sections now cover (R97), and forward it. -/
def State.scaleRaw (s : State) (u : USec) : State :=
  let now := u.raw.filter (fun p => (s.coverOf u.entry u.slot u.sym p).isSome)
  if now = [] then s
  else
    let conv := fun (d : Nat × List Cx) =>
      if now.contains d.1 then (d.1, modWords u.width (((s.coverOf u.entry u.slot u.sym d.1).map Sec.mods).getD []) d.2) else d
    let u1 := { u with data := u.data.map conv, raw := u.raw.filter (fun p => !now.contains p) }
    ({ s with fh := { s.fh with data := s.fh.data.map (fun y => if y = u then u1 else y) } } : State).forwardLayer u1
      (u1.data.filter (fun (d : Nat × List Cx) => now.contains d.1))

/-- Accept a C-plane section for its entry (R102, steps 6 and 7 of R100). -/
def State.acceptC (s : State) (x : Sec) : State :=
  s.admitC x fun s1 =>
    let s2 := { s1 with fh := { s1.fh with secs := s1.fh.secs ++ [x], fwd := if s1.reach = 1 then s1.fh.fwd else s1.fh.fwd ++ [x] } }
    s2.forEach (s2.fh.data.filter (fun u => u.raw != [] && x.dl && u.entry == x.entry)) State.scaleRaw

/-- The ports of extension 10 (R150): the section on each eAxC ID whose RU_port_id is `k` higher, each judged for itself: rejected where its
entry, port or beamId is not allowed. An RU_port_id beyond its field has no entry (DEDUCED, log entry 39). -/
def State.takePorts (s : State) (x : Sec) (group : Option (Nat × Nat)) : State :=
  match group with
  | none => s.acceptC x
  | some (t, n) => s.forEach (List.range (n + 1)) fun u k =>
      let ru := 2 ^ u.rf Reg.FH_EAXC_FMT 3 0
      let id := x.hdr.eaxc + k
      let h := { x.hdr with eaxc := id }
      let beam := if t = 1 then x.beam + k else x.beam
      if ru ≤ x.hdr.eaxc % ru + k then u.rejectSec none h 6 x.dl true 0
      else match u.entryOf id x.dl with
        | none => u.rejectSec none h 6 x.dl true 0
        | some e =>
          if !u.eIngress e x.hdr.port then u.rejectSec (some e) h 6 x.dl true 0
          else if x.typ = 1 ∧ 5119 < beam then u.rejectSec (some e) h 0x0E x.dl true 0
          else u.acceptC { x with entry := e, layer := u.eLayer e, hdr := h, beam := beam }

/-- Reject with the reason and detail of a judgement, or go on. -/
def orReject (v : Option (Nat × Nat)) (no : Nat → Nat → State) (yes : State) : State :=
  match v with
  | some (r, d) => no r d
  | none => yes

/-- The elements of a type-6 section, decompressed by R97, by group, and whether a block could not be represented. -/
def estWords (comp : Nat × Nat) (est : List (List PrbIn)) : List (List Cx) × Bool :=
  let gs := est.map (fun g => g.map (decompPrb comp))
  (gs.map (fun g => g.flatMap (fun (b : List Cx × Bool) => b.1)), gs.any (fun g => g.any Prod.snd))

/-- A type-6 section: its elements are written to the channel store (R177). It stands in the section table as accepted (R102). -/
def State.takeEstimate (s : State) (x : Sec) (i : SecIn) : State :=
  match s.srsFor x.car i.ueId with
  | none => s.rejectSec (some x.entry) x.hdr 0x0E x.dl true 0
  | some (srs, k) =>
    let g := i.gSize.getD (fld (s.srsW srs 1) 31 28 + 1)
    if srsGroups (s.srsW srs 2) g < i.est.length then s.rejectSec (some x.entry) x.hdr 0x0E x.dl true 0
    else s.admitC x fun s1 =>
      let s2 := ({ s1 with fh := { s1.fh with secs := s1.fh.secs ++ [x] } } : State).bump (Cnt.solSrs x.car 2)
      let (els, bad) := estWords x.comp i.est
      let (w, s3) := s2.drawNat
      (s3.writeEstimate srs k 1 g w els).when bad (fun u => u.rejectSec (some x.entry) x.hdr 9 x.dl true 0)

/-- Insert a PRACH occasion in the order of starts. -/
def insertOcc (o : PrachOcc) : List PrachOcc → List PrachOcc
  | [] => [o]
  | x :: rest => if o.start < x.start then o :: x :: rest else x :: insertOcc o rest

/-- A type-3 section on a PRACH stream (R132, R133): an occasion that overlaps an accepted one of the stream is a duplicate. -/
def State.takePrach (s : State) (x : Sec) (p : PrachIn) (air : Nat) : State :=
  let (a, b) := prachTimes air p x.numSym
  let old := Sparse.get (fun _ => []) s.fh.prach x.layer
  if old.any (fun o => decide (o.start < b ∧ a < o.stop)) then
    (s.rejectSec (some x.entry) x.hdr 3 x.dl true 0).bump (Cnt.sePrach x.layer 1)
  else s.admitC x fun s1 =>
    let occ : PrachOcc := { sec := x, start := a, stop := b, reps := x.numSym, seqLen := p.seqLen, fft := p.fft, scs := p.scs, freqOffset := p.freqOffset }
    { s1 with fh := { s1.fh with prach := Sparse.set (fun _ => []) s1.fh.prach x.layer (insertOcc occ old) } }

/-- A C-plane section that has passed the checks of step 4 (R100, steps 5 to 7); `arr` is its arrival time. -/
def State.takeC (s : State) (arr : Nat) (m : EcpriMsg) (x : SecIn) (e c : Nat) (cfg : Word) (slot : Int) (prbs : List Nat)
    (comp : Nat × Nat) : State :=
  let h := secHdr m x
  let air := s.airOf cfg slot m.symbolId
  orReject (s.judge arr c air m.downlink true) (fun r d => s.rejectSec (some e) h r m.downlink true d) <|
    let sec : Sec := {
      hdr := h, entry := e, dl := m.downlink, typ := m.sectionType, car := c, mu := cfgMu cfg, ext := cfgExt cfg, slot := slot
      sym := m.symbolId, numSym := x.numSymbol, prbs := prbs, beam := x.beamId, ue := x.ueId, comp := comp, air := air, layer := s.eLayer e
      filt := m.filterIndex, mods := x.mods }
    if m.sectionType = 6 then s.takeEstimate sec x
    else if s.eKind e = 1 then
      match x.prach with
      | none => s.rejectSec (some e) h 5 m.downlink true 0
      | some p => s.takePrach sec p air
    else
      let s1 := s.takePorts sec x.group
      if m.sectionType = 5 then
        { s1 with sol := { s1.sol with
          ext14 := (x.ueId, x.nulled) :: s1.sol.ext14.filter (fun (y : Nat × List Nat) => y.1 ≠ x.ueId)
          ext8 := (match x.factor with
            | some f => [(x.ueId, f)]
            | none => []) ++ s1.sol.ext8.filter (fun (y : Nat × Nat) => y.1 ≠ x.ueId) } }
      else s1

/-- A U-plane section that has passed the checks of step 4 (R97, R100, R102); `arr` is its arrival time. -/
def State.takeU (s : State) (arr : Nat) (m : EcpriMsg) (x : SecIn) (e c : Nat) (cfg : Word) (slot : Int) (prbs : List Nat)
    (comp : Nat × Nat) : State :=
  let h := secHdr m x
  let air := s.airOf cfg slot m.symbolId
  orReject (s.judge arr c air true false) (fun r d => s.rejectSec (some e) h r true false d) <|
    let dup := s.fh.data.any fun u => u.entry == e && u.slot == slot && u.sym == m.symbolId &&
      u.data.any (fun (d : Nat × List Cx) => prbs.contains d.1)
    if dup then s.rejectSec (some e) h 3 true false 0
    else if 11534336 < s.bufUse + 96 * prbs.length then (s.rejectSec (some e) h 0x0B true false 0).pb Reg.FH_STATUS 12 true
    else
      let ds := prbs.zipIdx.map (fun (p : Nat × Nat) => (p.1, decompPrb comp (x.data.getD p.2 { exp := 0, iq := [] })))
      let (s0, words) := s.crossPrbs 0 m.port (ds.map (fun (d : Nat × List Cx × Bool) => (d.1, d.2.1)))
      let u : USec := {
        hdr := h, entry := e, car := c, slot := slot, sym := m.symbolId, air := air, data := words
        mu := cfgMu cfg, ext := cfgExt cfg, width := comp.2, raw := if comp.1 = 4 then prbs else [] }
      let s1 := s0.bump (Cnt.fhEaxc e 0)
      let s2 := ({ s1 with fh := { s1.fh with data := s1.fh.data ++ [u] } } : State).showBuf
      let s3 := if comp.1 = 4 then s2.scaleRaw u else s2.forwardLayer u u.data
      let s4 := if ds.any (fun (d : Nat × List Cx × Bool) => d.2.2) then s3.rejectSec (some e) h 9 true false 0 else s3
      if (s4.window c air true true).2 ≤ (s4.now : Int) then
        s4.judgeCplane (fun y => y.entry == e && y.slot == slot && y.sym == m.symbolId && y.hdr == h) else s4

/-- The CRC-32C that ends a payload is right (R99; its byte order is PRESUMED, log entry 31). -/
def crcRight (m : EcpriMsg) : Bool :=
  m.payload.drop (m.payload.length - 4) == leBytes (toW (crc32c (m.payload.take (m.payload.length - 4))))

/-- One section of a message that arrived at `arr`, R100 from step 3 on. -/
def State.takeSec (s : State) (arr : Nat) (m : EcpriMsg) (x : SecIn) : State :=
  let h := secHdr m x
  let e? := s.entryOf m.eaxc m.downlink
  let no := fun (r : Nat) => s.rejectSec e? h r m.downlink m.cplane 0
  if s.rb (Reg.FH_PORT_CFG m.port) 16 ∧ !crcRight m then no 4
  else if m.payloadVersion ≠ 1 ∨ (!m.cplane ∧ !m.downlink) then no 5
  else match e?, s.ccOf m.eaxc with
    | some e, some (c, seg) =>
      let (cfg, slot) := s.readUnder c m.frameId m.subframeId m.slotId
      let on := if m.downlink then cfgDl cfg else cfgUl cfg
      if !s.eIngress e m.port ∨ !on then no 6
      else if !idsOk cfg m.frameId m.subframeId m.slotId m.symbolId then no 5
      else
        let types := if m.downlink then [0, 1, 5, 6] else [0, 1, 3, 5, 6]
        let comp := s.secComp e x
        let data := m.downlink
        if m.cplane ∧ (symsPerSlot (cfgExt cfg) < m.symbolId + x.numSymbol ∨ 8 < x.exts.length) then no 5
        else if m.cplane ∧ !types.contains m.sectionType then no 7
        else if m.cplane ∧ ((s.eKind e = 1) != (m.sectionType == 3) && s.eKind e ≠ 0 || (s.eKind e == 2) != (m.sectionType == 6)) then no 7
        else if !m.cplane ∧ s.eKind e ≠ 0 then no 7
        else if m.cplane ∧ x.exts.any (fun t => !extOk m.sectionType m.downlink ((comp.map Prod.fst).getD 0) x t) then no 8
        else match comp with
          | none => no 9
          | some k =>
            if !compOk k data then no 9
            else if m.cplane ∧ (m.sectionType = 1 ∨ m.sectionType = 3) ∧ 5119 < x.beamId then no 0x0E
            else if m.cplane ∧ s.eKind e = 1 ∧ !(x.prach.any (fun p => prachOk cfg p x.numSymbol)) then no 5
            else match secPrbs cfg seg x.startPrb x.numPrb (if m.cplane then x.alloc else none) with
              | none => no 0x0E
              | some prbs => if m.cplane then s.takeC arr m x e c cfg slot prbs k else s.takeU arr m x e c cfg slot prbs k
    | _, _ => no 6

/-- What a message is judged with: its arrival time and its place in its frame, and the state without it in the inbox. A message that is not
the oldest of the inbox has arrived now in a frame of its own. -/
def State.takeInbox (s : State) (m : EcpriMsg) : Nat × Nat × State :=
  match s.fh.inbox with
  | i :: rest =>
    if i.port = m.port ∧ i.size = m.size ∧ i.payload = m.payload then (i.time, i.index, { s with fh := { s.fh with inbox := rest } })
    else (s.stampAt m.port 0 s.now, 0, s)
  | [] => (s.stampAt m.port 0 s.now, 0, s)

/-- The header of a message is as R91 asks. -/
def headOk (m : EcpriMsg) (index : Nat) : Bool :=
  m.revision == 1 && m.size == m.payload.length && m.eBit && m.subSeq == 0 && decide (index < 16)

/-- The sequence ID of a message is compared with the expected one of its entry, plane and direction, a gap is counted, and the next is expected
(R91). The first ID expected after reset is 0 (DESIGN CHOICE, log entry 40). -/
def State.seqCheck (s : State) (e : Option Nat) (m : EcpriMsg) : State :=
  match e with
  | none => s
  | some e =>
    let k := 2 * e + b2n m.cplane
    let s0 := if Sparse.get (fun _ => 0) s.fh.seqs k = m.seqId then s else s.bump (Cnt.fhEaxc e 12)
    { s0 with fh := { s0.fh with seqs := Sparse.set (fun _ => 0) s0.fh.seqs k ((m.seqId + 1) % 256) } }

/-- ECPRI_MESSAGE, R91, R100: a class-0 message that has arrived is judged, section by section. -/
def execEcpriMessage (m : EcpriMsg) (s : State) : Out :=
  if !s.portUp m.port then .next s
  else
    let (arr, index, s0) := s.takeInbox m
    let e? := s0.entryOf m.eaxc m.downlink
    if !headOk m index then .next (s0.forEach m.sections fun u x => u.rejectSec e? (secHdr m x) 5 m.downlink m.cplane 0)
    else .next ((s0.seqCheck e? m).forEach m.sections fun u x => u.takeSec arr m x)

/-- CPLANE_WINDOW_CLOSE, R102: the next downlink C-plane window of carrier `c` for which data waits closes. -/
def execCplaneWindowClose (c : Nat) (s : State) : Out :=
  let us := s.fh.data.filter (fun u => u.car == c && !u.judged)
  match us with
  | [] => .next s
  | u0 :: _ =>
    let close := fun (u : USec) => (s.window c u.air true true).2.toNat
    let t := us.foldl (fun m u => min m (close u)) (close u0)
    .next ((s.advanceTo (s.tickReaching t)).judgeCplane (fun u => u.car == c && close u == t))

/-! ### Egress -/

/-- Compress the words of a PRB (R98): the exponent and the mantissas; poisoned words are sent as zero (R108). -/
def compressPrb (comp : Nat × Nat) (ws : List Cx) : Nat × List (Int × Int) :=
  let vs := ws.map (fun w => if w.bad then ((0 : Int), (0 : Int)) else (w.i, w.q))
  let w := comp.2
  let fits := fun (e : Nat) => vs.all (fun (v : Int × Int) =>
    satN (roundShift v.1 (e + 8)) w == roundShift v.1 (e + 8) && satN (roundShift v.2 (e + 8)) w == roundShift v.2 (e + 8))
  let e := if comp.1 = 1 then ((List.range (17 - w)).find? fits).getD (16 - w) else 0
  (e, vs.map (fun (v : Int × Int) => (satN (roundShift v.1 (e + 8)) w, satN (roundShift v.2 (e + 8)) w)))

/-- Bytes of a PRB as sent (R107): block floating point has its exponent in a byte of its own. -/
def prbBytes (comp : Nat × Nat) : Nat := if comp.1 = 1 then 1 + 3 * comp.2 else 48

/-- PRBs that fit one frame of a port (R107): headers as O-RAN and Ethernet give them (PRESUMED, log entry 8). -/
def State.prbsPerFrame (s : State) (port : Nat) (dyn : Bool) (comp : Nat × Nat) : Nat :=
  let cfg := s.rd (Reg.FH_PORT_CFG port)
  let head := 18 + (if bit cfg 15 then (if bit cfg 14 then 48 else 28) else 0) + 8 + 4 + 4 + 2 * b2n dyn + 4 * b2n (bit cfg 16) + 4
  max 1 ((s.maxFrame port - head) / prbBytes comp)

/-- Cut a list into pieces of at most `n`; `fuel` bounds the pieces. -/
def cutAt {α : Type} (n : Nat) : Nat → List α → List (List α)
  | 0, l => if l.isEmpty then [] else [l]
  | k + 1, l => if l.isEmpty then [] else l.take n :: cutAt n k (l.drop n)

/-- The uplink U-plane message of some PRBs (R107): common header, eAxC ID and sequence ID, O-RAN header, section header, udCompHdr where the
entry names it in each section, the PRBs, and the CRC (layout PRESUMED, log entry 30). -/
def ulMessage (x : UlSec) (h : SecHdr) (seq start num : Nat) (dyn crc : Bool) (prbs : List (Nat × List (Int × Int))) : List Byte :=
  let (meth, w) := x.sec.comp
  let body := beBytes h.eaxc 2 ++ [BitVec.ofNat 8 seq, 0x80] ++
    packBits [(0, 1), (1, 3), (x.sec.filt, 4), (h.frameId, 8), (h.subframeId, 4), (h.slotId, 6), (h.symbolId, 6)] ++
    packBits [(h.sectionId, 12), (0, 2), (start, 10), (num, 8)] ++
    (if dyn then packBits [(w % 16, 4), (meth, 4), (0, 8)] else []) ++
    prbs.flatMap (fun (p : Nat × List (Int × Int)) => (if meth = 1 then packBits [(p.1, 8)] else []) ++
      packBits (p.2.flatMap (fun (v : Int × Int) => [(wrapN v.1 w, w), (wrapN v.2 w, w)])))
  [0x10, 0x00] ++ beBytes (body.length + 4 * b2n crc) 2 ++ body ++ (if crc then leBytes (toW (crc32c body)) else [])

/-- One frame of an uplink section (R107): its PRBs are compressed (R98) and it waits in class 0 of the port. `first`: it carries the first byte
of its section (R108). The first sequence ID after reset is 0 (DESIGN CHOICE, log entry 41). -/
def State.sendPiece (s : State) (port : Nat) (x : UlSec) (h : SecHdr) (first : Bool) (piece : List (Nat × List Cx)) : State :=
  let seg := ((s.ccOf h.eaxc).map Prod.snd).getD 0
  let seq := Sparse.get (fun _ => 0) s.fh.egrSeq h.eaxc
  let crc := s.rb (Reg.FH_PORT_CFG port) 16
  let msg := ulMessage x h seq ((piece.map Prod.fst).headD 0 - 1024 * seg) (if piece.length ≤ 255 then piece.length else 0) (s.eDyn x.sec.entry) crc
    (piece.map (fun (d : Nat × List Cx) => compressPrb x.sec.comp d.2))
  let bs := s.frameHead port msg ++ msg
  let bs := bs ++ List.replicate (60 - bs.length) 0
  ({ s with fh := { s.fh with egrSeq := Sparse.set (fun _ => 0) s.fh.egrSeq h.eaxc ((seq + 1) % 256) } } : State).queueFrame {
    port := port, cls := 0, at_ := s.tick, bytes := bs ++ frameFcs bs, sec := some (x.sec.entry, h)
    bound := if first then some (x.endAir + 45000 * nsU) else none }

/-- The pieces in which the PRBs of a section leave (R107): runs, cut so that no frame exceeds max_frame and numPrbu holds their number; more than
255 PRBs leave as one only where they reach the last PRB of the segment, which numPrbu 0 says. -/
def State.pieces (s : State) (port : Nat) (x : UlSec) : List (List (Nat × List Cx)) :=
  let cap := s.prbsPerFrame port (s.eDyn x.sec.entry) x.sec.comp
  let last := (s.carCfg x.sec.car |> cfgNprb) - 1
  (runsOf x.data.length x.data).flatMap fun r =>
    let stop := ((r.map Prod.fst).getLast?).getD 0
    if r.length ≤ cap ∧ (stop = last ∨ stop = 1023) then [r] else cutAt (min cap 255) r.length r

/-- One uplink section leaves on its entry's port: checked and compressed (R98, R108), or discarded where the port is down (R112). -/
def State.sendUl (s : State) (x : UlSec) : State :=
  let e := x.sec.entry
  let h := { x.sec.hdr with symbolId := x.sym }
  let port := s.egrPort e
  if !s.portUp port then s.rejectSec (some e) h 0x0D false false 0
  else
    let (s1, ws) := s.injectLists 0x07 false (x.data.map Prod.snd)
    let x := { x with data := (x.data.map Prod.fst).zip ws }
    let bad := (ws.map (fun w => (w.filter Cx.bad).length)).sum
    let s2 := if bad = 0 then s1 else s1.rejectSec (some e) h 0x0C false false (min bad 16383)
    s2.forEach ((s2.pieces port x).zipIdx) fun u (p : List (Nat × List Cx) × Nat) => u.sendPiece port x h (p.2 == 0) p.1

/-- Insert a section in the order of its first PRB. -/
def insertUl (x : UlSec) : List UlSec → List UlSec
  | [] => [x]
  | y :: rest => if (x.data.map Prod.fst).headD 0 < (y.data.map Prod.fst).headD 0 then x :: y :: rest else y :: insertUl x rest

/-- UL_EGRESS, R107, R108: the sections of the oldest symbol and entry that wait leave in ascending PRB order. -/
def execUlEgress (s : State) : Out :=
  match s.fh.ul with
  | [] => .next s
  | x :: _ =>
    let mine := fun (y : UlSec) => y.sec.entry == x.sec.entry && y.sym == x.sym && y.endAir == x.endAir
    let now := (s.fh.ul.filter mine).foldl (fun l y => insertUl y l) []
    .next (({ s with fh := { s.fh with ul := s.fh.ul.filter (fun y => !mine y) } } : State).forEach now State.sendUl)

/-- Bytes of the class-0 uplink share in use (R88): compressed sections that wait, and frames of class 0. -/
def State.ulUse (s : State) : Nat :=
  (s.fh.ul.map (fun x => x.data.length * prbBytes x.sec.comp)).sum + ((s.fh.egress.filter (fun f => f.cls == 0)).map (fun f => f.bytes.length)).sum

/-- Uplink words of the lead wait for egress; a section that the share cannot hold is dropped (R88, R102). -/
def State.toEgress (s : State) (x : UlSec) : State :=
  if shareSize 0 < s.ulUse + x.data.length * prbBytes x.sec.comp then
    (s.rejectSec (some x.sec.entry) { x.sec.hdr with symbolId := x.sym } 0x0B false false 0).pb Reg.FH_STATUS 12 true
  else { s with fh := { s.fh with ul := s.fh.ul ++ [x] } }

/-! ### Admission -/

/-- layers(c) of R105 for a configuration of the table: distinct layers of the valid downlink entries of kind 0 that map to the carrier. -/
def layersOf (key ent ccMap : Nat → Word) (fmt : Word) (c : Nat) : Nat :=
  let ls := (List.range 256).filterMap fun e =>
    let k := key e
    let m := ccMap (fld k 15 0 / 2 ^ fld fmt 3 0 % 2 ^ fld fmt 7 4)
    if bit k 31 && bit k 30 && fld (ent e) 31 30 == 0 && bit m 4 && fld m 1 0 == c then some (fld (ent e) 29 25) else none
  ((List.range 32).filter (fun l => ls.contains l)).length

/-- The downlink class-0 requirement of carriers in bytes times 10^6 (R105): each carrier's width w, layers, depth and symbols. -/
def needOf (cars : List CarVals) (layers depth : List Nat) : Nat :=
  ((List.range cars.length).map (fun c =>
    let cfg := (cars.getD c { cfg := 0, ofs := 0, adv := 0, f0 := 0 }).cfg
    if cfgDl cfg then
      let w := cfgNprb cfg * 96 * layers.getD c 0
      let perMs := symsPerSlot (cfgExt cfg) * 2 ^ cfgMu cfg
      w * (depth.getD c 0 * perMs + 1000000)
    else 0)).sum

/-- The largest depth in ns that a configuration would admit for every carrier alike (R105); 0xFFFFF when nothing limits it. -/
def winMax (cars : List CarVals) (layers : List Nat) : Nat :=
  let base := needOf cars layers [0, 0, 0, 0]
  let perNs := needOf cars layers [1, 1, 1, 1] - base
  if perNs = 0 then 0xFFFFF else min 0xFFFFF ((11534336 * 1000000 - base) / perNs)

/-- layers(c) of the staged table. -/
def State.stagedLayers (s : State) : List Nat :=
  (List.range 4).map (layersOf (fun e => s.srd (Reg.FH_EAXC_KEY e)) (fun e => s.srd (Reg.FH_EAXC_ENT e)) (fun k => s.srd (Reg.FH_CC_MAP k))
    (s.rd Reg.FH_EAXC_FMT))

/-! ### Commands -/

/-- FH_PORT_MODE: mode code 0-2. -/
def execFhPortMode (p : Pkt) (s : State) : Out :=
  .next (s.command 0x200 p (p.is 1 && decide (p.arg 0 < 3)) true true fun u => (u.setPortMode (p.arg 0), .ok []))

/-- FH_PORT_CFG: port, first template word and count in one word; FH_PORT_CFG value; template words. -/
def execFhPortCfg (p : Pkt) (s : State) : Out :=
  let w := wordAt p.params 0
  let n := fld w 2 0
  let first := fld w 11 8
  let count := fld w 19 16
  let ok := p.flags == 0 && decide (p.params.length = 2 + count ∧ count ≤ 12 ∧ first + count ≤ 16) && s.portPresent n
  .next (s.command 0x201 p ok true true fun u =>
    let u1 := u.poke (Reg.FH_PORT_CFG n) (wordAt p.params 1)
    (u1.forEach (List.range count) fun v k => v.poke (Reg.FH_HDR_TPL n (first + k)) (wordAt p.params (2 + k)), .ok []))

/-- FH_EAXC_SET: entry, key word, entry word, staged. -/
def execFhEaxcSet (p : Pkt) (s : State) : Out :=
  let ent := wordAt p.params 2
  let ok := p.is 3 && decide (p.arg 0 < 256 ∧ fld ent 31 30 ≠ 3 ∧ ¬(fld ent 31 30 = 1 ∧ 7 < fld ent 29 25))
  .next (s.command 0x202 p ok true true fun u =>
    ((u.stage (Reg.FH_EAXC_KEY (p.arg 0)) (wordAt p.params 1)).stage (Reg.FH_EAXC_ENT (p.arg 0)) ent, .ok []))

/-- FH_WINDOW_SET: carrier, close, depth, cp_lead, ul_cp_close in ns, staged. -/
def execFhWindowSet (p : Pkt) (s : State) : Out :=
  let c := p.arg 0
  let ok := p.is 5 && decide (c < 4) && (p.params.drop 1).all (fun w => decide (w.toNat ≤ 0xFFFFF))
  .next (s.command 0x203 p ok true true fun u =>
    ((((u.stage (Reg.FH_WIN_CLOSE c) (wordAt p.params 1)).stage (Reg.FH_WIN_DEPTH c) (wordAt p.params 2)).stage (Reg.FH_WIN_CPLEAD c)
      (wordAt p.params 3)).stage (Reg.FH_WIN_ULCP c) (wordAt p.params 4), .ok []))

/-- FH_CLASS_SET: flag bit 0 chooses FH_VID or FH_CC_MAP; index, value, staged. -/
def execFhClassSet (p : Pkt) (s : State) : Out :=
  let i := p.arg 0
  .next (s.command 0x204 p (decide (p.flags < 2 ∧ p.params.length = 2 ∧ i < 16)) true true fun u =>
    (u.stage (if p.flags = 0 then Reg.FH_VID i else Reg.FH_CC_MAP i) (wordAt p.params 1), .ok []))

/-- FH_WIN_QUERY: FH_WIN_MAX, and the need in bytes of the staged configuration (R105). -/
def execFhWinQuery (p : Pkt) (s : State) : Out :=
  .next (s.command 0x205 p (p.is 0) true true fun u =>
    let cars := (List.range 4).map u.carStaged
    let ls := u.stagedLayers
    let depth := (List.range 4).map (fun c => u.srf (Reg.FH_WIN_DEPTH c) 19 0)
    (u, .ok [toW (winMax cars ls), toW (needOf cars ls depth / 1000000)]))

/-- FH_FAIL_CFG: en, ring (host-bound, 16-31, R451). -/
def execFhFailCfg (p : Pkt) (s : State) : Out :=
  .next (s.command 0x206 p (p.is 2 && decide (p.arg 0 < 2 ∧ 16 ≤ p.arg 1 ∧ p.arg 1 < 32)) true true fun u =>
    (u.wr Reg.FH_FAIL_CFG (toW (p.arg 0 * 2 ^ 31 + (p.arg 1 - 16))), .ok [toW (u.rf Reg.FH_FAIL_SEQ 15 0)]))

/-- FH_WAKE_CFG: en, Ethertype, key. -/
def execFhWakeCfg (p : Pkt) (s : State) : Out :=
  .next (s.command 0x207 p (p.is 3 && decide (p.arg 0 < 2 ∧ p.arg 1 < 2 ^ 16)) true true fun u =>
    ((u.wr Reg.FH_WAKE_CFG (toW (p.arg 0 * 2 ^ 31 + p.arg 1))).wr Reg.FH_WAKE_KEY (wordAt p.params 2), .ok []))

end Sys2Proof.Machine
end

