-- ==== Sys2Proof/Machine/Jobs.lean ====
section
/-!
DEFINITION. Solver jobs: submission and release (R181, R190, R196), work items (R225, R226), deadlines (R183), failures of cores (R184)
and the solver group of Chiast commands (R190).
-/
namespace Sys2Proof.Machine

/-! ### Submission -/

/-- Whether the words W0-W3 describe a job that may be submitted (R178, R190, R196): a kernel that is loaded, a direction, and vector
slots that end by 28,671. -/
def State.jobOk (s : State) (w0 w2 w3 : Word) : Bool :=
  let k := fld w0 20 17
  let dir := fld w0 26 25
  let n := (fld w0 4 0 + 1) * (fld w3 10 0 + 1) * (if dir = 2 ∧ s.rb Reg.TR_CTRL 0 then 2 else 1)
  s.rb Reg.SOL_KERNEL_VALID k && decide (k ≠ 0) && decide (dir ≤ 2) && decide (fld w2 14 0 + n ≤ 28672)

/-- Submit the job in slot `j`, whose words have been written (R181). -/
def State.submitJob (s : State) (j : Nat) (ref : Option CmdRef) : State :=
  let s1 := ((s.wr (Reg.SOL_JOB_W7 j) (toW (2 ^ 28))).wr (Reg.SOL_JOB_W8 j) 0).wr (Reg.SOL_JOB_W9 j) 0
  let s2 := s1.setJob j { ref := ref }
  if s2.jobRel j then s2 else s2.releaseJob j

/-- A write to job-slot word `w` (R193, R196): discarded with slot_err while the slot is neither FREE nor final; on a package that is
not the lead it is discarded (R188). Writing go submits the job; a go that may not be submitted is discarded with slot_err. -/
def State.writeJob (s : State) (j w : Nat) (v : Word) : State :=
  if !s.isLead then s
  else if s.jobActive j then s.pb Reg.SOL_STATUS 4 true
  else
    let s1 := s.poke (Reg.SOL_JOB_W0 j + 4 * w) v
    if w = 0 ∧ bit v 31 then
      if s1.jobOk (s1.jobW j 0) (s1.jobW j 2) (s1.jobW j 3) then s1.submitJob j none else s1.pb Reg.SOL_STATUS 4 true
    else s1

/-- JOB_GO_WRITE. -/
def execJobGoWrite (j : Nat) (v : Word) (s : State) : Out :=
  .next (s.access (Reg.SOL_JOB_W0 j) fun s => if j < 64 then s.writeJob j 0 v else s)

/-- JOB_RELEASE, R181: action line 12 releases every PENDING job with rel = 1; a periodic job that is not yet PENDING misses it. -/
def execJobRelease (s : State) : Out :=
  match s.takeDue 12 with
  | none => .next s
  | some (d, s1) =>
    if s.commitFirst d.target then .next s else
    .next ((s1.advanceTo d.target).forEach (List.range 64) fun u j =>
      if !u.jobRel j then u
      else if u.jobState j = 1 then u.releaseJob j
      else if u.jobPeriodic j ∧ u.jobActive j then (u.pb Reg.SOL_STATUS 1 true).bump (Cnt.solJob j 3)
      else u)

/-! ### Work items -/

/-- Whether a job has an item that a core may take now: QUEUED or RUNNING, and not one that pauses at the running commit (R182). -/
def State.jobReady (s : State) (j : Nat) : Bool :=
  (s.jobState j == 2 || s.jobState j == 3) && !(s.jobOf j).todo.isEmpty && (s.jobHold j || !s.rb Reg.TR_STATUS 1)

/-- The head of the queue: the lowest prio, then the earliest release, then the lowest slot (R181). -/
def State.jobHead (s : State) : Option Nat :=
  ((List.range 64).filter s.jobReady).foldl (fun (best : Option Nat) j =>
    let key := fun k => fld (s.jobW k 0) 24 23 * 2 ^ 64 + (s.jobOf k).relTick
    match best with
    | none => some j
    | some b => if key j < key b then some j else some b) none

/-- The short time of a directory entry's last update. -/
def State.dirTime (s : State) (d : Nat) : Nat := (s.dirWord d 3).toNat + fld (s.dirWord d 4) 15 0 * 2 ^ 32

/-- The antennas that are available (R180): GL_PATH_AVAIL of this package, with its paths asleep left out (R539), and of every package in
reach as it last told; all of a package that has told nothing. -/
def State.availMask (s : State) : Nat :=
  let own := maskOf ((List.range 96).filter (fun p => decide (p < s.part.paths) && s.pathRuns p))
  let all : Nat := 2 ^ 96 - 1
  (List.range s.reach).foldl (fun m k =>
    let bits := if k = s.pkgNum ∨ s.reach = 1 then own
      else ((s.tb.peerAvail.find? (fun (x : Nat × Nat) => x.1 == k)).map Prod.snd).getD all
    m + bits * 2 ^ (96 * k)) 0

/-- An input fails at the start of its job (R187). -/
def State.failEarly (s : State) (j k reason : Nat) : State :=
  (s.setJob j { s.jobOf j with early := (s.jobOf j).early ++ [(k, reason)] }).failItem j k reason

/-- A job starts (R180, R187): it takes the availability mask, and its inputs with no channel or a stale one fail. -/
def State.startJob (s : State) (j : Nat) : State :=
  let x := s.jobOf j
  if x.started then s
  else
    let mask0 := s.availMask
    let mask := if bitN mask0 (s.rf Reg.CAL_CFG 15 9) then mask0 - 2 ^ s.rf Reg.CAL_CFG 15 9 else mask0
    let s1 := (s.setJob j { x with started := true, mask := mask }).setJobState j 3
    let first := fld (s1.jobW j 0) 15 5
    let maxAge := fld (s1.jobW j 1) 15 0
    let rel := shortOf (s1.timeAt x.relTick)
    s1.forEach (List.range (s1.jobInputs j)) fun u k =>
      let w0 := u.dirWord (first + k) 0
      if !bit w0 31 || fld (u.dirWord (first + k) 1) 31 30 != fld (u.jobW j 0) 22 21 then u.failEarly j k 3
      else
        let age := sext (rel + 2 ^ 48 - u.dirTime (first + k)) 48
        if maxAge ≠ 0 ∧ ((maxAge * 1000000 : Nat) : Int) < age then u.failEarly j k 4 else u

/-- The parameter block of a work item as slot and value, R226. -/
def State.paramBlock (s : State) (c j i : Nat) (reissued : Bool) : List (Nat × Nat) :=
  let w0 := (s.jobW j 0).toNat
  let w0s := if fld (s.jobW j 0) 26 25 = 2 ∧ !s.rb Reg.TR_CTRL 0 then (putFld (s.jobW j 0) 26 25 0).toNat else w0
  let first := fld (s.jobW j 2) 26 16
  let g := fld (s.jobW j 2) 31 28 + 1
  let nd := s.jobInputs j
  let intf := s.jobIntf j
  let mask := (s.jobOf j).mask
  let d0 := fld (s.jobW j 0) 15 5
  [(0, w0s), (1, (s.jobW j 1).toNat), (2, (s.jobW j 2).toNat), (3, (s.jobW j 3).toNat), (4, (s.jobW j 5).toNat),
    (5, (s.jobW j 6).toNat), (6, i), (7, first + i * g), (8, s.elements), (9, nd), (10, intf.length),
    (11, c + b2n reissued * 2 ^ 8 + s.pkgNum * 2 ^ 9)] ++
  (List.range 8).map (fun k => (0x0C + k, mask / 2 ^ (48 * k) % 2 ^ 48)) ++
  (List.range 32).flatMap (fun k => (List.range 8).map (fun w =>
    (0x20 + 8 * k + w, if k < nd then (s.dirWord (d0 + k) w).toNat else 0))) ++
  (List.range 31).flatMap (fun k => (List.range 8).map (fun w =>
    (0x120 + 8 * k + w, match intf[k]? with
      | some d => (s.dirWord d w).toNat
      | none => 0)))

/-- The entry bundle of a kernel (R229). That of kernels 1-3 is not stated: a free value below 0x0800. -/
def State.kernelEntry (s : State) (k : Nat) : Nat × State :=
  match Sparse.get (fun _ => none) s.sol.kernels k with
  | some x => (x.entry, s)
  | none =>
    let (n, s1) := s.drawNat
    (n % 0x800, s1)

/-- WORK_ITEM_START, R225, R226: core `c`, in service and idle, takes the first subband of the head of the queue. -/
def execWorkItemStart (c : Nat) (s : State) : Out :=
  let able := decide (c < 32) && s.domOn 6 && s.rb Reg.SOL_CTRL 31 && s.rb Reg.SOL_CORE_AVAIL c && (s.coreOf c).item.isNone && !s.quiet 4
  match s.jobHead with
  | none => .next s
  | some j =>
    if !able then .next s
    else
      let s1 := s.startJob j
      let x := s1.jobOf j
      match x.todo with
      | [] => .next s
      | i :: rest =>
        let again := x.second.contains i
        let s2 := s1.setJob j { x with todo := rest }
        let (entry, s3) := s2.kernelEntry (s2.jobKernel j)
        let old := s3.coreOf c
        let mem := (s3.paramBlock c j i again).foldl (fun m (e : Nat × Nat) =>
          Sparse.set (fun _ => {}) m e.1 (mkCtl false (sext e.2 48))) old.mem
        let s4 := s3.setCore c {
          item := some { job := j, sub := i, reissued := again, start := s3.tick, els := s3.elements }
          pc := entry, mem := mem, puts := old.puts, busy := old.busy }
        .next ((s4.pf (Reg.SOL_CORE_STAT c) 31 28 1).bump (Cnt.solCore c 0))

/-- WORK_ITEM_TIMEOUT, R184: the item of core `c` exceeds 2 ms. -/
def execWorkItemTimeout (c : Nat) (s : State) : Out :=
  match (s.coreOf c).item with
  | none => .next s
  | some i => .next (if c < 32 then (s.advanceTo (i.start + 3200000)).coreFail c 2 else s)

/-- JOB_DEADLINE, R183: the short time reaches the deadline of job `j` before it ends. -/
def execJobDeadline (j : Nat) (s : State) : Out :=
  if 64 ≤ j ∨ !s.jobActive j ∨ s.rb (Reg.SOL_JOB_W7 j) 27 then .next s
  else
    let target := (s.jobW j 4).toNat + fld (s.jobW j 5) 15 0 * 2 ^ 32
    let s1 := s.advanceTo (s.tickReaching (s.resolve target))
    if s.commitFirst s1.tick then .next s else
    let s2 := ((s1.pb (Reg.SOL_JOB_W7 j) 27 true).pb Reg.SOL_STATUS 2 true).bump (Cnt.solJob j 2)
    .next (if bit (s2.jobW j 0) 27 then s2.stopJob j 7 else s2)

/-- CASC_SLICE_TIMEOUT, R189: a slice or an estimate of subband `i` of job `j` has not arrived; its items fail with CASC. -/
def execCascSliceTimeout (j i : Nat) (s : State) : Out :=
  let x := s.jobOf j
  if 64 ≤ j ∨ s.reach = 1 ∨ !s.jobActive j then .next s
  else match x.remote.find? (fun (r : Nat × List (Nat × Nat)) => r.1 == i) with
    | some r =>
      let missing := (List.range (s.jobInputs j)).filter (fun k => !r.2.any (fun (e : Nat × Nat) => e.1 == k))
      let s1 := s.setJob j { x with remote := x.remote.filter (fun (y : Nat × List (Nat × Nat)) => y.1 ≠ i) }
      .next ((s1.forEach missing fun u k => u.failItem j k 8).tryComplete j)
    | none =>
      if i ∈ x.todo then .next (((s.setJob j { x with todo := x.todo.filter (· ≠ i) }).failAll j 8).subDone j i) else .next s

/-! ### Commands -/

/-- Whether an SRS entry's words are supported (R174, R195); an entry that is not valid always is. -/
def srsOk (w0 w1 w2 : Word) : Bool :=
  let comb := fld w0 24 23
  !bit w0 31 || (decide (fld w0 26 25 < 3 ∧ comb < 3 ∧ fld w0 22 20 < 2 * 2 ^ comb ∧ fld w0 19 16 < [8, 12, 6].getD comb 0 ∧
    fld w1 27 26 < 3 ∧ (fld w2 10 0 + 1) % 4 = 0))

/-- SOL_SRS_SET: entry, W0-W3, staged. -/
def execSolSrsSet (p : Pkt) (s : State) : Out :=
  let e := p.arg 0
  let ok := p.is 5 && decide (e < 256) && srsOk (wordAt p.params 1) (wordAt p.params 2) (wordAt p.params 3)
  .next (s.command 0x400 p ok true s.isLead fun u =>
    ((u.forEach (List.range 4) fun v w => v.stage (Reg.SOL_SRS_W0 e + 4 * w) (wordAt p.params (1 + w))).copyDown 0x400 p.params, .ok []))

/-- SOL_JOB_SUBMIT: slot or 0xFF for the lowest free one; W0-W6. -/
def execSolJobSubmit (p : Pkt) (s : State) : Out :=
  let ok := p.is 8 && decide (p.arg 0 < 64 ∨ p.arg 0 = 0xFF) && s.jobOk (wordAt p.params 1) (wordAt p.params 3) (wordAt p.params 4)
  .next (s.command 0x401 p ok true s.isLead fun u =>
    let slot := if p.arg 0 = 0xFF then (List.range 64).find? (fun j => u.jobState j == 0) else some (p.arg 0)
    match slot with
    | none => (u, .status stRESOURCE [])
    | some j =>
      if u.jobActive j then (u, .status stBUSY [])
      else
        let u1 := u.forEach (List.range 7) fun v w => v.poke (Reg.SOL_JOB_W0 j + 4 * w) (wordAt p.params (1 + w))
        ((u1.submitJob j (some (p.ref 0x401 j))).copyDown 0x401 (toW j :: p.params.drop 1), .accepted j []))

/-- Cancel a job (R191). -/
def State.cancelJob (s : State) (j : Nat) : State :=
  if s.jobActive j then s.stopJob j 8 else if 5 ≤ s.jobState j then s.setJobState j 0 else s

/-- SOL_JOB_CANCEL, R191: the reply gives the state that results. -/
def execSolJobCancel (p : Pkt) (s : State) : Out :=
  let j := p.arg 0
  .next (s.command 0x402 p (p.is 1 && decide (j < 64)) true s.isLead fun u =>
    let u1 := u.cancelJob j
    (u1.copyDown 0x402 p.params, .ok [toW (u1.jobState j)]))

/-- SOL_JOB_STATUS: W7, W8. -/
def execSolJobStatus (p : Pkt) (s : State) : Out :=
  let j := p.arg 0
  .next (s.command 0x403 p (p.is 1 && decide (j < 64)) true true fun u => (u, .ok [u.jobW j 7, u.jobW j 8]))

/-- SOL_KERNEL_LOAD: kernel 8-15, LOAD ring, length in bytes (R190, R229, R463). -/
def execSolKernelLoad (p : Pkt) (s : State) : Out :=
  let k := p.arg 0
  let ok := p.is 3 && decide (8 ≤ k ∧ k ≤ 15 ∧ 0 < p.arg 2) && s.loadRing (p.arg 1)
  .next (s.command 0x404 p ok true true fun u =>
    if u.loadBusy (p.arg 1) || u.host.accepted.any (fun r => r.op == 0xA40 || r.op == 0x404) || (List.range 64).any (fun j => u.jobActive j && u.jobKernel j == k) then (u, .status stBUSY [])
    else (u.startLoad (p.arg 1) (p.ref 0x404 k) (p.arg 2) [k], .accepted k []))

/-- A core is taken out of service by command: its item is reissued from the start (R184). -/
def State.takeOut (s : State) (c : Nat) : State :=
  let s1 := match (s.coreOf c).item with
    | none => s
    | some i =>
      let s1 := s.dropItem c i
      s1.setJob i.job { s1.jobOf i.job with todo := i.sub :: (s1.jobOf i.job).todo }
  (s1.pb Reg.SOL_CORE_AVAIL c false).pf (Reg.SOL_CORE_STAT c) 31 28 3

/-- SOL_CORE_CTRL, R184, R190: core; 0 take out, 1 self-test and return. `pass` is the self-test's outcome; a core that returns has its
data memory cleared (R225). -/
def execSolCoreCtrl (p : Pkt) (pass : Bool) (s : State) : Out :=
  let c := p.arg 0
  .next (s.command 0x405 p (p.is 2 && decide (c < 32 ∧ p.arg 1 < 2)) true true fun u =>
    let u1 := u.takeOut c
    if p.arg 1 = 0 then (u1, .ok [u1.rd Reg.SOL_CORE_AVAIL])
    else if pass then
      let u2 := (u1.setCore c { u1.coreOf c with mem := [] }).pb Reg.SOL_CORE_AVAIL c true
      let u3 := u2.pf (Reg.SOL_CORE_STAT c) 31 28 0
      (u3, .ok [u3.rd Reg.SOL_CORE_AVAIL])
    else (u1, .status stITEM [u1.rd Reg.SOL_CORE_AVAIL]))

/-- SOL_CASC_MODE: 0 gather, 1 split. -/
def execSolCascMode (p : Pkt) (s : State) : Out :=
  .next (s.command 0x406 p (p.is 1 && decide (p.arg 0 < 2)) true s.isLead fun u =>
    ((u.pb Reg.SOL_CTRL 8 (p.arg 0 == 1)).copyDown 0x406 p.params, .ok []))

/-- SOL_CH_CLEAR: first directory entry, count. -/
def execSolChClear (p : Pkt) (s : State) : Out :=
  .next (s.command 0x407 p (p.is 2 && decide (p.arg 0 + p.arg 1 ≤ 2048)) true true fun u =>
    (u.forEach (List.range (32 * p.arg 1)) fun v k => v.setByte (32 * p.arg 0 + k) 0, .ok []))

end Sys2Proof.Machine
end

