-- ==== Sys2Proof/Machine/CelRead.lean ====
section
/-!
DEFINITION. What the other blocks see of the Cellar: the newest record or complete set of a type and instance (R570, R573), and an
order for a record or set (R567, R571, R575).
-/
namespace Sys2Proof.Machine

/-- The newest of a list of records by sequence number. -/
def newestRec (l : List CelRec) : Option CelRec :=
  l.foldl (fun a r => match a with
    | some b => if b.seq < r.seq then some r else some b
    | none => some r) none

/-- The sequence number of chunk 0 of each complete set of a type and instance: its chunks carry consecutive numbers, from chunk 0 to
the one marked last (R573). -/
def State.setChunks (s : State) (kind inst seq0 : Nat) : List CelRec :=
  let mine := s.cel.recs.filter (fun r => r.kind = kind ∧ r.inst = inst)
  let from0 := mine.filter (fun r => r.seq = seq0 + r.chunk)
  match from0.find? (fun r => r.last) with
  | some l =>
    let cs := (List.range (l.chunk + 1)).filterMap (fun i => from0.find? (fun r => r.chunk == i))
    if cs.length = l.chunk + 1 then cs else []
  | none => []

/-- The payload words of the newest complete set of a type and instance; the last chunk's first two words (the count and the
CRC) are not part of it. -/
def State.celSet (s : State) (kind inst : Nat) : Option (List Word) :=
  let heads := s.cel.recs.filter (fun r => r.kind = kind ∧ r.inst = inst ∧ r.chunk = 0 ∧ s.setChunks kind inst r.seq ≠ [])
  match newestRec heads with
  | some h =>
    let cs := s.setChunks kind inst h.seq
    some (cs.map (fun r => if r.last then r.payload.drop 2 else r.payload)).flatten
  | none => none

/-- The newest record of a state type and instance. -/
def State.celState (s : State) (kind inst : Nat) : Option (List Word) :=
  (newestRec (s.cel.recs.filter (fun r => r.kind = kind ∧ r.inst = inst))).map (·.payload)

/-- Whether a record is a log record (R572). -/
def isLog (kind : Nat) : Bool := decide (0x30 ≤ kind ∧ kind ≤ 0x33)

/-- The log floor: the lowest log sequence number kept (R572, type 0x04). -/
def State.logFloor (s : State) : Nat :=
  match s.celState 0x04 0 with
  | some ws => (wordAt ws 0).toNat + (wordAt ws 1).toNat * 2 ^ 32
  | none => 0

/-- The log records kept: above the floor and among the newest 4,096 (R570). A floor clears what lies below it. -/
def State.logRecs (s : State) : List CelRec :=
  let l := s.cel.recs.filter (fun r => isLog r.kind && decide (s.logFloor ≤ r.seq))
  l.drop (l.length - 4096)

/-- Whether a record is live, R570. -/
def State.liveRec (s : State) (r : CelRec) : Bool :=
  if isLog r.kind then s.logRecs.any (fun x => x.seq == r.seq)
  else if r.kind = 0 then false
  else if r.kind = 0x02 ∨ 0x10 ≤ r.kind then
    let heads := s.cel.recs.filter (fun x => x.kind = r.kind ∧ x.inst = r.inst ∧ x.chunk = 0 ∧ s.setChunks x.kind x.inst x.seq ≠ [])
    match newestRec heads with
    | some h => decide (r.seq = h.seq + r.chunk ∧ r.chunk < (s.setChunks r.kind r.inst h.seq).length)
    | none => false
  else match newestRec (s.cel.recs.filter (fun x => x.kind = r.kind ∧ x.inst = r.inst)) with
    | some h => h.seq == r.seq
    | none => false

/-- Bytes that some records take. -/
def recBytes (l : List CelRec) : Nat := (l.map (fun r => 16 * r.n)).sum

/-- Live data in bytes. -/
def State.liveBytes (s : State) : Nat := recBytes (s.cel.recs.filter s.liveRec)

/-- Payload words of a record at most (R566): 232 bytes. -/
def recWordsMax : Nat := 58

/-- Chunks of a set of `n` payload words (the last begins with two words of its own), R573. -/
def setChunkCount (n : Nat) : Nat := (n + 2 + recWordsMax - 1) / recWordsMax

/-- Bytes that a set of `n` payload words takes (R566): whole chunks of 256, and the last. -/
def setBytes (n : Nat) : Nat :=
  let c := setChunkCount n
  256 * (c - 1) + (24 + 4 * (n + 2 - recWordsMax * (c - 1)) + 15) / 16 * 16

/-- Whether a type and instance is still being written for an accepted command (R575). -/
def State.celWriting (s : State) (kind inst : Nat) : Bool :=
  s.celOrders.any (fun o => o.kind == kind && o.inst == inst && o.ref.isSome)

/-- The state of the Cellar in CEL_STAT (R590): 0 MOUNTING, 1 READY, 2 READ_ONLY, 3 FAILED. -/
def State.celMode (s : State) : Nat := s.rf Reg.CEL_STAT 31 30

/-- Why a write of `bytes` of a type is refused (R571, R575), when it is: what it supersedes, the records of the type and instances, is live
no more. -/
def State.celRefuse (s : State) (kind : Nat) (insts : List Nat) (bytes : Nat) : Option Nat :=
  if s.celMode ≠ 1 then some stITEM
  else if 7340032 < recBytes (s.cel.recs.filter (fun r => s.liveRec r && !(r.kind == kind && insts.contains r.inst))) + bytes then some stRESOURCE
  else none

/-- A write refused for space sets `full` (R571). -/
def State.celFull (s : State) (status : Nat) : State := if status = stRESOURCE then s.pb Reg.CEL_STAT 2 true else s

/-- Order a set for the Cellar. -/
def State.orderSet (s : State) (kind inst : Nat) (payload : List Word) (ref : Option CmdRef) : State :=
  { s with celOrders := s.celOrders ++ [{ kind := kind, inst := inst, payload := payload, set := true, ref := ref }] }

end Sys2Proof.Machine
end

