-- ==== Sys2Proof/Machine/Rf.lean ====
section
/-!
DEFINITION. The records of the RF units (Press loops, cancellers, observation receivers, ADCs, gain control) and what their
registers show, shared by the transmit, Press and receive families.
-/
namespace Sys2Proof.Machine

/-- Whether the tile of a path or row is powered (R540). -/
def State.pathOn (s : State) (p : Nat) : Bool := s.domOn (8 + p / 24)
def State.rowOn (s : State) (r : Nat) : Bool := s.domOn (8 + r / 6)

/-- Press and canceller loop states (R301). -/
def State.prState (s : State) (p : Nat) : Nat := s.rf (Reg.PR_STAT p) 31 28
def State.setPrState (s : State) (p v : Nat) : State := s.pf (Reg.PR_STAT p) 31 28 v
def State.canState (s : State) (p : Nat) : Nat := s.rf (Reg.CAN_STAT p) 31 28
def State.setCanState (s : State) (p v : Nat) : State := s.pf (Reg.CAN_STAT p) 31 28 v

/-- ADCs by number: path p at p, the ORX of row r at 96 + r; their registers (R338, R339) and counters (R333). -/
def adcCfg (a : Nat) : Nat := if a < 96 then Reg.ADC_CAL_CFG a else Reg.ORX_ADC_CFG (a - 96)
def adcStat (a : Nat) : Nat := if a < 96 then Reg.ADC_STAT a else Reg.ORX_ADC_STAT (a - 96)
def adcEvt (a : Nat) : Nat := if a < 96 then Reg.ADC_EVT a else Reg.ORX_ADC_EVT (a - 96)
def adcCnt (a i : Nat) : Nat := if a < 96 then Cnt.rxAdc a i else Cnt.orxAdc (a - 96) i
def adcTile (a : Nat) : Nat := if a < 96 then a / 24 else (a - 96) / 6
def State.adcPresent (s : State) (a : Nat) : Bool :=
  (if a < 96 then decide (a < s.part.paths) else decide (a - 96 < s.part.rows)) && s.domOn (8 + adcTile a)
/-- Whether the unit that an ADC serves is available. -/
def State.adcAvail (s : State) (a : Nat) : Bool := if a < 96 then s.pathAvail a else s.rowAvail (a - 96)

/-- End the capture of a row's ORX as discarded (R277): counted for its path and, when it is aborted, for the row. -/
def State.endCapture (s : State) (r : Nat) : State :=
  let x := s.orxOf r
  match x.cap with
  | none => s
  | some _ => (s.setOrx r { x with cap := none }).pf (Reg.ORX_STAT r) 29 28 0

/-- A capture that is discarded is counted at its path (R277, R298). -/
def State.countDiscard (s : State) (c : OrxCap) : State :=
  if c.kind = 0 then s.bump (Cnt.prPath c.path 6)
  else if c.kind = 1 then s.bump (Cnt.canPath c.path 4)
  else s

/-- Abort the capture of a row's ORX (R278): discarded and counted as aborted; a host capture's item is withdrawn and its
command fails (R407). -/
def State.abortCapture (s : State) (r : Nat) : State :=
  match (s.orxOf r).cap with
  | none => s
  | some c =>
    let s1 := (((s.countDiscard c).endCapture r).bump (Cnt.orxRow r 4)).pb (Reg.ORX_STAT r) 26 true
    if c.kind = 3 then
      s1.forEach (s1.refsOf 0x60D r) fun u ref =>
        let u1 := u.forEach ((List.range 32).filter (fun n => (u.ringOf n).items.any (fun i => i.ref == some ref))) fun v n =>
          (v.setRing n { v.ringOf n with items := (v.ringOf n).items.filter (fun i => i.ref ≠ some ref) }).showWaiting n
        u1.finish ref stITEM []
    else s1

/-- Mark the captures in progress that involve a path as to be discarded (R277). -/
def State.spoilCaptures (s : State) (p : Nat) : State :=
  s.forEach ([p / 4] ++ (if p % 4 = 0 then [(p - 1) / 4] else []) ++ (if p % 4 = 3 then [(p + 1) / 4] else [])) fun u r =>
    let x := u.orxOf r
    match x.cap with
    | some c => if c.path = p ∨ p ∈ neighbours c.path ∧ c.kind = 1 then u.setOrx r { x with cap := some { c with discard := true } } else u
    | none => u

/-- The coefficient words of a path in the live registers (R273). -/
def State.liveCoefs (s : State) (p : Nat) : List Word :=
  (List.range 128).map (fun i => s.rd (Reg.PR_COEF_LO p 0 + 4 * i))

/-- The tap words of a canceller in the live registers. -/
def State.liveTaps (s : State) (p : Nat) : List Word :=
  (List.range 256).map (fun i => s.rd (Reg.CAN_TAP_LO p 0 + 4 * i))

/-- Write a list of words to consecutive registers. -/
def State.wrList (s : State) (a : Nat) (ws : List Word) : State :=
  s.forEach (List.range ws.length) fun u i => u.wr (a + 4 * i) (wordAt ws i)

/-- The last-good set of a path in PR_GOOD (R283), and the last-good taps in CAN_GOOD (R293). -/
def State.goodCoefs (s : State) (p : Nat) : List Word :=
  (List.range 128).map (fun i => s.rd (Reg.PR_GOOD_LO p 0 + 4 * i))
def State.goodTaps (s : State) (p : Nat) : List Word :=
  (List.range 256).map (fun i => s.rd (Reg.CAN_GOOD_LO p 0 + 4 * i))

/-- Place a set in the adapted pending latch of a path (R273). -/
def State.pendCoefs (s : State) (p : Nat) (ws : List Word) : State :=
  (s.setPr p { s.prOf p with adapted := some ws }).pb (Reg.PR_STAT p) 23 true

/-- Place taps in the canceller's pending latch. -/
def State.pendTaps (s : State) (p : Nat) (ws : List Word) : State :=
  (s.setCan p { s.canOf p with adapted := some ws }).pb (Reg.CAN_STAT p) 23 true

/-- The Press loop of a path begins anew in ACQUIRE (R279), or OFF when adaptation is not enabled. -/
def State.restartPress (s : State) (p : Nat) : State :=
  let s1 := s.setPr p { s.prOf p with
    caps := 0, judge := false, rises := 0, badCaps := 0, setCaps := 0, setGood := true, ready := false, holdEnd := none }
  s1.setPrState p (if s.rb (Reg.PR_ADAPT p) 31 then 1 else 0)

/-- The canceller of a path begins anew in FIT (R290), or OFF when fitting is not enabled. -/
def State.restartCan (s : State) (p : Nat) : State :=
  let s1 := s.setCan p { s.canOf p with caps := 0, setCaps := 0, setGood := true, lowRun := 0, dropRun := 0, ready := false, holdEnd := none }
  s1.setCanState p (if s.rb (Reg.CAN_ADAPT p) 31 then 1 else 0)

end Sys2Proof.Machine
end

