-- ==== Sys2Proof/Machine/Feed.lean ====
section
/-!
DEFINITION. ADC codes that commands bring run through the receive chain of their path (R304, R305): the fast detector (R318), the power
measurement (R319), the output detectors (R320), and the counters of every stage (R298, R333).
-/
namespace Sys2Proof.Machine

def State.feedOf (s : State) (p : Nat) : RxFeed := Sparse.get (fun _ => {}) s.air.feed p
def State.setFeed (s : State) (p : Nat) (f : RxFeed) : State :=
  { s with air := { s.air with feed := Sparse.set (fun _ => {}) s.air.feed p f } }

/-- The fast detector's record since the last read (R318, RX_FAST): clipped blocks, and the highest coarse power in -dBFS. -/
def State.fastDetect (s : State) (p blocks power : Nat) : State :=
  let w := s.rd (Reg.RX_FAST p)
  s.wr (Reg.RX_FAST p) (toW (min (fld w 15 8) (power % 256) * 256 + min 255 (fld w 7 0 + blocks)))

/-- A path enters overload (R318); an SBFD capture of the path is discarded (R277). -/
def State.enterOverload (s : State) (p : Nat) : State :=
  let s1 := ((s.pb (Reg.RX_STATUS p) 7 true).pb (Reg.RX_STATUS p) 6 true).bump (Cnt.rxPath p 1)
  let s2 := (s1.setAgc p { s1.agcOf p with overload := true }).setAdc p { s1.adcOf p with ovlTick := s1.tick }
  let x := s2.orxOf (p / 4)
  let s3 := match x.cap with
    | some c => if c.kind = 1 ∧ c.path = p then s2.setOrx (p / 4) { x with cap := some { c with discard := true } } else s2
    | none => s2
  if s3.rb (Reg.RX_CTRL p) 3 then s3.tileEvent (p / 24) 0x0E (p / 24) false (toW p) else s3

/-- A path leaves overload (R318). A timeout of R312 that the overload held begins again. -/
def State.leaveOverload (s : State) (p : Nat) : State :=
  let x := s.adcOf p
  let held := x.ovlTick ≤ x.timeoutFrom ∧ x.timeoutFrom + 4 * (max 1 (s.rf (adcCfg p) 7 0) * 1600000) ≤ s.tick
  (s.pb (Reg.RX_STATUS p) 7 false).setAdc p { x with ovlEnd := s.tick, timeoutFrom := if held then s.tick else x.timeoutFrom }

/-- A clipped code (R305). -/
def isClip (c : Int) : Bool := c == 2047 || c == -2048

/-- Block `b` of sixteen codes of a path has been sampled (R318); every fourth one ends a block of the coarse power, in -dBFS of a tone. -/
def State.fastBlock (s : State) (p : Nat) (b : Nat) : State :=
  let code := fun (k : Nat) => (s.adcAt p (k : Int)).1
  let cs := (List.range 16).map (fun i => code (16 * b + i))
  let clips := (cs.filter isClip).length
  let end_ := (16 * (b + 1) + 4) / 5
  let f := s.feedOf p
  let blocks := (f.blocks ++ [decide (0 < clips)]).drop (f.blocks.length - 3)
  let s1 := (s.setFeed p { f with blocks := blocks, lastClip := if 0 < clips then end_ else f.lastClip }).bumpBy (Cnt.rxPath p 0) clips
  let sq := if b % 4 = 3 then ((List.range 64).map (fun i => (code (16 * (b - 3) + i) * code (16 * (b - 3) + i)).toNat)).sum else 0
  let s2 := if b % 4 = 3 ∧ 0 < sq then s1.fastDetect p (b2n (decide (0 < clips))) (clampN (logRound 10 (64 * 2 ^ 21) sq).toNat 0 255)
    else s1.fastDetect p (b2n (decide (0 < clips))) 255
  let ovl := s2.rb (Reg.RX_STATUS p) 7
  if !ovl ∧ clampN (s2.rf (Reg.RX_CTRL p) 6 4) 1 4 ≤ (blocks.filter id).length then s2.enterOverload p
  else if ovl ∧ clips = 0 ∧ f.lastClip + 1600 ≤ end_ then s2.leaveOverload p
  else s2

/-- The envelope of a path takes a value (units -0.25 dBFS): a rise through env_thr is an event (R320). -/
def State.envelope (s : State) (p e : Nat) : State :=
  let thr := s.rf (Reg.RX_DET_CFG p) 7 0
  let rose := decide (thr < s.rf (Reg.RX_ENV p) 15 0 ∧ e % 2 ^ 16 ≤ thr)
  let s1 := s.pf (Reg.RX_ENV p) 15 0 e
  if rose then
    ((s1.pb (Reg.RX_STATUS p) 5 true).bump (Cnt.rxPath p 7)).tileEvent (p / 24) 0x0F (p / 24) false (toW p)
  else s1

/-- The next value of the envelope e of a path, in 2^-16, after a sample of magnitude `m` in 2^-16 (R320). -/
def envNext (cfg : Word) (e m : Nat) : Nat :=
  if e < m then e + (m - e) / 2 ^ fld cfg 15 12 else e - (e - m) / 2 ^ fld cfg 11 8

/-- A magnitude in 2^-16 of a component, in units of -0.25 dBFS (R320). -/
def magDb (e : Nat) : Nat := if e = 0 then 0xFFFF else clampN (logRound 80 (2 ^ 39) e).toNat 0 0xFFFF

/-- The detectors take one sample of the output (R320). -/
def State.detect (s : State) (p : Nat) (x : Cx) : State :=
  if x.bad then s
  else
    let f := s.feedOf p
    let e := envNext (s.rd (Reg.RX_DET_CFG p)) f.env (isqrt (x.power * 2 ^ 32))
    let s1 := s.setFeed p { f with env := e, peak := max f.peak x.power, sq := f.sq + x.power, n := f.n + 1 }
    if magDb e = magDb f.env then s1 else s1.envelope p (magDb e)

/-- The resampler's samples of a tick: their saturations, and their share of the power measurement (R319). -/
def State.takePower (s : State) (p : Nat) (t : Int) : State :=
  let heard := (s.rxAt p t).heard
  s.forEach [2 * t, 2 * t + 1] fun u n =>
    let r := u.resampleAt p n
    let f := u.feedOf p
    let u1 := u.bumpBy (Cnt.rxPath p 2) r.2
    if heard && !r.1.bad then u1.setFeed p { f with pwr := f.pwr + r.1.power, pwrN := f.pwrN + 1 } else u1

/-- The later stages of a tick: the saturations of subtraction, gain, decimation and link, the poisoned sources and words, and the detectors
(R289, R305, R314, R320). -/
def State.takeTick (s : State) (p : Nat) (t : Int) : State :=
  let ns := [2 * t, 2 * t + 1]
  let d : Int := (s.linkTicks p : Int)
  let s1 := s.bumpBy (Cnt.canPath p 5) ((ns.map (fun n => (s.subtractAt p n).2)).sum)
  let s2 := s1.bumpBy (Cnt.canPath p 6) ((ns.map (s.badSources p)).sum)
  let s3 := s2.bumpBy (Cnt.rxPath p 3) ((ns.map (fun n => (s.rxGainAt p n).2)).sum)
  let stages := (List.range (s.rxStages p)).filter (fun i => t % ((2 ^ i : Nat) : Int) == 0)
  let s4 := s3.bumpBy (Cnt.rxPath p 4) ((stages.map (fun i => (s.decimAt p (i + 1) (t / ((2 ^ i : Nat) : Int))).2)).sum)
  if t % d = 0 then
    let w := s.rxWord p (t / d)
    let s5 := (s4.bumpBy (Cnt.rxPath p 5) w.2).bumpBy (Cnt.rxPath p 6) (b2n w.1.bad)
    if (s.rxAt p t).heard then s5.detect p (s.decimAt p (s.rxStages p) (t / d)).1 else s5
  else s4

/-- The ticks whose samples a feed decides, at a stage that looks `lag` ticks ahead: those of its codes, which begin at `start`, and after a
gap the end of the codes before. -/
def newTicks (fed start now lag : Nat) : List Int :=
  let run := fun (a b : Int) => (List.range (b - a).toNat).map (fun i => a + (i : Int))
  let tail := if fed = 0 then [] else run ((fed : Int) - lag) (min ((fed : Int) + lag) ((start : Int) - lag))
  tail ++ run ((start : Int) - lag) ((now : Int) - lag)

/-- ADC codes of a path up to now (R304): the last code is the one sampled before this tick; those of ticks already brought are dropped.
What the chain makes of them is measured and counted. Codes that no command brings are not seen (DESIGN CHOICE, log entry 53). -/
def State.feed (s : State) (p : Nat) (codes : List Int) : State :=
  let f := s.feedOf p
  let ticks := min s.tick (codes.length / 5)
  let start := max f.fed (s.tick - ticks)
  if s.tick ≤ start ∨ s.part.paths ≤ p ∨ !s.pathOn p then s
  else
    let cs := (codes.drop (codes.length - 5 * (s.tick - start))).map (fun c => satN c 12)
    let s0 := s.note
    let s1 := s0.setFeed p { f with
      fed := s.tick, chunks := (start, cs) :: f.chunks, blocks := if start = f.fed then f.blocks else [] }
    let b0 := if start = f.fed then 5 * start / 16 else (5 * start + 15) / 16
    let s2 := s1.forEach ((List.range (5 * s.tick / 16 - b0)).map (b0 + ·)) fun u b => u.fastBlock p b
    let s3 := s2.forEach (newTicks f.fed start s.tick 8) fun u t => u.takePower p t
    s3.forEach (newTicks f.fed start s.tick airLag) fun u t => u.takeTick p t

/-- Codes of every path, by path. -/
def State.feedAll (s : State) (codes : List (List Int)) : State :=
  s.forEach codes.zipIdx fun u (x : List Int × Nat) => if x.1.isEmpty then u else u.feed x.2 x.1

end Sys2Proof.Machine
end

