-- ==== Sys2Proof/Machine/Fit.lean ====
section
/-!
DEFINITION. Least squares: Hermitian systems solved exactly (R186, R280, R290), inner products over a capture with a weight in frequency
(R280), powers and angles of measured responses (R279, R293, R347).
-/
namespace Sys2Proof.Machine

/-! ### Hermitian systems -/

/-- Eliminate column `j` of every row but row `j`, without fractions: each row is multiplied by the pivot and divided by the pivot before it,
which divides it exactly. -/
def eliminate (rows : List (List Cx)) (j : Nat) (prev : Int) : List (List Cx) :=
  let p := rows.getD j []
  let d := p.getD j cx0
  rows.zipIdx.map (fun (r : List Cx × Nat) =>
    if r.2 = j then r.1
    else (r.1.zip p).map (fun (x : Cx × Cx) =>
      let v := cxSub (cxMul x.1 d) (cxMul (r.1.getD j cx0) x.2)
      { v with i := v.i / prev, q := v.q / prev }))

/-- Gauss-Jordan elimination of the first `n` columns, and whether every pivot was positive (R185). -/
def gauss (n : Nat) (rows : List (List Cx)) : List (List Cx) × Bool :=
  let r := (List.range n).foldl (fun (a : List (List Cx) × Bool × Int) j =>
    let d := ((a.1.getD j []).getD j cx0).i
    (eliminate a.1 j a.2.2, a.2.1 && decide (0 < d), d)) (rows, true, 1)
  (r.1, r.2.1)

/-- The solution of the system with matrix `a` and right side `b`: each unknown as a numerator and its divisor; none when a pivot is not
positive. -/
def solve (a : List (List Cx)) (b : List Cx) : Option (List (Cx × Nat)) :=
  let n := b.length
  let (rows, ok) := gauss n ((a.zip b).map (fun (r : List Cx × Cx) => r.1 ++ [r.2]))
  if ok then some (rows.zipIdx.map (fun (r : List Cx × Nat) => (r.1.getD n cx0, (r.1.getD r.2 cx0).i.toNat))) else none

/-! ### Inner products over a capture -/

/-- The sum of conj(u) v over a capture; with a weight by frequency bin in units of 2^-20, through the transforms (R280). -/
def innerW (w : Option (List Nat)) (u v : List Cx) : Cx :=
  match w with
  | none => cxDot ((u.map cxConj).zip v)
  | some ws =>
    let n := ws.length
    cxRound (140 + Nat.log2 n) (cxSum (ws.zipIdx.map (fun (f : Nat × Nat) =>
      let p := cxMul (cxConj (dft n u (f.2 : Int))) (dft n v (f.2 : Int))
      { p with i := p.i * (f.1 : Int), q := p.q * (f.1 : Int) })))

/-- The weight of an error inside an uplink subband and its guard, in units of 2^-20: ul_wt x 3 dB (R280, R303). -/
def ulWeight (ul_wt : Nat) : Nat := [1048576, 2092184, 4174456, 8329135, 16618810, 33158885, 66160673].getD ul_wt 66160673

/-- The frequency of bin `f` of a capture of `n` samples at 3.2 GS/s, in units of 3.2 GHz / n about the path centre. -/
def binFreq (n f : Nat) : Int := if 2 * f < n then (f : Int) else (f : Int) - (n : Int)

/-- Whether bin `f` lies from `lo` kHz up to `hi` kHz of the path centre. -/
def binIn (n f : Nat) (lo hi : Int) : Bool :=
  decide (lo * (n : Int) ≤ binFreq n f * 3200000) && decide (binFreq n f * 3200000 < hi * (n : Int))

/-! ### A least-squares fit, R280 -/

/-- The normal equations of a fit: the matrix, the right side, and the divisor that all of it shares. -/
def addFit (x y : Fit) : Fit :=
  if x.b = [] then y
  else {
    a := (x.a.zip y.a).map (fun (r : List Cx × List Cx) => (r.1.zip r.2).map (fun (e : Cx × Cx) => cxAdd e.1 e.2))
    b := (x.b.zip y.b).map (fun (e : Cx × Cx) =>
      cxAdd { i := e.1.i * (y.m : Int), q := e.1.q * (y.m : Int) } { i := e.2.i * (x.m : Int), q := e.2.q * (x.m : Int) })
    m := x.m * y.m }

/-- The normal equations of one capture: `cols` are the columns of the matrix of terms, `err` the error times `m`. -/
def captureFit (w : Option (List Nat)) (cols : List (List Cx)) (err : List Cx) (m : Nat) : Fit := {
  a := cols.map (fun u => cols.map (fun v => innerW w u v))
  b := cols.map (fun u => innerW w u err)
  m := m }

/-- The solution of (A + lambda I) d = b, lambda = trace(A) / 64 x 2^-lam (R280), each unknown as a numerator and its divisor; zeros when the
equations are singular. -/
def Fit.solution (x : Fit) (lam : Nat) : List (Cx × Nat) :=
  let tr := (x.a.zipIdx.map (fun (r : List Cx × Nat) => (r.1.getD r.2 cx0).i)).sum
  let k : Int := 64 * 2 ^ lam
  let a := x.a.zipIdx.map (fun (r : List Cx × Nat) => r.1.zipIdx.map (fun (e : Cx × Nat) =>
    ({ i := k * e.1.i + (if e.2 = r.2 then tr else 0), q := k * e.1.q } : Cx)))
  let b := x.b.map (fun e => ({ i := k * e.i, q := k * e.q } : Cx))
  match solve a b with
  | some xs => xs.map (fun (v : Cx × Nat) => (v.1, v.2 * x.m))
  | none => x.b.map (fun _ => (cx0, 1))

/-! ### Measures -/

/-- The sum of powers of a list of samples. -/
def powerSum (l : List Cx) : Nat := (l.map Cx.power).sum

/-- The angle of a complex number in units of 2^-`bits` turn, rounded down. -/
def angleOf (bits : Nat) (a : Cx) : Nat :=
  let (quarter, x, y) : Nat × Int × Int :=
    if 0 < a.i ∧ 0 ≤ a.q then (0, a.i, a.q)
    else if a.i ≤ 0 ∧ 0 < a.q then (1, a.q, -a.i)
    else if a.i < 0 ∧ a.q ≤ 0 then (2, -a.i, -a.q)
    else if a.q < 0 then (3, -a.q, a.i)
    else (0, 1, 0)
  quarter * 2 ^ (bits - 2) + (List.range (bits - 2)).foldl (fun (r : Nat) (i : Nat) =>
    let c := r + 2 ^ (bits - 3 - i)
    let t := turn (c : Int) (2 ^ bits)
    if t.2 * x ≤ t.1 * y then c else r) 0

end Sys2Proof.Machine
end

