-- ==== Sys2Proof/Machine/Occasion.lean ====
section
/-!
DEFINITION. The occasions of array calibration: which symbols are eligible (R342), which antennas an occasion measures (R343, R344), and
when the ORX of a row is taken by one (R278).
-/
namespace Sys2Proof.Machine

/-- CAL_STAT state: 0 idle, 1 waiting, 2 measuring, 3 computing, 4 REF_FAIL (R358). -/
def State.calState (s : State) : Nat := s.rf Reg.CAL_STAT 31 28

/-- The reference path, and the antennas of the system (R340, R343). -/
def State.refPath (s : State) : Nat := s.rf Reg.CAL_CFG 15 9
def State.calAnts (s : State) : Nat := 96 * s.chainLen

/-! ### Eligible symbols, R342 -/

/-- The demand intervals of a row from one carrier near a stretch of time (R251), in units of 2^-40 ns. With `all` every symbol counts as
full-duplex. -/
def State.demandIvs (s : State) (r c : Nat) (all : Bool) (ns : List Int) (ls : List Nat) : List (Int × Int) :=
  let cfg := s.carCfg c
  let mu := cfgMu cfg
  let ext := cfgExt cfg
  let u : Int := (nsU : Int)
  ns.flatMap fun n => ls.flatMap fun l =>
    let air := s.gridTimeF (symStart mu ext n l)
    let fin := s.gridTimeF (symEnd mu ext n l)
    let t := s.tddReg c air (Reg.TDD_TXT r)
    let x := s.tddReg c air (Reg.TDD_RXT r)
    let tx := (air - ((s.dlAdv c : Int) + (min 10000 (fld t 15 0) : Nat)) * u, fin + ((min 10000 (fld t 31 16) : Nat) - (s.dlAdv c : Int)) * u)
    let rx := (air - ((min 10000 (fld x 15 0) : Nat) - (s.ulComp c : Int)) * u, fin + ((min 10000 (fld x 31 16) : Nat) + (s.ulComp c : Int)) * u)
    (if all || s.isDl c air n l then [tx] else []) ++ (if all || s.isUl c air n l then [rx] else [])

/-- Whether symbol `l` of slot `n` of the calibration carrier is eligible (R342). -/
def State.calEligible (s : State) (n : Int) (l : Nat) : Bool :=
  let c := s.rf Reg.CAL_CFG 25 24
  let mine := s.rows.flatMap (fun r => s.demandIvs r c true [n] [l])
  let lo := mine.foldl (fun m (v : Int × Int) => min m v.1) ((mine.headD (0, 0)).1)
  let hi := mine.foldl (fun m (v : Int × Int) => max m v.2) ((mine.headD (0, 0)).2)
  let others := (List.range 4).flatMap fun k =>
    let cfg := s.carCfg k
    if !cfgValid cfg then []
    else
      let slot := fun (t : Int) => carSlotAt (cfgMu cfg) (cfgExt cfg) (s.gridUnits t.toNat)
      let n0 := slot lo - 1
      let ns := (List.range ((slot hi - n0).toNat + 2)).map (fun (i : Nat) => n0 + (i : Int))
      s.rows.flatMap (fun r => s.demandIvs r k false ns (List.range (symsPerSlot (cfgExt cfg))))
  s.carValid c && s.rb Reg.CAL_SCHED l && mine.all (fun a => others.all (fun b => decide (a.2 ≤ b.1 ∨ b.2 ≤ a.1)))

/-- The antennas of an occasion (R343, R344): transmit occasion `j` of `A` antennas, or the receive occasion, without those that are absent,
unavailable, the reference path, or, in absolute mode, without a valid network entry (R341). The availability of other packages'
antennas is theirs to know: those in reach are taken (R180). -/
def State.calGroup (s : State) (j : Nat) : List Nat :=
  let a := s.calAnts
  (List.range a).filter fun x =>
    (j == a / 12 || (x % 4 == j % 4 && x / 4 % (a / 48) == j / 4)) && x != s.refPath &&
      (if x / 96 = s.pkgNum then s.pathRuns (x % 96) else decide (x / 96 < s.reach)) &&
      (s.rb Reg.CAL_CFG 30 || s.rb (Reg.CAL_NET_W1 x) 31)

/-- The antennas that the next occasion measures: those of its group, or the repeats (R343-R346). -/
def State.calNext (s : State) : List Nat :=
  if s.cal.redo = [] then s.calGroup (s.rf Reg.CAL_STAT 27 22) else s.cal.redo.map Prod.snd

/-- Whether symbol `l` of slot `n` of the calibration carrier is the next occasion's, or one that may be: the first eligible one of a slot
that has had none (R342). -/
def State.calSymbol (s : State) (n : Int) (l : Nat) : Bool :=
  s.calState == 1 && s.cal.lastSlot.all (fun k => decide (k < n)) && s.calEligible n l && (List.range l).all (fun k => !s.calEligible n k)

/-- Whether a calibration capture of row `r` is scheduled between two ticks (R278, R343). -/
def State.calClash (s : State) (r a b : Nat) : Bool :=
  let cfg := s.carCfg (s.rf Reg.CAL_CFG 25 24)
  let slot := fun (t : Nat) => carSlotAt (cfgMu cfg) (cfgExt cfg) (s.gridUnits (s.timeAt t))
  s.calState == 1 && decide (s.rf Reg.CAL_STAT 27 22 < s.calAnts / 12) &&
    s.calNext.any (fun x => x / 96 == s.pkgNum && x % 96 / 4 == r) &&
    (List.range ((slot b - slot a).toNat + 1)).any fun i =>
      let n := slot a + (i : Int)
      (List.range (symsPerSlot (cfgExt cfg))).any fun l =>
        decide (s.tickReaching (s.gridTime (symStart (cfgMu cfg) (cfgExt cfg) n l)) < b ∧
          a < s.tickReaching (s.gridTime (symEnd (cfgMu cfg) (cfgExt cfg) n l))) && s.calSymbol n l

end Sys2Proof.Machine
end

