-- ==== Sys2Proof/Machine/Fault.lean ====
section
/-!
DEFINITION. Declaring a fault of a path, row, parcel or tile (R22, R398-R401), spared faults (R399), the loss of packages (R24),
and the return of a repaired unit to service (R406). Unit kinds: 0 path, 1 row, 2 parcel, 3 tile (R411).
-/
namespace Sys2Proof.Machine

/-- The cause register of a unit, R413. -/
def causeReg (kind unit : Nat) : Nat :=
  if kind = 0 then Reg.SV_PATH_CAUSE unit
  else if kind = 1 then Reg.SV_ROW_CAUSE unit
  else if kind = 2 then Reg.SV_PARCEL_CAUSE unit
  else Reg.SV_TILE_CAUSE unit

/-- Whether a unit is declared faulted and not repaired (R415). -/
def State.faulted (s : State) (kind unit : Nat) : Bool := s.rb (causeReg kind unit) 31

/-- Whether a unit is present, R2. -/
def State.unitPresent (s : State) (kind unit : Nat) : Bool :=
  if kind = 0 then decide (unit < s.part.paths)
  else if kind = 1 then decide (unit < s.part.rows)
  else if kind = 2 then decide (unit < s.part.parcels)
  else decide (kind = 3 ∧ unit < s.part.tiles)

/-- The availability bit of a unit, R35-R38. -/
def State.setAvail (s : State) (kind unit : Nat) (v : Bool) : State :=
  if kind = 0 then s.pb (Reg.GL_PATH_AVAIL (unit / 32)) (unit % 32) v
  else if kind = 1 then s.pb Reg.GL_ROW_AVAIL unit v
  else if kind = 2 then s.pb Reg.GL_PARCEL_AVAIL unit v
  else s.pb Reg.GL_UNIT_AVAIL (4 + unit) v

/-- The paths, rows and parcels that a parcel or tile contains (R6). -/
def inside (kind unit : Nat) : List (Nat × Nat) :=
  if kind = 2 then
    (List.range 3).map (fun i => (1, 3 * unit + i)) ++ (List.range 12).map (fun i => (0, 12 * unit + i))
  else if kind = 3 then
    (List.range 2).map (fun i => (2, 2 * unit + i)) ++ (List.range 6).map (fun i => (1, 6 * unit + i)) ++
      (List.range 24).map (fun i => (0, 24 * unit + i))
  else []

/-- What a path fault does to its path (R22, R248, R328, R401): mute with reason 1, TXEN and RXEN low, gain control frozen, and
captures that it takes part in spoiled. A fault of the reference path stops the calibration cycle in REF_FAIL (R352). -/
def State.stopPath (s : State) (p : Nat) : State :=
  let s1 := ((s.muteFault p).rxUpdate p).followDemands p
  let s2 := (s1.spoilCaptures p).pf (Reg.RX_AGC_STAT p) 31 30 3
  if s2.isRef p then (s2.pb Reg.CAL_STAT 18 true).pf Reg.CAL_STAT 31 28 4 else s2

/-- What a row fault does to its row (R22, R285, R317): the ORX and the adaptation of the row stop. -/
def State.stopRow (s : State) (r : Nat) : State :=
  let s1 := s.abortCapture r
  let s2 := match (s1.orxOf r).host with
    | some h => (s1.setOrx r { s1.orxOf r with host := none }).finish h.ref stITEM []
    | none => s1
  s2.forEach [4 * r, 4 * r + 1, 4 * r + 2, 4 * r + 3] fun u p =>
    let u1 := (u.setPr p { u.prOf p with adapted := none, reverting := false, ready := false, caps := 0 })
    let u2 := u1.setCan p { u1.canOf p with adapted := none, reverting := false, ready := false, caps := 0 }
    (((u2.setPrState p 5).setCanState p 5).pb (Reg.PR_STAT p) 23 false).pb (Reg.CAN_STAT p) 23 (u2.canOf p).pend.isSome

/-- What a parcel fault does to its monitor ADC (R22, R408): what it runs and what waits there ends, the commands with ITEM_FAILED. -/
def State.stopMonitor (s : State) (q : Nat) : State :=
  let x := Sparse.get (fun _ => {}) s.mon.adcs q
  let refs := (x.inj.bind (fun v => v.2.2.2)).toList ++ (x.cal.bind id).toList
  let s1 := { s with mon := { s.mon with adcs := Sparse.set (fun _ => {}) s.mon.adcs q { x with run := none, seq := none, inj := none, cal := none } } }
  s1.forEach refs fun u r => u.finish r stITEM []

/-- The consequences of a fault of one unit, and its availability bit (R22, R400 steps 1 and 2). -/
def State.contain (s : State) (kind unit : Nat) : State :=
  let s1 := s.setAvail kind unit false
  if kind = 0 then s1.stopPath unit
  else if kind = 1 then s1.stopRow unit
  else if kind = 2 then s1.stopMonitor unit
  else if kind = 3 then { s1 with
    sv := { s1.sv with dead := unit :: s1.sv.dead.filter (· ≠ unit) }
    tb := { s1.tb with
      msgs := s1.tb.msgs.filter (fun m => m.tile != unit)
      tileDues := s1.tb.tileDues.filter (fun (d : Nat × Nat × Nat × Bool) => d.2.1 != unit) } }
  else s1

/-- The cause register of a unit that takes a cause (R400 step 3, R401): `counted` advances decl_cnt. -/
def State.takeCause (s : State) (kind unit cause chk : Nat) (counted : Bool) : State :=
  let w := s.rd (causeReg kind unit)
  s.wr (causeReg kind unit) (toW (2 ^ 31 + cause * 2 ^ 16 + chk * 2 ^ 8 + (fld w 7 0 + b2n counted) % 256))

/-- Declare a fault of a unit, R399-R401. `die` is the die that detected it (0-3 a tile, 4 the hub). A unit already faulted is
not declared again. -/
def State.declareFault (s : State) (kind unit cause chk die : Nat) : State :=
  if !s.unitPresent kind unit then s
  else if s.faulted kind unit then
    { s with sv := { s.sv with tests := s.sv.tests.map (fun x => if x.kind = kind ∧ x.unit = unit then { x with spoiled := true } else x) } }
  else
    let cls := kind + 1
    let s1 := (s.takeCause kind unit cause chk true).contain kind unit
    let s2 := s1.forEach (inside kind unit) fun u x =>
      if u.faulted x.1 x.2 then u
      else
        let u1 := { u with sv := { u.sv with took := u.sv.took ++ [(x.1, x.2, kind, unit)] } }
        (u1.takeCause x.1 x.2 cause chk false).contain x.1 x.2
    let s3 := (s2.wr Reg.SV_LAST (lastWord cls cause chk unit)).bump (Cnt.svDecl kind)
    let s4 := s3.faultSum kind
    let s5 := s4.event (if kind = 3 then 4 else die) 0x0A die false (faultDetail cls cause chk unit)
    let s6 := s5.faultRecord 0 [lastWord cls cause chk unit, s5.rd (causeReg kind unit)]
    (s6.eventNotice 1 0x02 (cls * 2 ^ 20 + unit)).tellState

/-- The failure of a row's front-end bus (R257, R23): a path fault on each of the row's four paths. -/
def State.busFault (s : State) (r : Nat) : State :=
  s.forEach [4 * r, 4 * r + 1, 4 * r + 2, 4 * r + 3] fun u p => u.declareFault 0 p 0x05 0 (r / 6)

/-- A unit leaves its fault (R406): its cause is cleared and its bit set again; what it contains and took its cause from it
returns with it. A path leaves mute at the next load strobe of its row; a repaired row's loops restart (R285). -/
def State.restoreUnit (s : State) (kind unit : Nat) : State :=
  let s1 := (s.pb (causeReg kind unit) 31 false).setAvail kind unit true
  let s2 := s1.pf (causeReg kind unit) 23 8 0
  if kind = 0 then (s2.rxUpdate unit).pf (Reg.RX_AGC_STAT unit) 31 30 (s2.agcOf unit).mode
  else if kind = 1 then
    s2.forEach [4 * unit, 4 * unit + 1, 4 * unit + 2, 4 * unit + 3] fun u p => (u.restartPress p).restartCan p
  else s2

/-- Repair a unit, R406. What is inside returns with it when it took its cause from it; a row or path with a cause of its own
keeps it. A parcel that took its cause from a tile passes on what it contains. -/
def State.repairUnit (s : State) (kind unit : Nat) : State :=
  let s1 := s.restoreUnit kind unit
  let mine := s1.sv.took.filter (fun (x : Nat × Nat × Nat × Nat) => x.2.2 = (kind, unit))
  let s2 := s1.forEach mine fun u x => u.restoreUnit x.1 x.2.1
  State.tellState { s2 with sv := { s2.sv with took := s2.sv.took.filter (fun (x : Nat × Nat × Nat × Nat) => x.2.2 ≠ (kind, unit)) } }

/-- The chain reaches packages 0 to k - 1 only (R24, R39). -/
def State.reachOnly (s : State) (k : Nat) : State := s.pf Reg.GL_PKG_POS 11 8 (min k (s.rf Reg.GL_PKG_POS 11 8))

/-- Package `k` of the system fails (R24): the lead goes on with packages 0 to k - 1; a package beyond k mutes all its paths. -/
def State.losePackage (s : State) (k : Nat) : State :=
  if s.isLead then
    let s1 := s.reachOnly k
    let s2 := (s1.wr Reg.SV_LAST (lastWord 6 0x0B 0 k)).bump (Cnt.svDecl 5)
    let s3 := (s2.faultSum 5).event 4 0x0A 4 false (faultDetail 6 0x0B 0 k)
    (s3.faultRecord 0 [lastWord 6 0x0B 0 k, 0]).eventNotice 1 0x02 (6 * 2 ^ 20 + k)
  else s.reachOnly k

end Sys2Proof.Machine
end

