-- ==== Sys2Proof/Machine/Strobe.lean ====
section
/-!
DEFINITION. Load strobes (R243-R248, R273, R326): what the paths of a row apply, and the end of the mutes that end at a strobe.
-/
namespace Sys2Proof.Machine

/-- The TX values of a path in its live registers (R246). -/
def State.liveTx (s : State) (p : Nat) : TxVals := {
  en := s.rb (Reg.TX_CTRL p) 0
  nco := s.rdPair (Reg.TX_NCO_LO p) (Reg.TX_NCO_HI p) % 2 ^ 48
  ph := s.rf (Reg.TX_NCO_PH p) 15 0
  gain := (s.rd (Reg.TX_GAIN p)).toNat
  delay := s.rf (Reg.TX_DELAY p) 15 0
  cfr := (s.rd (Reg.TX_CFR p)).toNat
  dac := (s.rd (Reg.TX_DAC p)).toNat }

/-- The RX values of a path in its live registers (R326). -/
def State.liveRx (s : State) (p : Nat) : RxVals := {
  en := s.rb (Reg.RX_CTRL p) 0
  nco := s.rdPair (Reg.RX_NCO_LO p) (Reg.RX_NCO_HI p) % 2 ^ 48
  ph := s.rf (Reg.RX_NCO_PH p) 15 0
  gain := (s.rd (Reg.RX_GAIN p)).toNat
  delay := s.rf (Reg.RX_DELAY p) 15 0
  shift := (s.rd (Reg.RX_SHIFT p)).toNat }

/-- Whether a change of the transmit values returns the Press loop to ACQUIRE (R281): the NCO moves by more than 10 MHz, which is
175,921,860,444.16 units of the word, or nyq changes. -/
def retunes (old new : TxVals) : Bool :=
  decide (175921860444 < new.nco - old.nco ∨ 175921860444 < old.nco - new.nco) || bitN old.dac 4 != bitN new.dac 4

/-- The gain reference scaled by the ratio of the new IFS to the old (R281), rounded down. -/
def scaleRef (g : Int × Int) (old new : Nat) : Int × Int :=
  (g.1 * ((new + 1 : Nat) : Int) / ((old + 1 : Nat) : Int), g.2 * ((new + 1 : Nat) : Int) / ((old + 1 : Nat) : Int))

/-- Apply a path's committed transmit values at a strobe (R246): a changed range begins a range-change mute (R245). -/
def State.strobeTx (s : State) (p : Nat) : State :=
  let x := s.txOf p
  match x.pend with
  | none => s
  | some v =>
    let range := v.dac % 4 != x.app.dac % 4
    let s1 := (s.setTx p { x with
      pend := none, app := v, setTick := if v = x.app then x.setTick else s.tick, mRange := x.mRange || range, rangeTick := if range then s.tick else x.rangeTick }).pb
        (Reg.TX_STATUS p) 10 false
    let y := s1.prOf p
    let s2 := s1.setPr p { y with gref := if range then scaleRef y.gref (x.app.dac % 4) (v.dac % 4) else y.gref }
    if retunes x.app v ∧ (s2.prState p = 1 ∨ s2.prState p = 2) then s2.restartPress p else s2

/-- Apply a path's committed receive values at a strobe (R326), and show the zone (R321). -/
def State.strobeRx (s : State) (p : Nat) : State :=
  let x := s.rxOf p
  match x.pend with
  | none => s
  | some v => ((s.setRx p { x with pend := none, app := v, setTick := if v = x.app then x.setTick else s.tick }).pb (Reg.RX_STATUS p) 8 false).pf (Reg.RX_STATUS p) 11 10 (v.nco / 2 ^ 46)

/-- NMSE and canc as signed numbers: NMSE in PR_STAT is held in units of -0.25 dB, canc in units of 0.25 dB (two's complement). -/
def State.nmse (s : State) (p : Nat) : Int := sext (s.rf (Reg.PR_STAT p) 15 0) 16
def State.canc (s : State) (p : Nat) : Int := sext (s.rf (Reg.CAN_STAT p) 15 0) 16

/-- Apply a path's pending Press set at a strobe (R273): the committed set first, which discards an adapted one; it becomes the
last-good set (R283). A revert applied begins the pause of R284. -/
def State.strobePress (s : State) (p : Nat) : State :=
  let x := s.prOf p
  let hold := s.tick + s.rf (Reg.PR_LIMIT p) 7 0 * 16000000
  match x.pend, x.adapted with
  | none, none => s
  | some (cfg, cs), a =>
    let s1 := s.setPr p { x with
      pend := none, adapted := none, cfg := cfg, coefs := cs, caps := 0, judge := false, adaptedLive := false, setCaps := 0
      setGood := true, goodSets := 0, reverting := false, holdEnd := if x.reverting then some hold else x.holdEnd }
    ((s1.wrList (Reg.PR_GOOD_LO p 0) cs).bumpBy (Cnt.prPath p 2) (b2n a.isSome)).pb (Reg.PR_STAT p) 23 false
  | none, some cs =>
    let s1 := s.setPr p { x with
      adapted := none, coefs := cs, adaptedLive := !x.reverting, reverting := false, setCaps := 0, setGood := true, goodSets := 0
      judge := !x.reverting, before := some (s.nmse p), holdEnd := if x.reverting ∧ s.prState p = 3 then some hold else x.holdEnd }
    (s1.bump (Cnt.prPath p (if x.reverting then 4 else 0))).pb (Reg.PR_STAT p) 23 false

/-- Apply a canceller's pending taps at a strobe (R290, R294): the committed set first. -/
def State.strobeCan (s : State) (p : Nat) : State :=
  let x := s.canOf p
  let hold := s.tick + s.rf (Reg.PR_LIMIT p) 7 0 * 16000000
  let st := s.canState p
  match x.pend, x.adapted with
  | none, none => s
  | some (cfg, ts), _ =>
    let s1 := s.setCan p { x with
      pend := none, adapted := none, cfg := cfg, taps := ts, caps := 0, reverting := false, setCaps := 0, setGood := true
      holdEnd := if x.reverting then some hold else x.holdEnd }
    let s2 := (s1.bump (Cnt.canPath p 0)).pb (Reg.CAN_STAT p) 23 false
    if st = 1 then s2.setCanState p 2 else s2
  | none, some ts =>
    let s1 := s.setCan p { x with
      adapted := none, taps := ts, reverting := false, zeroNext := false, setCaps := 0, setGood := true
      holdEnd := if x.reverting ∧ st = 3 then some hold else x.holdEnd }
    let s2 := (s1.bump (Cnt.canPath p 0)).pb (Reg.CAN_STAT p) 23 false
    if x.reverting then s2.bump (Cnt.canPath p 2)
    else if x.zeroNext then (s2.setCanState p 4).hubEvent 0x09 p
    else if st = 1 then s2.setCanState p 2
    else s2

/-- The removals of R22, R269 and R291 that take effect at a strobe: a faulted neighbour enters the coupled terms of a path as
zero, a row fault removes every coupled term of the row and toward its edge neighbours, and a faulted source's taps are
cleared. -/
def State.strobeRemovals (s : State) (p : Nat) : State :=
  let gone := (neighbours p).filter (fun q => !s.pathAvail q || !s.rowAvail (q / 4) || !s.rowAvail (p / 4))
  let s1 := s.setPr p { s.prOf p with zeroed := gone }
  let x := s1.canOf p
  let n := canSlots x.cfg
  let srcs := p :: neighbours p
  let dead := (List.range srcs.length).filter (fun i => !s.pathAvail (srcs.getD i 0))
  if dead = [] ∨ x.taps = [] then s1
  else
    let full := x.taps ++ List.replicate (256 - x.taps.length) 0
    s1.setCan p { x with
      taps := (List.range 256).map (fun i => if i / 2 / n ∈ dead then 0 else wordAt full i) }

/-- A load strobe at one path, R246-R248. -/
def State.strobePath (s : State) (p : Nat) : State :=
  let x := s.txOf p
  let pr := s.prOf p
  let cn := s.canOf p
  let changes := x.pend.isSome || pr.pend.isSome || pr.adapted.isSome
  let any := changes || (s.rxOf p).pend.isSome || cn.pend.isSome || cn.adapted.isSome
  let s1 := s.bump (Cnt.txPath p (if any then 4 else 5))
  let s2 := (((s1.when changes (fun u => u.spoilCaptures p)).strobeTx p).strobeRx p)
  let s3 := ((s2.strobePress p).strobeCan p).strobeRemovals p
  let y := s3.txOf p
  let ended := y.mRange && decide (y.rangeTick + 2400 ≤ s3.tick)
  let s4 := s3.setTx p { y with
    mFault := !s3.pathAvail p, mForced := s3.rb (Reg.TX_CTRL p) 3 || stateMutes s3.dev || s3.isRef p || s3.rb Reg.CX_TSTAT 30, mNotEn := !y.app.en
    mRange := y.mRange && !ended }
  let s5 := if y.latched ∧ !s4.rb Reg.PW_PAD_STAT (p / 4) then
      (s4.setTx p { s4.txOf p with latched := false }).when y.blankEnd.isNone (fun u => u.blankLeave p)
    else s4
  ((s5.muteUpdate p).rxUpdate p).followDemands p

/-- A load strobe of row `r`, R246, R247. -/
def State.strobeRow (s : State) (r : Nat) (late : Bool) : State :=
  let s1 := s.pf (Reg.ROW_TX_STAT r) 15 0 (s.rf (Reg.ROW_TX_STAT r) 15 0 + 1)
  let s2 := s1.when late (fun u => (u.pb (Reg.ROW_TX_STAT r) 19 true).bump (Cnt.txRow r 6))
  s2.forEach [4 * r, 4 * r + 1, 4 * r + 2, 4 * r + 3] State.strobePath

/-- A local resume strobe of a path (R245): it ends the range-change mute only. -/
def State.resumePath (s : State) (p : Nat) : State :=
  ((s.setTx p { s.txOf p with mRange := false }).muteUpdate p).followDemands p

end Sys2Proof.Machine
end

