-- ==== Sys2Proof/Machine/Transmit.lean ====
section
/-!
DEFINITION. Trigger messages at a tile (R31), the transmit path's strobes and mutes (R243-R248), TDD switching (R249-R254), the
front-end control bus (R255-R258) and the transmit commands (R259).
-/
namespace Sys2Proof.Machine

/-! ### Trigger messages -/

/-- Enter an action due at a tick among those that wait, in order of ticks; one for the same tick is the same action (R60). -/
def insertDue (d : Nat × Bool) : List (Nat × Bool) → List (Nat × Bool)
  | [] => [d]
  | x :: rest => if d.1 < x.1 then d :: x :: rest else if d.1 = x.1 then (d.1, x.2 || d.2) :: rest else x :: insertDue d rest

/-- TRIGGER_MESSAGE, R31: the message of a line reaches its tile. One that arrives after its target acts on arrival, and is
recorded late. Rows take lines 7 and 8; lines 2, 9, 10 and 11 await their own events. A tile that is asleep takes none of lines 7
and 8 (its link carries no messages, R383). -/
def execTriggerMessage (tile line target : Nat) (s : State) : Out :=
  .next <| match s.tb.msgs.find? (fun m => m.tile == tile && m.line == line && m.target == target) with
  | none => s
  | some m =>
    let s0 := { s with tb := { s.tb with msgs := s.tb.msgs.erase m } }
    let awake := s.tileRuns tile
    let late := decide (target < s.tick)
    let at_ := max target s.tick
    let s1 := if target < s.tick then s0.tileEvent tile 0x0D tile true (toW line) else s0
    let rows := (List.range 6).map (6 * tile + ·)
    if line = 7 ∧ awake then
      s1.forEach rows fun u r => u.setRow r {
        u.rowOf r with releases := (insertDue (at_, false) ((u.rowOf r).releases.map (fun t => (t, false)))).map Prod.fst }
    else if line = 8 ∧ awake then
      s1.forEach (rows.filter (fun r => s1.rb (Reg.ROW_TX_CFG r) 0)) fun u r => u.setRow r {
        u.rowOf r with strobes := insertDue (at_, late) (u.rowOf r).strobes }
    else if (line = 2 ∨ line = 9 ∨ line = 10 ∨ line = 11) ∧ tile ∉ s1.sv.dead then
      { s1 with tb := { s1.tb with tileDues := s1.tb.tileDues ++ [(line, tile, if line = 10 then target else at_, late)] } }
    else s1

/-- LOAD_STROBE, R246: row `r` performs the strobe that is due first, after every commit of that tick (R62). -/
def execLoadStrobe (r : Nat) (s : State) : Out :=
  .next <| match (s.rowOf r).strobes with
  | [] => s
  | (t, late) :: rest =>
    if !s.rowOn r ∨ s.commitFirst t then s
    else ((s.advanceTo t).setRow r { s.rowOf r with strobes := rest }).strobeRow r late

/-- LOCAL_RESUME_STROBE, R245: 2.0 us (3,200 ticks) after a strobe that changed the range, when no strobe has ended the mute. -/
def execLocalResumeStrobe (p : Nat) (s : State) : Out :=
  .next (if (s.txOf p).mRange ∧ s.pathOn p then (s.advanceTo ((s.txOf p).rangeTick + 3200)).resumePath p else s)

/-- Write TX_CTRL of a path (R248, R254, R262): a forced mute begins; blanking follows blank_en. -/
def State.writeTxCtrl (s : State) (p : Nat) (w : Word) : State :=
  let s1 := s.poke (Reg.TX_CTRL p) w
  let s2 := if bit w 3 then s1.muteForce p else s1
  if !bit w 1 ∧ (s2.txOf p).blankEnd = none then s2.blankLeave p
  else if s2.mayBlank p 6400 then s2.blankEnter p
  else s2

/-- FORCE_MUTE_WRITE, R248: a write to TX_CTRL of path `p`. -/
def execForceMuteWrite (p : Nat) (w : Word) (s : State) : Out :=
  .next (s.access (Reg.TX_CTRL p) fun s => if p < s.part.paths then s.writeTxCtrl p w else s)

/-! ### TDD -/

/-- TDD_SWITCH, R31, R249-R252: the switch of carrier `c` whose time is tick `at_` (an edge of a demand of the carrier, or the end of
a wait of R252) reaches the pads of every powered tile. One that reaches the tiles after its tick acts on arrival, and is recorded late. -/
def execTddSwitch (c at_ : Nat) (s : State) : Out :=
  let edge := decide (c < 4) && s.rows.any (fun r =>
    s.txDemandC r c at_ != s.txDemandC r c (at_ - 1) || s.rxDemandC r c at_ != s.rxDemandC r c (at_ - 1))
  let wait := s.paths.any (fun p => (s.txOf p).rxHold == at_)
  .next <| if (at_ < s.tick ∧ at_ ≤ Sparse.get (fun _ => 0) s.tb.tddLast c) ∨ !(edge || wait) then s
  else
    let s0 := { s with tb := { s.tb with tddLast := Sparse.set (fun _ => 0) s.tb.tddLast c at_ } }
    let s1 := (s0.advanceTo at_).bumpBy (Cnt.tddCarrier c 0) (b2n edge)
    let on := s1.tiles.filter s1.tileRuns
    let s2 := if at_ < s.tick then s1.forEach on (fun u t => u.tileEvent t 0x0D t true (toW (3 + c))) else s1
    s2.forEach (s2.paths.filter (fun p => s2.tileRuns (p / 24))) fun u p => u.followDemands p

/-- BLANK_EXIT_START, R254: the DAC of path `p` begins to leave blank idle at tick `at_`, 2 us (3,200 ticks) before the next TXEN
rise. A window of line 9 that is open keeps the path blanked (R541). -/
def execBlankExitStart (p at_ : Nat) (s : State) : Out :=
  let r := p / 4
  .next (if s.tick ≤ at_ ∧ s.rb (Reg.TX_STATUS p) 4 ∧ (s.txOf p).blankEnd = none ∧ s.txDemand r (at_ + 3200) ∧ !s.txDemand r (at_ + 3199) then
    (s.advanceTo at_).blankLeave p else s)

/-! ### The front-end control bus -/

/-- Bits of a frame (R255, R264). -/
def State.frameBits (s : State) (r : Nat) : Nat := max 7 (s.rf (Reg.FE_CFG r) 4 0) + 1

/-- Push an entry into a row's queue (R256): discarded with q_ovf when full, and without it once the bus has failed (R257). -/
def State.fePush (s : State) (r : Nat) (frame qw0 : Word) (ref : Option CmdRef) : State :=
  let x := s.rowOf r
  if s.rb (Reg.ROW_TX_STAT r) 16 then s
  else if 64 ≤ x.queue.length then s.pb (Reg.ROW_TX_STAT r) 17 true
  else
    let k := fld qw0 31 30
    let e : FeEntry := {
      frame := frame, trig := k, read := bit qw0 29, verify := bit qw0 28, trigTick := if k = 0 then some s.tick else none, ref := ref, pushed := s.tick }
    s.setRow r { x with queue := x.queue ++ [e] }

/-- FE_QW1_WRITE, R256: row `r`, the frame. -/
def execFeQw1Write (r : Nat) (w : Word) (s : State) : Out :=
  .next (s.access (Reg.FE_QW1 r) fun s => if r < s.part.rows then s.fePush r w (s.rd (Reg.FE_QW0 r)) none else s)

/-- FE_WRITE_RELEASE, R256: line 7 releases the entries of row `r` that wait for it; the trigger time is the target tick. -/
def execFeWriteRelease (r : Nat) (s : State) : Out :=
  .next <| match (s.rowOf r).releases with
  | [] => s
  | t :: rest =>
    let s1 := s.advanceTo t
    let x := s1.rowOf r
    s1.setRow r { x with
      releases := rest
      queue := x.queue.map (fun e => if e.trig = 1 ∧ e.trigTick = none then { e with trigTick := some t } else e) }

/-- Ticks that a frame holds the bus (R255): 10 ns, its bits, 10 ns; a verified frame is followed by its read. -/
def State.frameTicks (s : State) (r : Nat) (e : FeEntry) : Nat :=
  let one := 20 + s.frameBits r * ((max 3 (s.rf (Reg.FE_CFG r) 23 20) + 1) * 5)
  ticksNs (if e.verify ∧ !e.read then 2 * one + 20 else one)

/-- Whether the frames of a row wait: its pads are latched (R548), its tile is not in RUN, or an entry asks it to start nothing new
(R542). -/
def State.rowHolds (s : State) (r : Nat) : Bool := s.rb Reg.PW_PAD_STAT r || !s.tileRuns (r / 6) || s.quiet (r / 6)

/-- A frame starts on a row's bus at the earliest tick it may. -/
def State.startFrame (s : State) (r : Nat) (e : FeEntry) (at_ : Nat) : State :=
  let s1 := s.advanceTo (max at_ (s.rowOf r).idleFrom)
  s1.setRow r { s1.rowOf r with active := some e, actStart := s1.tick, csN := false }

/-- The ticks, in the 81 slots from the current one on, at which symbols of carrier `c` bring an edge `by_` ns before their start
(`edge` false) or after their end. -/
def State.symbolEdges (s : State) (c : Nat) (by_ : Int) (fin : Bool) : List Nat :=
  let cfg := s.carCfg c
  let n0 := carSlotAt (cfgMu cfg) (cfgExt cfg) (s.gridUnits s.now)
  (List.range 81).flatMap fun i => (List.range (symsPerSlot (cfgExt cfg))).flatMap fun l =>
    let n := n0 + (i : Int)
    let t := s.gridTimeF (if fin then symEnd (cfgMu cfg) (cfgExt cfg) n l else symStart (cfgMu cfg) (cfgExt cfg) n l)
    let k := s.tickReaching (t + by_ * (nsU : Int)).toNat
    [k - 1, k]

/-- Whether the RXEN pads of row `r` may follow a receive demand at tick `n`: in duplex, or with no transmit demand then and in the
gap before (R252). -/
def State.rxFree (s : State) (r n : Nat) : Bool :=
  let gap := ticksNs (min 10000 (s.rf (Reg.ROW_TX_CFG r) 31 16))
  s.rb (Reg.ROW_TX_CFG r) 1 || s.txQuietFor r (n - gap) gap

/-- The level the enable pads of row `r` are to have at tick `n`: TXEN for trigger kind 2, RXEN for kind 3 (R251, R252). -/
def State.padDemand (s : State) (r kind n : Nat) : Bool :=
  if kind = 2 then s.txDemand r n else s.rxDemand r n && s.rxFree r n

/-- Whether a path of row `r` drives the pad of a trigger kind when its demand rises. -/
def State.rowFollows (s : State) (r kind : Nat) : Bool :=
  [4 * r, 4 * r + 1, 4 * r + 2, 4 * r + 3].any fun p => s.pathOn p &&
    (if kind = 2 then (s.txOf p).blankEnd.isNone && !(s.txOf p).held else s.rb (Reg.RX_STATUS p) 3)

/-- The next rise of a pad of row `r` that the demands bring (R251): an edge of a symbol of a carrier, or the end of the gap of
R252, no nearer than `from_`. -/
def State.nextRise (s : State) (r kind from_ : Nat) : Option Nat :=
  if s.rb Reg.PW_PAD_STAT r ∨ !s.rowFollows r kind then none else
  let txt := fun (c : Nat) => s.tddReg c (s.now : Int) (Reg.TDD_TXT r)
  let rxt := fun (c : Nat) => s.tddReg c (s.now : Int) (Reg.TDD_RXT r)
  let lead := fun (w : Word) => ((min 10000 (fld w 15 0) : Nat) : Int)
  let gap := ticksNs (min 10000 (s.rf (Reg.ROW_TX_CFG r) 31 16))
  let ticks := (List.range 4).flatMap fun c =>
    if !s.carValid c then []
    else if kind = 2 then s.symbolEdges c (-((s.dlAdv c : Int) + lead (txt c))) false
    else s.symbolEdges c (((s.ulComp c : Int)) - lead (rxt c)) false ++
      (s.symbolEdges c (((min 10000 (fld (txt c) 31 16) : Nat) : Int) - (s.dlAdv c : Int)) true).map (· + gap)
  let ok := ticks.filter (fun n => decide (max (s.tick + 1) from_ ≤ n) && s.padDemand r kind n && !s.padDemand r kind (n - 1))
  match ok with
  | [] => none
  | h :: t => some (t.foldl min h)

/-- The trigger time of a queue entry (R256): the one that has occurred, or the next rise of its pad less fe_adv. -/
def State.entryTrigger (s : State) (r : Nat) (e : FeEntry) : Option Nat :=
  match e.trigTick with
  | some t => some t
  | none =>
    let adv := ticksNs (min 10000 (s.rf (Reg.FE_TIME r) 15 0))
    if e.trig = 2 ∨ e.trig = 3 then (s.nextRise r e.trig (e.pushed + adv)).map (· - adv) else none

/-- FE_FRAME_START, R255, R256: the head of row `r`'s queue, whose trigger has occurred, is sent; AGC frames go first (R330). A
frame that starts more than 1 us after its trigger time is counted late. -/
def execFeFrameStart (r : Nat) (s : State) : Out :=
  let x := s.rowOf r
  .next <| match (if s.rowHolds r then [] else x.queue), x.active, x.agcWait with
  | e :: rest, none, [] =>
    match s.entryTrigger r e with
    | some t =>
      let s1 := (s.setRow r { x with queue := rest }).startFrame r e t
      s1.bumpBy (Cnt.txRow r 1) (b2n (decide (t + 1600 < s1.tick)))
    | none => s
  | _, _, _ => s

/-- The data bits of a frame: what follows the address bits (R255). -/
def State.frameData (s : State) (r : Nat) (w : Word) : Nat :=
  let n := s.frameBits r
  let a := min n (s.rf (Reg.FE_CFG r) 12 8)
  if s.rb (Reg.FE_CFG r) 17 then w.toNat % 2 ^ n / 2 ^ a else w.toNat % 2 ^ (n - a)

/-- The bus of a row fails (R257, R23): fe_fail, the queue discarded as late, its reads ended, and the row's paths faulted. -/
def State.failBus (s : State) (r : Nat) : State :=
  let x := s.rowOf r
  let s1 := (s.setRow r { x with queue := [], agcWait := [] }).pb (Reg.ROW_TX_STAT r) 16 true
  let s2 := s1.bumpBy (Cnt.txRow r 1) x.queue.length
  let s3 := s2.forEach (x.queue.filterMap (·.ref)) fun u c => u.finish c stITEM []
  s3.busFault r

/-- Latch read data (R255): rd_ovf when the last data was not read; FE_READ ends with it. -/
def State.latchRead (s : State) (r : Nat) (e : FeEntry) (data : Nat) : State :=
  let x := s.rowOf r
  let s1 := s.when x.rdValid (fun u => u.pb (Reg.ROW_TX_STAT r) 18 true)
  let s2 := (s1.wr (Reg.FE_RDATA r) (toW data)).setRow r { x with rdValid := true }
  match e.ref with
  | some c => s2.finish c stOK [toW data]
  | none => s2

/-- FE_FRAME_END, R257: the frame on row `r`'s bus ends. `rdata` is what the device read back (the data bits), `padOk` whether
the pads showed their driven levels. Three consecutive mismatches of a kind fail the bus. -/
def execFeFrameEnd (r : Nat) (rdata : Word) (padOk : Bool) (s : State) : Out :=
  let x := s.rowOf r
  .next <| match x.active with
  | none => s
  | some e =>
    let n := s.frameBits r
    let a := min n (s.rf (Reg.FE_CFG r) 12 8)
    let data := rdata.toNat % 2 ^ (n - a)
    let bad := e.verify && !e.read && data != s.frameData r e.frame
    let s1 := (s.advanceTo (x.actStart + s.frameTicks r e)).bump (Cnt.txRow r 0)
    let vr := if bad then x.verifyRun + 1 else if e.verify ∧ !e.read then 0 else x.verifyRun
    let pr := if padOk then 0 else x.padRun + 1
    let s2 := s1.setRow r { x with active := none, idleFrom := s1.tick + 32, csN := true, verifyRun := vr, padRun := pr }
    let s3 := (s2.bumpBy (Cnt.txRow r 2) (b2n bad)).bumpBy (Cnt.txRow r 3) (b2n !padOk)
    let s4 := if e.read then s3.latchRead r e data else s3
    let s5 := match e.agc with
      | some (p, att) =>
        let g := s4.agcOf p
        let dly := ticksNs (min 10000 (s4.rf (Reg.RX_AGC_FE p) 15 0))
        s4.setAgc p { g with comp := g.comp ++ [(s4.tick + dly, att)] }
      | none => s4
    if (3 ≤ vr ∨ 3 ≤ pr) ∧ !s5.rb (Reg.ROW_TX_STAT r) 16 then s5.failBus r else s5

/-- FE_RDATA_READ, R263: the read returns the data and clears rd_valid. -/
def execFeRdataRead (r : Nat) (s : State) : Out :=
  .next (s.accessRead (Reg.FE_RDATA r) fun s =>
    ((s.answer (s.rd (Reg.FE_RDATA r))).wr (Reg.FE_RDATA r) 0).setRow r { s.rowOf r with rdValid := false })

/-! ### Commands -/

/-- A path operand, or 0xFF for every present path (R259). -/
def State.pathArgs (s : State) (n : Nat) : List Nat := if n = 0xFF then s.paths else [n]
def State.rowArgs (s : State) (n : Nat) : List Nat := if n = 0xFF then s.rows else [n]
def State.pathArgOk (s : State) (n : Nat) : Bool := n == 0xFF || decide (n < s.part.paths)
def State.rowArgOk (s : State) (n : Nat) : Bool := n == 0xFF || decide (n < s.part.rows)

/-- The paths of three mask words from parameter 0 on (R35), and whether they name present paths only. -/
def maskPaths (p : Pkt) : List Nat := (List.range 96).filter (fun i => bit (wordAt p.params (i / 32)) (i % 32))
def State.maskOk (s : State) (p : Pkt) : Bool := (maskPaths p).all (fun i => decide (i < s.part.paths))

/-- A command that writes registers of units whose tiles are all powered; otherwise ITEM_FAILED, with no effect (R540). -/
def State.onPaths (s : State) (ps : List Nat) (f : State → State × Verdict) : State × Verdict :=
  if ps.all s.pathOn then f s else (s, .status stITEM [])
def State.onRows (s : State) (rs : List Nat) (f : State → State × Verdict) : State × Verdict :=
  if rs.all s.rowOn then f s else (s, .status stITEM [])

/-- TX_SET: path; TX_GAIN, TX_DELAY and TX_CFR staged. -/
def execTxSet (p : Pkt) (s : State) : Out :=
  .next (s.command 0x500 p (p.is 4 && decide (p.arg 0 < s.part.paths)) true true fun u =>
    u.onPaths [p.arg 0] fun u => (((u.stage (Reg.TX_GAIN (p.arg 0)) (wordAt p.params 1)).stage (Reg.TX_DELAY (p.arg 0))
      (wordAt p.params 2)).stage (Reg.TX_CFR (p.arg 0)) (wordAt p.params 3), .ok []))

/-- TX_NCO: path or 0xFF; word LO, HI and phase staged; BAD_PARAM for a word of 2^47 or more. -/
def execTxNco (p : Pkt) (s : State) : Out :=
  .next (s.command 0x501 p (p.is 4 && s.pathArgOk (p.arg 0) && decide (p.arg 2 < 2 ^ 15)) true true fun u =>
    u.onPaths (u.pathArgs (p.arg 0)) fun u => (u.forEach (u.pathArgs (p.arg 0)) fun v q =>
      ((v.stage (Reg.TX_NCO_LO q) (wordAt p.params 1)).stage (Reg.TX_NCO_HI q) (wordAt p.params 2)).stage (Reg.TX_NCO_PH q)
        (wordAt p.params 3), .ok []))

/-- TX_DAC: path; fs_range, nyq staged. -/
def execTxDac (p : Pkt) (s : State) : Out :=
  .next (s.command 0x502 p (p.is 3 && decide (p.arg 0 < s.part.paths ∧ p.arg 1 < 4 ∧ p.arg 2 < 2)) true true fun u =>
    u.onPaths [p.arg 0] fun u => (u.stage (Reg.TX_DAC (p.arg 0)) (toW (p.arg 2 * 16 + p.arg 1)), .ok []))

/-- TX_ENABLE: three mask words; tx_en staged; blank_en written at once (R631). -/
def execTxEnable (p : Pkt) (s : State) : Out :=
  .next (s.command 0x503 p (p.is 5 && s.maskOk p && decide (p.arg 3 < 2 ∧ p.arg 4 < 2)) true true fun u =>
    u.onPaths (maskPaths p) fun u => (u.forEach (maskPaths p) fun v q =>
      v.writeTxCtrl q (putFld (putFld (v.rd (Reg.TX_CTRL q)) 1 1 (p.arg 4)) 0 0 (p.arg 3)), .ok []))

/-- TX_MUTE: path; 1 force, 0 release (R248). -/
def execTxMute (p : Pkt) (s : State) : Out :=
  .next (s.command 0x504 p (p.is 2 && decide (p.arg 0 < s.part.paths ∧ p.arg 1 < 2)) true true fun u =>
    u.onPaths [p.arg 0] fun u =>
      let u1 := u.pf (Reg.TX_CTRL (p.arg 0)) 3 3 (p.arg 1)
      let u2 := if p.arg 1 = 1 then u1.muteForce (p.arg 0) else u1
      (u2, .ok [u2.rd (Reg.TX_STATUS (p.arg 0))]))

/-- Whether a row's bus, or the paths it serves, cannot take a frame (R257, R408, R540). -/
def State.busDown (s : State) (r : Nat) : Bool := s.rb (Reg.ROW_TX_STAT r) 16 || !s.rowOn r || !s.rowAvail r

/-- FE_WRITE: row; FE_QW0 value; frame. -/
def execFeWrite (p : Pkt) (s : State) : Out :=
  .next (s.command 0x505 p (p.is 3 && decide (p.arg 0 < s.part.rows)) true true fun u =>
    let r := p.arg 0
    if u.busDown r then (u, .status stITEM [])
    else if 64 ≤ (u.rowOf r).queue.length then (u, .status stRESOURCE [])
    else
      let u1 := u.fePush r (wordAt p.params 2) (wordAt p.params 1) none
      (u1, .ok [toW (u1.rowOf r).queue.length]))

/-- FE_READ: row; frame. The reply is ACCEPTED; the notice brings FE_RDATA. -/
def execFeRead (p : Pkt) (s : State) : Out :=
  .next (s.command 0x506 p (p.is 2 && decide (p.arg 0 < s.part.rows)) true true fun u =>
    let r := p.arg 0
    if u.busDown r then (u, .status stITEM [])
    else if 64 ≤ (u.rowOf r).queue.length then (u, .status stRESOURCE [])
    else (u.fePush r (wordAt p.params 1) (toW (2 ^ 29)) (some (p.ref 0x506 r)), .accepted r []))

/-- TDD_SET: carrier; en; pat_len_m1; first entry; up to 5 pairs of masks, all staged. -/
def execTddSet (p : Pkt) (s : State) : Out :=
  let n := (p.params.length - 4) / 2
  .next (s.command 0x507 p (p.flags == 0 && decide (4 ≤ p.params.length ∧ p.params.length = 4 + 2 * n ∧ n ≤ 5 ∧ p.arg 0 < 4 ∧ p.arg 1 < 2 ∧
      p.arg 2 < 80 ∧ p.arg 3 + n ≤ 80)) true true fun u =>
    let u1 := u.stage (Reg.TDD_CFG (p.arg 0)) (toW (p.arg 1 * 2 ^ 31 + p.arg 2))
    (u1.forEach (List.range n) fun v i =>
      (v.stage (Reg.TDD_DL (p.arg 0) (p.arg 3 + i)) (wordAt p.params (4 + 2 * i))).stage (Reg.TDD_UL (p.arg 0) (p.arg 3 + i))
        (wordAt p.params (5 + 2 * i)), .ok []))

/-- TDD_TIMING: row or 0xFF; TDD_TXT, TDD_RXT and duplex_en staged; txrx_gap written at once (R631). -/
def execTddTiming (p : Pkt) (s : State) : Out :=
  .next (s.command 0x508 p (p.is 5 && s.rowArgOk (p.arg 0) && decide (p.arg 3 < 2 ∧ p.arg 4 < 2 ^ 16)) true true fun u =>
    u.onRows (u.rowArgs (p.arg 0)) fun u => (u.forEach (u.rowArgs (p.arg 0)) fun v r =>
      (((v.stage (Reg.TDD_TXT r) (wordAt p.params 1)).stage (Reg.TDD_RXT r) (wordAt p.params 2)).stage (Reg.ROW_TX_CFG r)
        (toW (p.arg 3 * 2))).pf (Reg.ROW_TX_CFG r) 31 16 (p.arg 4), .ok []))

/-- TX_STATUS: path. -/
def execTxStatus (p : Pkt) (s : State) : Out :=
  .next (s.command 0x509 p (p.is 1 && decide (p.arg 0 < s.part.paths)) true true fun u =>
    let w := fun a => if u.pathOn (p.arg 0) then u.peek a else 0
    (u, .ok [w (Reg.TX_STATUS (p.arg 0)), w (Reg.ROW_TX_STAT (p.arg 0 / 4))]))

end Sys2Proof.Machine
end

