-- ==== Sys2Proof/Machine/Press.lean ====
section
/-!
DEFINITION. The Press loops, the leakage cancellers and the observation receivers (R275-R294), and their commands (R297). NMSE is
held in units of -0.25 dB: a greater number is a lower NMSE.
-/
namespace Sys2Proof.Machine

/-! ### Captures -/

/-- Captures per update of a loop's ADAPT register, and its least interval in ticks (R300). -/
def adaptNcap (w : Word) : Nat := fld w 15 12 + 1
def adaptPeriod (w : Word) : Nat := max 1 (fld w 11 0) * 1600000
/-- mu times 256 after a number of halvings (R284). -/
def adaptMu (w : Word) (halvings : Nat) : Nat := max 1 (fld w 27 20 / 2 ^ halvings)

/-- Whether a path's transmit output is up: TXEN high, not muted, not in blank idle (R277). -/
def State.txUp (s : State) (p : Nat) : Bool :=
  (s.txOf p).txen && !s.rb (Reg.TX_STATUS p) 0 && !s.rb (Reg.TX_STATUS p) 4

/-- The capture length of a row in samples (R276, R302). -/
def State.capLen (s : State) (r : Nat) : Nat := 2 ^ clampN (s.rf (Reg.ORX_CFG r) 3 0) 10 14

/-- Start a capture: the ORX moves to the observed position, and takes no capture for 200 ns after a change (R275). -/
def State.startCapture (s : State) (r kind path obs len : Nat) : State :=
  let moved := s.rf (Reg.ORX_STAT r) 31 30 != obs % 4
  let start := s.tick + (if moved then 320 else 0)
  let act := if kind = 0 then 1 else if kind = 1 then 2 else 3
  let s1 := (s.pf (Reg.ORX_STAT r) 31 30 (obs % 4)).pf (Reg.ORX_STAT r) 29 28 act
  let c : OrxCap := {
    kind := kind, path := path, start := start, len := len, obs := obs
    discard := kind ≤ 1 && (!s.txUp obs || (kind == 1 && !(s.txOf path).rxen)) }
  s1.setOrx r { s1.orxOf r with cap := some c, posTick := if moved then s.tick else (s1.orxOf r).posTick }

/-- The path that the Press rotation takes next: paths without adapt_en or whose loop does not run are passed over (R278). -/
def State.nextPressPath (s : State) (r : Nat) : Option Nat :=
  let x := s.orxOf r
  ((List.range 4).map (fun i => 4 * r + (x.nextPress + i) % 4)).find? fun p =>
    s.rb (Reg.PR_ADAPT p) 31 && (s.prState p == 1 || s.prState p == 2) && s.pathAvail p

/-- The receive path that the SBFD rotation takes next. -/
def State.nextSbfdPath (s : State) (r : Nat) : Option Nat :=
  let x := s.orxOf r
  ((List.range 4).map (fun i => 4 * r + (x.nextSbfd + i) % 4)).find? fun p =>
    s.rb (Reg.CAN_ADAPT p) 31 && s.rb (Reg.CAN_CFG p) 31 && (s.canState p == 1 || s.canState p == 2) && s.pathAvail p

/-- Whether a host capture may start now: ordered for now, or its comparator has fired (R55, R278). -/
def State.hostReady (s : State) (h : HostCap) : Bool :=
  h.time.isNone || s.tb.dues.any (fun d => d.line == 31 && d.refs.contains h.ref)

/-- The tick at which a calibration or host capture is over. -/
def OrxCap.closesAt (c : OrxCap) : Nat := c.start + c.len / 2

/-- Begin a host capture (R278, R297): its streams (ORX, four positions, two edge neighbours) go to its ring, 64 bits a sample. -/
def State.startHost (s : State) (r : Nat) (h : HostCap) : State :=
  let s1 := { s with tb := { s.tb with dues := s.tb.dues.filter (fun d => !(d.line == 31 && d.refs.contains h.ref)) } }
  let s2 := s1.setOrx r { s1.orxOf r with host := none }
  let s3 := (s2.startCapture r 3 (4 * r + h.pos) (4 * r + h.pos) (2 ^ h.log2)).bump (Cnt.orxRow r 3)
  let s4 := s3.bumpF (Reg.ORX_STAT r) 15 0
  s4.deliver h.ring { code := 0x02, detail := r * 256 + h.pos, len := 7 * 8 * 2 ^ h.log2, ref := some h.ref }

/-- ORX_CAPTURE_START, R278: row `r` starts the capture that has precedence: a host capture, else a Press or SBFD capture in the
ratio of the shares. One that would overlap a scheduled calibration capture is not started. -/
def execOrxCaptureStart (r : Nat) (s : State) : Out :=
  let x0 := s.orxOf r
  let s0 := match x0.cap with
    | some c => if 2 ≤ c.kind then (s.advanceTo c.closesAt).endCapture r else s
    | none => s
  let x := s0.orxOf r
  let cfg := s0.rd (Reg.ORX_CFG r)
  .next <| if s.part.rows ≤ r ∨ !s.tileRuns (r / 6) ∨ s.quiet (r / 6) ∨ !s.rowAvail r ∨ x.cap.isSome ∨ !bit cfg 31 then s
  else
    let clash := fun (len : Nat) => s0.calClash r s0.tick (s0.tick + 320 + len / 2)
    match x.host with
    | some h =>
      if s0.hostReady h ∧ !clash (2 ^ h.log2) then s0.startHost r h else s
    | none =>
      let wp := fld cfg 23 20
      let ws := fld cfg 19 16
      let pp := if wp = 0 then none else s0.nextPressPath r
      let sp := if ws = 0 then none else s0.nextSbfdPath r
      let bothMet := decide ((x.pressRun ≥ wp ∨ pp.isNone) ∧ (x.sbfdRun ≥ ws ∨ sp.isNone))
      let pr := if bothMet then 0 else x.pressRun
      let sr := if bothMet then 0 else x.sbfdRun
      let len := s0.capLen r
      if clash len then s
      else match pp, sp with
        | some p, _ =>
          if pr < wp then
            (s0.startCapture r 0 p p len).setOrx r { (s0.startCapture r 0 p p len).orxOf r with pressRun := pr + 1, sbfdRun := sr, nextPress := (p + 1) % 4 }
          else match sp with
            | some v =>
              let o := 4 * r + x.nextObs % 4
              let s1 := s0.startCapture r 1 v o len
              s1.setOrx r { s1.orxOf r with pressRun := pr, sbfdRun := sr + 1, nextSbfd := (v + 1) % 4, nextObs := x.nextObs + 1 }
            | none => s
        | none, some v =>
          let o := 4 * r + x.nextObs % 4
          let s1 := s0.startCapture r 1 v o len
          s1.setOrx r { s1.orxOf r with pressRun := pr, sbfdRun := sr + 1, nextSbfd := (v + 1) % 4, nextObs := x.nextObs + 1 }
        | none, none => s

/-- What ends with a capture (R277, R302): its count, and the clip flag. -/
def State.captureOver (s : State) (r : Nat) (c : OrxCap) (clip : Bool) : State :=
  let s1 := (((s.advanceTo c.closesAt).endCapture r).bump (Cnt.orxRow r c.kind)).bumpF (Reg.ORX_STAT r) 15 0
  if clip then (s1.pb (Reg.ORX_STAT r) 27 true).bump (Cnt.orxRow r 5) else s1

/-! ### The Press loop -/

/-- A Press loop diverges (R284). -/
def State.pressDiverge (s : State) (p : Nat) : State :=
  let x := s.prOf p
  let ds := s.recentDivs x.divTicks ++ [s.tick]
  let s1 := s.setPr p { x with
    divTicks := ds, reverting := true, caps := 0, judge := false, rises := 0, badCaps := 0, ready := false, setCaps := 0
    setGood := true, goodSets := 0 }
  let s2 := ((s1.pendCoefs p (s1.goodCoefs p)).bump (Cnt.prPath p 3)).pf (Reg.PR_STAT p) 27 26 (min 3 ds.length)
  let s3 := s2.tileEvent (p / 24) 0x10 (p / 24) false (toW p)
  if 3 ≤ ds.length then ((s3.setPrState p 4).pb (Reg.PR_STAT p) 25 true).hubEvent 0x08 p else s3.setPrState p 3

/-- Judge the NMSE of a capture (R282, R283): the checks, the last-good set, and the captures of the running set. -/
def State.pressJudge (s : State) (p : Nat) (n : Int) : State :=
  let x := s.prOf p
  let lim := s.rd (Reg.PR_LIMIT p)
  let ncap := adaptNcap (s.rd (Reg.PR_ADAPT p))
  let bad := if n < (fld lim 23 16 : Nat) then x.badCaps + 1 else 0
  let rose := match x.before with
    | some b => x.judge && decide (n < b - 4)
    | none => false
  let rises := if x.judge then (if rose then x.rises + 1 else 0) else x.rises
  let good := x.setGood && decide ((fld lim 15 8 : Nat) ≤ n)
  let full := decide (ncap ≤ x.setCaps + 1)
  let sets := if full then (if good ∧ x.adaptedLive then x.goodSets + 1 else 0) else x.goodSets
  let s1 := s.setPr p { x with
    badCaps := bad, rises := rises, judge := false, setCaps := if full then 0 else x.setCaps + 1
    setGood := if full then true else good, goodSets := sets }
  if 2 ≤ bad ∨ max 1 (fld lim 31 28) ≤ rises then s1.pressDiverge p
  else if full ∧ 2 ≤ sets then s1.wrList (Reg.PR_GOOD_LO p 0) x.coefs
  else s1

/-! ### Measures of a capture -/

/-- Whether a sample reaches -0.5 dBFS (R277): |x| / 2^23 at least 10^(-1/40). -/
def nearFull (x : Cx) : Bool := decide ((2 ^ 46) ^ 20 ≤ x.power ^ 20 * 10)

/-- The same of an ADC code, whose full scale is 2,048. -/
def codeNearFull (c : Int) : Bool := decide ((2 ^ 22) ^ 20 ≤ ((c * c).toNat) ^ 20 * 10)

/-- Whether the RMS of a list of samples lies below -40 dBFS (R277). -/
def quietRms (l : List Cx) : Bool := decide (powerSum l * 10000 < l.length * 2 ^ 46)

/-- The samples of a stream that a capture takes (R276). -/
def OrxCap.record (c : OrxCap) (x : Sig) : List Cx := (List.range c.len).map (fun i => x (2 * (c.start : Int) + (i : Int)))

/-- ORX samples as an operand brings them, as a stream from the first sample of the capture. -/
def orxSig (o : List (Int × Int)) : Sig := fun n =>
  if n < 0 then cx0 else (let v := o.getD n.toNat (0, 0); { i := satN v.1 24, q := satN v.2 24 })

/-- The ORX stream aligned by a loop delay in 1/64 sample (R279). -/
def alignOrx (delay : Nat) (o : Sig) : Sig := fun n =>
  if delay % 64 = 0 then o (n + ((delay / 64 : Nat) : Int)) else fir 7 0 (delay % 64) o (n + ((delay / 64 : Nat) : Int))

/-- Samples of a capture at which the aligned ORX stream lies inside it. -/
def alignedLen (len delay : Nat) : Nat := len - (delay + 63) / 64

/-- The aligned ORX samples and x of a capture. -/
def alignedPairs (len delay : Nat) (o : Sig) (x : List Cx) : List (Cx × Cx) :=
  (List.range (alignedLen len delay)).map (fun (n : Nat) => (alignOrx delay o (n : Int), x.getD n cx0))

/-- The mean complex ratio of ORX samples to x in units of 2^-20 (R279), weighted by power (DEDUCED, log entry 54). -/
def meanRatio (l : List (Cx × Cx)) : Int × Int :=
  let num := cxDot (l.map (fun (v : Cx × Cx) => (v.1, cxConj v.2)))
  let den := powerSum (l.map Prod.snd)
  if den = 0 then (0, 0) else (divRound (num.i * 2 ^ 20) den, divRound (num.q * 2 ^ 20) den)

/-- The error o / G - x of each sample, times |G|^2 in units of 2^-40 (R279, R280). -/
def errTimes (g : Int × Int) (l : List (Cx × Cx)) : List Cx :=
  let gc : Cx := { i := g.1, q := -g.2 }
  let m : Int := g.1 * g.1 + g.2 * g.2
  l.map (fun (v : Cx × Cx) => cxSub (cxShl 20 (cxMul v.1 gc)) { v.2 with i := v.2.i * m, q := v.2.q * m })

/-- The NMSE of a capture against a gain reference, in units of -0.25 dB (R279). -/
def nmseOf (g : Int × Int) (l : List (Cx × Cx)) : Int :=
  let gg := (g.1 * g.1 + g.2 * g.2).toNat
  let err := powerSum (errTimes g l)
  if err = 0 then 0x7FFF else satN (logRound 40 (gg * gg * powerSum (l.map Prod.snd)) err) 16

/-- The uplink subbands that carriers declare, with their guards, from the path centre in kHz (R287): lower and upper edge, and ul_wt. -/
def State.subbands (s : State) : List (Int × Int × Nat) :=
  ((List.range 4).filter (fun c => s.rb (Reg.SBFD_BAND c) 31 && s.carValid c)).map (fun c =>
    let cfg := s.carCfg c
    let first : Int := s.rf (Reg.SBFD_BAND c) 26 16
    let n : Int := s.rf (Reg.SBFD_BAND c) 11 0
    let guard : Int := s.rf (Reg.SBFD_GUARD c) 7 0
    let edge := fun (prb : Int) => carOfs (s.rd (Reg.CAR_OFS c)) + (12 * prb - (6 * cfgNprb cfg : Nat)) * (carScs cfg : Int)
    (edge (first - guard), edge (first + n + guard), min 6 (s.rf (Reg.SBFD_GUARD c) 11 8)))

/-- The weights of R280 by frequency bin of a capture of `n` samples; none while no subband is declared. -/
def State.fitWeights (s : State) (n : Nat) : Option (List Nat) :=
  let bs := s.subbands
  if bs = [] then none
  else some ((List.range n).map (fun f => ulWeight (((bs.filter (fun b => binIn n f b.1 b.2.1)).map (fun b => b.2.2)).foldl max 0)))

/-- The power of a stream over the frequencies outside every subband and guard (R293). -/
def State.powerOutside (s : State) (l : List Cx) : Nat :=
  let bs := s.subbands
  let w := if bs = [] then none
    else some ((List.range l.length).map (fun f => if bs.any (fun b => binIn l.length f b.1 b.2.1) then 0 else 2 ^ 20))
  (innerW w l l).i.toNat

/-! ### The Press loop at a capture -/

/-- Slots of the terms of a Press model, and the columns of a capture's matrix (R280): the terms at each sample whose taps the capture
holds. `xs` holds the captured streams: the path's and its neighbours'. -/
def pressSlots (cfg : Word) (nq : Nat) : List Nat := (pressTerms cfg (fun _ => cx0) (List.replicate nq (fun _ => cx0)) 0).map Prod.fst
def listSig (l : List Cx) : Sig := fun n => if n < 0 then cx0 else l.getD n.toNat cx0
def pressFirst (cfg : Word) : Nat := (max (prM cfg) (if bit cfg 13 then prMc cfg else 1) - 1) * prD cfg
def pressCols (cfg : Word) (xs : List (List Cx)) (len : Nat) : List (List Cx) :=
  let x := listSig (xs.headD [])
  let qs := xs.tail.map listSig
  let rows := (List.range (len - pressFirst cfg)).map (fun i =>
    (pressTerms cfg x qs ((pressFirst cfg + i : Nat) : Int)).map (fun (t : Nat × Cx) => t.2))
  (List.range (pressSlots cfg qs.length).length).map (fun k => rows.map (fun r => r.getD k cx0))

/-- The normal equations of one Press capture (R280). -/
def State.pressFit (s : State) (p : Nat) (xs : List (List Cx)) (l : List (Cx × Cx)) : Fit :=
  let x := s.prOf p
  let err := (errTimes x.gref l).drop (pressFirst x.cfg)
  captureFit (s.fitWeights err.length) (pressCols x.cfg xs l.length) err (x.gref.1 * x.gref.1 + x.gref.2 * x.gref.2).toNat

/-- A capture counts toward the next update (R280): none is taken while a set is pending, nor more often than once per period. -/
def State.pressCollect (s : State) (p : Nat) (xs : List (List Cx)) (l : List (Cx × Cx)) : State :=
  let x := s.prOf p
  let a := s.rd (Reg.PR_ADAPT p)
  if s.prState p ≠ 2 ∨ x.adapted.isSome ∨ x.ready then s
  else
    let fit := addFit (if x.caps = 0 then {} else x.fit) (s.pressFit p xs l)
    if adaptNcap a ≤ x.caps + 1 ∧ (x.lastSet = 0 ∨ x.lastSet + adaptPeriod a ≤ s.tick) then
      s.setPr p { x with caps := 0, ready := true, lastSet := s.tick, fit := fit, cap := xs }
    else s.setPr p { x with caps := x.caps + 1, fit := fit, cap := xs }

/-- Drift of a path's ORX response relative to its row mean from the stored one (R351): by more than drift_gain x 0.05 dB or
drift_ph x 0.1 degree. -/
def State.drifted (s : State) (p : Nat) : Bool :=
  let t := s.rd Reg.CAL_TRK
  let cxOf := fun (v : Int × Int) => ({ i := v.1, q := v.2 } : Cx)
  let now_ := fun (q : Nat) => (s.prOf q).resp
  let old := fun (q : Nat) => Sparse.get (fun _ => none) s.cal.stored q
  let row := ((List.range 4).map (4 * (p / 4) + ·)).filter (fun q => (now_ q).isSome && (old q).isSome)
  let sumOf := fun (f : Nat → Option (Int × Int)) => cxSum (row.filterMap (fun q => (f q).map cxOf))
  match now_ p, old p with
  | some a, some b =>
    let x := cxMul (cxOf a) (sumOf old)
    let y := cxMul (cxOf b) (sumOf now_)
    let g := fld t 15 8
    let off := angleOf 16 (cxMul x (cxConj y))
    decide (y.power ^ 200 * 10 ^ g < x.power ^ 200) || decide (x.power ^ 200 * 10 ^ g < y.power ^ 200) ||
      decide (fld t 7 0 * 65536 < min off (65536 - off) * 3600)
  | _, _ => false
def State.calDrift (s : State) (p : Nat) : State :=
  if s.rb Reg.CAL_CFG 28 ∧ s.drifted p then
    let s1 := ((s.pb (Reg.CAL_PSTAT p) 31 true).pb Reg.CAL_STAT 21 true).bump (Cnt.cal 7)
    { s1 with cal := { s1.cal with request := true } }
  else s

/-- PRESS_CAPTURE_DONE, R277, R279: the Press capture of row `r` ends with the samples of its ORX; x comes from the path's own chain. `delay`
is the loop delay that cross-correlation finds, in 1/64 sample. -/
def execPressCaptureDone (r : Nat) (o : List (Int × Int)) (delay : Nat) (s : State) : Out :=
  .next <| match (s.orxOf r).cap with
  | none => s
  | some c =>
    if c.kind ≠ 0 then s
    else
      let p := c.path
      let clip := (List.range c.len).any (fun i => nearFull (orxSig o (i : Int)))
      let s1 := s.captureOver r c clip
      let xs := (p :: neighbours p).map (fun q => c.record (if q = p then s1.xAt q else s1.sourceAt (s1.prOf p).zeroed q))
      let x := xs.headD []
      let d := c.discard || clip || quietRms x || x.any Cx.bad || !s1.txUp p || decide (c.start < (s1.txOf p).broken)
      let st := s1.prState p
      if d then s1.countDiscard c
      else if st = 2 ∧ s1.rb (Reg.PR_LOOP p) 31 ∧ (128 < delay - s1.rf (Reg.PR_LOOP p) 17 0 ∨ 128 < s1.rf (Reg.PR_LOOP p) 17 0 - delay) then
        (s1.countDiscard c).restartPress p
      else if st ≠ 1 ∧ st ≠ 2 then s1
      else
        let s2 := (s1.bump (Cnt.prPath p 5)).wr (Reg.PR_LOOP p) (toW (2 ^ 31 + delay % 2 ^ 18))
        let l := alignedPairs c.len delay (orxSig o) x
        let ratio := meanRatio l
        let g := s2.rdPair (Reg.PR_GREF_LO p) (Reg.PR_GREF_HI p) % 2 ^ 48
        let s3 := if st = 1 then
            (s2.setPr p { s2.prOf p with gref := if g = 0 then ratio else (sext (g / 2 ^ 24) 24, sext g 24) }).setPrState p 2
          else s2
        let s3a := s3.setPr p { s3.prOf p with resp := some ratio }
        let nmse := nmseOf (s3a.prOf p).gref l
        let s4 := (s3a.pf (Reg.PR_STAT p) 15 0 (wrapN nmse 16)).pressJudge p nmse
        let s5 := if st = 2 then s4.pressCollect p xs l else s4
        s5.calDrift p

/-- Neighbour slot that a coupled coefficient slot belongs to (R271). -/
def slotNeighbour (cfg : Word) (slot : Nat) : Option Nat :=
  if slot < 48 then none else some ((slot - 48) / ((fld cfg 17 16 + 1) * (fld cfg 15 14 + 1)))

/-- Whether a component fits the 24-bit range of R271. -/
def in24 (v : Int) : Bool := decide (-8388608 ≤ v ∧ v ≤ 8388607)

/-- c_new = c - mu * delta, R280, from the solution in units of 1.0; the slots of a neighbour that enters as zero are left (R281, R406). -/
def State.newCoefs (s : State) (p : Nat) : List (Int × Int) :=
  let x := s.prOf p
  let mu := adaptMu (s.rd (Reg.PR_ADAPT p)) x.halvings
  let delta := (pressSlots x.cfg (neighbours p).length).zip (x.fit.solution (fld (s.rd (Reg.PR_ADAPT p)) 19 16))
  (List.range 64).map fun n =>
    let c := slotCx x.coefs n
    let held := match slotNeighbour x.cfg n with
      | some k => decide ((neighbours p).getD k 999 ∈ x.zeroed)
      | none => false
    match delta.find? (fun (d : Nat × Cx × Nat) => d.1 == n) with
    | some d =>
      if held then (c.i, c.q)
      else (c.i - divRound ((mu : Int) * d.2.1.i * 2 ^ 20) (256 * max 1 d.2.2), c.q - divRound ((mu : Int) * d.2.1.q * 2 ^ 20) (256 * max 1 d.2.2))
    | none => (c.i, c.q)

/-- Whether a peak power exceeds another by more than `half` times 0.5 dB: (a / b)^20 > 10^half. -/
def peakOver (a b half : Nat) : Bool := decide (b ^ 20 * 10 ^ half < a ^ 20)

/-- The peak power of the Press output that a set gives on a capture, and that of x (R282). -/
def pressPeaks (cfg : Word) (coefs : List Word) (xs : List (List Cx)) : Nat × Nat :=
  let x := listSig (xs.headD [])
  let qs := xs.tail.map listSig
  let ns := (List.range ((xs.headD []).length - pressFirst cfg)).map (fun i => ((pressFirst cfg + i : Nat) : Int))
  ((ns.map (fun n => (pressSample cfg coefs x qs n).1.power)).foldl max 0, ((xs.headD []).map Cx.power).foldl max 0)

/-- PRESS_UPDATE_READY, R280, R282: the update of path `p` is computed from the captures collected, and placed in the adapted latch when it
passes the checks. -/
def execPressUpdateReady (p : Nat) (s : State) : Out :=
  let x := s.prOf p
  .next <| if !x.ready ∨ s.prState p ≠ 2 ∨ !s.pathAvail p then s
  else
    let s1 := s.setPr p { x with ready := false, fit := {} }
    let cs := s.newCoefs p
    let ws := (cs.map (fun c => [pairLo c.1 c.2, pairHi c.1])).flatten
    let pk := pressPeaks x.cfg ws x.cap
    if cs.any (fun c => !in24 c.1 || !in24 c.2) ∨ peakOver pk.1 pk.2 (min 12 (s.rf (Reg.PR_LIMIT p) 27 24)) then
      s1.bump (Cnt.prPath p 1)
    else s1.pendCoefs p ws

/-- PRESS_HOLD_EXPIRY, R284: the loop returns to ACQUIRE with mu halved. -/
def execPressHoldExpiry (p : Nat) (s : State) : Out :=
  .next <| match (s.prOf p).holdEnd with
  | some t =>
    if s.prState p = 3 then
      let s1 := s.advanceTo t
      (s1.setPr p { s1.prOf p with halvings := (s1.prOf p).halvings + 1 }).restartPress p
    else s
  | none => s

/-! ### The canceller -/

/-- A canceller diverges (R294): first a revert to the last-good taps, then, within 10 s, all taps zero and FAILED. -/
def State.canDiverge (s : State) (p : Nat) : State :=
  let x := s.canOf p
  let ds := s.recentDivs x.divTicks ++ [s.tick]
  let second := decide (2 ≤ ds.length)
  let s1 := s.setCan p { x with
    divTicks := ds, reverting := !second, zeroNext := second, caps := 0, ready := false, lowRun := 0, dropRun := 0 }
  let s2 := (s1.pendTaps p (if second then List.replicate 256 0 else s1.goodTaps p)).bump (Cnt.canPath p 1)
  if second then s2 else s2.setCanState p 3

/-- Judge the cancellation measured on a capture (R293, R294), in units of 0.25 dB. -/
def State.canJudge (s : State) (p : Nat) (c : Int) : State :=
  let x := s.canOf p
  let ncap := adaptNcap (s.rd (Reg.CAN_ADAPT p))
  let best := if x.best < c then c else x.best
  let good := x.setGood && decide (best - 12 ≤ c)
  let full := decide (ncap ≤ x.setCaps + 1)
  let sets := if full then (if good then x.goodSets + 1 else 0) else x.goodSets
  let low := if c < 0 then x.lowRun + 1 else 0
  let drop := if c < x.goodCanc - 40 then x.dropRun + 1 else 0
  let s1 := s.setCan p { x with
    best := best, setCaps := if full then 0 else x.setCaps + 1, setGood := if full then true else good, goodSets := sets
    lowRun := low, dropRun := drop, goodCanc := if full ∧ 2 ≤ sets then c else x.goodCanc }
  if 3 ≤ low ∨ 3 ≤ drop then s1.canDiverge p
  else if full ∧ 2 ≤ sets then s1.wrList (Reg.CAN_GOOD_LO p 0) ((List.range 256).map (wordAt x.taps))
  else s1

/-- The terms of a canceller at a sample (R288), each with its slot, as a stream of its own. -/
def State.canTerm (s : State) (v slot : Nat) : Sig :=
  let h := s.rxSnap v
  let k := slot / canSlots h.cfg
  let j := slot % canSlots h.cfg
  let q := (v :: neighbours v).getD k v
  fun n =>
    if j < canLm h.cfg then s.canSource v q (n - (h.delay : Int) - (j : Int))
    else
      let at_ := n - (h.delay : Int) - ((j - canLm h.cfg : Nat) : Int)
      timesEnv (s.canSource v q at_) (envelopeOf (s.xAt q at_))

/-- Slots that a canceller's configuration uses. -/
def State.canUsed (s : State) (v : Nat) : Nat := (1 + (neighbours v).length) * canSlots (s.canOf v).cfg

/-- The normal equations of one SBFD capture (R290). -/
def State.canFit (s : State) (v : Nat) (c : OrxCap) (pre : List Cx) : Fit :=
  captureFit (s.fitWeights c.len) ((List.range (s.canUsed v)).map (fun k => c.record (s.canTerm v k))) pre 1

/-- The NMSE of the source observed in an SBFD capture, by its own loop's delay and gain reference (R290); none where it has none. -/
def State.sourceNmse (s : State) (c : OrxCap) (o : List (Int × Int)) : Option Int :=
  let g := (s.prOf c.obs).gref
  let delay := s.rf (Reg.PR_LOOP c.obs) 17 0
  if s.rb (Reg.PR_LOOP c.obs) 31 ∧ g ≠ (0, 0) then
    some (nmseOf g (alignedPairs c.len delay (orxSig o) (c.record (s.xAt c.obs))))
  else none

/-- SBFD_CAPTURE_DONE, R277, R290, R293: the SBFD capture of row `r` ends with the samples of its ORX and the ADC codes of the victim. `delay`
is the leakage delay that cross-correlation finds, in 1/64 sample. -/
def execSbfdCaptureDone (r : Nat) (o : List (Int × Int)) (adc : List Int) (delay : Nat) (s : State) : Out :=
  .next <| match (s.orxOf r).cap with
  | none => s
  | some c0 =>
    if c0.kind ≠ 1 then s
    else
      let v := c0.path
      let s0 := (s.advanceTo (c0.closesAt + 8)).feed v adc
      let c := ((s0.orxOf r).cap).getD c0
      let codes := (List.range (5 * c.len / 2)).map (fun i => (s0.adcAt v (5 * (c.start : Int) + (i : Int))).1)
      let clip := (List.range c.len).any (fun i => nearFull (orxSig o (i : Int)))
      let s1 := s0.captureOver r c clip
      let x := c.record (s1.xAt c.obs)
      let d := c.discard || clip || codes.any codeNearFull || quietRms x || x.any Cx.bad || !s1.txUp c.obs ||
        decide (c.start < (s1.txOf c.obs).broken) || !(s1.txOf v).rxen || decide (c.start < (s1.txOf v).rxFall) ||
        s1.rb (Reg.RX_STATUS v) 7 || decide (c.start < (s1.adcOf v).ovlTick)
      let st := s1.canState v
      if d then s1.countDiscard c
      else if (st ≠ 1 ∧ st ≠ 2) ∨ !s1.pathAvail v then s1
      else
        let pre := c.record (fun n => (s1.resampleAt v n).1)
        let post := c.record (fun n => (s1.subtractAt v n).1)
        let canc := if s1.powerOutside post = 0 then 0x7FFF else satN (logRound 40 (s1.powerOutside pre) (s1.powerOutside post)) 16
        let s2 := (s1.bump (Cnt.canPath v 3)).pf (Reg.CAN_STAT v) 15 0 (wrapN canc 16)
        let far := st = 1 ∧ s2.rb (Reg.CAN_CFG v) 19 ∧ 511 * 64 < delay
        let s3 := if st = 1 ∧ s2.rb (Reg.CAN_CFG v) 19 then s2.wr (Reg.CAN_DLY v) (toW (2 ^ 31 + delay % 2 ^ 15)) else s2
        let fits := (s1.sourceNmse c o).any (fun (n : Int) => decide ((s3.rf (Reg.PR_LIMIT v) 23 16 : Int) ≤ n))
        if far then s3.pb (Reg.CAN_STAT v) 25 true
        else
          let a := s3.rd (Reg.CAN_ADAPT v)
          let y := s3.canOf v
          let s4 := if !fits ∨ y.adapted.isSome ∨ y.ready then s3
            else
              let fit := addFit (if y.caps = 0 then {} else y.fit) (s3.canFit v c pre)
              if adaptNcap a ≤ y.caps + 1 ∧ (y.lastSet = 0 ∨ y.lastSet + adaptPeriod a ≤ s3.tick) then
                s3.setCan v { y with caps := 0, ready := true, lastSet := s3.tick, fit := fit }
              else s3.setCan v { y with caps := y.caps + 1, fit := fit }
          if st = 2 then s4.canJudge v canc else s4

/-- CAN_UPDATE_READY, R290: the fit of path `p` is solved over the captures collected: h_new = (1 - mu) h + mu h^, where a tap of 1.0 adds its
term times 2^sh. -/
def execCanUpdateReady (p : Nat) (s : State) : Out :=
  let x := s.canOf p
  .next <| if !x.ready ∨ !(s.canState p = 1 ∨ s.canState p = 2) ∨ !s.pathAvail p then s
  else
    let mu := adaptMu (s.rd (Reg.CAN_ADAPT p)) 0
    let h := x.fit.solution (fld (s.rd (Reg.CAN_ADAPT p)) 19 16)
    let ts := (List.range 128).map fun n =>
      let c := slotCx x.taps n
      match h[n]? with
      | some d =>
        let one := fun (v : Int) => divRound (v * 2 ^ 22) (max 1 d.2 * 2 ^ fld x.cfg 18 16)
        let i' := satN (c.i + divRound ((mu : Int) * (one d.1.i - c.i)) 256) 24
        let q' := satN (c.q + divRound ((mu : Int) * (one d.1.q - c.q)) 256) 24
        [pairLo i' q', pairHi i']
      | none => [wordAt x.taps (2 * n), wordAt x.taps (2 * n + 1)]
    (s.setCan p { x with ready := false, fit := {} }).pendTaps p ts.flatten

/-- CAN_HOLD_EXPIRY, R294: the canceller returns to TRACK. -/
def execCanHoldExpiry (p : Nat) (s : State) : Out :=
  .next <| match (s.canOf p).holdEnd with
  | some t => if s.canState p = 3 then ((s.advanceTo t).setCan p { s.canOf p with holdEnd := none }).setCanState p 2 else s
  | none => s

/-! ### Writes of the loop registers -/

/-- Write PR_ADAPT (R284, R300): adapt_en written 0 stops the loop (HELD stays shown), 0 then 1 restarts it. -/
def State.writePrAdapt (s : State) (p : Nat) (w : Word) : State :=
  let old := s.rb (Reg.PR_ADAPT p) 31
  let s1 := s.poke (Reg.PR_ADAPT p) w
  let st := s1.prState p
  if st = 5 ∨ old = bit w 31 then s1
  else if bit w 31 then (s1.setPr p { s1.prOf p with halvings := 0 }).restartPress p
  else if st = 4 then s1
  else s1.restartPress p

/-- Write CAN_ADAPT: fit_en starts and stops fitting. A FAILED canceller stays so (R294). -/
def State.writeCanAdapt (s : State) (p : Nat) (w : Word) : State :=
  let old := s.rb (Reg.CAN_ADAPT p) 31
  let s1 := s.poke (Reg.CAN_ADAPT p) w
  let st := s1.canState p
  if st = 4 ∨ st = 5 ∨ old = bit w 31 then s1 else s1.restartCan p

/-! ### Commands -/

/-- PR_SET: path; PR_CFG staged. -/
def execPrSet (p : Pkt) (s : State) : Out :=
  .next (s.command 0x600 p (p.is 2 && decide (p.arg 0 < s.part.paths)) true true fun u =>
    u.onPaths [p.arg 0] fun u => (u.stage (Reg.PR_CFG (p.arg 0)) (wordAt p.params 1), .ok []))

/-- PR_COEF_SET: path in [22:16] and first slot in [5:0]; count 1-6; LO, HI pairs, staged. -/
def execPrCoefSet (p : Pkt) (s : State) : Out :=
  let path := fld (wordAt p.params 0) 22 16
  let first := fld (wordAt p.params 0) 5 0
  let n := p.arg 1
  .next (s.command 0x601 p (p.flags == 0 && decide (1 ≤ n ∧ n ≤ 6 ∧ p.params.length = 2 + 2 * n ∧ first + n ≤ 64 ∧ path < s.part.paths)) true true
    fun u => u.onPaths [path] fun u => (u.forEach (List.range n) fun v i =>
      (v.stage (Reg.PR_COEF_LO path (first + i)) (wordAt p.params (2 + 2 * i))).stage (Reg.PR_COEF_HI path (first + i))
        (wordAt p.params (3 + 2 * i)), .ok []))

/-- One action of PR_ADAPT on a path: 0 freeze, 1 start, 2 revert to last-good, 3 load identity (R272, R284). -/
def State.prAction (s : State) (a p : Nat) : State :=
  if a = 0 then
    let s1 := s.pb (Reg.PR_ADAPT p) 31 false
    s1.restartPress p
  else if a = 1 then
    let s1 := s.pb (Reg.PR_ADAPT p) 31 true
    (s1.setPr p { s1.prOf p with halvings := 0, divTicks := [] }).restartPress p
  else if a = 2 then
    let s1 := (s.setPr p { s.prOf p with reverting := true, halvings := 0, ready := false, caps := 0 }).pendCoefs p (s.goodCoefs p)
    if s.rb (Reg.PR_ADAPT p) 31 then s1.setPrState p 3 else s1.setPrState p 0
  else
    let s1 := s.setPr p { s.prOf p with reverting := false, halvings := 0 }
    (s1.restartPress p).pendCoefs p identityCoefs

/-- Whether a mask names a path whose row or path is faulted (R285, R408). -/
def State.anyFaulted (s : State) (ps : List Nat) : Bool := ps.any (fun q => !s.pathAvail q || !s.rowAvail (q / 4))

/-- PR_ADAPT: three mask words; action. -/
def execPrAdapt (p : Pkt) (s : State) : Out :=
  .next (s.command 0x602 p (p.is 4 && s.maskOk p && decide (p.arg 3 < 4)) true true fun u =>
    if u.anyFaulted (maskPaths p) then (u, .status stITEM [])
    else u.onPaths (maskPaths p) fun u => (u.forEach (maskPaths p) fun v q => v.prAction (p.arg 3) q, .ok []))

/-- PR_LIMITS: path or 0xFF; PR_ADAPT and PR_LIMIT values. -/
def execPrLimits (p : Pkt) (s : State) : Out :=
  .next (s.command 0x603 p (p.is 3 && s.pathArgOk (p.arg 0)) true true fun u =>
    u.onPaths (u.pathArgs (p.arg 0)) fun u => (u.forEach (u.pathArgs (p.arg 0)) fun v q =>
      (v.writePrAdapt q (wordAt p.params 1)).poke (Reg.PR_LIMIT q) (wordAt p.params 2), .ok []))

/-- PR_STATUS: path. -/
def execPrStatus (p : Pkt) (s : State) : Out :=
  .next (s.command 0x604 p (p.is 1 && decide (p.arg 0 < s.part.paths)) true true fun u =>
    let w := fun a => if u.pathOn (p.arg 0) then u.peek a else 0
    (u, .ok [w (Reg.PR_STAT (p.arg 0)), w (Reg.PR_LOOP (p.arg 0))]))

/-- The three mask words of a list of paths. -/
def maskWords (ps : List Nat) : List Word :=
  (List.range 3).map (fun k => toW (maskOf ((ps.filter (fun q => q / 32 = k)).map (· % 32))))

/-- PR_SAVE: three mask words; the sets of the paths in TRACK or HELD go to the Cellar (R286, R575). -/
def execPrSave (p : Pkt) (s : State) : Out :=
  .next (s.command 0x605 p (p.is 3 && s.maskOk p) true true fun u =>
    let ref := p.ref 0x605 0
    let ps := (maskPaths p).filter (fun q => u.pathOn q && (u.prState q == 2 || u.prState q == 4))
    if ps.any (fun q => u.celWriting 0x11 q) then (u, .status stBUSY [])
    else if ps = [] then (u, .status stPARTIAL (maskWords []))
    else match u.celRefuse 0x11 ps (ps.length * setBytes 384) with
      | some st => (u.celFull st, .status st [])
      | none =>
        let st := if ps.length = (maskPaths p).length then stOK else stPARTIAL
        let u1 := u.forEach ps fun v q =>
          v.orderSet 0x11 q ((v.prOf q).coefs ++ (List.range 256).map (wordAt (v.canOf q).taps)) (some ref)
        ({ u1 with host := { u1.host with plans := u1.host.plans ++ [(ref, st, maskWords ps)] } }, .accepted 0 []))

/-- PR_RESTORE: three mask words; the saved Press sets are staged. -/
def execPrRestore (p : Pkt) (s : State) : Out :=
  .next (s.command 0x606 p (p.is 3 && s.maskOk p) true true fun u =>
    u.onPaths (maskPaths p) fun u =>
      let ps := (maskPaths p).filter (fun q => (u.celSet 0x11 q).isSome)
      let u1 := u.forEach ps fun v q =>
        let ws := ((v.celSet 0x11 q).getD []).take 128
        v.forEach (List.range 128) fun x i => x.stage (Reg.PR_COEF_LO q 0 + 4 * i) (wordAt ws i)
      (u1, if ps.length = (maskPaths p).length then .ok (maskWords ps) else .status stPARTIAL (maskWords ps)))

/-- CAN_SET: path; CAN_CFG staged; CAN_ADAPT written at once (R631). -/
def execCanSet (p : Pkt) (s : State) : Out :=
  .next (s.command 0x607 p (p.is 3 && decide (p.arg 0 < s.part.paths)) true true fun u =>
    u.onPaths [p.arg 0] fun u =>
      ((u.stage (Reg.CAN_CFG (p.arg 0)) (wordAt p.params 1)).writeCanAdapt (p.arg 0) (wordAt p.params 2), .ok []))

/-- One action of CAN_FIT on a path: 0 freeze, 1 start, 2 revert, 3 zero taps (R294). -/
def State.canAction (s : State) (a p : Nat) : State :=
  if a = 0 then (s.pb (Reg.CAN_ADAPT p) 31 false).restartCan p
  else if a = 1 then
    let s1 := s.pb (Reg.CAN_ADAPT p) 31 true
    (s1.setCan p { s1.canOf p with divTicks := [], best := 0, goodSets := 0, zeroNext := false }).restartCan p
  else if a = 2 then
    let s1 := (s.setCan p { s.canOf p with reverting := true, ready := false, caps := 0 }).pendTaps p (s.goodTaps p)
    if s.rb (Reg.CAN_ADAPT p) 31 then s1.setCanState p 3 else s1.setCanState p 0
  else (s.setCan p { s.canOf p with reverting := false, zeroNext := false }).restartCan p |>.pendTaps p (List.replicate 256 0)

/-- CAN_FIT: three mask words; action. -/
def execCanFit (p : Pkt) (s : State) : Out :=
  .next (s.command 0x608 p (p.is 4 && s.maskOk p && decide (p.arg 3 < 4)) true true fun u =>
    if u.anyFaulted (maskPaths p) then (u, .status stITEM [])
    else u.onPaths (maskPaths p) fun u => (u.forEach (maskPaths p) fun v q => v.canAction (p.arg 3) q, .ok []))

/-- CAN_STATUS: path. -/
def execCanStatus (p : Pkt) (s : State) : Out :=
  .next (s.command 0x609 p (p.is 1 && decide (p.arg 0 < s.part.paths)) true true fun u =>
    let w := fun a => if u.pathOn (p.arg 0) then u.peek a else 0
    (u, .ok [w (Reg.CAN_STAT (p.arg 0)), w (Reg.CAN_DLY (p.arg 0))]))

/-- Whether an SBFD band lies inside a carrier of the given configuration (R287). -/
def bandFits (band cfg : Word) : Bool := !bit band 31 || decide (1 ≤ fld band 11 0 ∧ fld band 26 16 + fld band 11 0 ≤ cfgNprb cfg)

/-- SBFD_BAND: carrier; SBFD_BAND and SBFD_GUARD, staged. The carrier is the one the next commit would leave. -/
def execSbfdBand (p : Pkt) (s : State) : Out :=
  .next (s.command 0x60A p (p.is 3 && decide (p.arg 0 < 4) && bandFits (wordAt p.params 1) (s.srd (Reg.CAR_CFG (p.arg 0)))) true true fun u =>
    ((u.stage (Reg.SBFD_BAND (p.arg 0)) (wordAt p.params 1)).stage (Reg.SBFD_GUARD (p.arg 0)) (wordAt p.params 2), .ok []))

/-- ORX_SET: row or 0xFF; ORX_CFG value. -/
def execOrxSet (p : Pkt) (s : State) : Out :=
  .next (s.command 0x60C p (p.is 2 && s.rowArgOk (p.arg 0)) true true fun u =>
    u.onRows (u.rowArgs (p.arg 0)) fun u => (u.forEach (u.rowArgs (p.arg 0)) fun v r => v.poke (Reg.ORX_CFG r) (wordAt p.params 1), .ok []))

/-- ORX_CAPTURE: row; position; time or all 0 for now; cap_log2; host-bound ring. -/
def execOrxCapture (p : Pkt) (s : State) : Out :=
  let r := p.arg 0
  let now := p.arg 2 == 0 && p.arg 3 == 0 && p.arg 4 == 0
  .next (s.command 0x60D p (p.is 7 && decide (r < s.part.rows ∧ p.arg 1 < 4 ∧ 10 ≤ p.arg 5 ∧ p.arg 5 ≤ 14 ∧ 16 ≤ p.arg 6 ∧ p.arg 6 < 32) &&
      (now || s.ptpOk p.params 2) && s.ringFunc (p.arg 6) == some 9) true true fun u =>
    if !u.rowAvail r ∨ !u.rowOn r then (u, .status stITEM [])
    else if u.refsOf 0x60D r ≠ [] then (u, .status stBUSY [])
    else
      let ref := p.ref 0x60D r
      let h : HostCap := { ref := ref, pos := p.arg 1, log2 := p.arg 5, ring := p.arg 6, time := none }
      if now then (u.setOrx r { u.orxOf r with host := some h }, .accepted r [])
      else match u.freeCmp with
        | none => (u, .status stRESOURCE [])
        | some n =>
          let t := shortOf (ptpParam p.params 2)
          ((u.setOrx r { u.orxOf r with host := some { h with time := some t } }).schedule n 31 t 0 (some ref), .accepted r []))

end Sys2Proof.Machine
end

