-- ==== Sys2Proof/Machine/Trellis.lean ====
section
/-!
DEFINITION. The Trellis commands: writes to the stores, the weight-store commit (R156-R161), the staged fields (R160), the beams and
Trellis group of Chiast commands (R166) and null vectors for SBFD (R295).
-/
namespace Sys2Proof.Machine

/-! ### Writer locks -/

/-- Whether a commit must be deferred (R156, R161, R165): a lock of any reachable package is held, the copy runs, or the last executed
commit has not reached R. -/
def State.commitHeld (s : State) : Bool :=
  s.trLocks != 0 || (s.isLead && s.tr.peerLocks.any (fun (x : Nat × Nat) => decide (x.1 < s.reach) && x.2 != 0)) || s.rb Reg.TR_STATUS 2 || s.rb Reg.TR_STATUS 1

/-! ### Evaluation of a commit -/

/-- The end of a commit's evaluations: every command that ordered it gets the same notice. -/
def State.commitAnswer (s : State) (refs : List CmdRef) (status : Nat) (res : List Word) : State :=
  let s1 := { s with tr := { s.tr with defer := none, lastEval := some (s.tick, status, res) } }
  s1.forEach refs fun u r => u.finish r status res

/-- The lead relays an executed commit with its T and B to the members (R165). -/
def State.relayCommit (s : State) (b : Nat) : State :=
  match s.port 2 with
  | some l => if s.reach = 1 ∨ !s.isLead then s else
      s.sendMsg l 8 1 [toW s.tick, toW (s.tick / 2 ^ 32), toW (secOf b / 2 ^ 32), toW (secOf b), toW (nanoOf b)]
  | none => s

/-- Execute a commit at T = now with the boundary `b` (R157, R161). -/
def State.startCommit (s : State) (b defers : Nat) : State :=
  let gen := (s.rf Reg.TR_WS_GEN 15 0 + 1) % 2 ^ 16
  let s1 := (((s.pb Reg.TR_STATUS 1 true).wr Reg.TR_WC_B_LO (toW (shortOf b))).wr Reg.TR_WC_B_HI (toW (shortOf b / 2 ^ 32)))
  let s2 := (s1.wr Reg.TR_WC_REC (toW (2 ^ 30 + min defers 15 * 2 ^ 24 + gen))).bump (Cnt.trCommit 0)
  let s3 := (s2.pauseJobs).relayCommit b
  { s3 with tr := { s3.tr with exec := some {
    b := b, r := b + 50000 * nsU, mode := s.rb Reg.TR_CTRL 0, oldMode := s.rb Reg.TR_STATUS 3 } } }

/-- Evaluate a commit at the current tick with the deferrals it has had (R156, R157). -/
def State.evalCommit (s : State) (refs : List CmdRef) (defers : Nat) : State :=
  let gen := s.rf Reg.TR_WS_GEN 15 0
  if !s.commitHeld then
    let b := s.commitBoundary
    ((s.landAll).startCommit b defers).commitAnswer refs stOK [toW ((gen + 1) % 2 ^ 16), toW (shortOf b), toW (shortOf b / 2 ^ 32)]
  else if s.rf Reg.TR_WC_CFG 31 28 ≤ defers then
    let rec_ := toW (3 * 2 ^ 30 + min defers 15 * 2 ^ 24 + gen)
    let s1 := ((s.pb Reg.TR_STATUS 10 true).wr Reg.TR_WC_REC rec_).bump (Cnt.trCommit 2)
    (s1.hubEvent 0x04 (defers % 16)).commitAnswer refs stITEM [rec_]
  else
    let s1 := (s.wr Reg.TR_WC_REC (toW (2 * 2 ^ 30 + min (defers + 1) 15 * 2 ^ 24 + gen))).bump (Cnt.trCommit 1)
    { s1 with tr := { s1.tr with defer := some { refs := refs, defers := defers + 1, at_ := s.tick } } }

/-- A request for a commit at the current tick: on a package that is not the lead it is ignored (R165); one that has been evaluated on
this tick gives its answer (R60); a deferred one is joined and evaluated at once. -/
def State.requestCommit (s : State) (refs : List CmdRef) : State :=
  if !s.isLead then s.pb Reg.TR_STATUS 11 true
  else match s.tr.lastEval, s.tr.defer with
    | some (t, st, res), d =>
      if t = s.tick then s.forEach refs fun u r => u.finish r st res
      else match d with
        | some d =>
          if d.at_ = s.tick then { s with tr := { s.tr with defer := some { d with refs := d.refs ++ refs } } }
          else s.evalCommit (d.refs ++ refs) d.defers
        | none => s.evalCommit refs 0
    | none, some d =>
      if d.at_ = s.tick then { s with tr := { s.tr with defer := some { d with refs := d.refs ++ refs } } }
      else s.evalCommit (d.refs ++ refs) d.defers
    | none, none => s.evalCommit refs 0

/-- TR_WC_NOW_WRITE: the action of line 1 falls due on this tick. -/
def execTrWcNowWrite (w : Word) (s : State) : Out :=
  .next (s.access Reg.TR_WC_NOW fun s =>
    if !bit w 0 then s
    else if !s.isLead then s.pb Reg.TR_STATUS 11 true
    else { s with tb := { s.tb with dues := addDue s.tb.dues { line := 1, target := s.tick, late := false } } })

/-- WEIGHT_COMMIT_EVAL: the action of line 1 that is due is taken. -/
def execWeightCommitEval (s : State) : Out :=
  match s.takeDue 1 with
  | none => .next s
  | some (d, s1) => .next ((s1.advanceTo d.target).requestCommit d.refs)

/-- WEIGHT_COMMIT_REEVAL, R156: a deferred commit at the next slot boundary of wc_mu. -/
def execWeightCommitReeval (s : State) : Out :=
  match s.tr.defer with
  | none => .next s
  | some d =>
    let t := s.slotBoundaryFrom (s.rf Reg.TR_WC_CFG 25 24) false (s.timeAt d.at_ + 1)
    .next ((s.advanceTo (s.tickReaching t)).evalCommit d.refs d.defers)

/-- WEIGHT_SWITCH, R157 at B: the stores and tables exchange. -/
def execWeightSwitch (s : State) : Out :=
  match s.tr.exec with
  | none => .next s
  | some e =>
    if e.switched then .next s
    else
      let s1 := s.advanceTo (s.tickReaching e.b)
      let s2 := (s1.pf Reg.TR_STATUS 0 0 (1 - s1.liveStore)).pb Reg.TR_STATUS 3 e.mode
      .next { s2 with tr := { s2.tr with exec := some { e with switched := true } } }

/-- WEIGHT_RETIRE, R157 at R: the old store becomes idle and writable, live_gen increases, and the copy starts (R159). -/
def execWeightRetire (s : State) : Out :=
  match s.tr.exec with
  | none => .next s
  | some e =>
    if !e.switched then .next s
    else
      let s1 := (s.advanceTo (s.tickReaching e.r)).pb Reg.TR_STATUS 1 false
      let s2 := s1.pf Reg.TR_WS_GEN 15 0 (s1.rf Reg.TR_WS_GEN 15 0 + 1)
      let s3 := s2.pb Reg.TR_STATUS 2 (s2.rb Reg.TR_CTRL 1)
      .next ({ s3 with tr := { s3.tr with exec := none, dirty := [] } }).resumeJobs

/-- CARRY_FWD_DONE, R159: everything of the new idle copies that has not been written since R is the live copies'. -/
def execCarryFwdDone (s : State) : Out :=
  if !s.rb Reg.TR_STATUS 2 then .next s
  else
    let live := s.liveStore
    let idle := 1 - live
    let isIn := fun k a => (decide (wsBase k ≤ a ∧ a < wsBase k + 0x04000000 ∨ btBase k ≤ a ∧ a < btBase k + 0x00400000))
    let kept := Sparse.keep (fun a => !isIn idle a || s.tr.dirty.contains (granule a)) s.tr.mem
    let shift := fun a => if a < btBase 0 then a - wsBase live + wsBase idle else a - btBase live + btBase idle
    let new := (s.tr.mem.filter (fun (e : Host.Cell) => isIn live e.1)).foldl (fun m (e : Host.Cell) =>
      if s.tr.dirty.contains (granule (shift e.1)) then m else Sparse.set (fun _ => 0) m (shift e.1) e.2) kept
    .next { (s.pb Reg.TR_STATUS 2 false) with tr := { s.tr with mem := new, dirty := [] } }

/-- TRELLIS_CFG_APPLY, R160: the next version of the staged values reaches its boundary. -/
def execTrellisCfgApply (s : State) : Out :=
  match s.tr.vers.find? (fun (x : Nat × TrVals) => decide (s.tr.appliedAt < x.1)) with
  | none => .next s
  | some x =>
    let keep := s.tr.vers.filter (fun (y : Nat × TrVals) => decide (s.tr.appliedAt ≤ y.1))
    let s1 := s.advanceTo (s.tickReaching x.1)
    .next { s1 with tr := { s1.tr with appliedAt := x.1, vers := keep } }

/-- The live staged fields of the Trellis as one version. -/
def State.liveTrellis (s : State) : TrVals := {
  scale := s.rd Reg.TR_SCALE
  fb := s.rd Reg.TR_FB_BEAM
  nulls := (List.range 4).flatMap (fun c => [s.rd (Reg.TR_NULL_CFG c), s.rd (Reg.TR_NULL_RNG c), s.rd (Reg.TR_NULL_VEC c),
    s.rd (Reg.TR_NULL_VEC2 c)]) }

/-- A configuration commit has changed the Trellis fields: they apply from the commit boundary (R160). -/
def State.newTrellis (s : State) : State :=
  { s with tr := { s.tr with vers := s.tr.vers ++ [(s.commitBoundary, s.liveTrellis)] } }

/-! ### Commands -/

/-- BF_COMMIT, R156, R165: now, or at a PTP time on a firmware comparator. -/
def execBfCommit (p : Pkt) (s : State) : Out :=
  let now := p.flags == 1
  let ok := (now && p.params.length == 0) || (p.is 3 && s.ptpOk p.params 0)
  .next (s.command 0x300 p ok true s.isLead fun u =>
    if now then
      ({ u with tb := { u.tb with dues := addDue u.tb.dues { line := 1, target := u.tick, late := false, refs := [p.ref 0x300 0] } } },
        .accepted 0 [])
    else match u.freeCmp with
      | none => (u, .status stRESOURCE [])
      | some n => (u.schedule n 1 (shortOf (ptpParam p.params 0)) 0 (some (p.ref 0x300 0)), .accepted 0 []))

/-- BF_LOCK: set or clear host_lock. -/
def execBfLock (p : Pkt) (s : State) : Out :=
  .next (s.command 0x301 p (p.is 1 && decide (p.arg 0 < 2)) true true fun u =>
    let u1 := (u.pb Reg.TR_WS_LOCK 0 (p.arg 0 == 1)).forwardLocks
    (u1, .ok [toW u1.trLocks]))

/-- The BAR2 offset of the first item of a BF_LOAD target, the bytes of an item, and how many there are (R151, R154). -/
def bfTarget (t : Nat) : Nat × Nat × Nat :=
  if t = 0 then (0x0C000000, 0x300, 4096)
  else if t = 1 then (0x04100000, 0x300, 28672)
  else if t = 2 then (0x04000000, 0x20, 4096)
  else (0x04020000, 0x20, 1024)

/-- BF_LOAD: target, first index, count, LOAD ring (R463). -/
def execBfLoad (p : Pkt) (s : State) : Out :=
  let (base, size, n) := bfTarget (p.arg 0)
  let ok := p.is 4 && decide (p.arg 0 < 4 ∧ 1 ≤ p.arg 2 ∧ p.arg 1 + p.arg 2 ≤ n) && s.loadRing (p.arg 3)
  .next (s.command 0x302 p ok true true fun u =>
    if u.loadBusy (p.arg 3) then (u, .status stBUSY [])
    else (u.startLoad (p.arg 3) (p.ref 0x302 0) (size * p.arg 2) [base + size * p.arg 1, size, p.arg 2], .accepted 0 []))

/-- BF_SCALE: dl_bfs, ul_bfs, staged. -/
def execBfScale (p : Pkt) (s : State) : Out :=
  .next (s.command 0x303 p (p.is 2 && decide (p.arg 0 < 16 ∧ p.arg 1 < 16)) true true fun u =>
    (u.stage Reg.TR_SCALE (toW (p.arg 1 * 2 ^ 8 + p.arg 0)), .ok []))

/-- BF_FALLBACK: en, beam, staged. -/
def execBfFallback (p : Pkt) (s : State) : Out :=
  .next (s.command 0x304 p (p.is 2 && decide (p.arg 0 < 2 ∧ p.arg 1 < 4096)) true true fun u =>
    (u.stage Reg.TR_FB_BEAM (toW (p.arg 0 * 2 ^ 31 + p.arg 1)), .ok []))

/-- BF_MODE: ws_mode, carry_fwd. -/
def execBfMode (p : Pkt) (s : State) : Out :=
  .next (s.command 0x305 p (p.is 2 && decide (p.arg 0 < 2 ∧ p.arg 1 < 2)) true true fun u =>
    (u.wr Reg.TR_CTRL (toW (p.arg 1 * 2 + p.arg 0)), .ok []))

/-- BF_NULL_SET: carrier and its four null registers, staged; the range must lie in the carrier. -/
def execBfNullSet (p : Pkt) (s : State) : Out :=
  let c := p.arg 0
  let fits := decide (fld (wordAt p.params 2) 11 0 ≤ 2048 ∧
    fld (wordAt p.params 2) 26 16 + fld (wordAt p.params 2) 11 0 ≤ cfgNprb (s.srd (Reg.CAR_CFG c)))
  .next (s.command 0x306 p (p.is 5 && decide (c < 4) && fits) true true fun u =>
    ((((u.stage (Reg.TR_NULL_CFG c) (wordAt p.params 1)).stage (Reg.TR_NULL_RNG c) (wordAt p.params 2)).stage (Reg.TR_NULL_VEC c)
      (wordAt p.params 3)).stage (Reg.TR_NULL_VEC2 c) (wordAt p.params 4), .ok []))

/-- BF_STATUS. -/
def execBfStatus (p : Pkt) (s : State) : Out :=
  .next (s.command 0x307 p (p.is 0) true true fun u =>
    (u, .ok [u.peek Reg.TR_STATUS, u.peek Reg.TR_WS_GEN, u.peek Reg.TR_WC_REC]))

/-! ### Null vectors for SBFD -/

/-- SBFD_NULL_CALC, R295: carrier, nvec, first entry. -/
def execSbfdNullCalc (p : Pkt) (s : State) : Out :=
  let c := p.arg 0
  let ok := p.is 3 && decide (c < 4 ∧ 1 ≤ p.arg 1 ∧ p.arg 1 ≤ 4 ∧ p.arg 2 + p.arg 1 ≤ 4096) && s.rb (Reg.SBFD_BAND c) 31
  .next (s.command 0x60B p ok true true fun u =>
    if (u.paths.filter (fun v => u.canState v = 3)).length < 4 then (u, .status stRESOURCE [])
    else (u, .accepted (c + 4 * p.arg 1 + 64 * p.arg 2) []))

/-- NULL_CALC_DONE, R295: the calculation of the oldest SBFD_NULL_CALC ends with these right singular vectors (their weights in the
format of R143) and values; they are written to the staged beam table, once it accepts writes, and their valid bits are set. -/
def execNullCalcDone (vecs : List (List (Int × Int))) (vals : List Nat) (s : State) : Out :=
  match s.refsOp 0x60B with
  | [] => .next s
  | r :: _ =>
    if s.rb Reg.TR_STATUS 1 then .next s
    else
      let nvec := r.key / 4 % 16
      let first := r.key / 64
      let table := btBase (1 - s.liveStore)
      let s1 := s.forEach (List.range nvec) fun u k =>
        let e := first + k
        let u1 := u.forEach (List.range 96) fun u p =>
          let (i, q) := (vecs.getD k []).getD p (0, 0)
          u.writeSlot (table + e * 0x300 + 8 * p) (packCx i q)
        let m := table + 0x300000 + e / 32 * 4
        ((u1.setBytes m 4 (setBitN (u1.memNat m 4) (e % 32))).markDirty m).markDirty (table + e * 0x300)
      .next (s1.finish r stOK ((List.range nvec).map (fun k => toW (vals.getD k 0))))

end Sys2Proof.Machine
end

