-- ==== Sys2Proof/Machine/Commit.lean ====
section
/-!
DEFINITION. Staged configuration and its commits (R440-R443): the capture of the staged view, the checks of the eight groups and what each
applies, and the commands that order, cancel and discard.
-/
namespace Sys2Proof.Machine

/-! ### Groups -/

/-- The commit group of a register with STG fields, by name (R440). -/
def commitGroup (name : String) : Option Nat :=
  if name ∈ ["FH_VID", "FH_CC_MAP", "FH_EAXC_KEY", "FH_EAXC_ENT", "FH_WIN_CLOSE", "FH_WIN_DEPTH", "FH_WIN_CPLEAD", "FH_WIN_ULCP",
    "CAR_CFG", "CAR_OFS", "CAR_ADV", "CAR_PROC", "CAR_F0"] then some 0
  else if name ∈ ["CAR_SRS_PER", "CAR_SRS_SYM", "SOL_SRS_W0", "SOL_SRS_W1", "SOL_SRS_W2", "SOL_SRS_W3"] then some 1
  else if name ∈ ["TR_SCALE", "TR_FB_BEAM", "TR_NULL_CFG", "TR_NULL_RNG", "TR_NULL_VEC", "TR_NULL_VEC2"] then some 2
  else if name ∈ ["TDD_CFG", "TDD_DL", "TDD_UL", "TDD_TXT", "TDD_RXT", "ROW_TX_CFG"] then some 3
  else if name ∈ ["SBFD_BAND", "SBFD_GUARD"] then some 4
  else if name ∈ ["TX_CTRL", "TX_NCO_LO", "TX_NCO_HI", "TX_NCO_PH", "TX_GAIN", "TX_DELAY", "TX_CFR", "TX_DAC"] then some 5
  else if name ∈ ["RX_CTRL", "RX_NCO_LO", "RX_NCO_HI", "RX_NCO_PH", "RX_GAIN", "RX_DELAY", "RX_SHIFT"] then some 6
  else if name ∈ ["PR_CFG", "PR_COEF_LO", "PR_COEF_HI", "CAN_CFG", "CAN_TAP_LO", "CAN_TAP_HI"] then some 7
  else none

/-- The group of a live offset, and the mask of its STG fields. -/
def groupAt (a : Nat) : Option (Nat × Nat) :=
  match regAt a with
  | some (r, _, _) => if r.stg = 0 then none else (commitGroup r.name).map (fun g => (g, r.stg))
  | none => none

/-- The carrier of an offset among the carrier registers, and its offset there. -/
def carReg (a : Nat) : Option (Nat × Nat) :=
  if 0x400100 ≤ a ∧ a < 0x400200 then some ((a - 0x400100) / 0x40, (a - 0x400100) % 0x40) else none

/-- The value a register holds after every change that earlier commits have ordered (R630). -/
def State.committed (s : State) (a : Nat) : Word :=
  match carReg a with
  | some (c, o) =>
    let v := s.carNext c
    let x := s.car c
    if o = 0x00 then v.cfg
    else if o = 0x04 then v.ofs
    else if o = 0x08 then v.adv
    else if o = 0x10 then v.f0
    else if o = 0x0C then ((x.proc.getLast?.map Prod.snd).getD (s.rd a))
    else if o = 0x14 then ((x.srs.getLast?.map (fun (v : Nat × Word × Word) => v.2.1)).getD (s.rd a))
    else if o = 0x18 then ((x.srs.getLast?.map (fun (v : Nat × Word × Word) => v.2.2)).getD (s.rd a))
    else s.rd a
  | none => s.rd a

/-- A staged word of a captured view. -/
def State.cap (s : State) (view : Sparse Word) (a : Nat) : Word := Sparse.get (resetWord s.part) view a

/-- The offsets of a group whose captured value differs from the committed one (R442). -/
def State.changes (s : State) (view : Sparse Word) (g : Nat) : List Nat :=
  ((view.map Prod.fst ++ s.live.map Prod.fst).eraseDups).filter fun a =>
    match groupAt a with
    | some (h, m) => h == g && maskW (s.cap view a) m != maskW (s.committed a) m
    | none => false

/-- Make the captured STG fields of a register live. -/
def State.takeStaged (s : State) (view : Sparse Word) (a : Nat) : State :=
  match groupAt a with
  | some (_, m) => s.wr a (maskW (s.rd a) (0xFFFFFFFF - m) ||| maskW (s.cap view a) m)
  | none => s

/-- The outcome of a group: the state it leaves, whether anything was applied, and the status of a refusal. -/
structure GroupRes where
  st : State
  applied : Bool
  refused : Option Nat

/-! ### Group 0: fronthaul and carriers -/

/-- Whether a frequency of a path's centre word and a carrier's edges lie inside limits given in kHz (R240, R323): frequencies are
compared in units of 1/2 kHz times 2^48. -/
def spanIn (centre : Nat) (v : CarVals) (lo hi : Nat) : Bool :=
  let c : Int := ((2 * 16000000 * centre : Nat) : Int)
  let half : Int := (carSpan v.cfg : Int)
  let edge := fun (e : Int) => c + e * ((2 ^ 48 : Nat) : Int)
  decide (((2 * lo * 2 ^ 48 : Nat) : Int) ≤ edge (2 * carOfs v.ofs - half) ∧ edge (2 * carOfs v.ofs + half) ≤ ((2 * hi * 2 ^ 48 : Nat) : Int))

/-- R240 for the transmit values of a path and a set of carriers. -/
def txFits (t : TxVals) (vs : List CarVals) : Bool :=
  !t.en || (decide (t.nco < 2 ^ 47) && (vs.filter (fun v => cfgDl v.cfg)).all fun v =>
    if bitN t.dac 4 then spanIn (2 ^ 48 - t.nco) v 8000000 14000000 else spanIn t.nco v 400000 7600000)

/-- R323 for the receive values of a path and a set of carriers. -/
def rxFits (r : RxVals) (vs : List CarVals) : Bool :=
  let z := r.nco / 2 ^ 46
  !r.en || (decide (r.nco ≤ 0xE00000000000) && (vs.filter (fun v => cfgUl v.cfg)).all fun v =>
    spanIn r.nco v (max 400000 (z * 4000000 + 100000)) (min 14000000 ((z + 1) * 4000000 - 100000)))

/-- The carriers of a captured view. -/
def State.capCar (s : State) (view : Sparse Word) (c : Nat) : CarVals :=
  { cfg := s.cap view (Reg.CAR_CFG c), ofs := s.cap view (Reg.CAR_OFS c), adv := s.cap view (Reg.CAR_ADV c), f0 := s.cap view (Reg.CAR_F0 c) }

/-- Discard what accepted sections name that a carrier's new values do not hold (R136). -/
def State.discardOld (s : State) (c : Nat) (v : CarVals) (sw : Nat) : State :=
  let gone := fun (mu : Nat) (ext : Bool) (air prb : Nat) =>
    decide (sw ≤ air) && cfgValid v.cfg && (mu != cfgMu v.cfg || ext != cfgExt v.cfg || decide (cfgNprb v.cfg ≤ prb))
  let lostC := fun (x : Sec) => if x.car = c then x.prbs.filter (gone x.mu x.ext x.air) else []
  let lostU := fun (x : USec) => if x.car = c then (x.data.map Prod.fst).filter (gone x.mu x.ext x.air) else []
  let lostP := fun (o : PrachOcc) => o.sec.car == c && o.latched.isNone && o.sec.prbs.any (gone o.sec.mu o.sec.ext o.sec.air)
  let s1 := s.forEach s.fh.secs fun u x => if lostC x = [] then u else u.rejectPrbs x.entry x.hdr 0x0E x.dl true (lostC x)
  let s2 := s1.forEach (s.fh.data.filter (fun x => decide (x.entry < 256))) fun u x =>
    if lostU x = [] then u else u.rejectPrbs x.entry x.hdr 0x0E true false (lostU x)
  let s2 := s2.forEach (s2.fh.prach.flatMap Prod.snd) fun u o =>
    if lostP o then u.rejectPrbs o.sec.entry o.sec.hdr 0x0E false true o.sec.prbs else u
  { s2 with fh := { s2.fh with
    prach := (s2.fh.prach.map (fun (x : Nat × List PrachOcc) => (x.1, x.2.filter (fun o => !lostP o)))).filter (fun x => x.2 != [])
    secs := (s2.fh.secs.map (fun x => { x with prbs := x.prbs.filter (fun p => !(lostC x).contains p) })).filter (fun x => x.prbs != [])
    data := (s2.fh.data.map (fun x => { x with data := x.data.filter (fun (d : Nat × List Cx) => !(lostU x).contains d.1) })).filter
      (fun x => x.data != []) } }

/-- The pairs of valid keys with the same eAxC ID and direction (R119). -/
def State.dupPairs (s : State) : List (Nat × Nat) :=
  let keys := (s.live.filterMap (fun (e : Nat × Word) =>
    if 0x200200 ≤ e.1 ∧ e.1 < 0x200A00 ∧ e.1 % 8 = 0 ∧ bit e.2 31 then some ((e.1 - 0x200200) / 8, fld e.2 30 0) else none))
  keys.flatMap fun (x : Nat × Nat) => (keys.filter (fun (y : Nat × Nat) => decide (x.1 < y.1) && x.2 == y.2)).map (fun y => (x.1, y.1))

/-- Window values of a carrier change: the values that held and the new ones are kept for the symbols of each (R104). -/
def State.pushWindow (s : State) (before : State) (c : Nat) : State :=
  let ver := fun (u : State) (t : Nat) => ({
    from_ := t
    close := u.rf (Reg.FH_WIN_CLOSE c) 19 0
    depth := u.winDepth c
    cpLead := u.rf (Reg.FH_WIN_CPLEAD c) 19 0
    ulCp := u.rf (Reg.FH_WIN_ULCP c) 19 0 } : WinVer)
  let old := Sparse.get (fun _ => []) s.fh.wins c
  let base := if old = [] then [ver before 0] else old
  { s with fh := { s.fh with wins := Sparse.set (fun _ => []) s.fh.wins c (base ++ [ver s s.now]) } }

/-- Apply the captured values of group 0. -/
def State.applyG0 (s : State) (view : Sparse Word) (ch : List Nat) : State :=
  let plain := ch.filter (fun a => (carReg a).isNone)
  let s1 := s.forEach plain fun u a => u.takeStaged view a
  let wins := (List.range 4).filter (fun c => plain.any (fun a => decide (Reg.FH_WIN_CLOSE c ≤ a ∧ a ≤ Reg.FH_WIN_ULCP c)))
  let s2 := s1.forEach wins fun u c => u.pushWindow s c
  let dups := s2.dupPairs
  let s4 := s2.bumpBy (Cnt.fhUnmatched 3) (dups.filter (fun d => !s2.fh.dups.contains d)).length
  let s5 := { s4 with fh := { s4.fh with dups := dups } }
  let sws := (List.range 4).filter (fun c => [0x00, 0x04, 0x08, 0x10].any (fun o => ch.contains (Reg.CAR_CFG c + o)))
  let s6 := s5.forEach sws fun u c =>
    let v := s.capCar view c
    let u1 := u.switchCar c v
    let at_ := ((u1.car c).switches.getLast?.map (fun w => w.time)).getD 0
    u1.discardOld c v at_
  let procs := (List.range 4).filter (fun c => ch.contains (Reg.CAR_PROC c))
  s6.forEach procs fun u c => u.switchProc c (s.cap view (Reg.CAR_PROC c))

/-- Group 0: R105, R120-R124, R240 and R323 for the values the commit leaves. -/
def State.evalG0 (s : State) (view : Sparse Word) (ch : List Nat) : GroupRes :=
  let vs := (List.range 4).map (s.capCar view)
  let layers := (List.range 4).map (layersOf (fun e => s.cap view (Reg.FH_EAXC_KEY e)) (fun e => s.cap view (Reg.FH_EAXC_ENT e))
    (fun k => s.cap view (Reg.FH_CC_MAP k)) (s.rd Reg.FH_EAXC_FMT))
  let depth := (List.range 4).map (fun c => fld (s.cap view (Reg.FH_WIN_DEPTH c)) 19 0)
  match s.carsRefused vs with
  | some st => { st := s.pb Reg.SE_STATUS (if st = stRESOURCE then 1 else 2) true, applied := false, refused := some st }
  | none =>
    if 11534336 * 1000000 < needOf vs layers depth then
      { st := s.pb Reg.FH_STATUS 10 true, applied := false, refused := some stRESOURCE }
    else
      let badTx := s.paths.filter (fun p => !txFits (s.liveTx p) vs)
      let badRx := s.paths.filter (fun p => !rxFits (s.liveRx p) vs)
      if badTx = [] ∧ badRx = [] then { st := s.applyG0 view ch, applied := true, refused := none }
      else
        let s1 := s.forEach badTx fun u p => u.pb (Reg.TX_STATUS p) 9 true
        { st := s1.forEach badRx (fun u p => u.pb (Reg.RX_STATUS p) 9 true), applied := false, refused := some stPARAM }

/-! ### Groups 1 to 4 -/

/-- Group 1, sounding: R174; the SRS registers of a carrier change at its first slot boundary (R135). -/
def State.evalG1 (s : State) (view : Sparse Word) (ch : List Nat) : GroupRes :=
  let es := (ch.filterMap (fun a => if 0x801000 ≤ a ∧ a < 0x802000 then some ((a - 0x801000) / 16) else none)).eraseDups
  let ok := es.all (fun e => srsOk (s.cap view (Reg.SOL_SRS_W0 e)) (s.cap view (Reg.SOL_SRS_W1 e)) (s.cap view (Reg.SOL_SRS_W2 e)))
  if !ok then { st := s.pb Reg.SOL_STATUS 5 true, applied := false, refused := some stPARAM }
  else
    let s1 := s.forEach (ch.filter (fun a => (carReg a).isNone)) fun u a => u.takeStaged view a
    let cs := (List.range 4).filter (fun c => ch.contains (Reg.CAR_SRS_PER c) || ch.contains (Reg.CAR_SRS_SYM c))
    let s2 := s1.forEach cs fun u c => u.switchSrs c (s.cap view (Reg.CAR_SRS_PER c)) (s.cap view (Reg.CAR_SRS_SYM c))
    { st := s2, applied := true, refused := none }

/-- Group 2, Trellis: a null range that leaves its carrier is refused (R166). -/
def State.evalG2 (s : State) (view : Sparse Word) (ch : List Nat) : GroupRes :=
  let ok := (List.range 4).all fun c =>
    let w := s.cap view (Reg.TR_NULL_RNG c)
    !ch.contains (Reg.TR_NULL_RNG c) || decide (fld w 11 0 ≤ 2048 ∧ fld w 26 16 + fld w 11 0 ≤ cfgNprb (s.carNext c).cfg)
  if !ok then { st := s, applied := false, refused := some stPARAM }
  else { st := (s.forEach ch fun u a => u.takeStaged view a).newTrellis, applied := true, refused := none }

/-- Group 3, TDD: pat_len must divide the frame's slots (R249); the old values hold until R253 lets the new ones in. -/
def State.evalG3 (s : State) (view : Sparse Word) (ch : List Nat) : GroupRes :=
  let bad := (List.range 4).filter fun c =>
    let w := s.cap view (Reg.TDD_CFG c)
    ch.contains (Reg.TDD_CFG c) && bit w 31 && (10240 * 2 ^ cfgMu (s.carNext c).cfg) % (fld w 6 0 + 1) != 0
  if bad != [] then
    { st := s.forEach bad (fun u c => u.pb Reg.TDD_STAT (4 + c) true), applied := false, refused := some stPARAM }
  else
    let s1 := s.forEach (List.range 4) fun u c =>
      let until_ := u.carBoundary c false (u.now + 50000 * nsU)
      let kept : Nat → Option Word := fun a => match Sparse.get (fun _ => none) u.tddOld c with
        | some o => if u.now < o.until_ ∧ (o.regs.map Prod.fst).contains a then some (Sparse.get u.rd o.regs a) else none
        | none => none
      let older : List (Nat × Word) := match Sparse.get (fun _ => none) u.tddOld c with
        | some o => if u.now < o.until_ then o.regs else []
        | none => []
      let regs := ch.foldl (fun (m : Sparse Word) a => if (kept a).isSome then m else Sparse.set (fun _ => 0) m a (u.rd a)) older
      { u with tddOld := Sparse.set (fun _ => none) u.tddOld c (some { until_ := until_, regs := regs }) }
    { st := s1.forEach ch (fun u a => u.takeStaged view a), applied := true, refused := none }

/-- Group 4, SBFD bands: R287. -/
def State.evalG4 (s : State) (view : Sparse Word) (ch : List Nat) : GroupRes :=
  let bad := (List.range 4).filter fun c =>
    (ch.contains (Reg.SBFD_BAND c) || ch.contains (Reg.SBFD_GUARD c)) && !bandFits (s.cap view (Reg.SBFD_BAND c)) (s.carNext c).cfg
  if bad != [] then { st := s.forEach bad (fun u c => u.pb Reg.SBFD_STAT c true), applied := false, refused := some stPARAM }
  else { st := s.forEach ch (fun u a => u.takeStaged view a), applied := true, refused := none }

/-! ### Groups 5 to 7: path by path -/

/-- The path of an offset in a path block. -/
def pathAt (a : Nat) : Option Nat :=
  match placeOf a with
  | (.path p, _) => some p
  | _ => none

/-- Evaluate a group path by path (R442): `f` answers the state and whether the path was refused. -/
def State.byPath (s : State) (ch : List Nat) (f : State → Nat → List Nat → State × Bool) : GroupRes :=
  let ps := s.paths.filter (fun p => ch.any (fun a => pathAt a == some p))
  let r := ps.foldl (fun (acc : State × Bool × Bool) p =>
    let (u, bad) := f acc.1 p (ch.filter (fun a => pathAt a == some p))
    (u, acc.2.1 || !bad, acc.2.2 || bad)) (s, false, false)
  { st := r.1, applied := r.2.1, refused := if r.2.2 then some stPARAM else none }

/-- Group 5, path transmit: R240; the values go to the pending latch (R246). -/
def State.evalG5 (s : State) (view : Sparse Word) (ch : List Nat) : GroupRes :=
  let vs := (List.range 4).map s.carNext
  s.byPath ch fun u p as =>
    let u1 := u.forEach as fun v a => v.takeStaged view a
    let t := u1.liveTx p
    if txFits t vs then ((u1.setTx p { u1.txOf p with pend := some t }).pb (Reg.TX_STATUS p) 10 true, false)
    else (u.pb (Reg.TX_STATUS p) 9 true, true)

/-- Group 6, path receive: R323; the values go to the pending latch (R326). -/
def State.evalG6 (s : State) (view : Sparse Word) (ch : List Nat) : GroupRes :=
  let vs := (List.range 4).map s.carNext
  s.byPath ch fun u p as =>
    let u1 := u.forEach as fun v a => v.takeStaged view a
    let r := u1.liveRx p
    if rxFits r vs then ((u1.setRx p { u1.rxOf p with pend := some r }).pb (Reg.RX_STATUS p) 8 true, false)
    else (u.pb (Reg.RX_STATUS p) 9 true, true)

/-- Whether a Press configuration of a path is allowed (R274). -/
def pressFits (p : Nat) (w : Word) : Bool :=
  decide (clampN (fld w 26 24) 1 6 * (min 11 (fld w 23 20) + 1) ≤ 48) &&
    (!bit w 13 || decide ((neighbours p).length * (fld w 17 16 + 1) * (fld w 15 14 + 1) ≤ 16))

/-- The transmit centre of a path as a word of R239 (R240). -/
def State.txCentre (s : State) (p : Nat) : Nat :=
  let t := s.liveTx p
  if bitN t.dac 4 then 2 ^ 48 - t.nco else t.nco

/-- Whether a canceller configuration of a path is allowed (R289): 1.0 GHz is 2^44 units of the word. -/
def State.canFits (s : State) (p : Nat) (w : Word) : Bool :=
  let srcs := p :: neighbours p
  let rx := (s.liveRx p).nco
  !bit w 31 || (decide (srcs.length * canSlots w ≤ 128) && srcs.all (fun q =>
    let tx := s.txCentre q
    decide (rx - tx ≤ 2 ^ 44 ∧ tx - rx ≤ 2 ^ 44)))

/-- Group 7, Press and canceller: R274; the committed set goes to the pending latch (R273). -/
def State.evalG7 (s : State) (view : Sparse Word) (ch : List Nat) : GroupRes :=
  s.byPath ch fun u p as =>
    let u1 := u.forEach as fun v a => v.takeStaged view a
    let pcfg := u1.rd (Reg.PR_CFG p)
    let ccfg := u1.rd (Reg.CAN_CFG p)
    let okP := pressFits p pcfg
    let okC := u1.canFits p ccfg
    if okP ∧ okC then
      let press := as.any (fun a => decide (a % 0x10000 = 0x100 ∨ (0x1000 ≤ a % 0x10000 ∧ a % 0x10000 < 0x2000)))
      let can := as.any (fun a => decide (a % 0x10000 = 0x200 ∨ 0x2000 ≤ a % 0x10000))
      let u2 := u1.when press fun v => v.setPr p { v.prOf p with pend := some (pcfg, v.liveCoefs p) }
      (u2.when can (fun v => (v.setCan p { v.canOf p with pend := some (ccfg, v.liveTaps p) }).pb (Reg.CAN_STAT p) 23 true), false)
    else
      ((u.when (!okP) (fun v => v.pb (Reg.PR_STAT p) 24 true)).when (!okC) (fun v => v.pb (Reg.CAN_STAT p) 24 true), true)

/-! ### Capture and commit -/

/-- CONFIG_CAPTURE, R441: line 0 has fired in the hub; the staged view is taken. -/
def execConfigCapture (s : State) : Out :=
  match s.takeDue 0 with
  | none => .next s
  | some (d, s1) =>
    let cap : Capture := { staged := s1.staged, target := d.target, late := d.late, refs := d.refs, ents := s1.fh.rewrote }
    let s2 := s1.pb Reg.GL_CMT_STAT 31 true
    .next { s2 with
      host := { s2.host with captures := s2.host.captures ++ [cap] }, cal := { s2.cal with touched := [] }, fh := { s2.fh with rewrote := [] } }

/-- Show how many scheduled commits are pending (R448). -/
def State.showSlots (s : State) : State := s.pf Reg.GL_CMT_STAT 27 24 s.host.slots.length

/-- One group of a commit: skipped when nothing differs (R442). -/
def State.evalGroup (s : State) (view : Sparse Word) (g : Nat) : GroupRes :=
  let ch := s.changes view g
  if ch = [] then { st := s, applied := false, refused := none }
  else if g = 0 then s.evalG0 view ch
  else if g = 1 then s.evalG1 view ch
  else if g = 2 then s.evalG2 view ch
  else if g = 3 then s.evalG3 view ch
  else if g = 4 then s.evalG4 view ch
  else if g = 5 then s.evalG5 view ch
  else if g = 6 then s.evalG6 view ch
  else s.evalG7 view ch

/-- All groups in ascending order: the state, the applied and refused masks, and the status of the lowest refused group. -/
def State.evalGroups (s : State) (view : Sparse Word) : State × Nat × Nat × Nat :=
  (List.range 8).foldl (fun (acc : State × Nat × Nat × Nat) g =>
    let r := acc.1.evalGroup view g
    let applied := acc.2.1 + (if r.applied then 2 ^ g else 0)
    match r.refused with
    | some st => (r.st, applied, acc.2.2.1 + 2 ^ g, if acc.2.2.1 = 0 then st else acc.2.2.2)
    | none => (r.st, applied, acc.2.2.1, acc.2.2.2)) (s, 0, 0, stOK)

/-- Rewritten eAxC entries return to their egress ports (R112), unless their group is refused. -/
def State.returnEgress (s : State) (ents : List Nat) (refused : Nat) : State :=
  if bitN refused 0 then s else { s with fh := { s.fh with moved := ents.foldl (fun m e => Sparse.set (fun _ => 0) m e 0) s.fh.moved } }

/-- CONFIG_COMMIT, R442: on the commit tick of the oldest capture the groups are checked in order and applied or refused. -/
def execConfigCommit (s : State) : Out :=
  match s.host.captures with
  | [] => .next s
  | c :: rest =>
    let s0 := s.advanceTo c.target
    let s1 := { s0 with host := { s0.host with captures := rest, slots := s0.host.slots.filter (fun (x : Nat × CmdRef) => !c.refs.contains x.2) } }
    let (s2, applied, refused, st) := s1.evalGroups c.staged
    let gen := (s2.rf Reg.GL_CMT_STAT 15 0 + 1) % 2 ^ 16
    let s3 := (((s2.returnEgress c.ents refused).showSlots.pf Reg.GL_CMT_STAT 15 0 gen).pb Reg.GL_CMT_STAT 31 (rest != [])).wr Reg.GL_CMT_RES (toW (applied * 2 ^ 16 + refused))
    let s4 := s3.wrPair Reg.GL_CMT_T_LO Reg.GL_CMT_T_HI s3.tick
    let s5 := s4.when (refused != 0) (fun u => u.eventNotice 3 0x04 refused)
    .next (s5.forEach c.refs fun u r => u.finish r st [toW applied, toW refused, toW gen])

/-! ### Commands -/

/-- SYS_COMMIT, R443: flag bit 0 orders it now, else at a PTP time in one of eight slots. -/
def execSysCommit (p : Pkt) (s : State) : Out :=
  let ok := if p.flags = 1 then p.params.length == 0 else p.is 3 && s.ptpOk p.params 0
  .next (s.command 0x004 p ok true true fun u =>
    if p.flags = 1 then (u.fireLine 0 (u.tick + 1600) false [p.ref 0x004 0xF] false, .accepted 0xF [0xF])
    else
      match u.freeCmp, (List.range 8).find? (fun i => !u.host.slots.any (fun (x : Nat × CmdRef) => x.1 == i)) with
      | some n, some i =>
        let u1 := ({ u with host := { u.host with slots := u.host.slots ++ [(i, p.ref 0x004 i)] } } : State).showSlots
        (u1.schedule n 0 (shortOf (ptpParam p.params 0)) 0 (some (p.ref 0x004 i)), .accepted i [toW i])
      | _, _ => (u, .status stRESOURCE []))

/-- SYS_COMMIT_CANCEL, R443: a pending slot whose capture has not occurred. -/
def execSysCommitCancel (p : Pkt) (s : State) : Out :=
  .next (s.command 0x005 p (p.is 1 && decide (p.arg 0 < 8)) true true fun u =>
    match u.host.slots.find? (fun (x : Nat × CmdRef) => x.1 == p.arg 0) with
    | some x =>
      match (List.range 32).find? (fun n => (u.cmpOf n).ref == some x.2 && u.armed n) with
      | some n =>
        let u1 := u.disarm n
        let u2 := ({ u1 with host := { u1.host with slots := u1.host.slots.filter (· ≠ x) } } : State).showSlots
        (u2.finish x.2 stITEM [0, 0, 0], .ok [])
      | none => (u, .status stITEM [])
    | none => (u, .status stITEM []))

/-- SYS_DISCARD: the live values of the named groups replace the staged ones. -/
def execSysDiscard (p : Pkt) (s : State) : Out :=
  .next (s.command 0x006 p (p.is 1 && decide (p.arg 0 < 256)) true true fun u =>
    let as := ((u.staged.map Prod.fst ++ u.live.map Prod.fst).eraseDups).filter fun a =>
      match groupAt a with
      | some (g, _) => bitN (p.arg 0) g
      | none => false
    (u.forEach as fun v a =>
      match groupAt a with
      | some (_, m) => v.swr a (maskW (v.rd a) m)
      | none => v, .ok [toW (p.arg 0)]))

/-- GL_CMT_NOW_WRITE, R448: writing 1 orders a commit now, or sets cmt_err where SYS_COMMIT is not accepted. -/
def execGlCmtNowWrite (w : Word) (s : State) : Out :=
  .next (s.access Reg.GL_CMT_NOW fun s =>
    if !bit w 0 then s
    else if acceptedIn 0x004 s.dev then s.fireLine 0 (s.tick + 1600) false [] false
    else s.pb Reg.GL_CMT_STAT 16 true)

end Sys2Proof.Machine
end

