-- ==== Sys2Proof/Machine/Monitor.lean ====
section
/-!
DEFINITION. Monitor ADCs (R481-R493), counter snapshots (R494-R500), event recorders (R501-R509), their delivery (R510) and the commands
of the monitoring group (R512).
-/
namespace Sys2Proof.Machine

/-! ### Monitor ADCs -/

def State.maOf (s : State) (q : Nat) : MaSt := Sparse.get (fun _ => {}) s.mon.adcs q
def State.setMa (s : State) (q : Nat) (x : MaSt) : State :=
  { s with mon := { s.mon with adcs := Sparse.set (fun _ => {}) s.mon.adcs q x } }
def State.accOf (s : State) (q c : Nat) : MaAcc := Sparse.get (fun _ => {}) (s.maOf q).accs c
def State.setAcc (s : State) (q c : Nat) (x : MaAcc) : State :=
  let m := s.maOf q
  s.setMa q { m with accs := Sparse.set (fun _ => {}) m.accs c x }

/-- Whether an ADC can be used: its parcel is present and not faulted, and its tile is in RUN (R485, R493). -/
def State.maUp (s : State) (q : Nat) : Bool :=
  decide (q < s.part.parcels) && s.parcelAvail q && s.tileRuns (q / 2)

/-- The first 50 MHz edge at or after a tick (R481, R486). -/
def edge50 (t : Nat) : Nat := (t + 31) / 32 * 32

/-- The channel of a sequence entry (R517). -/
def State.seqChan (s : State) (q k : Nat) : Nat := s.rf (if k < 8 then Reg.MA_SEQ_LO q else Reg.MA_SEQ_HI q) (4 * (k % 8) + 3) (4 * (k % 8))

/-- What channel `c` of an ADC shows of its input, as a numerator and a divisor of a code (R481, R482, R615, R622): the balls in uV, the
supply rails in uV through a divider by 4, and the diode's temperature in 1/100 degree C. -/
def maIdeal (mode1 : Bool) (c : Nat) (input : Int) : Int × Nat :=
  let (n, d) : Int × Nat :=
    if c < 8 then (4096 * input, 1000000)
    else if c < 12 then (4096 * input, 4000000)
    else (28670000 - 737 * (input - 2500), 10000)
  if c = 13 then (2048, 1) else if 14 ≤ c then (0, 1) else if mode1 then (10 * n, 12 * d) else (n, d)

/-- How far a code may lie from what its input gives (R615, R622): offset and INL, the gain error, the rails' divider and the diode. -/
def maError (mode1 : Bool) (c : Nat) (ideal : Int) : Int :=
  4 + ideal.natAbs * (if mode1 then 3 else 2) / 1000 + (if 8 ≤ c ∧ c < 12 then ideal.natAbs / 200 else if c = 12 then 37 else 0)

/-- The code of a conversion (R482): that of its input, with the converter's own error `dev` within its accuracy. -/
def maCode (mode1 : Bool) (c : Nat) (input dev : Int) : Nat :=
  let (n, d) := maIdeal mode1 c input
  let v := divRound n d
  let e := maError mode1 c v
  (max 0 (min 4095 (v + max (-e) (min e dev)))).toNat

/-- The items that wait at an ADC with the tick each may start on, in the order of R488, within the allowance while a sequence runs. -/
def State.maWaiting (s : State) (q : Nat) : List (MaItem × Nat) :=
  let x := s.maOf q
  let base := max s.tick x.awakeAt
  let running := x.seq.isSome
  let injs := (x.seq.map (fun (v : Nat × Nat × Nat × Nat) => v.2.2.1)).getD 0
  let cals := (x.seq.map (fun (v : Nat × Nat × Nat × Nat) => v.2.2.2)).getD 0
  let inj := fun (before : Bool) => match x.inj with
    | some (c, req, b, _) => if b = before ∧ (!running ∨ injs < 2) then [(MaItem.inject c, edge50 (max base (req + 64)))] else []
    | none => []
  let cal := if x.cal.isSome ∧ (!running ∨ cals < 1) then [(MaItem.cal, edge50 base)] else []
  let ent := match x.seq with
    | some (k, first, _, _) => [(MaItem.entry (s.seqChan q k) (first + 800 * k), edge50 (max base (first + 800 * k)))]
    | none => []
  let conv := if x.needCal ∧ x.cal.isSome then [] else inj true
  let late := if x.needCal ∧ x.cal.isSome then [] else inj false ++ ent
  conv ++ cal ++ late

/-- An idle ADC starts what is first among what waits (R488); a converter that is powered down starts up first (R490). What it was to start
at a later tick gives way to what has come since. -/
def State.maStart (s : State) (q : Nat) : State :=
  let x0 := { s.maOf q with run := (s.maOf q).run.filter (fun (r : MaItem × Nat) => decide (r.2 ≤ s.tick)) }
  if x0.run.isSome ∨ !s.rb (Reg.MA_CFG q) 31 ∨ s.quiet (q / 2) ∨ !s.parcelAvail q then s
  else
    let asked := x0.seq.isSome || x0.inj.isSome || x0.cal.isSome
    let x1 := if x0.needCal ∧ x0.cal = none ∧ (x0.seq.isSome ∨ x0.inj.isSome) then { x0 with cal := some none } else x0
    let up := if s.rb (Reg.MA_CFG q) 29 then 640 else 6400
    let x2 := if asked ∧ x1.pdown then { x1 with pdown := false, awakeAt := max x1.awakeAt (s.tick + up) } else x1
    let s1 := s.setMa q x2
    match s1.maWaiting q with
    | [] => s1
    | w :: ws =>
      let best := ws.foldl (fun (b : MaItem × Nat) v => if v.2 < b.2 then v else b) w
      s1.setMa q { x2 with run := some best }

/-- An alarm window sees a result (R492). -/
def State.maAlarm (s : State) (q c code : Nat) : State :=
  let w := s.rd (Reg.MA_WIN q c)
  let out := decide (code < fld w 11 0 ∨ fld w 27 16 < code)
  let n := max 1 (fld w 31 28)
  let x := s.maOf q
  let old := Sparse.get (fun _ => (false, 0)) x.winRun c
  let k := if old.1 = out then old.2 + 1 else 1
  let s1 := s.setMa q { x with winRun := Sparse.set (fun _ => (false, 0)) x.winRun c (out, k) }
  let active := s1.rb (Reg.MA_ALARM q) (16 + c)
  if out ∧ n ≤ k ∧ !active then
    let s2 := (((s1.pb (Reg.MA_ALARM q) (16 + c) true).pb (Reg.MA_ALARM q) c true).bump (Cnt.monAdc q 8)).monEvt 5
    s2.tileEvent (q / 2) 0x12 (q / 2) false (toW (code * 2 ^ 16 + c * 16 + q))
  else if !out ∧ n ≤ k ∧ active then s1.pb (Reg.MA_ALARM q) (16 + c) false
  else s1

/-- A scheduled result enters its channel's accumulator and tracker (R483, R486). -/
def State.maAccumulate (s : State) (q c code : Nat) (delayed : Bool) : State :=
  let a := s.accOf q c
  if a.full then s.bump (Cnt.monAdc q 4)
  else
    s.setAcc q c {
      sum := a.sum + code, cnt := a.cnt + 1, mn := min a.mn code, mx := max a.mx code, full := decide (a.cnt + 1 = 1048575)
      dly := a.dly || delayed }

/-- Order a calibration (R489): nothing when one is pending or running. -/
def State.maOrderCal (s : State) (q : Nat) (ref : Option CmdRef) : State :=
  let x := s.maOf q
  if x.cal.isSome then s
  else
    let started := match x.run with
      | some (.inject _, t) => decide (t ≤ s.tick)
      | _ => false
    let inj := x.inj.map (fun (v : Nat × Nat × Bool × Option CmdRef) => if started then v else (v.1, v.2.1, true, v.2.2.2))
    (s.setMa q { x with cal := some ref, inj := inj }).maStart q

/-- Request an injected conversion (R487). -/
def State.maInject (s : State) (q c : Nat) (ref : Option CmdRef) : State :=
  let x := s.maOf q
  if x.inj.isSome then (s.pb (Reg.MA_STAT q) 2 true).bump (Cnt.monAdc q 6)
  else (s.setMa q { x with inj := some (c, s.tick, false, ref) }).maStart q

/-- MONITOR_SEQUENCE, R485, R486: the firing of line 10 that is due in a tile runs the sequences of its monitor ADCs. -/
def execMonitorSequence (s : State) : Out :=
  match s.tb.tileDues.find? (fun (d : Nat × Nat × Nat × Bool) => d.1 == 10) with
  | none => .next s
  | some d =>
    let s0 := ({ s with tb := { s.tb with tileDues := s.tb.tileDues.erase d } } : State).advanceTo d.2.2.1
    let t := d.2.1
    let arrived := if d.2.2.2 then s0.tick else d.2.2.1 - 1600
    .next (s0.forEach ([2 * t, 2 * t + 1].filter (fun q => s0.rf (Reg.MA_CFG q) 31 31 == 1 && s0.rb (Reg.MA_CFG q) 27)) fun u q =>
      let x := u.maOf q
      if !u.maUp q then (u.pb (Reg.MA_STAT q) 0 true).bump (Cnt.monAdc q 2)
      else if x.seq.isSome then (u.pb (Reg.MA_STAT q) 1 true).bump (Cnt.monAdc q 1)
      else
        let up := if u.rb (Reg.MA_CFG q) 29 then 640 else 6400
        let x1 := if x.pdown then { x with pdown := false, awakeAt := arrived + up } else x
        ((u.setMa q { x1 with seq := some (0, edge50 (d.2.2.1 + 160), 0, 0) }).bump (Cnt.monAdc q 0)).maStart q)

/-- The counts of what has run since the last entry of a sequence: an injected conversion, or a calibration. -/
def MaSt.ran (x : MaSt) (inj cal : Nat) : MaSt :=
  { x with seq := x.seq.map (fun (v : Nat × Nat × Nat × Nat) => (v.1, v.2.1, v.2.2.1 + inj, v.2.2.2 + cal)) }

/-- MONITOR_CONVERSION_DONE, R482-R488, R615, R622: the conversion that an ADC has started ends; `input` is what its channel measures and `dev`
the converter's own error (`maCode`). The next item starts. -/
def execMonitorConversionDone (q : Nat) (input dev : Int) (s : State) : Out :=
  let x := s.maOf q
  let code := fun (c : Nat) => maCode (s.rb (Reg.MA_CFG q) 29) c input dev
  match x.run with
  | some (.entry c nominal, t) =>
    let v := code c
    let s0 := (s.advanceTo (t + 800)).setMa q { x with run := none, idleFrom := max s.tick (t + 800) }
    let delayed := decide (nominal < t)
    let s1 := s0.bumpBy (Cnt.monAdc q 3) (b2n delayed)
    let s2 := if delayed ∧ s1.rb (Reg.MA_CFG q) 28 then s1.bump (Cnt.monAdc q 4) else (s1.maAccumulate q c v delayed).maAlarm q c v
    let y := s2.maOf q
    let last := s2.rf (Reg.MA_CFG q) 3 0
    let seq := match y.seq with
      | some (k, first, _, _) => if last ≤ k then none else some (k + 1, first, 0, 0)
      | none => none
    .next ((s2.setMa q { y with seq := seq }).maStart q)
  | some (.inject c, t) =>
    match x.inj with
    | some (_, req, _, ref) =>
      let v := code c
      let s0 := (s.advanceTo (t + 800)).setMa q { x.ran 1 0 with run := none, inj := none, idleFrom := max s.tick (t + 800) }
      let res := toW (2 ^ 31 + b2n (decide (req + 96 < t)) * 2 ^ 30 + c * 2 ^ 12 + v)
      let s1 := ((s0.wr (Reg.MA_INJ_RES q) res).bump (Cnt.monAdc q 5)).maAlarm q c v
      let s2 := match ref with
        | some r => s1.finish r stOK [res]
        | none => s1
      .next (s2.maStart q)
    | none => .next s
  | _ => .next s

/-- MONITOR_CAL_DONE, R489: a running calibration ends `dur` ticks after its start, at most 40 us. -/
def execMonitorCalDone (q dur : Nat) (s : State) : Out :=
  let x := s.maOf q
  match x.run with
  | some (.cal, t) =>
    let s0 := s.advanceTo (t + min dur 64000)
    let s1 := (s0.setMa q { x.ran 0 1 with run := none, cal := none, needCal := false, lastCal := s0.tick, idleFrom := s0.tick }).bump (Cnt.monAdc q 7)
    let s2 := match x.cal with
      | some (some r) => s1.finish r stOK []
      | _ => s1
    .next (s2.maStart q)
  | _ => .next s

/-- MONITOR_CAL_PERIOD, R489: cal_period_s seconds have passed since the last calibration. -/
def execMonitorCalPeriod (q : Nat) (s : State) : Out :=
  let p := s.rf (Reg.MA_CFG q) 15 8
  .next (if p = 0 ∨ !s.maUp q ∨ !s.rb (Reg.MA_CFG q) 31 then s
    else
      let s0 := s.advanceTo ((s.maOf q).lastCal + p * 1600000000)
      (s0.setMa q { s0.maOf q with lastCal := s0.tick }).maOrderCal q none)

/-- MONITOR_POWER_DOWN, R490: an idle ADC has neither converted nor calibrated for idle_us. -/
def execMonitorPowerDown (q : Nat) (s : State) : Out :=
  let x := s.maOf q
  .next (if s.maUp q ∧ s.rb (Reg.MA_CFG q) 31 ∧ s.rb (Reg.MA_CFG q) 30 ∧ x.run = none ∧ x.inj = none ∧ x.cal = none ∧ x.seq = none ∧ !x.pdown then
    let s0 := s.advanceTo (x.idleFrom + max 1 (s.rf (Reg.MA_CFG q) 23 16) * 1600)
    s0.setMa q { x with pdown := true }
  else s)

/-- Write MA_CFG (R489, R491): a change of ref_mode clears accumulators and trackers and orders a calibration. -/
def State.writeMaCfg (s : State) (q : Nat) (w : Word) : State :=
  let old := s.rd (Reg.MA_CFG q)
  let s1 := s.poke (Reg.MA_CFG q) w
  if bit old 29 != bit w 29 then (s1.setMa q { s1.maOf q with accs := [] }).maOrderCal q none else s1.maStart q

/-- Take the channels of a mask (R484). -/
def State.maTake (s : State) (q mask : Nat) : State :=
  s.forEach ((List.range 16).filter (bitN mask)) fun u c =>
    let a := u.accOf q c
    let u1 := (u.wr (Reg.MA_RES_SUM q c) (toW a.sum)).wr (Reg.MA_RES_CNT q c) (toW (b2n a.full * 2 ^ 31 + b2n a.dly * 2 ^ 30 + a.cnt))
    (u1.wr (Reg.MA_RES_MM q c) (toW (a.mx * 2 ^ 16 + a.mn))).setAcc q c {}

/-- MA_INJ_WRITE, R487, R493. -/
def execMaInjWrite (q : Nat) (w : Word) (s : State) : Out :=
  .next (s.access (Reg.MA_INJ q) fun s => if bit w 31 ∧ s.maUp q then s.maInject q (fld w 3 0) none else s)

/-- MA_CAL_WRITE, R489, R493. -/
def execMaCalWrite (q : Nat) (w : Word) (s : State) : Out :=
  .next (s.access (Reg.MA_CAL q) fun s => if bit w 0 ∧ s.maUp q then s.maOrderCal q none else s)

/-- MA_TAKE_WRITE, R484, R493. -/
def execMaTakeWrite (q : Nat) (w : Word) (s : State) : Out :=
  .next (s.access (Reg.MA_TAKE q) fun s => if s.maUp q then s.maTake q (fld w 15 0) else s)

/-- MA_INJ_RES_READ: the read clears done. -/
def execMaInjResRead (q : Nat) (s : State) : Out :=
  .next (s.accessRead (Reg.MA_INJ_RES q) fun s => (s.answer (s.rd (Reg.MA_INJ_RES q))).pb (Reg.MA_INJ_RES q) 31 false)

/-! ### Snapshots -/

def State.bankOf (s : State) (b : Nat) : Bank := Sparse.get (fun _ => {}) s.mon.banks b
def State.setBank (s : State) (b : Nat) (x : Bank) : State :=
  { s with mon := { s.mon with banks := Sparse.set (fun _ => {}) s.mon.banks b x } }
/-- The state of a bank in MON_SNAP_STAT (R515): 0 FREE, 1 FILLING, 2 HELD, 3 DELIVERING. -/
def State.bankState (s : State) (b : Nat) : Nat := s.rf Reg.MON_SNAP_STAT (2 * b + 1) (2 * b)
def State.setBankState (s : State) (b v : Nat) : State := s.pf Reg.MON_SNAP_STAT (2 * b + 1) (2 * b) v

/-- Fire line 2 at once in the hub: the snapshot tick is 1,600 ticks later and not late (R496). -/
def State.snapNow (s : State) (refs : List CmdRef) (sys : Bool) : State := s.fireLine 2 (s.tick + 1600) false refs sys

/-- Write MON_SNAP_CTRL (R515). -/
def State.writeSnapCtrl (s : State) (w : Word) : State :=
  let s1 := s.poke Reg.MON_SNAP_CTRL w
  if bit w 31 then s1.snapNow [] false else s1

/-- SNAP_NOW_WRITE, R496. -/
def execSnapNowWrite (w : Word) (s : State) : Out := .next (s.access Reg.MON_SNAP_CTRL fun s => s.writeSnapCtrl w)

/-- SNAPSHOT_FIRE, R497: line 2 has fired in the hub. -/
def execSnapshotFire (s : State) : Out :=
  match s.takeDue 2 with
  | none => .next s
  | some (d, s1) =>
    let seq := (s1.rd Reg.MON_SNAP_SEQ).toNat
    let s2 := s1.wr Reg.MON_SNAP_SEQ (toW (seq + 1))
    let last := s2.rf Reg.MON_SNAP_STAT 4 4
    let pick := if s2.bankState (1 - last) = 0 then some (1 - last) else if s2.bankState last = 0 then some last else none
    match pick with
    | some b =>
      let s3 := ((s2.setBankState b 1).pf Reg.MON_SNAP_STAT 4 4 b).bump (Cnt.monSnap 0)
      .next (s3.setBank b { refs := d.refs, target := d.target, seq := seq, sys := d.sys })
    | none =>
      let s3 := (((s2.pb Reg.MON_SNAP_STAT 9 true).monEvt 1).bump (Cnt.monSnap 1)).hubEvent 0x22 (seq % 2 ^ 24)
      .next (s3.forEach d.refs fun u r => u.finish r stITEM [])

/-- Whether a live offset is a counter of the hub, or of tile `t` (R494). -/
def hubCounter (a : Nat) : Bool := hubCounterAreas.any (fun (x : Nat × Nat) => decide (x.1 ≤ a ∧ a < x.1 + 4 * x.2))
def tileCounter (t a : Nat) : Bool :=
  tileCounterAreas.any (fun (x : Nat × Nat) => decide (tileBlk t + x.1 ≤ a ∧ a < tileBlk t + x.1 + 4 * x.2))

/-- The counters of the hub's powered domains, and of a tile, as they stand. -/
def State.hubCounters (s : State) : List (Nat × Word) :=
  s.live.filter (fun (e : Nat × Word) => hubCounter e.1 && s.domOn (domainOf e.1))
def State.tileCounters (s : State) (t : Nat) : List (Nat × Word) :=
  s.live.filter (fun (e : Nat × Word) => tileCounter t e.1) ++
    (List.range 120).map (fun k => (tileBlk t + 0x10240 + 4 * k, s.peekLive (tileBlk t + 0x10240 + 4 * k)))

/-- A bank becomes HELD, or DELIVERING when dlv_en is 1 (R498, R510). -/
def State.bankReady (s : State) (b : Nat) : State :=
  let x := s.bankOf b
  let s1 := s.forEach x.refs fun u r => u.finish r stOK [toW x.seq, toW b]
  if s1.rb Reg.MON_SNAP_CTRL 8 then
    (s1.setBankState b 3).deliver (16 + s1.rf Reg.MON_SNAP_CTRL 3 0) {
      code := 3, detail := 2 ^ 20 + x.seq % 2 ^ 20, len := 0x20000, bank := some b }
  else (s1.setBankState b 2).monEvt 0

/-- Latch the counters of a tile into a bank. -/
def State.latchTile (s : State) (b t : Nat) (late : Bool) : State :=
  let x := s.bankOf b
  let vals := (s.tileCounters t).foldl (fun m (e : Nat × Word) => Sparse.set (fun _ => 0) m e.1 e.2) x.vals
  let s1 := (s.setBank b { x with vals := vals, waiting := x.waiting.filter (· ≠ t) }).pb (Reg.SNAP_B_INFO b) (16 + t) true
  if late then (s1.pb (Reg.SNAP_B_INFO b) (8 + t) true).bump (Cnt.monSnap 3) else s1

/-- SNAPSHOT_LATCH, R498: on tick S the hub and every awake tile that the message has reached latch; a tile whose message is still to come
latches on its arrival, at a further SNAPSHOT_LATCH. -/
def execSnapshotLatch (s : State) : Out :=
  match (List.range 2).find? (fun b => s.bankState b == 1) with
  | none => .next s
  | some b0 =>
    let b := if s.bankState 1 = 1 ∧ b0 = 0 ∧ (s.bankOf 1).target < (s.bankOf 0).target then 1 else b0
    let x := s.bankOf b
    let s0 := s.advanceTo x.target
    if s.commitFirst x.target then .next s else
    let s1 :=
      if x.hub then s0
      else
        let reach := s0.tiles.filter (fun t => decide (s0.tileState t = 0 ∨ s0.tileState t = 1 ∨ s0.tileState t = 4) && !s0.sv.dead.contains t)
        let due := reach.filter (fun t => s0.tb.tileDues.any (fun (d : Nat × Nat × Nat × Bool) => d.1 == 2 && d.2.1 == t) ||
          s0.tb.msgs.any (fun m => m.tile == t && m.line == 2))
        let u := s0.setBank b { x with hub := true, vals := s0.hubCounters, waiting := due }
        let w := toW (s0.epoch * 2 ^ 24 + b2n x.sys * 2 ^ 20)
        (((u.wr (Reg.SNAP_B_SEQ b) (toW x.seq)).wr (Reg.SNAP_B_INFO b) w).wrPair (Reg.SNAP_B_TICK_LO b) (Reg.SNAP_B_TICK_HI b) x.target).bumpBy
          (Cnt.monSnap 2) (s0.part.tiles - due.length)
    let s2 := s1.forEach (s1.bankOf b).waiting fun u t =>
      match u.tb.tileDues.find? (fun (d : Nat × Nat × Nat × Bool) => d.1 == 2 && d.2.1 == t) with
      | some d => (({ u with tb := { u.tb with tileDues := u.tb.tileDues.erase d } } : State).latchTile b t (d.2.2.2 || decide (x.target < d.2.2.1)))
      | none => u
    .next (if (s2.bankOf b).waiting = [] then s2.bankReady b else s2)

/-- Release banks (R499). -/
def State.releaseBanks (s : State) (mask : Nat) : State :=
  s.forEach ((List.range 2).filter (bitN mask)) fun u b =>
    if u.bankState b = 2 then (u.setBankState b 0).setBank b {}
    else if u.bankState b = 0 then u
    else u.pb Reg.MON_SNAP_STAT 8 true

/-- MON_SNAP_REL_WRITE, R499. -/
def execMonSnapRelWrite (w : Word) (s : State) : Out := .next (s.access Reg.MON_SNAP_REL fun s => s.releaseBanks (fld w 1 0))

/-- A DELIVER item of a snapshot bank has ended (R510). -/
def State.bankDelivered (s : State) (b : Nat) (ok : Bool) : State :=
  if ok then ((s.setBankState b 0).setBank b {}).bump Cnt.monDelivery else (s.setBankState b 2).monEvt 0

/-! ### Recorders -/

/-- Whether a recorder is present (R512), and powered. -/
def State.recPresent (s : State) (r : Nat) : Bool := r == 4 || decide (r < s.part.tiles)
def State.recEnabled (s : State) (r : Nat) : Bool := r == 4 || s.domOn (8 + r)

/-- RECORDER_EVENT, R501-R503, R507-R509: an event sent to a recorder, of a kind that no other command of this model raises. -/
def execRecorderEvent (rec code src : Nat) (late : Bool) (detail : Word) (s : State) : Out :=
  .next (if s.recPresent rec ∧ code < 256 ∧ src ≤ 4 then s.event rec code src late detail.toNat else s)

/-- RECORDER_TRIGGER, R506: the firing of line 11 that is due at a recorder writes event 0x20. -/
def execRecorderTrigger (rec : Nat) (s : State) : Out :=
  if rec = 4 then
    match s.takeDue 11 with
    | some (d, s1) => .next ((s1.advanceTo d.target).pkgEvent 0x20 4 false 0)
    | none => .next s
  else
    match s.tb.tileDues.find? (fun (d : Nat × Nat × Nat × Bool) => d.1 == 11 && d.2.1 == rec) with
    | some d =>
      let s1 := ({ s with tb := { s.tb with tileDues := s.tb.tileDues.erase d } } : State).advanceTo d.2.2.1
      .next (s1.tileEvent rec 0x20 rec d.2.2.2 0)
    | none => .next s

/-- REC_MARK_WRITE, R506. -/
def execRecMarkWrite (w : Word) (s : State) : Out := .next (s.access Reg.REC_MARK fun s => s.hubEvent 0x21 w.toNat)

/-- The control register of a recorder (R514, R516). -/
def recCtrlReg (r : Nat) : Nat := if r = 4 then Reg.REC_PKG_CTRL else Reg.REC_T_CTRL r

/-- Empty a recorder and return it to RUN (R507); the package recorder leaves FAILED only by its test (R509). -/
def State.recClear (s : State) (r : Nat) : State :=
  let s1 := s.setRec r { s.recOf r with slots := [], post := none }
  if r = 4 then
    if s.rf Reg.REC_PKG_STAT 31 30 = 2 then s else (s1.pf Reg.REC_PKG_STAT 14 0 0).pf Reg.REC_PKG_STAT 31 30 0
  else (s1.pf (Reg.REC_T_STAT r) 9 0 0).pb (Reg.REC_T_STAT r) 30 false

/-- REC_CLEAR, R507. -/
def execRecClear (r : Nat) (s : State) : Out := .next (s.access (recCtrlReg r) fun s => if s.recPresent r then s.recClear r else s)

/-- Start a memory test (R508, R509). -/
def State.recTest (s : State) (r : Nat) : State := s.setRec r { s.recOf r with testing := true }

/-- REC_TEST, R508, R509. -/
def execRecTest (r : Nat) (s : State) : Out := .next (s.access (recCtrlReg r) fun s => if s.recPresent r then s.recTest r else s)

/-- Send the reply of the command whose work has kept device firmware busy. -/
def State.busyReply (s : State) (status : Nat) (res : List Word) : State :=
  match s.host.busy with
  | none => s
  | some (r, quiet) =>
    ({ s with host := { s.host with busy := none } } : State).reply { mb := r.mb, tag := r.tag, quiet := quiet, flags := 0, params := [] } status res

/-- REC_TEST_DONE, R508, R509: the test of a recorder's memory ends; `bad` are the slots that fail. -/
def execRecTestDone (r : Nat) (bad : List Nat) (s : State) : Out :=
  let x := s.recOf r
  if !x.testing then .next s
  else
    let s1 :=
      if r = 4 then
        let u := s.setRec 4 { x with testing := false }
        if bad = [] ∧ u.rf Reg.REC_PKG_STAT 31 30 = 2 then
          ((u.setRec 4 { x with testing := false, slots := [] }).pf Reg.REC_PKG_STAT 14 0 0).pf Reg.REC_PKG_STAT 31 30 0
        else u
      else
        let still := x.retired.filter (bad.contains ·)
        let u := s.setRec r { x with testing := false, retired := still }
        (u.pf (Reg.REC_T_STAT r) 24 16 still.length).pb (Reg.REC_T_STAT r) 29 (still != [])
    let mine := s1.host.busy.any (fun (b : CmdRef × Bool) => b.1.op == 0x842 && b.1.key == r)
    .next (if mine then s1.busyReply (if bad = [] then stOK else stITEM) [s1.rd (recStatReg r)] else s1)

/-- Return a FROZEN tile recorder to RUN (R507). -/
def State.recRearm (s : State) (t : Nat) : State := (s.setRec t { s.recOf t with post := none }).pb (Reg.REC_T_STAT t) 30 false

/-- REC_REARM, R507. -/
def execRecRearm (t : Nat) (s : State) : Out := .next (s.access (Reg.REC_T_CTRL t) fun s => if t < s.part.tiles then s.recRearm t else s)

/-- RECORDER_MEMORY_ERROR, R508, R509: a single-bit error is corrected and counted; an uncorrectable one retires a slot of a tile
recorder, or fails the package recorder while it records the event `code`, `src`, `detail`. -/
def execRecorderMemoryError (r slot : Nat) (corrected : Bool) (code src : Nat) (detail : Word) (s : State) : Out :=
  .next (if !s.recPresent r ∨ !s.recEnabled r then s
    else if corrected then s.bump (if r = 4 then Cnt.monPkgRec 3 else Cnt.monTileRec r 4)
    else if r = 4 then
      if s.rf Reg.REC_PKG_STAT 31 30 = 2 then s
      else
        let seq := s.rf Reg.REC_PKG_NEXT 30 0
        let s1 := (s.pf Reg.REC_PKG_STAT 31 30 2).wr Reg.REC_PKG_NEXT (toW ((seq + 1) % 2 ^ 31))
        ((s1.faultRecord 1 (s1.recWords 4 seq code src false detail)).monEvt 3).faultSum 7
    else
      let x := s.recOf r
      let k := slot % 512
      if k ∈ x.retired then s
      else
        let s1 := s.setRec r { x with retired := k :: x.retired, slots := Sparse.set (fun _ => []) x.slots k [] }
        let had := b2n (Sparse.get (fun _ => []) x.slots k != [])
        let s2 := ((s1.pf (Reg.REC_T_STAT r) 24 16 (x.retired.length + 1)).pb (Reg.REC_T_STAT r) 29 true).pb (Reg.REC_T_STAT r) 28 true
        let s3 := (s2.pf (Reg.REC_T_STAT r) 9 0 (s2.rf (Reg.REC_T_STAT r) 9 0 - had)).bump (Cnt.monTileRec r 5)
        (s3.monEvt 4).hubEvent 0x13 (k * 2 ^ 16 + r))

/-- Whether a list entry may name a register (R505). -/
def listOk (r : Nat) (w : Word) : Bool :=
  let o := fld w 27 2 * 4
  if r = 4 then decide (o < 0x01000000 ∨ (0x08000000 ≤ o ∧ o < 0x09000000)) else decide (o / 0x01000000 = r + 1)

/-- Write a list entry of a recorder (R505). -/
def State.writeRecList (s : State) (r l i : Nat) (w : Word) : State :=
  if listOk r w then s.wr (recListReg r l i) (maskW w 0x8FFFFFFC)
  else s.pb (recStatReg r) (if r = 4 then 29 else 27) true

/-- Write the control word of a recorder (R514, R516). -/
def State.writeRecCtrl (s : State) (r : Nat) (w : Word) : State :=
  let s1 := if r = 4 then s else s.poke (Reg.REC_T_CTRL r) w
  let s2 := if bit w 31 then s1.recClear r else s1
  let s3 := if bit w 29 ∧ r ≠ 4 then s2.recRearm r else s2
  if bit w 30 then s3.recTest r else s3

/-! ### Commands -/

/-- SNAP_AT, R496, R500: flag bit 0 now, else at a PTP time; flag bit 1 the whole system. -/
def execSnapAt (p : Pkt) (s : State) : Out :=
  let sys := bitN p.flags 1
  let now := bitN p.flags 0
  let ok := decide (p.flags < 4) && (if now then p.params.length == 0 else p.params.length == 3 && s.ptpOk p.params 0)
  .next (s.command 0x800 p ok true (!sys || s.isLead) fun u =>
    let key := b2n sys * 2
    let at_ := u.tick + 1600
    let u1 := if sys then u.copyDown 0x800 (toW p.flags :: (if now then [toW at_, toW (at_ / 2 ^ 32)] else p.params)) else u
    if now then (u1.snapNow [p.ref 0x800 key] sys, .accepted key [])
    else
      match u.freeCmp with
      | none => (u, .status stRESOURCE [])
      | some n => (u1.schedule n 2 (shortOf (ptpParam p.params 0)) 0 (some (p.ref 0x800 key)), .accepted key []))

/-- SNAP_RELEASE: bank mask. -/
def execSnapRelease (p : Pkt) (s : State) : Out :=
  .next (s.command 0x801 p (p.is 1 && decide (p.arg 0 < 4)) true true fun u =>
    let u1 := u.releaseBanks (p.arg 0)
    (u1, .ok [u1.rd Reg.MON_SNAP_STAT]))

/-- SNAP_INFO: bank. -/
def execSnapInfo (p : Pkt) (s : State) : Out :=
  .next (s.command 0x802 p (p.is 1 && decide (p.arg 0 < 2)) true true fun u =>
    let b := p.arg 0
    (u, .ok [u.rd (Reg.SNAP_B_SEQ b), u.rd (Reg.SNAP_B_INFO b), u.rd (Reg.SNAP_B_TICK_LO b), u.rd (Reg.SNAP_B_TICK_HI b)]))

/-- SNAP_DELIVER: dlv_en, ring (16-31). -/
def execSnapDeliver (p : Pkt) (s : State) : Out :=
  let r := p.arg 1
  .next (s.command 0x803 p (p.is 2 && decide (p.arg 0 < 2 ∧ 16 ≤ r ∧ r < 32) && s.ringFunc r == some 9) true true fun u =>
    ((u.pf Reg.MON_SNAP_CTRL 3 0 (r - 16)).pb Reg.MON_SNAP_CTRL 8 (p.arg 0 == 1), .ok []))

/-- REC_MAP_SET: recorder, code, list. -/
def execRecMapSet (p : Pkt) (s : State) : Out :=
  let (r, c, l) := (p.arg 0, p.arg 1, p.arg 2)
  .next (s.command 0x840 p (p.is 3 && s.recPresent r && decide (c < 256 ∧ l < 16)) true true fun u =>
    if !u.recEnabled r then (u, .status stITEM [])
    else (u.pf (recMapReg r (c / 8)) (4 * (c % 8) + 3) (4 * (c % 8)) l, .ok []))

/-- REC_LIST_SET: recorder and list; count; offsets. The entries beyond the count become invalid. -/
def execRecListSet (p : Pkt) (s : State) : Out :=
  let r := fld (wordAt p.params 0) 10 8
  let l := fld (wordAt p.params 0) 3 0
  let n := p.arg 1
  let offs := p.params.drop 2
  let ok := p.flags == 0 && decide (1 ≤ n ∧ n ≤ 12) && p.params.length == 2 + n && s.recPresent r &&
    offs.all (fun w => listOk r w && decide (w.toNat < 2 ^ 28 ∧ w.toNat % 4 = 0))
  .next (s.command 0x841 p ok true true fun u =>
    if !u.recEnabled r then (u, .status stITEM [])
    else (u.forEach (List.range 12) fun v i =>
      v.wr (recListReg r l i) (if i < n then toW (2 ^ 31 + (wordAt offs i).toNat) else 0), .ok []))

/-- REC_CTRL: recorder; control word. With test, the reply is sent when the test ends. -/
def execRecCtrl (p : Pkt) (s : State) : Out :=
  let r := p.arg 0
  let w := wordAt p.params 1
  .next (s.command 0x842 p (p.is 2 && s.recPresent r) true true fun u =>
    if !u.recEnabled r then (u, .status stITEM [])
    else
      let u1 := u.writeRecCtrl r w
      if bit w 30 then ({ u1 with host := { u1.host with busy := some (p.ref 0x842 r, p.quiet) } }, .later)
      else (u1, .ok [u1.rd (recStatReg r)]))

/-- REC_MARK: value. -/
def execRecMark (p : Pkt) (s : State) : Out :=
  .next (s.command 0x843 p (p.is 1) true true fun u => (u.hubEvent 0x21 (p.arg 0), .ok [u.rd Reg.REC_PKG_NEXT]))

/-- REC_STATUS: recorder. -/
def execRecStatus (p : Pkt) (s : State) : Out :=
  .next (s.command 0x844 p (p.is 1 && s.recPresent (p.arg 0)) true true fun u =>
    if !u.recEnabled (p.arg 0) then (u, .ok [0, 0]) else (u, .ok [u.rd (recStatReg (p.arg 0)), u.rd (recNextReg (p.arg 0))]))

/-- MA_SET: ADC or 0xFF; MA_CFG, MA_SEQ_LO, MA_SEQ_HI. -/
def execMaSet (p : Pkt) (s : State) : Out :=
  let q := p.arg 0
  let qs := if q = 0xFF then s.parcels else [q]
  .next (s.command 0x880 p (p.is 4 && (q == 0xFF || decide (q < s.part.parcels))) true true fun u =>
    if qs.any (fun q => !u.domOn (8 + q / 2)) then (u, .status stITEM [])
    else (u.forEach qs fun v q =>
      ((v.wr (Reg.MA_SEQ_LO q) (wordAt p.params 2)).wr (Reg.MA_SEQ_HI q) (wordAt p.params 3)).writeMaCfg q (wordAt p.params 1), .ok []))

/-- MA_WINDOW: ADC, channel, MA_WIN. -/
def execMaWindow (p : Pkt) (s : State) : Out :=
  .next (s.command 0x881 p (p.is 3 && decide (p.arg 0 < s.part.parcels ∧ p.arg 1 < 16)) true true fun u =>
    if !u.domOn (8 + p.arg 0 / 2) then (u, .status stITEM []) else (u.poke (Reg.MA_WIN (p.arg 0) (p.arg 1)) (wordAt p.params 2), .ok []))

/-- MA_CONVERT: ADC, channel. -/
def execMaConvert (p : Pkt) (s : State) : Out :=
  let q := p.arg 0
  .next (s.command 0x882 p (p.is 2 && decide (q < s.part.parcels ∧ p.arg 1 < 16)) true true fun u =>
    if !u.maUp q then (u, .status stITEM [])
    else if (u.maOf q).inj.isSome then (u.maInject q (p.arg 1) none, .status stBUSY [])
    else (u.maInject q (p.arg 1) (some (p.ref 0x882 q)), .accepted q []))

/-- MA_TAKE: ADC, channel. -/
def execMaTake (p : Pkt) (s : State) : Out :=
  let (q, c) := (p.arg 0, p.arg 1)
  .next (s.command 0x883 p (p.is 2 && decide (q < s.part.parcels ∧ c < 16)) true true fun u =>
    if !u.maUp q then (u, .status stITEM [])
    else
      let u1 := u.maTake q (2 ^ c)
      (u1, .ok [u1.rd (Reg.MA_RES_SUM q c), u1.rd (Reg.MA_RES_CNT q c), u1.rd (Reg.MA_RES_MM q c)]))

/-- MA_CAL: ADC. -/
def execMaCal (p : Pkt) (s : State) : Out :=
  let q := p.arg 0
  .next (s.command 0x884 p (p.is 1 && decide (q < s.part.parcels)) true true fun u =>
    if !u.maUp q then (u, .status stITEM [])
    else if (u.maOf q).cal.isSome then (u, .status stBUSY [])
    else (u.maOrderCal q (some (p.ref 0x884 q)), .accepted q []))

/-- MA_STATUS: ADC. -/
def execMaStatus (p : Pkt) (s : State) : Out :=
  let q := p.arg 0
  .next (s.command 0x885 p (p.is 1 && decide (q < s.part.parcels)) true true fun u =>
    if !u.domOn (8 + q / 2) then (u, .ok [0, 0]) else (u, .ok [u.peek (Reg.MA_STAT q), u.rd (Reg.MA_ALARM q)]))

end Sys2Proof.Machine
end

