-- ==== Sys2Proof/Machine/Engine.lean ====
section
/-!
DEFINITION. The uplink engines and the correlators: a symbol's window, transform, phase ramp and compensation (R123, R127-R129, R131), the
extraction of PRACH occasions (R133), and the estimates of sounding symbols (R172, R175, R176).
-/
namespace Sys2Proof.Machine

/-! ### Places in the link stream -/

/-- The place, in ticks, of local time `num / den` (in 2^-40 ns): a number and its divisor (R42). -/
def State.tickPlace (s : State) (num : Int) (den : Nat) : Int × Nat :=
  let d := num - (s.tb.baseTime : Int) * (den : Int)
  let r := max 1 (if d < 0 then s.tb.prevRate else s.rate)
  ((s.tb.baseCount : Int) * (r * den : Nat) + d, r * den)

/-- The link stream of a path as 24-bit components (R131), turned by `turns` at the tick of each word, in units of 2^-16. -/
def State.linkTurned (s : State) (p : Nat) (turns : Nat → Int × Nat) : Sig := fun j =>
  if j < 0 then cx0
  else
    let t := j.toNat * s.linkTicks p
    let (num, den) := turns t
    cxRound 44 (cxTurn (cxShl 8 (s.rxWord p j).1) num den)

/-- The turned link stream resampled at the local time `num / den`: the engine's sample there. -/
def State.engineSample (s : State) (p par : Nat) (x : Sig) (num : Int) (den : Nat) : Cx :=
  let (a, b) := s.tickPlace num den
  let d := b * s.linkTicks p
  fir 6 par (a % (d : Int)).toNat x (a / (d : Int))

/-! ### Uplink symbols -/

/-- Sample `m` of the window of block `k` of an uplink symbol (R127): the window begins win_back x CP / 16 before the prefix ends. -/
def State.ulSample (s : State) (v : CarVals) (slot : Int) (sym back p k m : Nat) : Cx :=
  let cfg := v.cfg
  let comp : Nat := min 2000 (fld v.adv 26 16)
  let u := blockIndex cfg (usefulStart cfg slot sym)
  let g16 := 16 * u - (back : Int) * prefixLen cfg slot sym + 16 * (m : Int)
  let rate := carN cfg * carScs cfg
  let off := (blockZero cfg k : Int) - (6 * cfgNprb cfg : Nat)
  let den := carN cfg * placeUnit
  let turns := fun (t : Nat) =>
    let a := s.blockPlace cfg (s.timeAt t) (-(comp : Int))
    (-(off * (a - u * (placeUnit : Int)) * 1600000 + carOfs v.ofs * (t : Int) * (den : Int)), den * 1600000)
  s.engineSample p rate (s.linkTurned p turns) (((s.gridOrigin + comp * nsU : Nat) : Int) * ((16 * rate : Nat) : Int) + g16 * (placeUnit : Int))
    (16 * rate)

/-- The antenna words of an uplink symbol at a path, in order of resource elements, and the components that saturated (R127, R128, R131). `proc`
is CAR_PROC. -/
def State.ulWords (s : State) (v : CarVals) (proc : Word) (slot : Int) (sym p : Nat) : List Cx × Nat :=
  let cfg := v.cfg
  let n := carN cfg
  let back := fld proc 19 16
  let cp := prefixLen cfg slot sym
  let f0 := -(f0Turn v.f0 (usefulStart cfg slot sym))
  let ws := (List.range (carBlocks cfg)).flatMap fun k =>
    let xs := (List.range n).map (s.ulSample v slot sym back p k)
    (List.range (12 * blockCount cfg k)).map fun i =>
      let b : Int := ((12 * blockStart cfg k + i : Nat) : Int) - (blockZero cfg k : Int)
      let y := cxRound 44 (dft n xs b)
      cxSat 24 (cxRound (92 + min 13 (fld proc 11 8)) (cxTurn y (b * (back : Int) * cp * 49152 + f0 * ((16 * n : Nat) : Int)) (16 * n * 49152)))
  (ws.map Prod.fst, (ws.map Prod.snd).sum)

/-! ### PRACH -/

/-- The bins of repetition `r` of a PRACH occasion at a path (R132, R133), with how many components saturated: the occasion shifted to zero
frequency about its middle bin, decimated and transformed, scaled as the carrier's symbols. -/
def State.prachBins (s : State) (v : CarVals) (proc : Word) (o : PrachOcc) (r p : Nat) : List Cx × Nat :=
  let n := 2 ^ o.fft
  let rate := n * o.scs
  let comp : Nat := min 2000 (fld v.adv 26 16)
  let mid := o.seqLen / 2
  let start : Int := ((o.start + comp * nsU : Nat) : Int) * (rate : Int) + ((r * n * 1000000000 * nsU : Nat) : Int)
  let f2 : Int := 2000 * carOfs v.ofs + o.freqOffset * (o.scs : Int) + ((2 * mid * o.scs : Nat) : Int)
  let (a, b) := s.tickPlace start rate
  let turns := fun (t : Nat) => (-(f2 * ((t : Int) * (b : Int) - a)), 3200000000 * b)
  let xs := (List.range n).map (fun (m : Nat) => s.engineSample p rate (s.linkTurned p turns) (start + ((m * 1000000000 * nsU : Nat) : Int)) rate)
  let ws := (List.range o.seqLen).map (fun (b : Nat) => cxSat 24 (cxRound (76 + min 13 (fld proc 11 8)) (dft n xs ((b : Int) - (mid : Int)))))
  (ws.map Prod.fst, (ws.map Prod.snd).sum)

/-! ### Sounding -/

/-- A sounding entry's comb, ports and symbols (R195). -/
def srsComb (w0 : Word) : Nat := [2, 4, 8].getD (fld w0 24 23) 8
def srsPorts (w0 : Word) : Nat := 2 ^ fld w0 26 25
def srsSyms (w1 : Word) : Nat := 2 ^ fld w1 27 26

/-- The average of a group of a sounding entry at a path (R175, first step): the resource elements of its comb times the conjugate reference,
over the group's PRBs and the symbols; `ws` holds the words of each symbol at the path. The reference sequence is that of 38.211, of unit
magnitude 2^22. -/
def srsAverage (w0 w1 w2 : Word) (g i : Nat) (ws : List (List Cx)) : Cx :=
  let first := fld w2 26 16
  let prbs := min g (fld w2 10 0 + 1 - i * g)
  let terms := ws.zipIdx.flatMap fun (w : List Cx × Nat) =>
    ((List.range (12 * prbs)).map (12 * i * g + ·)).filterMap fun re =>
      if fld w0 22 20 ≤ re ∧ (re - fld w0 22 20) % srsComb w0 = 0 then
        let ref := Config.srsRef w0.toNat w1.toNat w2.toNat w.2 ((re - fld w0 22 20) / srsComb w0)
        some (cxMul (w.1.getD (12 * first + re) cx0) { i := ref.1, q := -ref.2 })
      else none
  let sum := cxSum terms
  let n := terms.length * 2 ^ 22
  if n = 0 then cx0 else { i := divRound sum.i n, q := divRound sum.q n, bad := sum.bad }

/-- The estimate of port `k` and group `i` at a path (R175, second step): the port's time-domain window over the averages of its groups. The spec
gives the windows' places and not their shape, so the outcome is a value of `Config.srsWindow`. -/
def srsPort (w0 w1 w2 : Word) (avg : List Cx) (k i : Nat) : Cx :=
  if avg.any Cx.bad then cxBad
  else if avg.all Cx.isZero then cx0
  else
    let y := Config.srsWindow w0.toNat w1.toNat w2.toNat k i (avg.map (fun a => (a.i, a.q)))
    { i := satN y.1 24, q := satN y.2 24 }

/-- The noise of a group at a path (R175, third step): the residual outside the windows. -/
def srsResidual (w0 w1 w2 : Word) (avg : List Cx) (i : Nat) : Nat :=
  if avg.any Cx.bad || avg.all Cx.isZero then 0
  else Config.srsResidual w0.toNat w1.toNat w2.toNat i (avg.map (fun a => (a.i, a.q)))

/-- A noise word of a power (R172): I x 2^Q with I from 2^21 to 2^22 - 1, or I = 0. -/
def noiseWord (p : Nat) : Int × Int :=
  if p = 0 then (0, 0)
  else
    let e := Nat.log2 p
    ((if 21 ≤ e then p / 2 ^ (e - 21) else p * 2 ^ (21 - e) : Nat), (e : Int) - 21)

/-- Whether slot `n` of carrier `c` is an SRS slot under the registers in force at its start (R134). -/
def State.srsSlotOn (s : State) (c : Nat) (n : Int) : Bool :=
  let cfg := s.carCfg c
  let w := (s.srsAt c (s.gridTime (carSlotStart (cfgMu cfg) (cfgExt cfg) n))).1
  let period : Int := ((max 1 (fld w 11 0) : Nat) : Int)
  let m := n % ((10240 * 2 ^ cfgMu cfg : Nat) : Int)
  bit w 31 && (m - (fld w 27 16 : Nat)) % period == 0

/-- The symbols of a slot that are marked for sounding. -/
def State.srsMask (s : State) (c : Nat) (n : Int) : Word :=
  let cfg := s.carCfg c
  (s.srsAt c (s.gridTime (carSlotStart (cfgMu cfg) (cfgExt cfg) n))).2

/-- Whether SRS entry `e` is served by the correlators in slot `n` of its carrier: in use, an SRS slot, its symbols all marked (R174). -/
def State.srsMarked (s : State) (e : Nat) (n : Int) : Bool :=
  let w0 := s.srsW e 0
  let c := fld w0 28 27
  (List.range (srsSyms (s.srsW e 1))).all (fun k => bit (s.srsMask c n) (fld w0 15 12 + k))
def State.srsUsed (s : State) (e : Nat) : Bool := bit (s.srsW e 0) 31 && !bit (s.srsW e 0) 30

/-- The entry ports that entries below `e` take in the slot that starts at `start`, over all carriers (R176). -/
def State.srsBefore (s : State) (e : Nat) (start : Int) : Nat :=
  (((List.range e).filter s.srsUsed).map (fun d =>
    let c := fld (s.srsW d 0) 28 27
    let cfg := s.carCfg c
    let n := carSlotAt (cfgMu cfg) (cfgExt cfg) start
    if cfgUl cfg && s.srsSlotOn c n && s.srsMarked d n then srsPorts (s.srsW d 0) else 0)).sum

end Sys2Proof.Machine
end

