-- ==== Sys2Proof/Machine/Symbols.lean ====
section
/-!
DEFINITION. The symbols of a carrier: the resolution of weights (R148-R152), the Trellis combining in both directions (R144-R147), null
projection (R162), the engines' scaling and counts (R130, R131, R134, R138), PRACH occasions (R133, R158) and sounding (R174-R176).
-/
namespace Sys2Proof.Machine

/-! ### Which vector -/

/-- What a layer's vector comes to on a PRB (R148, R149): the address of its weights, or none; whether it came by fallback; and whether
it is the weight stored for the uplink in split mode (R145). -/
structure Resolved where
  addr : Option Nat
  fallback : Bool := false
  split : Bool := false
  deriving DecidableEq, Repr

/-- A beam-table entry of physical table `k`, when it is valid (R151). -/
def State.beamAt (s : State) (k b : Nat) : Option Nat :=
  if bitN (s.memNat (btBase k + 0x300000 + 4 * (b / 32)) 4) (b % 32) then some (btBase k + b * 0x300) else none

/-- The vector slot of an entry that covers a PRB, R149, R153. `ue` is the ueId it must hold; none for a host set. -/
def State.entryVec (s : State) (k a c prb : Nat) (ue : Option Nat) : Option Nat :=
  let w0 := toW (s.memNat a 4)
  let w1 := toW (s.memNat (a + 4) 4)
  let base := fld (toW (s.memNat (a + 8) 4)) 14 0
  let g := fld w1 27 24 + 1
  let first := fld w1 22 12
  let n := fld w1 10 0 + 1
  if bit w0 31 ∧ (ue = none ∨ ue = some (fld w0 14 0)) ∧ fld w1 31 30 = c ∧ first ≤ prb ∧ prb < first + g * n ∧ base + n ≤ 28672 then
    some (wsBase k + 0x100000 + (base + (prb - first) / g) * 0x300)
  else none

/-- The vector of a section on a PRB (R148, R149, R152), from physical store `k` in the given ws_mode; `fb` is TR_FB_BEAM. -/
def State.resolveVec (s : State) (k : Nat) (mode : Bool) (fb : Word) (x : Sec) (prb : Nat) : Resolved :=
  if (x.typ = 1 ∨ x.typ = 3) ∧ x.beam < 4096 then { addr := s.beamAt k x.beam }
  else
    let (a, ue, up) :=
      if x.typ = 5 then
        let i := if mode then (if x.dl then x.ue % 2048 else 2048 + x.ue % 2048) else x.ue % 4096
        (wsBase k + 0x20 * i, some x.ue, mode && !x.dl)
      else (wsBase k + 0x20000 + 0x20 * (x.beam - 4096), none, false)
    match s.entryVec k a x.car prb ue with
    | some v => { addr := some v, split := up }
    | none =>
      let w0 := toW (s.memNat a 4)
      if bit w0 28 then { addr := s.beamAt k (fld w0 27 16), fallback := true }
      else if bit fb 31 then { addr := s.beamAt k (fld fb 11 0), fallback := true }
      else { addr := none }

/-- The 96 weights at an address, read through their tags (R393). -/
def State.weights (s : State) (a : Nat) : List Cx := (List.range 96).map (fun p => (s.readSlot (a + 8 * p)).1)

/-- Count what the PRBs of a carrier were resolved to (R149). -/
def State.countResolved (s : State) (c : Nat) (rs : List Resolved) : State :=
  (s.bumpBy (Cnt.trResolution c 0) (rs.filter (fun r => r.fallback && r.addr.isSome)).length).bumpBy (Cnt.trResolution c 1)
    (rs.filter (fun r => r.addr.isNone)).length

/-! ### Combining -/

/-- Round at 2^(bfs - 22) and saturate to 24 bits: the word, and how many components saturated (R144). -/
def trRound (bfs : Nat) (a : Cx) : Cx × Nat :=
  let i := roundShift a.i (22 - bfs)
  let q := roundShift a.q (22 - bfs)
  ({ i := satN i 24, q := satN q 24, bad := a.bad }, b2n (satN i 24 != i) + b2n (satN q 24 != q))

/-- Words of a PRB by path: for each path the twelve words, and the components that saturated. -/
def combineDl (bfs : Nat) (paths : Nat) (cs : List (List Cx × List Cx)) : List (List Cx × Nat) :=
  (List.range paths).map fun p =>
    let ws := (List.range 12).map fun k =>
      trRound bfs (cxDot (cs.map (fun (c : List Cx × List Cx) => (c.1.getD p { i := 0, q := 0 }, c.2.getD k { i := 0, q := 0 }))))
    (ws.map Prod.fst, (ws.map Prod.snd).sum)

/-- The null projection of a PRB (R162): `us` are the valid null vectors, `y` the words by path. -/
def projectNull (us : List (List Cx)) (y : List (List Cx)) : List (List Cx) :=
  let at_ := fun (l : List Cx) (p : Nat) => l.getD p { i := 0, q := 0 }
  let cols := (List.range 12).map (fun k => y.map (fun w => at_ w k))
  let done := cols.map fun col =>
    let cs := us.map fun u =>
      let d := cxDot (col.zipIdx.map (fun (v : Cx × Nat) => (cxConj (at_ u v.2), v.1)))
      ({ i := roundShift d.i 22, q := roundShift d.q 22, bad := d.bad } : Cx)
    col.zipIdx.map fun (v : Cx × Nat) =>
      let d := cxDot ((us.zip cs).map (fun (x : List Cx × Cx) => (at_ x.1 v.2, x.2)))
      ({ i := satN (v.1.i - roundShift d.i 22) 24, q := satN (v.1.q - roundShift d.q 22) 24, bad := v.1.bad || d.bad } : Cx)
  (List.range y.length).map (fun p => done.map (fun col => at_ col p))

/-- The words that the lead and its members form with (R163): the value of the cascade words, in a system. -/
def State.layerWords (s : State) (ws : List Cx) : List Cx :=
  if s.reach = 1 then ws
  else
    let b := cascBlock ws
    (b.ms.zip ws).map (fun (m : (Int × Int) × Cx) => { i := m.1.1 * 2 ^ b.e, q := m.1.2 * 2 ^ b.e, bad := m.2.bad || b.res == 15 })

/-! ### Downlink -/

/-- Whether a section covers a PRB of a symbol; sections of type 6 cover none (R94, R177). -/
def Sec.on (x : Sec) (dl : Bool) (c : Nat) (n : Int) (l prb : Nat) : Bool :=
  x.dl == dl && x.typ != 6 && x.car == c && x.slot == n && decide (x.sym ≤ l ∧ l < x.sym + x.numSym) && x.prbs.contains prb

/-- The sections and data of a downlink symbol on a PRB: each section with its words there (R102, R144). A PRB that a section of type 0 covers
sends zero for its layer (R94). -/
def State.dlOn (s : State) (c : Nat) (n : Int) (l prb : Nat) : List (Sec × List Cx) :=
  (s.fh.data.filter (fun u => u.car == c && u.slot == n && u.sym == l)).filterMap fun u =>
    let mine := s.fh.secs.filter (fun x => (x.entry == u.entry || u.entry == 256 + x.layer) && x.on true c n l prb)
    match u.data.find? (fun (d : Nat × List Cx) => d.1 == prb), mine.head? with
    | some d, some x => if mine.any (fun y => y.typ == 0) then none else some (x, s.layerWords d.2)
    | _, _ => none

/-- Whether a member has lost records on the way from the lead since the window of a symbol opened (R372). -/
def State.layerLost (s : State) (c air : Nat) : Bool :=
  match s.port 1 with
  | some l => decide (0 < (s.lnk l).lossTick ∧ (s.tickReaching (s.window c air true false).1.toNat) < (s.lnk l).lossTick)
  | none => false

/-- The sections of a symbol on a PRB whose data did not come, with poisoned words: on a member that has lost records on the way (R372). -/
def State.dlLost (s : State) (c : Nat) (n : Int) (l air prb : Nat) (on : List (Sec × List Cx)) : List (Sec × List Cx) :=
  if s.layerLost c air then
    (s.fh.secs.filter (fun x => x.typ != 0 && x.on true c n l prb && !on.any (fun o => o.1.layer == x.layer))).map
      (fun x => (x, List.replicate 12 cxBad))
  else []

/-- Whether null steering projects a PRB on a symbol, and with which beams (R162, R170). -/
def nullsOf (v : TrVals) (c l prb : Nat) : Option (List Nat) :=
  let w := fun (i : Nat) => v.nulls.getD (4 * c + i) 0
  let first := fld (w 1) 26 16
  if bit (w 0) 31 ∧ bit (w 0) l ∧ first ≤ prb ∧ prb < first + fld (w 1) 11 0 then
    some ((List.range (fld (w 0) 29 28 + 1)).map (fun k => fld (w (2 + k / 2)) (16 * (k % 2) + 11) (16 * (k % 2))))
  else none

/-- One PRB of a downlink symbol: the words by path, and the state with what is counted (R144, R147, R149, R162, R372). -/
def State.dlPrb (s : State) (c : Nat) (n : Int) (l air prb : Nat) : State × List (List Cx) :=
  let (k, mode) := s.storeFor air
  let v := s.trVals air
  let got := s.dlOn c n l prb
  let on := got ++ s.dlLost c n l air prb got
  let (s0, layers) := s.injectLists 0x01 false (on.map Prod.snd)
  let rs := (on.zip layers).map (fun (x : (Sec × List Cx) × List Cx) => (s.resolveVec k mode v.fb x.1.1 prb, x.2))
  let cs := rs.filterMap (fun (r : Resolved × List Cx) => r.1.addr.map (fun a => (s.weights a, r.2)))
  let (s1, ws) := (s0.countResolved c (rs.map Prod.fst)).injectLists 0x02 false (cs.map Prod.fst)
  let y := combineDl (min 7 (fld v.scale 3 0)) s.part.paths (ws.zip (cs.map Prod.snd))
  let s2 := s1.forEach (y.zipIdx) fun u (w : (List Cx × Nat) × Nat) => u.bumpBy (Cnt.trDlSat w.2) w.1.2
  let (s2, ws) := s2.injectLists 0x03 false (y.map Prod.fst)
  let (s3, ws3) :=
    match nullsOf v c l prb with
    | none => (s2, ws)
    | some bs =>
      let us := bs.map (s.beamAt k)
      let s2a := s2.bumpBy (Cnt.trResolution c 2) (us.filter Option.isNone).length
      if s.fh.secs.any (fun x => x.typ != 0 && x.on false c n l prb) then
        (s2a.bump (Cnt.trResolution c 3), ws)
      else
        let (s2b, beams) := s2a.injectLists 0x02 false (us.filterMap (fun (a : Option Nat) => a.map s.weights))
        s2b.injectLists 0x05 false (projectNull beams ws)
  let bad := (List.range 12).filter (fun k => ws3.any (fun w => (w.getD k { i := 0, q := 0 }).bad))
  let s4 := s3.bumpBy (Cnt.trPoisoned 0) bad.length
  let s5 := s4.forEach (ws3.zipIdx) fun u (w : List Cx × Nat) => u.bumpBy (Cnt.svEngine w.2 2) (w.1.filter Cx.bad).length
  (s5, ws3)

/-- The REs of a section of a symbol whose words are poisoned (R108, R397). -/
def badRes (u : USec) (words : List (Nat × List (List Cx))) : Nat :=
  (u.data.map (fun (d : Nat × List Cx) =>
    match words.find? (fun (w : Nat × List (List Cx)) => w.1 == d.1) with
    | some w => ((List.range 12).filter (fun k => w.2.any (fun p => (p.getD k { i := 0, q := 0 }).bad))).length
    | none => 0)).sum

/-- Drop the sections of a carrier and direction that symbol `l` of slot `n` has used up, and the data up to it. -/
def State.dropUsed (s : State) (c : Nat) (dl : Bool) (n : Int) (l : Nat) : State :=
  let past := fun (slot : Int) (last : Nat) => decide (slot < n) || (slot == n && decide (last ≤ l))
  { s with fh := { s.fh with
    secs := s.fh.secs.filter (fun x => !(x.car == c && x.dl == dl && past x.slot (x.sym + x.numSym - 1)))
    data := s.fh.data.filter (fun u => !(dl && u.car == c && past u.slot u.sym)) } }

/-- A downlink symbol is formed from the sections and data at hand (R144-R149, R162, R397): the words of every PRB in order, those of each
path of a running tile, and the sections that lost words to poison. The words go on the air (R130); a symbol of zeros puts nothing there. -/
def State.formDl (s : State) (c : Nat) (n : Int) (l air : Nat) (v : CarVals) : State :=
  let nprb := cfgNprb v.cfg
  let (s3, words) := (List.range nprb).foldl (fun (a : State × List (Nat × List (List Cx))) prb =>
    let (u, y) := a.1.dlPrb c n l air prb
    (u, a.2 ++ [(prb, y)])) (s, [])
  let used := s.fh.data.filter (fun u => u.car == c && u.slot == n && u.sym == l)
  let s4 := s3.forEach used fun u x =>
    let k := badRes x words
    if k = 0 ∨ 256 ≤ x.entry then u else u.rejectSec (some x.entry) x.hdr 0x0C true false (min k 16383)
  let byPath := s.paths.map (fun p => if s.tileRuns (p / 24) then words.flatMap (fun (w : Nat × List (List Cx)) => w.2.getD p []) else [])
  let y : AirSym := { car := c, slot := n, sym := l, vals := v, shift := min 13 (fld (s4.procAt c air) 3 0), words := byPath }
  let s5 := if byPath.all (fun w => w.all (fun x => x.bad || x.isZero)) then s4
    else { s4 with air := { s4.air with syms := s4.air.syms ++ [y] } }
  { s5 with fh := { s5.fh with
    dlWords := byPath.zipIdx.foldl (fun m (w : List Cx × Nat) => Sparse.set (fun _ => []) m w.2 w.1) s5.fh.dlWords } }

/-- DL_SYMBOL, R103, R130, R144-R149, R162, R397: symbol `l` of slot `n` (from the grid origin) of carrier `c` is formed, when its window
has closed; its samples then leave the balls from its air time less dl_adv on (R129). -/
def execDlSymbol (c : Nat) (n : Int) (l : Nat) (s : State) : Out :=
  let cfg := (s.carNamed c n l).cfg
  let air := s.airOf cfg n l
  if 4 ≤ c ∨ !cfgDl cfg ∨ symsPerSlot (cfgExt cfg) ≤ l ∨ !s.domOn 5 ∨ !s.domOn 7 ∨ air + 1 ≤ Sparse.get (fun _ => 0) s.fh.lastDl c then .next s
  else
    let s0 := s.advanceTo (s.tickReaching ((s.window c air true false).2.toNat))
    let s1 := s0.judgeCplane (fun u => u.car == c && u.slot == n && u.sym == l)
    let s2 := { s1 with fh := { s1.fh with lastDl := Sparse.set (fun _ => 0) s1.fh.lastDl c (air + 1) } }
    let s3 := if s2.inReconf c air then s2 else s2.formDl c n l air (s.carNamed c n l)
    .next (((s3.dropUsed c true n l).showBuf).bump (Cnt.seCarrier c 0))

/-! ### Uplink -/

/-- The words of the paths that take part in R145: an unavailable path enters as zero (R146), and so does the reference path (R340). -/
def State.ulPaths (s : State) (ws : List (List Cx)) : List (List Cx) :=
  ws.zipIdx.map (fun (w : List Cx × Nat) => if s.pathRuns w.2 && !s.isRef w.2 then w.1 else [])

/-- Twelve layer words of a PRB (R145) from the words of the paths at resource elements `base` on, and the components that saturated. A path
without words takes no part: its weight is not read (R146). -/
def combineUl (bfs : Nat) (split : Bool) (ws : List Cx) (ant : List (List Cx)) (base : Nat) : List Cx × Nat :=
  let zs := (List.range 12).map fun k =>
    trRound bfs (cxDot ((ant.zipIdx.filter (fun (a : List Cx × Nat) => !a.1.isEmpty)).map (fun (a : List Cx × Nat) =>
      let w := ws.getD a.2 { i := 0, q := 0 }
      (if split then w else cxConj w, a.1.getD (base + k) { i := 0, q := 0 }))))
  (zs.map Prod.fst, (zs.map Prod.snd).sum)

/-- Whether a partial of a further package is expected (R164). -/
def State.expectsPartial (s : State) : Bool := decide (s.pkgNum + 1 < s.reach)

/-- The words of this package, with every partial added, go on: to egress on the lead, toward the lead on a member (R164). -/
def State.passUp (s : State) (u : UlSec) : State :=
  if s.pkgNum = 0 then s.toEgress u
  else s.forEach (runsOf u.data.length u.data) fun v r =>
    let (v, bs) := v.cascBlocks (r.map Prod.snd)
    v.sendRec (v.port 1) {
      kind := 2, hdr := layerHdr u.sec.car u.sec.hdr u.sym u.sec.layer ((r.map Prod.fst).headD 0) r.length, blocks := bs }

/-- Add a partial to words of this package, saturating to 24 bits (R164). -/
def addPartial (own got : List Cx) : List Cx :=
  (own.zip got).map (fun (w : Cx × Cx) => { i := satN (w.1.i + w.2.i) 24, q := satN (w.1.q + w.2.q) 24, bad := w.1.bad || w.2.bad })

/-- The run header fields by which a partial and the words it belongs to know each other (R164, R370): carrier, symbol and layer. -/
def partialKey (hdr : Nat) : Nat := hdr / 2 ^ 22 % 2 ^ 31

/-- The same of words of this package. -/
def UlSec.key (u : UlSec) : Nat := partialKey (layerHdr u.sec.car u.sec.hdr u.sym u.sec.layer 0 1)

/-- Add the partials of some PRBs to the words that wait for them. -/
def Held.take (x : Held) (got : List (Nat × List Cx)) : Held :=
  let data := x.ul.data.map (fun (d : Nat × List Cx) =>
    match got.find? (fun (g : Nat × List Cx) => g.1 == d.1 && x.missing.contains g.1) with
    | some g => (d.1, addPartial d.2 g.2)
    | none => d)
  { x with ul := { x.ul with data := data }, missing := x.missing.filter (fun p => !got.any (fun (g : Nat × List Cx) => g.1 == p)) }

/-- Layer words of a section are formed: they take the partials of the next package that have come in the last 10 us, and wait for those that
have not, where one is expected (R164). -/
def State.formed (s : State) (u : UlSec) : State :=
  if u.data = [] then s
  else if s.expectsPartial then
    let fresh := s.fh.early.filter (fun (e : Nat × List (Nat × List Cx) × Nat) => decide (s.now ≤ e.2.2 + 10000 * nsU))
    let mine := fresh.filter (fun (e : Nat × List (Nat × List Cx) × Nat) => e.1 == u.key)
    let h := mine.foldl (fun (h : Held) (e : Nat × List (Nat × List Cx) × Nat) => h.take e.2.1) { ul := u, missing := u.data.map Prod.fst, from_ := s.now }
    let left := fresh.map (fun (e : Nat × List (Nat × List Cx) × Nat) =>
      if e.1 = u.key then (e.1, e.2.1.filter (fun (g : Nat × List Cx) => !u.data.any (fun (d : Nat × List Cx) => d.1 == g.1)), e.2.2) else e)
    let s1 := { s with fh := { s.fh with early := left.filter (fun (e : Nat × List (Nat × List Cx) × Nat) => !e.2.1.isEmpty) } }
    if h.missing = [] then s1.passUp h.ul else { s1 with fh := { s1.fh with held := s1.fh.held ++ [h] } }
  else s.passUp u

/-- One section of an uplink symbol (R145, R147, R149), and the resource elements whose words are poisoned. -/
def State.ulSec (s : State) (x : Sec) (l air endAir : Nat) (ant : List (List Cx)) : State × List Nat :=
  let (k, mode) := s.storeFor air
  let v := s.trVals air
  let out := x.prbs.map (fun prb => (prb, s.resolveVec k mode v.fb x prb))
  let read := fun (a : Nat) => (s.weights a).zipIdx.map (fun (w : Cx × Nat) => if (ant.getD w.2 []).isEmpty then cx0 else w.1)
  let (s1, ws) := (s.countResolved x.car (out.map Prod.snd)).injectLists 0x02 false
    (out.map (fun (o : Nat × Resolved) => (o.2.addr.map read).getD []))
  let zs := (out.zip ws).map (fun (o : (Nat × Resolved) × List Cx) =>
    if o.1.2.addr.isSome then (o.1.1, combineUl (min 7 (fld v.scale 11 8)) o.1.2.split o.2 ant (12 * o.1.1))
    else (o.1.1, (List.replicate 12 { i := 0, q := 0 }, 0)))
  let s2 := s1.bumpBy (Cnt.trUlSat x.layer) ((zs.map (fun (z : Nat × List Cx × Nat) => z.2.2)).sum)
  let (s2, out) := s2.injectLists 0x04 false (zs.map (fun (z : Nat × List Cx × Nat) => z.2.1))
  let data := (zs.map Prod.fst).zip out
  let s3 := { s2 with fh := { s2.fh with
    ulWords := Sparse.set (fun _ => []) s2.fh.ulWords x.layer (data.flatMap Prod.snd) } }
  let bad := data.flatMap (fun (d : Nat × List Cx) => ((List.range 12).filter (fun k => (d.2.getD k cx0).bad)).map (12 * d.1 + ·))
  (s3.formed { sec := x, sym := l, endAir := endAir, data := data }, bad)

/-- An uplink symbol is combined (R131, R145-R149): the words of the uplink engines, the sections that name it, the resource elements with a
poisoned word, and the sounding symbol it may be (R134), whose words go to the correlators. -/
def State.formUl (s : State) (c : Nat) (n : Int) (l air endAir : Nat) (v : CarVals) : State :=
  let es := s.paths.map (fun p => if s.pathRuns p then s.ulWords v (s.procAt c air) n l p else ([], 0))
  let s1 := s.forEach (es.zipIdx) fun u (e : (List Cx × Nat) × Nat) => u.bumpBy (Cnt.seUlSat e.2 c) e.1.2
  let zero := fun (prb : Nat) (x : Sec) => s1.fh.secs.any (fun y => y.typ == 0 && y.entry == x.entry && y.on false c n l prb)
  let secs := (s1.fh.secs.filter (fun x => !x.dl && x.car == c && x.slot == n && decide (x.sym ≤ l ∧ l < x.sym + x.numSym) && x.typ != 0 && x.typ != 6)).map
    (fun x => { x with prbs := x.prbs.filter (fun prb => !zero prb x) })
  let (s2, eng) := s1.injectLists 0x11 true (es.map Prod.fst)
  let words := s2.ulPaths eng
  let (s3, bad) := if s2.inReconf c air then (s2, [])
    else secs.foldl (fun (a : State × List Nat) x =>
      let (u, b) := a.1.ulSec x l air endAir words
      (u, a.2 ++ b.filter (fun re => !a.2.contains re))) (s2, [])
  (s3.bumpBy (Cnt.trPoisoned 1) bad.length).when (s3.srsSlotOn c n && bit (s3.srsMask c n) l) fun u =>
    ({ u with air := { u.air with srs := u.air.srs ++ [(c, n, l, words)] } } : State).bump (Cnt.seCarrier c 3)

/-- Ticks from the end of an uplink symbol at the balls until its words have come through the chain and the link (R306, R325). -/
def ulLatency : Nat := 1024

/-- UL_SYMBOL, R127-R131, R134, R145-R149: symbol `l` of slot `n` of carrier `c` has been received; `adc` holds, by path, the ADC codes up to now.
The engines take its window from the paths' link words. -/
def execUlSymbol (c : Nat) (n : Int) (l : Nat) (adc : List (List Int)) (s : State) : Out :=
  let v := s.carNamed c n l
  let cfg := v.cfg
  let air := s.airOf cfg n l
  if 4 ≤ c ∨ !cfgUl cfg ∨ symsPerSlot (cfgExt cfg) ≤ l ∨ !s.domOn 5 ∨ !s.domOn 7 ∨ air + 1 ≤ Sparse.get (fun _ => 0) s.fh.lastUl c then .next s
  else
    let endAir := s.gridTime (symEnd (cfgMu cfg) (cfgExt cfg) n l)
    let s0 := (s.advanceTo (s.tickReaching (endAir + min 2000 (fld v.adv 26 16) * nsU) + ulLatency)).feedAll adc
    let s1 := { s0 with fh := { s0.fh with lastUl := Sparse.set (fun _ => 0) s0.fh.lastUl c (air + 1) } }
    .next (((s1.formUl c n l air endAir v).dropUsed c false n l).bump (Cnt.seCarrier c 1))

/-- CASC_PARTIAL_TIMEOUT, R164: the oldest words that wait for a partial have waited 10 us; the PRBs whose partial has not come are
poisoned and counted, and casc_miss is set. -/
def execCascPartialTimeout (s : State) : Out :=
  match s.fh.held with
  | [] => .next s
  | h :: rest =>
    let s0 := s.advanceTo (s.tickReaching (h.from_ + 10000 * nsU))
    let s1 := (({ s0 with fh := { s0.fh with held := rest } } : State).bumpBy Cnt.trCascade h.missing.length).pb Reg.TR_STATUS 12 true
    let poison := fun (d : Nat × List Cx) => if h.missing.contains d.1 then (d.1, d.2.map (fun w => { w with bad := true })) else d
    .next (s1.passUp { h.ul with data := h.ul.data.map poison })

/-! ### PRACH -/

/-- PRACH_OCCASION, R133, R158: the first occasion of stream `k` starts, and its beam is latched; called again, it ends: `adc` holds, by path, the
ADC codes up to now, from which each path's extractor takes the bins of the sequence; they are combined under the latched beam and passed to
egress. -/
def execPrachOccasion (k : Nat) (adc : List (List Int)) (s : State) : Out :=
  match Sparse.get (fun _ => []) s.fh.prach k with
  | [] => .next s
  | o :: rest =>
    let put := fun (u : State) (l : List PrachOcc) => { u with fh := { u.fh with prach := Sparse.set (fun _ => []) u.fh.prach k l } }
    if !s.domOn 5 ∨ !s.domOn 7 then .next s
    else match o.latched with
    | none =>
      let s0 := (s.advanceTo (s.tickReaching o.start)).feedAll adc
      let (st, mode) := s0.storeFor o.start
      let r := s0.resolveVec st mode (s0.trVals o.start).fb o.sec (o.sec.prbs.headD 0)
      let (s1, ws) := (s0.countResolved o.sec.car [r]).injectWords 0x02 0 ((r.addr.map s0.weights).getD [])
      .next (put s1 ({ o with latched := some ws } :: rest))
    | some ws =>
      let c := o.sec.car
      let s0 := (s.advanceTo (s.tickReaching (o.stop + s.ulCompAt c o.start * nsU) + ulLatency)).feedAll adc
      let bfs := min 7 (fld (s0.trVals o.start).scale 11 8)
      let s1 := s0.forEach (List.range o.reps) fun u r =>
        let bins := u.paths.map (fun p => if u.pathRuns p then u.prachBins (u.carAt c o.start) (u.procAt c o.start) o r p else ([], 0))
        let words := u.ulPaths (bins.map Prod.fst)
        let u := u.forEach bins.zipIdx fun v (b : (List Cx × Nat) × Nat) => v.bumpBy (Cnt.seUlSat b.2 c) b.1.2
        let data := (List.range ((o.seqLen + 11) / 12)).map (fun j => (o.sec.prbs.headD 0 + j, (combineUl bfs false ws words (12 * j)).1))
        let sec : UlSec := { sec := o.sec, sym := o.sec.sym + r, endAir := o.stop, data := data }
        { u with fh := { u.fh with ul := u.fh.ul ++ [sec] } }
      .next ((put s1 rest).bump (Cnt.sePrach k 0))

/-! ### Sounding -/

/-- Serve one SRS entry of a carrier in slot `n` (R174-R176): skipped where its symbols are not all marked, or beyond 128 ports of the slot;
else its estimates, noise words and directory entries are written. An unavailable path gives zero. -/
def State.serveSrs (s : State) (c e : Nat) (n : Int) (start : Int) : State :=
  let w0 := s.srsW e 0
  let w1 := s.srsW e 1
  let w2 := s.srsW e 2
  let ports := srsPorts w0
  if !s.srsMarked e n ∨ 128 < s.srsBefore e start + ports then (s.pb Reg.SOL_STATUS 0 true).bump (Cnt.solSrs c 1)
  else
    let g := fld w1 31 28 + 1
    let ng := srsGroups w2 g
    let syms := (List.range (srsSyms w1)).map (fld w0 15 12 + ·)
    let heard := syms.filterMap (fun l => (s.air.srs.find? (fun x => x.1 == c && x.2.1 == n && x.2.2.1 == l)).map (fun x => x.2.2.2))
    let avg := s.paths.map (fun p => (List.range ng).map (fun i =>
      if s.pathRuns p then srsAverage w0 w1 w2 g i (heard.map (fun w => w.getD p [])) else cx0))
    let est := (List.range ports).map (fun k => (List.range ng).map (fun i => avg.map (fun a => srsPort w0 w1 w2 a k i)))
    let live := s.paths.filter s.pathRuns
    let noise := (List.range ng).map (fun i => (live.map (fun p => srsResidual w0 w1 w2 (avg.getD p []) i)).sum / max 1 live.length)
    let snr := fun (k : Nat) =>
      let sig := (((est.getD k []).map (fun els => (els.map Cx.power).sum / max 1 live.length))).sum
      if noise.sum = 0 then 255 else if sig = 0 then 0 else clampN (logRound 10 sig noise.sum).toNat 0 255
    let kind := if bit w0 29 then 2 else 0
    let (s1, out) := est.foldl (fun (a : State × List (List (List Cx))) x =>
      let (u, y) := a.1.injectLists 0x06 false x
      (u, a.2 ++ [y])) (s, [])
    let s2 := s1.forEach (List.range ports) fun u k => u.writeEstimate e k kind g (snr k) (out.getD k [])
    let s3 := s2.forEach ((noise.take 2048).zipIdx) fun u (x : Nat × Nat) =>
      u.writeSlot (0x10000 + (c * 2048 + x.2) * 8) (packCx (noiseWord x.1).1 (noiseWord x.1).2)
    s3.bump (Cnt.solSrs c 0)

/-- SRS_ESTIMATE, R174-R176: the correlators complete the occasion of slot `n` of carrier `c`, serving its entries in ascending order. -/
def execSrsEstimate (c : Nat) (n : Int) (s : State) : Out :=
  let cfg := s.carCfg c
  if 4 ≤ c ∨ !s.domOn 5 ∨ !s.domOn 7 ∨ !cfgUl cfg ∨ !s.srsSlotOn c n then .next s
  else
    let start := carSlotStart (cfgMu cfg) (cfgExt cfg) n
    let es := (List.range 256).filter (fun e => s.srsUsed e && fld (s.srsW e 0) 28 27 == c)
    let s1 := s.forEach es fun u e => u.serveSrs c e n start
    .next { s1 with air := { s1.air with srs := s1.air.srs.filter (fun x => !(x.1 == c && decide (x.2.1 ≤ n))) } }

end Sys2Proof.Machine
end

