-- ==== Sys2Proof/Machine/TimeBase.lean ====
section
/-!
DEFINITION. The time base: rate, steps, comparators, the trigger matrix, the grid, holdover, SyncE, PPS, the wake alarm and the
Chiast time commands (R40-R82).
-/
namespace Sys2Proof.Machine

/-! ### Shared operations -/

/-- The limits of the rate word, R41. -/
def rateMin : Nat := 0x00A000000000 - 68719477
def rateMax : Nat := 0x00A000000000 + 68719477

/-- The rate word changes on tick `n` (R42): base time and base count are set so that local time bends without a jump. -/
def State.setRateAt (s : State) (n r : Nat) : State :=
  let t := s.timeAt n
  ({ s with tb := { s.tb with
      baseTime := t, baseCount := n, prevRate := if s.tb.baseCount = n then s.tb.prevRate else s.rate } } : State).wrPair
    Reg.TB_RATE_LO Reg.TB_RATE_HI r

/-- Add a signed value to the rate word from the next tick on (R42, R43); the rate is held to its limits with rate_clamp; in holdover the
adjustment is discarded with adj_dropped. -/
def State.adjustRate (s : State) (d : Int) : State :=
  if s.rb Reg.TB_STATUS 1 then s.pb Reg.TB_STATUS 4 true
  else
    let r : Int := (s.rate : Int) + d
    let clamped := decide (r < (rateMin : Int) ∨ (rateMax : Int) < r)
    let r1 := clampN r.toNat rateMin rateMax
    let s3 := (s.setRateAt (s.tick + 1) r1).relayTime 0 [toW r1, toW (r1 / 2 ^ 32)]
    if clamped then s3.pb Reg.TB_STATUS 3 true else s3

/-- Enter holdover, R68. -/
def State.enterHoldover (s : State) : State :=
  if s.rb Reg.TB_STATUS 1 then s
  else
    let s1 := s.pb Reg.TB_STATUS 1 true
    let s2 := { s1 with tb := { s1.tb with holdTick := s1.tick } }
    let s3 := ((s2.hubEvent 0x03 0).eventNotice 2 0x03 1).relayTime 2 [1]
    if s.rb Reg.TB_CTRL 3 then s3.irq 40 else s3

/-- Leave holdover, R69: degraded is cleared, TB_HOLD_SEC held, and the Sync timeout runs from here (R68). -/
def State.leaveHoldover (s : State) : State :=
  if !s.rb Reg.TB_STATUS 1 then s
  else
    let s1 := { s with tb := { s.tb with holdSecs := s.holdSecs, syncTick := s.tick } }
    (((s1.pb Reg.TB_STATUS 1 false).pb Reg.TB_STATUS 2 false).eventNotice 2 0x03 0).relayTime 2 [0]

/-- Write TB_CTRL (R76): the enables; hold_set and hold_clr unless both are written 1, or on a member (R380). -/
def State.writeTbCtrl (s : State) (w : Word) : State :=
  let s1 := s.pf Reg.TB_CTRL 3 2 (fld w 3 2)
  if bit w 0 && bit w 1 || !s.isLead then s1
  else if bit w 0 then s1.enterHoldover
  else if bit w 1 then s1.leaveHoldover
  else s1

/-- Write TB_CMP_CTRL of a host comparator (R55, R81). -/
def State.writeCmpCtrl (s : State) (n : Nat) (w : Word) : State :=
  if n < 32 ∨ 64 ≤ n then s
  else
    let c := putFld (s.rd (Reg.TB_CMP_CTRL n)) 20 16 (fld w 20 16)
    let c1 := if bit w 2 then putFld c 2 2 0 else c
    let c2 := if bit w 3 then putFld c1 3 3 0 else c1
    let c3 := if bit w 4 then putFld c2 4 4 0 else c2
    let s1 := s.wr (Reg.TB_CMP_CTRL n) c3
    if bit w 1 then s1.disarm n
    else if bit w 0 then
      s1.armCmp n (s.rdPair (Reg.TB_CMP_TGT_LO n) (Reg.TB_CMP_TGT_HI n)) (s.rd (Reg.TB_CMP_PER n)).toNat none
    else s1

/-- The lead relays its grid origin (R379). -/
def State.relayOrigin (s : State) : State :=
  s.relayTime 3 [s.rd Reg.TB_GRID_ORG_SEC_LO, s.rd Reg.TB_GRID_ORG_SEC_HI, s.rd Reg.TB_GRID_ORG_NS]

/-- Set the grid origin. -/
def State.setOrigin (s : State) (sec ns : Nat) : State :=
  (((s.wrPair Reg.TB_GRID_ORG_SEC_LO Reg.TB_GRID_ORG_SEC_HI sec).wr Reg.TB_GRID_ORG_NS (toW ns)).retime s).relayOrigin

/-- The alarm fires, R73: arm cleared, fired set, a wake started; `late` when its target had passed. -/
def State.fireAlarm (s : State) (late : Bool) : State :=
  let c := putFld (putFld (s.rd Reg.TB_ALARM_CTRL) 0 0 0) 1 1 1
  (s.wr Reg.TB_ALARM_CTRL (if late then putFld c 2 2 1 else c)).wakeArrive 1 []

/-- Arm the alarm with a short-time target, R73: one that has passed fires at once and sets late. -/
def State.armAlarm (s : State) (target : Nat) : State :=
  let s1 := { s with tb := { s.tb with alarmTarget := target % 2 ^ 48 } }
  let s2 := s1.pb Reg.TB_ALARM_CTRL 0 true
  if s2.shortDiff (target % 2 ^ 48) ≤ 0 then s2.fireAlarm true else s2

/-- Write TB_ALARM_CTRL: arm, and fired and late cleared by 1 (R73, R75). -/
def State.writeAlarmCtrl (s : State) (w : Word) : State :=
  let c := s.rd Reg.TB_ALARM_CTRL
  let c1 := if bit w 1 then putFld c 1 1 0 else c
  let c2 := if bit w 2 then putFld c1 2 2 0 else c1
  let s1 := s.wr Reg.TB_ALARM_CTRL c2
  if bit w 0 then s1.armAlarm (s.rdPair Reg.TB_ALARM_TGT_LO Reg.TB_ALARM_TGT_HI) else s1.pb Reg.TB_ALARM_CTRL 0 false

/-- Write TB_TRIG_SEL of a line (R61): discarded whole with sel_err for a source that is reserved, or that a tile-bound line
may not take. -/
def State.writeTrigSel (s : State) (l : Nat) (w : Word) : State :=
  let src := fld w 4 0
  if 14 ≤ l then s
  else if 0x0E ≤ src ∨ (tileBound l ∧ (src = 0x0B ∨ src = 0x0D)) then s.pb Reg.TB_STATUS 8 true
  else s.wr (Reg.TB_TRIG_SEL l) (toW (b2n (bit w 8) * 256 + src))

/-- Write a grid origin register (R13, R64): discarded in SERVICE with grid_wr_err, and on a member (R380). `i`: 0 SEC_LO, 1 SEC_HI,
2 NS. -/
def State.writeOrigin (s : State) (i : Nat) (w : Word) : State :=
  if s.dev = 4 then s.pb Reg.TB_STATUS 9 true
  else if !s.isLead then s
  else if i = 0 then
    { s with tb := { s.tb with loLatch := (s.tb.loLatch.filter (fun (x : Nat × Word) => x.1 ≠ Reg.TB_GRID_ORG_SEC_LO)) ++ [(Reg.TB_GRID_ORG_SEC_LO, w)] } }
  else if i = 1 then
    let lo := ((s.tb.loLatch.find? (fun x => x.1 == Reg.TB_GRID_ORG_SEC_LO)).map (·.2)).getD (s.rd Reg.TB_GRID_ORG_SEC_LO)
    (((s.wr Reg.TB_GRID_ORG_SEC_LO lo).wr Reg.TB_GRID_ORG_SEC_HI (toW (fld w 15 0))).retime s).relayOrigin
  else if i = 2 then ((s.wr Reg.TB_GRID_ORG_NS w).retime s).relayOrigin
  else s

/-! ### Register events -/

/-- TB_RATE_ADJ_WRITE, R43. -/
def execTbRateAdjWrite (w : Word) (s : State) : Out :=
  .next (s.access Reg.TB_RATE_ADJ fun s => if s.isLead then s.adjustRate (sext w.toNat 32) else s)

/-- TB_NOW_NS_READ, R44: the read captures the time of its tick in the other time registers. -/
def execTbNowNsRead (s : State) : Out :=
  .next (s.accessRead Reg.TB_NOW_NS fun s =>
    let t := s.now
    let s1 := ((s.wr Reg.TB_NOW_NS (toW (nanoOf t))).wr Reg.TB_NOW_FRAC (toW (fracOf t))).wrPair Reg.TB_NOW_SEC_LO Reg.TB_NOW_SEC_HI
      (secOf t % 2 ^ 48)
    let e := s.epoch + b2n (s.rb Reg.TB_STATUS 1) * 256 + b2n (s.rb Reg.TB_STATUS 2) * 512
    (s1.wr Reg.TB_NOW_EPOCH (toW e)).answer (toW (nanoOf t)))

/-- The armed comparators are resolved at a step (R51): fired at once and late when the new time has reached or passed them (or
their firing tick, R58), cancelled with range_cxl beyond 2^47 - 1 ns, else left armed. `t0` is the state before. A comparator cancelled so is
disarmed and an accepted command that it served gets no notice of it (DESIGN CHOICE, log entry 35). -/
def State.stepComparators (s : State) (t0 : State) : State :=
  s.forEach (List.range 64) fun u n =>
    if !u.armed n then u
    else
      let x := u.cmpOf n
      let full : Int := (nsOf t0.now : Int) + t0.shortDiff x.target
      let ahead := full - (nsOf u.now : Int)
      if ahead ≤ 0 then
        let line := lineOf (u.rf (Reg.TB_CMP_CTRL n) 20 16)
        let u1 := (u.wr (Reg.TB_CMP_CTRL n) (firedCtrl (u.rd (Reg.TB_CMP_CTRL n)) true)).lateAction line n
        let u2 :=
          if x.period = 0 then u1.disarm n
          else
            let per := max x.period (if tileBound line then 1000 else 100)
            let t := (full + (((-ahead).toNat / per + 1) * per : Nat)).toNat % 2 ^ 48
            ((u1.setCmp n { x with target := t }).wr (Reg.TB_CMP_TGT_LO n) (toW t)).wr (Reg.TB_CMP_TGT_HI n) (toW (t / 2 ^ 32))
        u2.fireLine line (if tileBound line then u.tick + 1600 else u.tick) true x.ref.toList x.sys
      else if (2 ^ 47 - 1 : Int) < ahead then (u.disarm n).pb (Reg.TB_CMP_CTRL n) 4 true
      else if u.cmpDueNow n then u.fireCmp n
      else u

/-- The alarm at a step, R51, R73. TB_ALARM_CTRL has no range_cxl: an alarm that R51 cancels only loses its arm (DESIGN CHOICE, log entry
36). -/
def State.stepAlarm (s : State) (t0 : State) : State :=
  if !s.rb Reg.TB_ALARM_CTRL 0 then s
  else
    let ahead := (nsOf t0.now : Int) + t0.shortDiff s.tb.alarmTarget - (nsOf s.now : Int)
    if ahead ≤ 0 then s.fireAlarm true
    else if (2 ^ 47 - 1 : Int) < ahead then s.pb Reg.TB_ALARM_CTRL 0 false
    else s

/-- The words of a time in a time-step record, R574: seconds [47:32], seconds [31:0], nanoseconds, fraction. -/
def timeWords (t : Nat) : List Word := [toW (secOf t / 2 ^ 32 % 2 ^ 16), toW (secOf t), toW (nanoOf t), toW (fracOf t)]

/-- What every step of local time does on its tick (R50-R53) once the base time is set: epoch, time_set or its loss, the step
registers, the events. -/
def State.stepRecord (s : State) (oldT : Nat) : State :=
  let e := (s.epoch + 1) % 256
  let s1 := s.pf Reg.TB_STATUS 23 16 e
  let s2 := s1.wrPair Reg.TB_STEP_CNT_LO Reg.TB_STEP_CNT_HI s.tick
  let info := putFld (putFld (s2.rd Reg.TB_STEP_INFO) 7 0 e) 31 16 (s2.rf Reg.TB_STEP_INFO 31 16 + 1)
  let s3 := (s2.wr Reg.TB_STEP_INFO info).hubEvent 0x01 e
  s3.orderRecord 0x32 (timeWords oldT ++ timeWords s.now ++ [toW s.tick, toW (s.tick / 2 ^ 32), toW e])

/-- Local time jumps to `t` on the current tick (R50). A rate change received on this tick applies from the following one (R62). -/
def State.jumpTo (s : State) (t : Nat) : State :=
  { s with tb :=
    if s.tb.baseCount = s.tick + 1 then { s.tb with baseTime := t + s.tb.prevRate, stepTick := s.tick }
    else { s.tb with baseTime := t, baseCount := s.tick, prevRate := s.rate, stepTick := s.tick } }

/-- A step of local time to `t` on the current tick, R50-R53. -/
def State.stepTime (s : State) (t : Nat) : State :=
  let s2 := ((s.jumpTo t).pb Reg.TB_STATUS 0 true).stepRecord s.now
  (((s2.resetSources fun _ => true).stepComparators s).stepAlarm s)

/-- TIME_STEP_APPLY, R50: the accepted step takes effect on one tick, and its command replies; on a lead with members 4 us after the
command (R380), and it is relayed to them (R379). -/
def execTimeStepApply (s : State) : Out :=
  match s.tb.pendStep with
  | none => .next s
  | some p =>
    let s0 := if s.reach = 1 then s else s.advanceTo (s.tick + 6400)
    let s1 := { s0 with tb := { s0.tb with pendStep := none } }
    let t : Int := if p.relative then (s0.now : Int) + p.ns * (nsU : Int) else p.ns * (nsU : Int)
    let s2 := (s1.stepTime t.toNat).relayTime 1 (timeWords t.toNat)
    let pk : Pkt := { mb := p.ref.mb, tag := p.ref.tag, quiet := p.quiet, flags := 0, params := [] }
    .next (s2.reply pk stOK [toW s2.epoch, toW s0.tick, toW (s0.tick / 2 ^ 32)])

/-- COMPARATOR_FIRE, R56-R59: comparator `n` reaches its firing tick. -/
def execComparatorFire (n : Nat) (s : State) : Out :=
  .next (if n < 64 ∧ s.armed n ∧ s.domOn 2 then s.fireCmp n else s)

/-- CMP_ARM, R81: a write to TB_CMP_CTRL of comparator `n` with arm = 1. -/
def execCmpArm (n : Nat) (w : Word) (s : State) : Out := .next (s.access (Reg.TB_CMP_CTRL n) fun s => s.writeCmpCtrl n w)

/-- CMP_CANCEL, R81: a write to TB_CMP_CTRL of comparator `n` with cancel = 1. -/
def execCmpCancel (n : Nat) (w : Word) (s : State) : Out := .next (s.access (Reg.TB_CMP_CTRL n) fun s => s.writeCmpCtrl n w)

/-- TB_TRIG_SEL_WRITE, R61, R82. -/
def execTbTrigSelWrite (line : Nat) (w : Word) (s : State) : Out := .next (s.access (Reg.TB_TRIG_SEL line) fun s => s.writeTrigSel line w)

/-- TB_SW_STROBE, R61: source 0x0D. -/
def execTbSwStrobe (w : Word) (s : State) : Out :=
  .next (s.access Reg.TB_SW_STROBE fun s => if bit w 0 then s.fireHubRoutes 0x0D else s)

/-- TB_LATE_CNT_READ, R75. -/
def execTbLateCntRead (s : State) : Out := .next (s.accessRead Reg.TB_LATE_CNT fun s => (s.answer (s.rd Reg.TB_LATE_CNT)).wr Reg.TB_LATE_CNT 0)

/-- GRID_BOUNDARY, R61, R63: the next boundary of source `src` (0x01-0x0A). With `ahead`, the moment 1,600 ticks before it, at
which the tile-bound lines routed from it fire; else the boundary itself. -/
def execGridBoundary (src : Nat) (ahead : Bool) (s : State) : Out :=
  if src = 0 ∨ 10 < src ∨ !s.domOn 2 then .next s
  else
    let b := s.nextBound src
    let at_ := s.tickReaching (s.gridTime b)
    if ahead then
      .next (if s.aheadLines src b = [] then s else (s.advanceTo (at_ - 1600)).fireAhead src b at_)
    else
      let s1 := s.advanceTo at_
      .next (((s1.fireAhead src b at_).fireHubRoutes src).markSrc src b)

/-- GRID_ORIGIN_WRITE, R64: a write to a grid origin register (0 SEC_LO, 1 SEC_HI, 2 NS). -/
def execGridOriginWrite (i : Nat) (w : Word) (s : State) : Out := .next (s.access (Reg.TB_GRID_ORG_SEC_LO + 4 * i) fun s => s.writeOrigin i w)

/-- TXTS_POP, R67: the read of TB_TXTS_W3 removes the head entry. Frames whose turn has come have left before (R90). -/
def execTxtsPop (s : State) : Out :=
  .next (s.egressRun.accessRead Reg.TB_TXTS_W3 fun s => { s with tb := { s.tb with txts := s.tb.txts.tail } }.answer (wordAt (s.tb.txts.headD []) 3))

/-- SYNC_TIMEOUT, R68. -/
def execSyncTimeout (s : State) : Out :=
  let ms := max 1 (s.rf Reg.TB_HOLD_CFG 15 0)
  .next (if s.rb Reg.TB_HOLD_CFG 16 ∧ !s.rb Reg.TB_STATUS 1 ∧ s.domOn 2 then
    (s.advanceTo (s.tb.syncTick + ms * 1600000)).enterHoldover else s)

/-- HOLD_SET, R68, R76: a write to TB_CTRL with hold_set = 1. -/
def execHoldSet (w : Word) (s : State) : Out := .next (s.access Reg.TB_CTRL fun s => s.writeTbCtrl w)

/-- HOLD_CLR, R69, R76: a write to TB_CTRL with hold_clr = 1. -/
def execHoldClr (w : Word) (s : State) : Out := .next (s.access Reg.TB_CTRL fun s => s.writeTbCtrl w)

/-- SYNCE_LOCK_LOSS, R70. -/
def execSynceLockLoss (s : State) : Out :=
  let s1 := s.pb Reg.TB_STATUS 6 false
  .next (if s.rb Reg.TB_SYNCE_CFG 9 then { s1 with tb := { s1.tb with synceOut := false } } else s1)

/-- SYNCE_LOCK_REGAIN, R70. -/
def execSynceLockRegain (s : State) : Out :=
  let s1 := s.pb Reg.TB_STATUS 6 true
  .next { s1 with tb := { s1.tb with synceOut := s.rb Reg.TB_SYNCE_CFG 8 } }

/-- The seconds-high word of a PPS_IN capture, R75: [15:0] seconds [47:32], [23:16] epoch, [31] new edge. -/
def ppsHi (t epoch : Nat) (new : Bool) : Word := toW (secOf t / 2 ^ 32 % 2 ^ 16 + epoch * 2 ^ 16 + b2n new * 2 ^ 31)

/-- PPS_IN_EDGE, R71. -/
def execPpsInEdge (s : State) : Out :=
  let t := s.now
  let s1 := { s with tb := { s.tb with ppsTick := s.tick, ppsTime := t, ppsEpoch := s.epoch, ppsNew := true } }
  let s2 := s1.pb Reg.TB_STATUS 5 true
  let s3 := if s.tb.ppsFrozen then s2
    else ((s2.wr Reg.TB_PPSIN_NS (toW (nanoOf t))).wr Reg.TB_PPSIN_SEC_LO (toW (secOf t))).wr Reg.TB_PPSIN_SEC_HI (ppsHi t s.epoch true)
  .next (s3.fireHubRoutes 0x0B)

/-- PPSIN_ABSENT, R71: 1.1 s without an edge. -/
def execPpsinAbsent (s : State) : Out :=
  .next (if s.rb Reg.TB_STATUS 5 then (s.advanceTo (s.tb.ppsTick + 1760000000)).pb Reg.TB_STATUS 5 false else s)

/-- PPSIN_NS_READ, R71: returns the nanoseconds of the last edge and freezes the other capture registers at that edge. -/
def execPpsinNsRead (s : State) : Out :=
  .next (s.accessRead Reg.TB_PPSIN_NS fun s =>
    let t := s.tb.ppsTime
    let s1 := ((s.wr Reg.TB_PPSIN_NS (toW (nanoOf t))).wr Reg.TB_PPSIN_SEC_LO (toW (secOf t))).wr Reg.TB_PPSIN_SEC_HI
      (ppsHi t s.tb.ppsEpoch s.tb.ppsNew)
    { s1 with tb := { s1.tb with ppsFrozen := true, ppsNew := false } }.answer (toW (nanoOf t)))

/-- PPS_OUT_RISE, R61, R72. With `ahead`, the moment 1,600 ticks before the edge, for the tile-bound lines routed from it. -/
def execPpsOutRise (ahead : Bool) (s : State) : Out :=
  if !s.ppsRuns ∨ !s.domOn 2 then .next s
  else
    let k := s.nextPps
    let at_ := s.ppsTickOf k
    if ahead then
      .next (if s.aheadLines 0x0C k = [] then s else (s.advanceTo (at_ - 1600)).fireAhead 0x0C k at_)
    else
      let s1 := s.advanceTo at_
      let s2 := { s1 with tb := { s1.tb with ppsOut := true, ppsRise := s1.tick } }
      .next (((s2.fireAhead 0x0C k at_).fireHubRoutes 0x0C).markSrc 0x0C k)

/-- PPS_OUT_FALL, R72. -/
def execPpsOutFall (s : State) : Out :=
  let us := clampN (s.rf Reg.TB_PPSOUT_CFG 27 8) 1 500000
  .next (if s.tb.ppsOut then
    let s1 := s.advanceTo (s.tickReaching (s.timeAt s.tb.ppsRise + us * 1000 * nsU))
    { s1 with tb := { s1.tb with ppsOut := false } } else s)

/-- ALARM_ARM_WRITE, R73: a write to TB_ALARM_CTRL with arm = 1. -/
def execAlarmArmWrite (w : Word) (s : State) : Out := .next (s.access Reg.TB_ALARM_CTRL fun s => s.writeAlarmCtrl w)

/-- ALARM_FIRE, R73: the alarm reaches its target (in DEEP the AON time keeper compares). -/
def execAlarmFire (s : State) : Out :=
  .next (if s.rb Reg.TB_ALARM_CTRL 0 then
    (s.advanceTo (s.tickReaching (s.resolve s.tb.alarmTarget))).fireAlarm false else s)

/-! ### Chiast time commands, R74 -/

/-- TIME_READ. -/
def execTimeRead (p : Pkt) (s : State) : Out :=
  .next (s.command 0x100 p (p.is 0) true true fun u =>
    let t := u.now
    (u, .ok [toW (secOf t / 2 ^ 32 % 2 ^ 16), toW (secOf t), toW (nanoOf t), toW (fracOf t + u.epoch * 2 ^ 16)]))

/-- TIME_RATE_ADJ: DENIED in holdover, and on a member (R380). -/
def execTimeRateAdj (p : Pkt) (s : State) : Out :=
  .next (s.command 0x101 p (p.is 1) true (!s.rb Reg.TB_STATUS 1 && s.isLead) fun u =>
    let u1 := u.adjustRate (sext (p.arg 0) 32)
    (u1, .ok [u1.rd Reg.TB_RATE_LO, u1.rd Reg.TB_RATE_HI]))

/-- The step that TIME_STEP orders: relative, and its nanoseconds. -/
def stepOf (p : Pkt) : Bool × Int :=
  if p.flags = 1 then (true, sext (p.arg 0 * 2 ^ 32 + p.arg 1) 64)
  else (false, (((p.arg 0 * 2 ^ 32 + p.arg 1) * 1000000000 + p.arg 2 : Nat) : Int))

/-- Whether a step's parameters are allowed (R50, R74). -/
def State.stepOk (s : State) (p : Pkt) : Bool :=
  if p.flags = 1 then
    let t : Int := (nsOf s.now : Int) + (stepOf p).2
    p.params.length == 2 && decide (0 ≤ t ∧ t < ((2 ^ 48 * 1000000000 : Nat) : Int))
  else p.params.length == 3 && p.flags == 0 && decide (p.arg 0 < 2 ^ 16 ∧ p.arg 2 < 1000000000)

/-- TIME_STEP, R48-R50: one step per visit; the reply comes with the step. Refused while a reachable package is in no accepting state, and
DENIED on a member (R380). -/
def execTimeStep (p : Pkt) (s : State) : Out :=
  let ready := (List.range (s.reach - 1)).all (fun k => s.tb.peers.any (fun (x : Nat × Nat) => x.1 == k + 1 && acceptedIn 0x102 x.2))
  .next (s.command 0x102 p (s.stepOk p) (!s.isLead || ready) (!s.rb Reg.TB_STEP_INFO 8 && s.isLead) fun u =>
    let st : PendStep := { ref := p.ref 0x102 0, quiet := p.quiet, relative := (stepOf p).1, ns := (stepOf p).2 }
    ({ u with tb := { u.tb with pendStep := some st } }.pb Reg.TB_STEP_INFO 8 true, .later))

/-- TIME_HOLD, R68, R69; DENIED on a member (R380). -/
def execTimeHold (p : Pkt) (s : State) : Out :=
  .next (s.command 0x103 p (p.is 1 && decide (p.arg 0 ≤ 1)) true s.isLead fun u =>
    let u1 := if p.arg 0 = 1 then u.enterHoldover else u.leaveHoldover
    (u1, .ok [toW u1.holdSecs]))

/-- TIME_SCHED, R55-R58: a firmware comparator for a line. -/
def execTimeSched (p : Pkt) (s : State) : Out :=
  .next (s.command 0x104 p (p.is 5 && decide (p.arg 0 < 32) && s.ptpOk p.params 1) true true fun u =>
    match u.freeCmp with
    | none => (u, .status stRESOURCE [])
    | some n => (u.schedule n (p.arg 0) (shortOf (ptpParam p.params 1)) (p.arg 4) none, .ok [toW n]))

/-- TIME_CANCEL. A comparator that serves another accepted command is disarmed as any other, and that command gets no notice (DESIGN CHOICE,
log entry 35). -/
def execTimeCancel (p : Pkt) (s : State) : Out :=
  .next (s.command 0x105 p (p.is 1 && decide (p.arg 0 < 32) && s.armed (p.arg 0)) true true fun u =>
    (u.disarm (p.arg 0), .ok [toW (u.rf (Reg.TB_CMP_CTRL (p.arg 0)) 15 8)]))

/-- TIME_GRID, R64. -/
def execTimeGrid (p : Pkt) (s : State) : Out :=
  .next (s.command 0x106 p (p.is 3 && decide (p.arg 0 < 2 ^ 16 ∧ p.arg 2 < 1000000000)) true s.isLead fun u =>
    (u.setOrigin (p.arg 0 * 2 ^ 32 + p.arg 1) (p.arg 2), .ok []))

/-- TIME_ALARM, R73: all 0 disarms. -/
def execTimeAlarm (p : Pkt) (s : State) : Out :=
  .next (s.command 0x107 p (p.is 3 && s.ptpOk p.params 0) true true fun u =>
    if p.arg 0 = 0 ∧ p.arg 1 = 0 ∧ p.arg 2 = 0 then (u.pb Reg.TB_ALARM_CTRL 0 false, .ok [])
    else
      let t := shortOf (ptpParam p.params 0)
      ((u.wrPair Reg.TB_ALARM_TGT_LO Reg.TB_ALARM_TGT_HI t).armAlarm t, .ok []))

/-- TIME_PPS, R72: en, force, width_us, offset in ns. -/
def execTimePps (p : Pkt) (s : State) : Out :=
  .next (s.command 0x108 p (p.is 4 && decide (p.arg 0 ≤ 1 ∧ p.arg 1 ≤ 1 ∧ p.arg 2 < 2 ^ 20)) true true fun u =>
    let c := putFld (putFld (putFld 0 0 0 (p.arg 0)) 1 1 (p.arg 1)) 27 8 (p.arg 2)
    ((((u.wr Reg.TB_PPSOUT_CFG c).wr Reg.TB_PPSOUT_OFS (wordAt p.params 3)).retime u).ppsFollow, .ok []))

/-! ### Crossings, trigger messages -/

/-- CROSSING_OVERFLOW, R29: row `row` of the table of R28, on die `die` (0-3 a tile, 4 the hub), loses `n` words: the next `n` that pass it are
poisoned. `unit` is the fronthaul port (row 0), the solver core (row 1) or the link (rows 4 and 5, counted there); the other rows carry no
tagged words. A tile link's buffer lies at its receiver: on the hub it loses uplink words, on the tile downlink words. -/
def execCrossingOverflow (row die unit n : Nat) (s : State) : Out :=
  if 8 ≤ row ∨ 5 ≤ die ∨ (die < 4 ∧ s.part.tiles ≤ die) then .next s
  else
    let s1 := if (row = 4 ∨ row = 5) ∧ unit < 6 then (s.bump (Cnt.axLink unit 8)).bumpBy (Cnt.axLink unit 2) n else s
    let k := 256 * row + unit
    let s2 := if row = 0 ∨ row = 1 ∨ row = 5 then
        { s1 with lost := Sparse.set (fun _ => 0) s1.lost k (Sparse.get (fun _ => 0) s1.lost k + n) }
      else if row = 4 ∧ unit < 4 then s1.loseWords unit (die == 4) (s1.streamNow unit) n
      else s1
    .next (s2.event die 0x0C die false row)

end Sys2Proof.Machine
end

