-- ==== Sys2Proof/Machine/Links.lean ====
section
/-!
DEFINITION. The Axnen tile links and cascade ports (R360-R387): stripes and records, messages, training, spare lanes and failure, the chain
of packages and its time, and the link commands. Tile links are links 0-3, cascade ports links 4 and 5.
-/
namespace Sys2Proof.Machine

/-! ### Lanes -/

/-- Data lanes and spare lanes of a link, R360. -/
def dataLanes (l : Nat) : Nat := if l < 4 then 48 else 32
def spareLanes (l : Nat) : Nat := if l < 4 then 2 else 1

/-- Role and state of a lane in AX_LANE, R387. -/
def State.laneRole (s : State) (l n : Nat) : Nat := s.rf (Reg.AX_LANE l n) 23 16
def State.setLane (s : State) (l n role state : Nat) : State :=
  (s.pf (Reg.AX_LANE l n) 23 16 role).pf (Reg.AX_LANE l n) 15 12 state

/-- The standing spares in AX_MAP, lowest field first. -/
def State.spares (s : State) (l : Nat) : List Nat :=
  [s.rf (Reg.AX_MAP l) 23 16, s.rf (Reg.AX_MAP l) 15 8].filter (· ≠ 0xFF)

/-- Show standing spares in AX_MAP and AX_STATUS. -/
def State.setSpares (s : State) (l : Nat) (sp : List Nat) : State :=
  ((s.pf (Reg.AX_MAP l) 23 16 (sp.getD 0 0xFF)).pf (Reg.AX_MAP l) 15 8 (sp.getD 1 0xFF)).pf (Reg.AX_STATUS l) 5 4 sp.length

/-- Whether a link is on this part and carries traffic. -/
def State.linkUp (s : State) (l : Nat) : Bool := decide (l < 6) && s.part.hasLink l && s.linkState l == 2

/-! ### Failure -/

/-- A member loses its upstream (R381): it mutes all its paths, enters holdover and sets up_lost. -/
def State.upstreamLost (s : State) : State :=
  ((s.muteAllForce).enterHoldover.pb Reg.CX_TSTAT 30 true).pb Reg.CX_TSTAT 31 false

/-- A link enters FAILED (R377), which `die` has detected (0-3 the tile of a tile link, 4 the hub): a tile fault, or the loss of a neighbour. A
member that loses its downstream neighbour tells the lead with a CTRL message of code 0x7F2 that carries the lost package's number (DESIGN
CHOICE, log entry 42: the spec gives no message code for it). -/
def State.failLink (s : State) (l die : Nat) : State :=
  let x := s.lnk l
  let s0 := (s.setLinkState l 4).setLnk l { x with swaps := [], trainRef := none }
  let s1 := match x.trainRef with
    | some r => s0.finish r stITEM [s0.rd (Reg.AX_STATUS l)]
    | none => s0
  let s2 := s1.forEach (x.swaps.filterMap LaneSwap.ref) fun u r => u.finish r stITEM [u.rd (Reg.AX_MAP l)]
  if l < 4 then
    if s2.pw.wakes.any (fun w => w.scope == l && w.step == 7) then s2.failTileWake l else s2.declareFault 3 l 0x08 0 die
  else if s2.rf (Reg.CX_PORT l) 1 0 = 2 then
    if s2.isLead then s2.losePackage 1
    else
      let s3 := s2.reachOnly (s2.pkgNum + 1)
      match s3.port 1 with
      | some u => s3.sendMsg u 0xB 0x7F2 [toW (s3.pkgNum + 1)]
      | none => s3
  else if s2.rf (Reg.CX_PORT l) 1 0 = 1 then s2.upstreamLost
  else s2

/-- LINK_FAIL, R377, R381: the forwarded clock of an active link is lost for 100 ns; `tile`: at the tile's end. (The other conditions of R377 are met in LANE_FAILURE
and MSG_RESEND_TIMEOUT.) -/
def execLinkFail (l : Nat) (tile : Bool) (s : State) : Out :=
  .next (if s.part.hasLink l ∧ l < 6 ∧ 1 ≤ s.linkState l ∧ s.linkState l ≤ 3 then s.failLink l (if tile ∧ l < 4 then l else 4) else s)

/-! ### Stripes -/

/-- CRC-8 of R363 over a header's bits above its CRC, and CRC-7 of R370. -/
def crc8 (v len : Nat) : Nat := crcMsb 8 0x07 0 v len
def crc7 (v len : Nat) : Nat := crcMsb 7 0x09 0 v len

/-- The residue of a 16-bit link component (R364). -/
def linkRes (v : Nat) : Nat := residue (sext v 16)

/-- A sample word as received (R364, R368): whether it is poisoned, and whether its residues disagree with it. -/
def sampleCheck (w : Nat) : Bool × Bool :=
  let ri := bitsN w 7 4
  let rq := bitsN w 3 0
  let sealed := ri == 15 || rq == 15
  let wrong := linkRes (bitsN w 39 24) != ri || linkRes (bitsN w 23 8) != rq
  (sealed || wrong, wrong && !sealed)

/-- Whether the block of logical lane `n` holds a bit of slot `j` (R363). -/
def laneTouches (n j : Nat) : Bool := decide (128 * n < 80 + 40 * j ∧ 40 + 40 * j < 128 * n + 128)

/-- The check word of a message (R366): CRC-32C over the bytes of its words. -/
def msgCheck (ws : List Word) : Nat := crc32c (ws.flatMap leBytes)

/-- The messages in a list of words (R366), each with the position of its first word; an all-zero header is IDLE. `fuel` bounds them. -/
def parseMsgs (fuel at_ : Nat) (ws : List Word) : List (Nat × List Word) :=
  match fuel, ws with
  | 0, _ => []
  | _, [] => []
  | k + 1, w :: rest =>
    if w = 0 then parseMsgs k (at_ + 1) rest
    else
      let n := fld w 27 24 + 2
      if rest.length + 1 < n then []
      else (at_, (w :: rest).take n) :: parseMsgs k (at_ + n) ((w :: rest).drop n)

/-- Take a message in sequence order when its check word is right; others are dropped and come again (R366). -/
def State.takeMsg (s : State) (l : Nat) (ws : List Word) : State :=
  let x := s.lnk l
  let body := ws.take (ws.length - 1)
  let h := wordAt ws 0
  if (wordAt ws (ws.length - 1)).toNat = msgCheck body ∧ fld h 23 16 = x.rxSeq then
    s.setLnk l { x with rxSeq := (x.rxSeq + 1) % 256, inbox := x.inbox ++ [body] }
  else s

/-- TILE_STRIPE, R363-R368: the end `tile` (else the hub) of tile link `l` receives a stripe: its header, its 152 slots and the logical lanes
whose block had an invalid sync header. The samples of poisoned words, and of words between the last good header and this one, are lost to
their paths. -/
def execTileStripe (l : Nat) (tile : Bool) (hdr : Nat) (slots : List Nat) (badLanes : List Nat) (s : State) : Out :=
  if !(decide (l < 4) && s.linkUp l) then .next s
  else
    let x := s.lnk l
    let e := b2n tile
    let nsamp := min 152 (bitsN hdr 39 32)
    let idx := bitsN hdr 31 8
    let hit := fun (j : Nat) => badLanes.any (fun n => laneTouches n j)
    let s0 := s.bump (Cnt.axLink l 0)
    if bitsN hdr 7 0 ≠ crc8 (bitsN hdr 39 8) 32 then
      .next ((s0.bump (Cnt.axLink l 1)).setLnk l { x with samples := [] })
    else
      let want := Sparse.get (fun _ => 0) x.next e
      let gap := if want = 0 then 0 else (idx + 2 ^ 24 - (want - 1) % 2 ^ 24) % 2 ^ 24
      let ws := (slots.take nsamp).zipIdx.map (fun (w : Nat × Nat) =>
        let c := sampleCheck w.1
        (w.1, c.1 || hit w.2, c.2))
      let got := ws.map (fun (w : Nat × Bool × Bool) => (w.1, w.2.1))
      let poisoned := gap + (got.filter (fun (w : Nat × Bool) => w.2)).length
      let x1 := { x with samples := got, next := Sparse.set (fun _ => 0) x.next e ((idx + nsamp) % 2 ^ 24 + 1) }
      let s0b := ((s0.setLnk l x1).bumpBy (Cnt.axLink l 2) poisoned).bumpBy (Cnt.axLink l 3) (ws.filter (fun (w : Nat × Bool × Bool) => w.2.2)).length
      let at_ := s0b.streamWord l idx
      let s1 := (s0b.loseWords l (!tile) (at_ - (gap : Int)) gap).forEach (got.zipIdx.filter (fun (w : (Nat × Bool) × Nat) => w.1.2)) fun u w =>
        u.loseWords l (!tile) (at_ + (w.2 : Int)) 1
      let words := ((slots.drop nsamp).take (152 - nsamp)).map (fun w => toW w)
      let ms := parseMsgs 152 nsamp words
      .next (s1.forEach ms fun u (m : Nat × List Word) =>
        if (List.range m.2.length).any (fun i => hit (m.1 + i)) then u else u.takeMsg l m.2)

/-- Bytes of a big-endian number. -/
def beNat (bs : List Byte) : Nat := bs.foldl (fun v b => v * 256 + b.toNat) 0

/-- A block of 49 bytes, R371. -/
def parseBlock (bs : List Byte) : CascBlock :=
  let ms := (List.range 12).map (fun k => (sext (beNat ((bs.drop (4 * k)).take 2)) 16, sext (beNat ((bs.drop (4 * k + 2)).take 2)) 16))
  let t := beNat ((bs.drop 48).take 1)
  { e := t / 16, ms := ms, res := t % 16 }

/-- 32-bit words of a kind-5 record: `n` messages, each as long as its header says; none while they are not all there. -/
def parseRecMsgs : Nat → List Byte → Option (List (List Word) × List Byte)
  | 0, bs => some ([], bs)
  | k + 1, bs =>
    if bs.length < 4 then none
    else
      let h := toW (beNat (bs.take 4))
      let n := if h = 0 then 1 else fld h 27 24 + 2
      if bs.length < 4 * n then none
      else
        let ws := (List.range n).map (fun i => toW (beNat ((bs.drop (4 * i)).take 4)))
        (parseRecMsgs k (bs.drop (4 * n))).map (fun r => (ws :: r.1, r.2))

/-- Parse the record stream of a port as far as whole records have come (R370, R372). -/
def State.parseRecs (s : State) (l : Nat) : Nat → State
  | 0 => s
  | fuel + 1 =>
    let x := s.lnk l
    let k := l - 4
    if !x.inStep ∨ x.bytes.length < 8 then s
    else
      let h := beNat (x.bytes.take 8)
      let body := x.bytes.drop 8
      let kind := bitsN h 63 60
      if bitsN h 6 0 ≠ crc7 (bitsN h 63 7) 57 ∨ kind = 0 ∨ 5 < kind then
        ((s.setLnk l { x with bytes := [], inStep := false, lossTick := s.tick + 1 }).bump (Cnt.axRecords k 1)).bump (Cnt.axRecords k 3)
      else if kind = 5 then
        match parseRecMsgs (bitsN h 59 56) body with
        | none => s
        | some (ms, rest) =>
          let s1 := (s.setLnk l { x with bytes := rest }).bump (Cnt.axRecords k 0)
          (s1.forEach (ms.filter (fun m => m != [0])) fun u m => u.takeMsg l m).parseRecs l fuel
      else
        let n := if kind ≤ 2 then bitsN h 17 7 + 1 else 8
        if body.length < 49 * n then s
        else
          let bs := (List.range n).map (fun i => parseBlock ((body.drop (49 * i)).take 49))
          let bad := (bs.filter (fun b => (blockWords b).any Cx.bad && b.res != 15)).length
          let r : CascRec := { kind := kind, hdr := bitsN h 59 7, blocks := bs }
          (((s.setLnk l { x with bytes := body.drop (49 * n), recs := x.recs ++ [r] }).bump (Cnt.axRecords k 0)).bumpBy (Cnt.axRecords k 2) bad).parseRecs l fuel

/-- CASC_STRIPE, R369, R372: cascade port `k` receives a stripe: its 64-bit header and 504 payload bytes. -/
def execCascStripe (k : Nat) (hdr : Nat) (payload : List Byte) (s : State) : Out :=
  let l := 4 + k
  if !(decide (k < 2) && s.linkUp l) then .next s
  else
    let x := s.lnk l
    let s0 := s.bump (Cnt.axLink l 0)
    if bitsN hdr 7 0 ≠ crc8 (bitsN hdr 63 8) 56 then
      .next (((s0.bump (Cnt.axLink l 1)).bumpBy (Cnt.axRecords k 3) (b2n (x.bytes != []))).setLnk l {
        x with bytes := [], inStep := false, lossTick := s.tick + 1 })
    else
      let at_ := bitsN hdr 63 48
      let ofs := bitsN hdr 47 39
      let idx := (at_ + payload.length) % 2 ^ 16
      let goes := x.inStep && at_ == x.byteIdx
      let x1 :=
        if goes then { x with bytes := x.bytes ++ payload, byteIdx := idx }
        else if ofs < 504 then { x with bytes := payload.drop ofs, inStep := true, byteIdx := idx }
        else { x with bytes := [], inStep := false, byteIdx := idx }
      let x2 := if goes then x1 else { x1 with lossTick := if x.bytes = [] ∧ !x.inStep then x.lossTick else s.tick + 1 }
      .next (((s0.setLnk l x2).bumpBy (Cnt.axRecords k 3) (b2n (!goes && x.bytes != []))).parseRecs l (payload.length + 64))

/-! ### Records -/

/-- Take the oldest record of a port when it is of a kind. -/
def State.takeRec (s : State) (l kind : Nat) : Option (CascRec × State) :=
  let x := s.lnk l
  match x.recs with
  | r :: rest =>
    if r.kind = kind ∧ s.linkUp l ∧ 4 ≤ l then
      let (s1, bs) := (s.setLnk l { x with recs := rest }).crossBlocks l r.blocks
      some ({ r with blocks := bs }, s1)
    else none
  | [] => none

/-- The fields of a kind-1 or kind-2 run header. -/
def recHdr (h : Nat) : SecHdr := {
  port := 0
  eaxc := 0
  sectionId := 0
  frameId := bitsN h 50 41 % 256
  subframeId := bitsN h 40 37
  slotId := bitsN h 36 31
  symbolId := bitsN h 30 27
  startPrb := bitsN h 21 11
  numPrb := bitsN h 10 0 + 1 }

/-- CASC_LAYER_RECORD, R163, R372: a kind-1 record that has arrived on port `k` becomes layer data of a symbol, and goes on down the
chain. -/
def execCascLayerRecord (k : Nat) (s : State) : Out :=
  match s.takeRec (4 + k) 1 with
  | none => .next s
  | some (r, s1) =>
    let h := recHdr r.hdr
    let c := bitsN r.hdr 52 51
    let (cfg, slot) := s1.readUnder c h.frameId h.subframeId h.slotId
    let u : USec := {
      hdr := h, entry := 256 + bitsN r.hdr 26 22, car := c, slot := slot, sym := h.symbolId, air := s1.airOf cfg slot h.symbolId
      data := r.blocks.zipIdx.map (fun (b : CascBlock × Nat) => (h.startPrb + b.2, blockWords b.1))
      judged := true, mu := cfgMu cfg, ext := cfgExt cfg }
    let s2 := ({ s1 with fh := { s1.fh with data := s1.fh.data ++ [u] } } : State).showBuf
    .next (s2.sendRec (s2.port 2) r)

/-- CASC_PARTIAL_RECORD, R164: a kind-2 record that has arrived on port `k` is added to the words that wait for it, and kept where this package
has not formed its own; words whose every partial has come go on. -/
def execCascPartialRecord (k : Nat) (s : State) : Out :=
  match s.takeRec (4 + k) 2 with
  | none => .next s
  | some (r, s1) =>
    let got := r.blocks.zipIdx.map (fun (b : CascBlock × Nat) => (bitsN r.hdr 21 11 + b.2, blockWords b.1))
    let key := partialKey r.hdr
    let wanted := fun (g : Nat × List Cx) => s1.fh.held.any (fun x => x.ul.key == key && x.missing.contains g.1)
    let held := s1.fh.held.map (fun x => if x.ul.key = key then x.take got else x)
    let soon := got.filter (fun g => !wanted g)
    let s2 := { s1 with fh := { s1.fh with
      held := held.filter (fun x => x.missing != [])
      early := if soon = [] then s1.fh.early else s1.fh.early ++ [(key, soon, s1.now)] } }
    .next (s2.forEach (held.filter (fun x => x.missing == [])) fun u x => u.passUp x.ul)

/-- Write 96 elements at `first` of a slot whose words begin at `base`; a poisoned word keeps its poison in the tag. -/
def State.putEls (s : State) (base first : Nat) (bs : List CascBlock) : State :=
  s.forEach (((bs.flatMap blockWords).zipIdx).filter (fun (w : Cx × Nat) => decide (first + w.2 < 96))) fun u (w : Cx × Nat) =>
    u.writeCx (base + 8 * (first + w.2)) w.1

/-- CASC_ESTIMATE_RECORD, R175, R189: a kind-3 record for this package is written to its channel slot; another's is passed on. -/
def execCascEstimateRecord (k : Nat) (s : State) : Out :=
  match s.takeRec (4 + k) 3 with
  | none => .next s
  | some (r, s1) =>
    let dst := bitsN r.hdr 35 34
    let slot := bitsN r.hdr 52 38
    .next (if dst ≠ s1.pkgNum then s1.sendRec (s1.toward dst) r
      else if slot < 21674 then s1.putEls (0x20000 + slot * 0x300) (bitsN r.hdr 33 25) r.blocks
      else s1)

/-- The job, input and subband whose vector a slot holds, in the downlink or the uplink range (R178). -/
def State.sliceOf (s : State) (slot : Nat) : Option (Nat × Nat × Nat) :=
  (List.range 64).findSome? fun j =>
    let base := fld (s.jobW j 2) 14 0
    let g := s.jobGroups j
    let n := s.jobInputs j
    if s.jobActive j ∧ base ≤ slot ∧ slot < base + n * s.itemsPer j * g then some (j, (slot - base) / g % n, (slot - base) % g) else none

/-- CASC_SLICE_RECORD, R189: a kind-4 record for this package is written to its vector slot in the idle store, unless the store is frozen,
in which case it waits; the subband is done when the slices of every input have come. -/
def execCascSliceRecord (k : Nat) (s : State) : Out :=
  match s.takeRec (4 + k) 4 with
  | none => .next s
  | some (r, s1) =>
    let dst := bitsN r.hdr 35 34
    let slot := bitsN r.hdr 52 38
    if dst ≠ s1.pkgNum then .next (s1.sendRec (s1.toward dst) r)
    else if s.rb Reg.TR_STATUS 1 then .next s
    else
      let base := wsBase (1 - s1.liveStore) + 0x100000 + slot * 0x300
      let s2 := if slot < 28672 then (s1.putEls base (bitsN r.hdr 33 25) r.blocks).markDirty base else s1
      .next (match s2.sliceOf slot with
        | none => s2
        | some (j, i, sub) =>
          let x := s2.jobOf j
          let src := bitsN r.hdr 37 36
          let remote := x.remote.map (fun (y : Nat × List (Nat × Nat)) => if y.1 = sub ∧ (i, src) ∉ y.2 then (y.1, (i, src) :: y.2) else y)
          let left := remote.filter (fun (y : Nat × List (Nat × Nat)) => !(List.range (s2.jobInputs j)).all (fun n => y.2.any (fun e => e.1 == n)))
          (s2.setJob j { x with remote := left }).tryComplete j)

/-! ### Messages -/

/-- The oldest message of a type in a link's inbox is taken, if one waits; a message row without one carries its content itself. -/
def State.popMsg (s : State) (l typ : Nat) : State :=
  let x := s.lnk l
  match x.inbox.find? (fun m => fld (wordAt m 0) 31 28 == typ) with
  | some m => s.setLnk l { x with inbox := x.inbox.erase m }
  | none => s

/-- ACK_MESSAGE, R366: every message up to number `n` is acknowledged. -/
def execAckMessage (l n : Nat) (s : State) : Out :=
  let x := s.lnk l
  .next (if s.linkUp l ∧ x.unacked.any (fun m => m.seq == n) then
    (s.popMsg l 1).setLnk l { (s.popMsg l 1).lnk l with unacked := (x.unacked.dropWhile (fun m => m.seq != n)).drop 1 } else s)

/-- MSG_RESEND_TIMEOUT, R366: the oldest unacknowledged message has waited 200 ns (tile link) or 1 us; it and every later one are sent
again; one that has been sent 16 times fails the link. -/
def execMsgResendTimeout (l : Nat) (s : State) : Out :=
  let x := s.lnk l
  match x.unacked with
  | [] => .next s
  | m :: _ =>
    if !s.linkUp l then .next s
    else
      let s0 := s.advanceTo (m.sent + (if l < 4 then 320 else 1600))
      if 16 ≤ m.sends then .next ((s0.pb (Reg.AX_STATUS l) 10 true).failLink l 4)
      else
        let again := x.unacked.map (fun y => { y with sends := y.sends + 1, sent := s0.tick })
        .next ((s0.setLnk l { x with unacked := again }).bumpBy (Cnt.axLink l 4) again.length)

/-- CAPTURE_MESSAGE, R297, R367: bytes of a host capture of row `r` arrive over its tile link and join the capture's item. -/
def execCaptureMessage (r : Nat) (bs : List Byte) (s : State) : Out :=
  if !(decide (r < s.part.rows) && s.linkUp (r / 6)) then .next s
  else
    let s1 := s.popMsg (r / 6) 5
    let rings := (List.range 32).filter (fun n => (s1.ringOf n).items.any (fun i => i.code == 2 && i.detail / 256 == r && decide (i.data.length < i.len)))
    match rings with
    | [] => .next s1
    | n :: _ =>
      let x := s1.ringOf n
      let one := fun (i : DevItem) (k : Nat) =>
        if x.items.findIdx (fun y => y.code == 2 && y.detail / 256 == r && decide (y.data.length < y.len)) = k then
          { i with data := (i.data ++ bs).take i.len } else i
      .next (s1.setRing n { x with items := x.items.zipIdx.map (fun (y : DevItem × Nat) => one y.1 y.2) })

/-- REG_RSP, R367: the response of a register access over a link; its data is what the read returns. -/
def execRegRsp (l : Nat) (w : Word) (s : State) : Out := .next (if s.linkUp l then (s.popMsg l 4).answer w else s)

/-- WAKE_MESSAGE, R113, R383: the lead passes a wake with its tile mask to the packages of a mask; it goes on down the chain. -/
def execWakeMessage (pkgs tiles : Nat) (s : State) : Out :=
  if s.isLead ∨ !s.domOn 4 then .next s
  else
    let s1 := match s.port 1 with
      | some l => s.popMsg l 9
      | none => s
    let s2 := match s1.port 2 with
      | some l => s1.sendMsg l 9 (pkgs * 16 + tiles) []
      | none => s1
    .next (if bitN pkgs s2.pkgNum then s2.wakeArrive 5 ((List.range 4).filter (bitN tiles)) else s2)

/-- The tick of this package that corresponds to a tick of the lead (R379). -/
def State.ownTick (s : State) (lead : Nat) : Nat :=
  ((lead : Int) - sext (s.rdPair Reg.CX_CNT_OFS_LO Reg.CX_CNT_OFS_HI) 64).toNat

/-- The kind and words of a TIME message (R379), as the lead sends them. -/
def timeMsgWords : TimeMsg → Nat × List Word
  | .rate w => (0, [toW w, toW (w / 2 ^ 32)])
  | .step sec ns => (1, timeWords (ptpTime sec ns))
  | .hold on => (2, [toW (b2n on)])
  | .origin sec ns => (3, [toW sec, toW (sec / 2 ^ 32), toW ns])

/-- TIME_MESSAGE, R379: a member applies what the lead relays, as from the tick of its own that corresponds to the lead's. -/
def execTimeMessage (lead : Nat) (m : TimeMsg) (s : State) : Out :=
  if s.isLead ∨ !s.rb Reg.CX_TSTAT 31 then .next s
  else
    let s0 := match s.port 1 with
      | some l => s.popMsg l 7
      | none => s
    let t := s0.ownTick lead
    let s1 := match s0.port 2 with
      | some l => s0.sendMsg l 7 (timeMsgWords m).1 (toW lead :: toW (lead / 2 ^ 32) :: (timeMsgWords m).2)
      | none => s0
    let s2 := s1.advanceTo t
    .next (match m with
      | .rate w => s2.setRateAt t (clampN w rateMin rateMax)
      | .step sec ns => s2.stepTime (ptpTime sec ns + (s2.tick - t) * s2.rate)
      | .hold on => if on then s2.enterHoldover else s2.leaveHoldover
      | .origin sec ns => s2.setOrigin sec ns)

/-- COMMIT_MESSAGE, R165: the lead takes the locks of a package, and a member passes them on to it; a member executes the lead's commit with
its T and B. -/
def execCommitMessage (m : CommitMsg) (s : State) : Out :=
  match m with
  | .locks pkg bits =>
    .next (if s.isLead ∧ 0 < pkg ∧ pkg < 4 then
      { s with tr := { s.tr with peerLocks := s.tr.peerLocks.filter (fun (x : Nat × Nat) => x.1 ≠ pkg) ++ [(pkg, bits)] } }
    else match s.port 1 with
      | some l => if s.isLead then s else s.sendMsg l 8 0 [toW pkg, toW bits]
      | none => s)
  | .relay t sec ns =>
    if s.isLead ∨ s.rb Reg.TR_STATUS 1 then .next s
    else
      let s0 := match s.port 2 with
        | some l => s.sendMsg l 8 1 [toW t, toW (t / 2 ^ 32), toW (sec / 2 ^ 32), toW sec, toW ns]
        | none => s
      .next ((s0.advanceTo (s0.ownTick t)).landAll.startCommit (ptpTime sec ns) 0)

/-- ALIGN_MESSAGE, R30, R378, R379: on a tile link the tick alignment; on a cascade port the package number, the time to follow and the
length of the chain. -/
def execAlignMessage (l : Nat) (m : AlignMsg) (s : State) : Out :=
  if !(decide (l < 6) && s.part.hasLink l) then .next s
  else
    let s0 := s.popMsg l 0xC
    match m with
    | .tile => .next (if l < 4 ∧ l ∉ s0.tb.aligned then { s0 with tb := { s0.tb with aligned := s0.tb.aligned ++ [l] } } else s0)
    | .number pkg fromLead =>
      if l < 4 then .next s
      else if s0.rf Reg.CX_CFG 1 0 = 1 then .next (if fromLead then s0.pb (Reg.AX_STATUS l) 11 true else s0)
      else if s0.rf Reg.CX_CFG 1 0 = 2 then
        .next ((s0.pf (Reg.CX_PORT l) 1 0 1).setLnk l { s0.lnk l with number := some (pkg + 1) })
      else .next s
    | .follow sec ns rate offset delay =>
      if l < 4 ∨ s0.rf Reg.CX_CFG 1 0 ≠ 2 ∨ !acceptedIn 0x102 s0.dev then .next s
      else
        let s1 := ((s0.pf (Reg.CX_PORT l) 31 16 delay).wrPair Reg.CX_CNT_OFS_LO Reg.CX_CNT_OFS_HI (wrapN offset 64)).pb Reg.CX_TSTAT 31 true
        .next (((s1.wrPair Reg.TB_RATE_LO Reg.TB_RATE_HI (clampN rate rateMin rateMax)).stepTime (ptpTime sec ns)).pb Reg.CX_TSTAT 30 false)
    | .chain len small =>
      let s1 := match s0.port 2 with
        | some d => if d = l then s0 else s0.sendMsg d 0xC (2 * len + b2n small) []
        | none => s0
      let s2 := match [4, 5].findSome? (fun k => (s1.lnk k).number) with
        | some n => (s1.pf Reg.GL_PKG_POS 1 0 n).pb Reg.GL_PKG_POS 4 false
        | none => s1
      let s3 := { s2 with tb := { s2.tb with lastSmall := small } }
      .next (if l < 4 ∨ 3 < len then s else (s3.pf Reg.GL_PKG_POS 3 2 len).pf Reg.GL_PKG_POS 11 8 (len + 1))

/-! ### Training -/

/-- The skew that a link's receiver removes, in blocks (R362). -/
def skewMax (l : Nat) : Nat := if l < 4 then 1 else 4

/-- The block to which a receiver aligns its lanes: of the blocks at which markers arrive, the one within whose range of skew most lie (R362;
DESIGN CHOICE among ranges, log entry 56). -/
def alignAt (l : Nat) (marks : List Nat) : Nat :=
  let held := fun (m : Nat) => (marks.filter (fun x => decide (m ≤ x ∧ x ≤ m + skewMax l))).length
  marks.foldl (fun b m => if held b < held m ∨ (held m = held b ∧ m < b) then m else b) (marks.headD 0)

/-- The lanes that an attempt would use (R362, R373 step 4): data lanes in ascending physical order and standing spares; none when too few
pass. A lane whose marker lies outside the range of skew fails. -/
def pickLanes (l fomMin : Nat) (foms : List LaneTry) : Option (List Nat × List Nat) :=
  let strong := fun (n : Nat) => (foms[n]?).any (fun f => decide (fomMin ≤ f.fom)) || fomMin == 0
  let mark := fun (n : Nat) => ((foms[n]?).map LaneTry.marker).getD 0
  let at_ := alignAt l (((List.range (dataLanes l + spareLanes l)).filter strong).map mark)
  let pass := fun (n : Nat) => strong n && decide (at_ ≤ mark n ∧ mark n ≤ at_ + skewMax l)
  let data := (List.range (dataLanes l)).filter pass
  let sp := ((List.range (spareLanes l)).map (dataLanes l + ·)).filter pass
  let need := dataLanes l - data.length
  if sp.length < need then none else some (data ++ sp.take need, sp.drop need)

/-- A link takes the lanes of an attempt that passed and is ACTIVE (R373). -/
def State.activateLink (s : State) (l : Nat) (foms : List LaneTry) (data sp : List Nat) (tries lat : Nat) : State :=
  let all_ := dataLanes l + spareLanes l
  let s1 := s.forEach (List.range all_) fun u n =>
    let f := foms.getD n { fom := 0, preset := 0 }
    let (role, st) :=
      if data.contains n then ((data.findIdx (· == n)), 2) else if sp.contains n then (0xFE, 3) else (0xFF, 5)
    u.wr (Reg.AX_LANE l n) (toW (min 255 f.fom * 2 ^ 24 + role * 2 ^ 16 + st * 2 ^ 12 + f.preset % 8 * 2 ^ 8))
  let s2 := (s1.setLane l all_ 0xFF 2).setSpares l sp
  let s3 := ((s2.pf (Reg.AX_MAP l) 7 0 (all_ - data.length - sp.length)).pf (Reg.AX_STATUS l) 3 0 tries).setLinkState l 2
  let s4 := (s3.wr (Reg.AX_LAT l) (toW (2 ^ 31 + lat % 2 ^ 16))).bump (Cnt.axLink l 7)
  let s5 := s4.setLnk l {
    trained := s4.now, rate := s4.rf Reg.SE_CTRL 1 0, fomTick := s4.tick
    failures := (List.range all_).filter (fun n => !data.contains n && !sp.contains n) }
  if l < 4 then (if l ∈ s5.tb.aligned then s5 else { s5 with tb := { s5.tb with aligned := s5.tb.aligned ++ [l] } }) else s5

/-- The direction that a cascade port takes (R378): downstream on a lead, upstream on a member when training reaches it from the lead's
side, else downstream; none where the role does not let it train. -/
def State.portDir (s : State) (l : Nat) (nearer : Bool) : Option Nat :=
  let role := s.rf Reg.CX_CFG 1 0
  if role = 1 then (if s.linkState (9 - l) = 2 then none else some 2)
  else if role = 2 then some (if nearer then 1 else 2)
  else none

/-- LINK_TRAIN, R373, R378: link `l`, in TRAIN, makes up to three attempts, each with the figure of merit, preset and marker of its lanes
in physical order (R362); the first that has lanes enough makes it ACTIVE with the measured latency, else it is FAILED. `nearer`: training
reaches a cascade port from a package nearer the lead. -/
def execLinkTrain (l : Nat) (attempts : List (List LaneTry)) (lat : Nat) (nearer : Bool) (s : State) : Out :=
  if !(decide (l < 6) && s.part.hasLink l && s.linkState l == 1 && attempts != []) then .next s
  else
    let fomMin := s.rf (Reg.AX_CTRL l) 23 16
    let tried := (attempts.take 3).map (fun f => (f, pickLanes l fomMin f))
    let k := tried.findIdx (fun t => t.2.isSome)
    let dir := if l < 4 then some 0 else s.portDir l nearer
    match tried.find? (fun t => t.2.isSome), dir with
    | some (f, some (data, sp)), some d =>
      let ref := (s.lnk l).trainRef
      let s1 := s.activateLink l f data sp (k + 1) lat
      let s2 := if l < 4 then s1.setWakeStep l 8 else s1.pf (Reg.CX_PORT l) 1 0 d
      .next (match ref with
        | some r => s2.finish r stOK [s2.rd (Reg.AX_STATUS l)]
        | none => s2)
    | some _, none =>
      if s.rf Reg.CX_CFG 1 0 = 1 then
        .next (((s.pb (Reg.AX_STATUS l) 11 true).pb (Reg.AX_STATUS (9 - l)) 11 true).setLinkState (9 - l) 1)
      else .next s
    | _, _ =>
      if attempts.length < 3 then .next (s.pf (Reg.AX_STATUS l) 3 0 attempts.length)
      else .next ((s.pf (Reg.AX_STATUS l) 3 0 3).failLink l 4)

/-- Begin training (R373): AX_RETRAIN, a wake or bring-up. A stand-alone package's cascade ports stay OFF. -/
def State.startTrain (s : State) (l : Nat) (ref : Option CmdRef) : State :=
  if 4 ≤ l ∧ (s.rf Reg.CX_CFG 1 0 = 0 ∨ s.rf Reg.CX_CFG 1 0 = 3) then
    match ref with
    | some r => s.finish r stITEM [s.rd (Reg.AX_STATUS l)]
    | none => s
  else
    let s1 := (s.setLinkState l 1).pb (Reg.AX_LAT l) 31 false
    let s2 := s1.forEach (List.range (dataLanes l + spareLanes l)) fun u n => u.setLane l n 0xFF 1
    let s3 := { s2 with tb := { s2.tb with aligned := s2.tb.aligned.filter (· ≠ l) } }
    s3.setLnk l { trainRef := ref }

/-! ### Spare lanes -/

/-- The switch stripe of a request sent now (R375), as a time: the first multiple of 256 stripes since training at least 128 after it. -/
def State.switchTime (s : State) (l : Nat) : Nat :=
  let stripe := 13 * nsU / 4
  let n := (s.now - (s.lnk l).trained) / stripe + 1
  (s.lnk l).trained + (n + 128 + 255) / 256 * 256 * stripe

/-- Ask for the swap of a lane to a standing spare (R375); a data lane that fails without one fails the link (R377). -/
def State.requestSwap (s : State) (l lane : Nat) (failed : Bool) (ref : Option CmdRef) : State :=
  let x := s.lnk l
  let free := (s.spares l).filter (fun p => !x.swaps.any (fun w => w.spare == p))
  match free with
  | [] => if failed then s.failLink l 4 else s
  | p :: _ =>
    let w : LaneSwap := { logical := s.laneRole l lane, lane := lane, spare := p, at_ := s.switchTime l, failed := failed, ref := ref }
    let s1 := s.setLnk l { x with swaps := x.swaps ++ [w], failures := if failed then x.failures ++ [lane] else x.failures }
    s1.sendMsg l 6 1 [toW w.logical, toW p]

/-- A data lane fails (R375): it is recorded by the die that detects it, the fault is spared (R399), and a swap is asked for. -/
def State.failLane (s : State) (l lane die : Nat) : State :=
  let s1 := (s.event die 0x11 die false (lane * 256 + l)).pf (Reg.AX_LANE l lane) 15 12 5
  if ((s.spares l).filter (fun p => !(s.lnk l).swaps.any (fun w => w.spare == p))) = [] then s1.failLink l die
  else (s1.requestSwap l lane true none).spared 0 l die

/-- LANE_FAILURE, R375: a data lane of an active link fails by 16 invalid sync headers, or by two missing markers. `tile`: the tile's end
detects it. -/
def execLaneFailure (l lane : Nat) (markers tile : Bool) (s : State) : Out :=
  if !(s.linkUp l && decide (lane < dataLanes l + spareLanes l ∧ s.laneRole l lane < 0xFE) && s.rf (Reg.AX_LANE l lane) 15 12 == 2) then .next s
  else
    let s1 := if markers then s.bumpBy (Cnt.axLane l lane 1) 2 else s.bumpBy (Cnt.axLane l lane 0) 16
    .next (s1.failLane l lane (if tile ∧ l < 4 then l else 4))

/-- LANE_MESSAGE, R375: the other end asks for a swap (a logical lane to a spare at the switch stripe `at_` counted since training), or
confirms the swap this end asked for. -/
def execLaneMessage (l : Nat) (confirm : Bool) (logical spare at_ : Nat) (s : State) : Out :=
  if !s.linkUp l then .next s
  else
    let s0 := s.popMsg l 6
    let x := s0.lnk l
    if confirm then .next (s0.setLnk l { x with swaps := x.swaps.map (fun w => if w.logical = logical then { w with acked := true } else w) })
    else
      match (List.range (dataLanes l + spareLanes l)).find? (fun n => s0.laneRole l n == logical) with
      | some lane =>
        if (s0.spares l).contains spare ∧ logical < 0xFE then
          let w : LaneSwap := {
            logical := logical, lane := lane, spare := spare, at_ := x.trained + at_ * (13 * nsU / 4), failed := true, acked := true }
          .next ((s0.setLnk l { x with swaps := x.swaps ++ [w] }).sendMsg l 6 2 [toW logical, toW spare])
        else .next s0
      | none => .next s0

/-- LANE_SWAP, R375, R376: the oldest swap of a link reaches its switch stripe: the spare carries the logical lane and the relieved lane is
retrained. A request that is not confirmed is repeated with a later stripe. -/
def execLaneSwap (l : Nat) (s : State) : Out :=
  let x := s.lnk l
  match x.swaps with
  | [] => .next s
  | w :: rest =>
    if !s.linkUp l then .next s
    else
      let s0 := s.advanceTo (s.tickReaching w.at_)
      if !w.acked then
        .next ((s0.setLnk l { x with swaps := rest ++ [{ w with at_ := s0.switchTime l }] }).sendMsg l 6 1 [toW w.logical, toW w.spare])
      else
        let again := decide ((x.failures.filter (· == w.lane)).length < 2)
        let due := if !w.failed then [(w.lane, w.at_ + 1000000 * nsU)] else if again then [(w.lane, w.at_ + 10000000 * nsU)] else []
        let s1 := s0.setLnk l { x with swaps := rest, retrain := x.retrain ++ due }
        let s2 := (s1.setLane l w.spare w.logical 2).setLane l w.lane 0xFF (if w.failed then 5 else 4)
        let s3 := (s2.setSpares l ((s2.spares l).filter (· ≠ w.spare))).pb (Reg.AX_STATUS l) 9 true
        let s4 := (s3.pf (Reg.AX_MAP l) 7 0 (s3.rf (Reg.AX_MAP l) 7 0 + b2n w.failed)).bump (Cnt.axLink l (if w.failed then 5 else 6))
        .next (match w.ref with
          | some r => s4.finish r stOK [s4.rd (Reg.AX_MAP l)]
          | none => s4)

/-- FOM_MEASURE, R374-R376: every 100 us of ACTIVE the figure of merit of every data and spare lane, in physical order, is taken: low
lanes are counted and rotated out, and lanes below fom_fail fail. -/
def execFomMeasure (l : Nat) (foms : List Nat) (s : State) : Out :=
  if !s.linkUp l then .next s
  else
    let x := s.lnk l
    let s0 := (s.advanceTo (x.fomTick + 160000)).setLnk l { x with fomTick := max s.tick (x.fomTick + 160000) }
    let ctrl := s0.rd (Reg.AX_CTRL l)
    .next (s0.forEach (List.range (dataLanes l + spareLanes l)) fun u n =>
      let st := u.rf (Reg.AX_LANE l n) 15 12
      if (st ≠ 2 ∧ st ≠ 3) ∨ u.linkState l ≠ 2 then u
      else
        let f := min 255 (foms.getD n 255)
        let low := decide (f < fld ctrl 15 8)
        let run := if low then Sparse.get (fun _ => 0) (u.lnk l).low n + 1 else 0
        let u1 := u.pf (Reg.AX_LANE l n) 31 24 f
        let u2 := u1.setLnk l { u1.lnk l with low := Sparse.set (fun _ => 0) (u1.lnk l).low n run }
        let u3 := u2.when low (fun v => (v.pb (Reg.AX_STATUS l) 8 true).bump (Cnt.axLane l n 2))
        let swapping := (u3.lnk l).swaps.any (fun w => w.lane == n)
        if st ≠ 2 ∨ swapping then u3
        else if f < fld ctrl 7 0 then u3.failLane l n 4
        else if 8 ≤ run ∧ bit ctrl 30 then
          (u3.setLnk l { u3.lnk l with low := Sparse.set (fun _ => 0) (u3.lnk l).low n 0 }).requestSwap l n false none
        else u3)

/-- LANE_RETRAIN, R376: the retraining of a relieved or failed lane ends with a figure of merit: a standing spare, or failed. -/
def execLaneRetrain (l lane fom : Nat) (s : State) : Out :=
  let x := s.lnk l
  match x.retrain.find? (fun (r : Nat × Nat) => r.1 == lane) with
  | none => .next s
  | some r =>
    if !s.linkUp l then .next s
    else
      let s0 := s.advanceTo (s.tickReaching r.2)
      let was := s0.rf (Reg.AX_LANE l lane) 15 12
      let s1 := s0.setLnk l { x with retrain := x.retrain.filter (fun y => y.1 ≠ lane), failures := if fom < s0.rf (Reg.AX_CTRL l) 23 16 then x.failures ++ [lane] else x.failures }
      let n := s1.rf (Reg.AX_MAP l) 7 0
      .next (if s1.rf (Reg.AX_CTRL l) 23 16 ≤ fom then
        (((s1.setLane l lane 0xFE 3).pf (Reg.AX_LANE l lane) 31 24 (min 255 fom)).setSpares l (s1.spares l ++ [lane])).pf (Reg.AX_MAP l) 7 0
          (if was = 5 then n - 1 else n)
      else (s1.setLane l lane 0xFF 5).pf (Reg.AX_MAP l) 7 0 (if was = 5 then n else n + 1))

/-! ### Registers and commands -/

/-- Write AX_CTRL: the thresholds, and retrain. -/
def State.writeAxCtrl (s : State) (l : Nat) (w : Word) : State :=
  let s1 := s.poke (Reg.AX_CTRL l) w
  if bit w 31 then s1.startTrain l none else s1

/-- AX_RETRAIN_WRITE, R387. -/
def execAxRetrainWrite (l : Nat) (w : Word) (s : State) : Out :=
  .next (s.access (Reg.AX_CTRL l) fun s => if l < 6 ∧ s.part.hasLink l then s.writeAxCtrl l w else s)

/-- Write CX_CFG: discarded outside STANDBY and READY (R386). -/
def State.writeCxCfg (s : State) (w : Word) : State := if s.dev = 2 ∨ s.dev = 3 then s.poke Reg.CX_CFG w else s

/-- CX_CFG_WRITE, R386. -/
def execCxCfgWrite (w : Word) (s : State) : Out := .next (s.access Reg.CX_CFG fun s => s.writeCxCfg w)

/-- Whether a parameter names a link of the part. -/
def State.linkOk (s : State) (l : Nat) : Bool := decide (l < 6) && s.part.hasLink l

/-- AX_STATUS: AX_STATUS, AX_MAP, AX_LAT. -/
def execAxStatus (p : Pkt) (s : State) : Out :=
  let l := p.arg 0
  .next (s.command 0x030 p (p.is 1 && s.linkOk l) true true fun u =>
    (u, .ok [u.peek (Reg.AX_STATUS l), u.peek (Reg.AX_MAP l), u.peek (Reg.AX_LAT l)]))

/-- AX_RETRAIN: link. The notice comes when training ends; a cascade port of a stand-alone package has no neighbour to train with. -/
def execAxRetrain (p : Pkt) (s : State) : Out :=
  let l := p.arg 0
  .next (s.command 0x031 p (p.is 1 && s.linkOk l) true true fun u =>
    if 4 ≤ l ∧ (u.rf Reg.CX_CFG 1 0 = 0 ∨ u.rf Reg.CX_CFG 1 0 = 3) then (u, .status stITEM [u.rd (Reg.AX_STATUS l)])
    else (u.startTrain l (some (p.ref 0x031 l)), .accepted l []))

/-- AX_SWAP: link, physical data lane. -/
def execAxSwap (p : Pkt) (s : State) : Out :=
  let l := p.arg 0
  let lane := p.arg 1
  .next (s.command 0x032 p (p.is 2 && s.linkOk l && decide (lane < dataLanes l + spareLanes l) && decide (s.laneRole l lane < 0xFE)) true true fun u =>
    if (u.lnk l).swaps ≠ [] then (u, .status stBUSY [])
    else if u.spares l = [] then (u, .status stRESOURCE [])
    else (u.requestSwap l lane false (some (p.ref 0x032 l)), .accepted l []))

/-- CX_ROLE: role 0-2. -/
def execCxRole (p : Pkt) (s : State) : Out :=
  .next (s.command 0x033 p (p.is 1 && decide (p.arg 0 < 3) && (p.arg 0 == 0 || decide (0 < s.part.casc))) true true fun u =>
    (u.writeCxCfg (toW (p.arg 0)), .ok []))

/-- AX_EYE: link, physical lane; AX_LANE. -/
def execAxEye (p : Pkt) (s : State) : Out :=
  let l := p.arg 0
  .next (s.command 0x034 p (p.is 2 && s.linkOk l && decide (p.arg 1 ≤ dataLanes l + spareLanes l)) true true fun u =>
    (u, .ok [u.peek (Reg.AX_LANE l (p.arg 1))]))

end Sys2Proof.Machine
end

