-- ==== Sys2Proof/Machine/Calib.lean ====
section
/-!
DEFINITION. Array calibration (R340-R359): eligible symbols, the occasions of a cycle, its results and their staging, and its commands.
-/
namespace Sys2Proof.Machine

/-- Set the state of CAL_STAT (R358). -/
def State.setCalState (s : State) (v : Nat) : State := s.pf Reg.CAL_STAT 31 28 v

/-! ### A cycle -/

/-- Begin a cycle, unless one runs, the state is REF_FAIL, or the reference path is not available (R345, R352). -/
def State.beginCycle (s : State) : State :=
  let s0 := { s with cal := { s.cal with request := false } }
  if s.calState = 4 then s0
  else if !s.pathAvail s.refPath then (s0.pb Reg.CAL_STAT 18 true).setCalState 4
  else
    let s1 := { s0 with cal := { s0.cal with meas := [], strikes := [], redo := [] } }
    (s1.setCalState 1).pf Reg.CAL_STAT 27 22 0

/-- CAL_CYCLE_START, R345, R351, R353: a requested cycle starts now; else the scheduled start: at the next multiple of period_ms from
the grid origin, skipped and counted while a cycle runs; with a period of 0 as soon as the previous cycle has ended. -/
def execCalCycleStart (s : State) : Out :=
  let running := decide (1 ≤ s.calState ∧ s.calState ≤ 3)
  let ms := s.rf Reg.CAL_SCHED 31 16
  if !s.isLead ∨ s.pw.entries ≠ [] then .next s
  else if s.cal.request && !running then .next s.beginCycle
  else if !s.rb Reg.CAL_CFG 31 then .next s
  else if ms = 0 then .next (if running then s else s.beginCycle)
  else
    let unit := ms * 1000000 * nsU
    let k := ((s.now - s.gridOrigin) + unit - 1) / unit
    let n : Int := max (k : Int) (s.cal.lastStart + 1)
    let s0 := s.advanceTo (s.tickReaching (s.gridOrigin + n.toNat * unit))
    let s1 := { s0 with cal := { s0.cal with lastStart := n } }
    .next (if running then s1.bump (Cnt.cal 1) else s1.beginCycle)

/-- Whether an antenna of an occasion is left out for its network entry (R341). -/
def State.netMissing (s : State) : Bool :=
  !s.rb Reg.CAL_CFG 30 && (List.range s.calAnts).any (fun x =>
    x != s.refPath && (x / 96 != s.pkgNum || s.pathAvail (x % 96)) && !s.rb (Reg.CAL_NET_W1 x) 31)

/-! ### The fit of a response, R347 -/

/-- 10^(n / 5120) in units of 2^-40: the amplitude of n / 256 dB. -/
def ampOf (n : Nat) : Nat :=
  let ones := [1100006215365, 1100501025432, 1101491313399, 1103474563473, 1107451782657, 1115449277595, 1131617946963, 1164661787597,
    1233672337084, 1384203128770, 1742608493894, 2761848339098, 6937449368866, 43772346312457, 1742608493894020, 2761848339097546365]
  ones.zipIdx.foldl (fun a (x : Nat × Nat) => if bitN n x.2 then a * x.1 / 2 ^ 40 else a) (2 ^ 40)

/-- The middle of group `i` of a carrier, in kHz from the path centre. -/
def groupFreq (cfg ofs : Word) (i : Nat) : Int :=
  carOfs ofs + (carScs cfg : Int) * ((144 * i + 6 * min 12 (cfgNprb cfg - 12 * i) : Nat) - (6 * cfgNprb cfg : Nat) : Int)

/-- An angle held to half a turn either side of zero, in units of 2^-24 turn. -/
def halfTurn (a : Int) : Int := sext (wrapN a 24) 24

/-- Each angle brought within half a turn of the one before it. -/
def unwrapAngles (l : List Int) : List Int :=
  (l.foldl (fun (a : List Int × Int) x => let v := a.2 + halfTurn (x - a.2); (a.1 ++ [v], v)) ([], 0)).1

/-- A least-squares line through points (frequency, angle): slope and value at zero, as numerators, and their divisor. -/
def fitLine (l : List (Int × Int)) : Int × Int × Nat :=
  let n : Int := (l.length : Int)
  let sf := (l.map Prod.fst).sum
  let sp := (l.map Prod.snd).sum
  let sff := (l.map (fun x => x.1 * x.1)).sum
  let sfp := (l.map (fun x => x.1 * x.2)).sum
  let d := n * sff - sf * sf
  if d ≤ 0 then (0, sp, l.length) else (n * sfp - sf * sp, sp * sff - sf * sfp, d.toNat)

/-- What is known of a measurement and removed from it (R347): the amplitude as a numerator and its divisor, the phase in 2^-16 turn, and the
delay in 1/16 ps times 32. The AGC factor is that of the receiving path, and the back-off that of the transmitting path's parcel. -/
def State.calKnown (s : State) (dir : Nat) (m : CalIn) : Nat × Nat × Int × Int :=
  let own := m.ant / 96 = s.pkgNum
  let p := m.ant % 96
  let v := s.rxSnap s.refPath
  let g := if own then (if dir = 0 then (s.txOf p).app.gain else (s.rxOf p).app.gain) else m.gainWord
  let d := if own then (if dir = 0 then (s.txOf p).app.delay else (s.rxOf p).app.delay) else m.delayWord
  let mult := if dir = 0 then (if own then s.rf (Reg.TH_PMULT (p / 12)) 16 0 else m.mult) else s.rf (Reg.TH_PMULT (s.refPath / 12)) 16 0
  let comp := if dir = 0 then v.comp else if own then (s.rxSnap p).comp else toW m.comp
  let net := !s.rb Reg.CAL_CFG 30
  let w0 := s.rd (Reg.CAL_NET_W0 m.ant)
  let amp := g % 65536 * mult * fld comp 15 0
  (amp, if net then ampOf (fld w0 31 16) else 2 ^ 40,
    ((g / 65536 % 65536 + fld comp 31 16 + (if net then fld w0 15 0 else 0) : Nat) : Int),
    ((625 * (d % 65536) + (if net then 32 * s.rf (Reg.CAL_NET_W1 m.ant) 19 0 else 0) : Nat) : Int))

/-- The fit of a measured antenna, R347: the gain as the RMS magnitude over the groups in units of 2^-20, the delay in 1/16 ps as the
least-squares slope of the phase, the phase at the path centre in 2^-16 turn, the lowest signal-to-noise ratio, and the path's gain word. -/
def State.calFit (s : State) (dir : Nat) (m : CalIn) : CalMeas :=
  let c := s.rf Reg.CAL_CFG 25 24
  let (amp, net, ph, dly) := s.calKnown dir m
  let n := max 1 m.groups.length
  let power := (m.groups.map (fun x => (x.i * x.i + x.q * x.q).toNat)).sum
  let rms := isqrt (power * 2 ^ 40 / n)
  let freq := groupFreq (s.carCfg c) (s.rd (Reg.CAR_OFS c))
  let angles := m.groups.zipIdx.map fun (x : CalGrp × Nat) =>
    (angleOf 24 { i := x.1.i, q := x.1.q } : Int) - 256 * ph + divRound (freq x.2 * dly * 2 ^ 15) 1000000000
  let pts := (unwrapAngles angles).zipIdx.map fun (x : Int × Nat) => (freq x.2, x.1)
  let (slope, at0, den) := fitLine pts
  { gain := rms * net * 2 ^ 20 / (2 ^ 40 * max 1 amp)
    delay := divRound (-slope * 1000000000) (max 1 den * 2 ^ 20)
    phase := divRound at0 (max 1 den * 2 ^ 8)
    snr := m.groups.foldl (fun a x => min a x.snr) 127
    word := if m.ant / 96 = s.pkgNum then (if dir = 0 then (s.txOf (m.ant % 96)).app.gain else (s.rxOf (m.ant % 96)).app.gain) else m.gainWord }

/-- Whether R346 discards a path's measurement in a symbol that began at tick `t`: a load strobe changed the path's settings, it is muted, in
overload, or an ADC slice of it is being replaced. The reference path is muted for its role (R340). -/
def State.calUnfit (s : State) (p t : Nat) : Bool :=
  let x := s.txOf p
  decide (t < x.setTick ∨ t < (s.rxOf p).setTick) || (x.mFault || x.mNotEn || x.mRange || (x.mForced && !s.isRef p)) ||
    s.rb (Reg.RX_STATUS p) 7 || decide (t < (s.adcOf p).ovlTick ∨ t < (s.adcOf p).ovlEnd) || s.air.bad.any (fun b => b.1 == p && decide (t < b.2.2.2))

/-- A measurement that failed: it is repeated up to three times. -/
def State.calMiss (s : State) (dir a : Nat) : State :=
  let c := s.cal
  let key := 512 * dir + a
  let n := Sparse.get (fun _ => 0) c.strikes key + 1
  let redo := c.redo.filter (· ≠ (dir, a))
  ({ s with cal := { c with
    strikes := Sparse.set (fun _ => 0) c.strikes key n
    redo := if n < 3 then redo ++ [(dir, a)] else redo } }).bump (Cnt.cal 3)

/-- One antenna of an occasion whose symbol began at tick `t`: measured, or discarded and to be measured again, up to three times (R346).
With trk_en its ORX response is stored (R351). -/
def State.calTake (s : State) (dir a t : Nat) (i : Option CalIn) : State :=
  let key := 512 * dir + a
  let own := decide (a / 96 = s.pkgNum)
  let c := s.cal
  match i with
  | some m =>
    if !m.spoiled && m.groups.all (fun x => decide (20 ≤ x.snr)) && !s.calUnfit s.refPath t && !(own && s.calUnfit (a % 96) t) then
      { s with cal := { c with
        meas := Sparse.set (fun _ => none) c.meas key (some (s.calFit dir m))
        redo := c.redo.filter (· ≠ (dir, a))
        stored := if dir = 0 ∧ s.rb Reg.CAL_CFG 28 ∧ own then Sparse.set (fun _ => none) c.stored (a % 96) (some m.orx) else c.stored } }
    else s.calMiss dir a
  | none => s.calMiss dir a

/-- The paths of this package among the antennas of an occasion. -/
def State.calOwn (s : State) (as_ : List Nat) : List Nat := (as_.filter (fun a => a / 96 == s.pkgNum)).map (· % 96)

/-- The ticks of the demand that a full-duplex symbol of the calibration carrier gives the paths of row `r` (R251, R343), transmit or
receive. -/
def State.calDemand (s : State) (n : Int) (l r : Nat) (tx : Bool) : Nat × Nat :=
  let iv := (s.demandIvs r (s.rf Reg.CAL_CFG 25 24) true [n] [l]).getD (if tx then 0 else 1) (0, 0)
  (s.tickReaching iv.1.toNat, s.tickReaching iv.2.toNat)

/-- An occasion begins in symbol `l` of slot `n` (R343, R344): the transmitting paths' DACs leave blank idle and their TXEN rises, the
receiving paths' RXEN rises, as R251 gives, and the ORX of each row that measures an antenna is taken from the capture it is at (R278).
The reference path leaves its forced mute (R340). -/
def State.calBegin (s : State) (n : Int) (l : Nat) : State :=
  let tx := s.rf Reg.CAL_STAT 27 22 < s.calAnts / 12
  let own := s.calOwn s.calNext
  let up := if tx then own else [s.refPath]
  let down := if tx then [s.refPath] else own
  let s1 := s.forEach up fun u p =>
    ((u.advanceTo ((u.calDemand n l (p / 4) true).1 - 3200)).blankLeave p)
  let s2 := s1.forEach up fun u p =>
    let v := u.advanceTo (u.calDemand n l (p / 4) true).1
    if (v.txOf p).held && !v.isRef p then v else v.drivePads p true (v.txOf p).rxDem
  let s3 := s2.forEach down fun u p =>
    let v := u.advanceTo (u.calDemand n l (p / 4) false).1
    if v.isRef p || v.rb (Reg.RX_STATUS p) 3 then v.setTx p { v.txOf p with rxen := true, rxDem := true } |>.padTrigger (p / 4) 3 else v
  s3.forEach (if tx then own else []) fun u p => if (u.orxOf (p / 4)).cap.isSome then u.abortCapture (p / 4) else u

/-- An occasion that began at tick `t0` ends: the pads fall, and follow the demands again; the reference path's time at its transmission is not
counted as mute (R340). -/
def State.calEnd (s : State) (n : Int) (l t0 : Nat) (as_ : List Nat) (tx : Bool) : State :=
  let own := s.calOwn as_
  let up := if tx then own else [s.refPath]
  let last := (s.refPath :: own).foldl (fun m p => max m (max (s.calDemand n l (p / 4) true).2 (s.calDemand n l (p / 4) false).2)) s.tick
  let s1 := s.advanceTo last
  let s2 := s1.forEach (s.refPath :: own) fun u p => u.followDemands p
  if tx then s2
  else s2.forEach up fun u p => u.setTx p { u.txOf p with muteTick := (u.txOf p).muteTick + (u.tick - max t0 (u.txOf p).muteTick) }

/-- The measurements of an occasion in slot `n` (R342-R346): those of its group, or of the repeats, in a symbol that began at
tick `t`; the rows that took part; the counts; and
what comes next. -/
def State.calMeasure (s : State) (n : Int) (t : Nat) (ms : List CalIn) : State :=
  let j := s.rf Reg.CAL_STAT 27 22
  let last := s.calAnts / 12
  let dir := if j < last then 0 else 1
  let as_ := s.calNext
  let s1 := s.forEach as_ fun u a => u.calTake dir a t (ms.find? (fun m => m.ant == a))
  let s2 := s1.forEach (if dir = 0 then s1.calOwn as_ else []) fun u p =>
    (((u.bump (Cnt.orxRow (p / 4) 2)).bumpF (Reg.ORX_STAT (p / 4)) 15 0).pf (Reg.ORX_STAT (p / 4)) 31 30 (p % 4)).setOrx (p / 4) {
      u.orxOf (p / 4) with posTick := u.tick }
  let s3 := ({ s2 with cal := { s2.cal with lastSlot := some n, lastTick := s2.tick } }).bump (Cnt.cal 2)
  let s4 := s3.when s3.netMissing (fun u => u.pb Reg.CAL_STAT 19 true)
  if s4.cal.redo ≠ [] then s4
  else if j < last then s4.pf Reg.CAL_STAT 27 22 (j + 1)
  else s4.setCalState 3

/-- CAL_OCCASION, R342-R346: the cycle takes its next occasion in symbol `l` of slot `n` of the calibration carrier, the first eligible
symbol of that slot; `ms` holds what is measured. Paths that were discarded are measured again before the cycle goes on. -/
def execCalOccasion (n : Int) (l : Nat) (ms : List CalIn) (s : State) : Out :=
  let c := s.rf Reg.CAL_CFG 25 24
  let cfg := s.carCfg c
  let ok := decide (l < symsPerSlot (cfgExt cfg)) && s.calSymbol n l
  if !ok then .next s
  else if !s.pathAvail s.refPath then .next ((s.pb Reg.CAL_STAT 18 true).setCalState 4)
  else
    let t := s.tickReaching (s.gridTime (symStart (cfgMu cfg) (cfgExt cfg) n l))
    let tx := decide (s.rf Reg.CAL_STAT 27 22 < s.calAnts / 12)
    let s0 := (s.calBegin n l).advanceTo (s.tickReaching (s.gridTime (symEnd (cfgMu cfg) (cfgExt cfg) n l)))
    .next ((s0.calMeasure n t ms).calEnd n l t s.calNext tx)

/-! ### Results -/

/-- Insert into a rising list. -/
def insertNat (n : Nat) : List Nat → List Nat
  | [] => [n]
  | m :: t => if n ≤ m then n :: m :: t else m :: insertNat n t

/-- The median of a list; of an even number of values, the mean of the middle two. -/
def median (l : List Nat) : Nat :=
  let x := l.foldl (fun a n => insertNat n a) []
  (x.getD ((x.length - 1) / 2) 0 + x.getD (x.length / 2) 0) / 2

/-- The targets of a set of measurements (R348): median gain, the anchor's phase and the largest delay. -/
def calTargets (anchor : Nat) (ms : List (Nat × CalMeas)) : Nat × Int × Int :=
  let ph := match ms.find? (fun (m : Nat × CalMeas) => m.1 == anchor) with
    | some m => m.2.phase
    | none => ((ms.head?).map (fun (m : Nat × CalMeas) => m.2.phase)).getD 0
  let d0 := ((ms.head?).map (fun (m : Nat × CalMeas) => m.2.delay)).getD 0
  (median (ms.map (fun (m : Nat × CalMeas) => m.2.gain)), ph, ms.foldl (fun d (m : Nat × CalMeas) => max d m.2.delay) d0)

/-- The new gain and delay words of a direction (R348), or none where they fall outside their ranges. -/
def State.calNew (s : State) (t : Nat × Int × Int) (m : CalMeas) : Option (Nat × Nat) :=
  let g := if m.gain = 0 then 65536 else (2 * (m.word % 65536) * t.1 + m.gain) / (2 * m.gain)
  let ph := wrapN (((m.word / 65536 : Nat) : Int) - (m.phase - t.2.1)) 16
  let d : Int := 16 * (s.rf Reg.CAL_TRK 31 16 : Int) + (t.2.2 - m.delay)
  let n := (2 * d * 256 + 5000) / 10000
  if g < 8192 ∨ 32768 < g ∨ n < 0 ∨ 65535 < n then none else some (ph * 2 ^ 16 + g, n.toNat)

/-- The result words of a direction (R359): phase and gain against the targets, and validity, range and delay. -/
def calWords (t : Nat × Int × Int) (m : CalMeas) (range : Bool) : Word × Word :=
  (toW (wrapN (m.phase - t.2.1) 16 * 2 ^ 16 + wrapN (satN (logRound 5120 (max 1 m.gain) (max 1 t.1)) 16) 16),
    toW (2 ^ 31 + b2n range * 2 ^ 30 + wrapN (satN (m.delay - t.2.2) 24) 24))

/-- The measurements of a direction in this cycle, by antenna. -/
def State.calMeas (s : State) (dir : Nat) : List (Nat × CalMeas) :=
  (List.range s.calAnts).filterMap (fun a => (Sparse.get (fun _ => none) s.cal.meas (512 * dir + a)).map (fun m => (a, m)))

/-- Set the registers of one antenna's results: its own path's, or a message to the package that has it (R352). -/
def State.putResult (s : State) (a : Nat) (ws : List Word) : State :=
  if a / 96 = s.pkgNum then
    s.forEach (ws.zipIdx) fun u (w : Word × Nat) => u.wr (Reg.CAL_TXM0 (a % 96) + 4 * w.2) w.1
  else match s.port 2 with
    | some l => s.sendMsg l 0xB 0x7F0 (toW a :: ws)
    | none => s

/-- Stage the results of the last cycle (R350): a path whose alignment the host has staged since the last commit is held. Answers how many
paths were staged and held. -/
def State.applyResults (s : State) : State × Nat × Nat :=
  s.cal.results.foldl (fun (x : State × Nat × Nat) r =>
    let u := x.1
    let p := r.ant % 96
    if r.ant / 96 ≠ u.pkgNum then
      (match u.port 2 with
        | some l => (u.sendMsg l 0xB 0x7F1 [toW r.ant, toW (b2n r.tx.isSome + 2 * b2n r.rx.isSome), toW (r.tx.getD (0, 0)).1,
            toW (r.tx.getD (0, 0)).2, toW (r.rx.getD (0, 0)).1, toW (r.rx.getD (0, 0)).2], x.2.1 + 1, x.2.2)
        | none => x)
    else if [Reg.TX_GAIN p, Reg.TX_DELAY p, Reg.RX_GAIN p, Reg.RX_DELAY p].any (fun a => u.cal.touched.contains a) then
      ((u.pb (Reg.CAL_TXM1 p) 29 true).bump (Cnt.cal 6), x.2.1, x.2.2 + 1)
    else
      let u1 := match r.tx with
        | some w => (u.swr (Reg.TX_GAIN p) (toW w.1)).swr (Reg.TX_DELAY p) (toW w.2)
        | none => u
      let u2 := match r.rx with
        | some w => (u1.swr (Reg.RX_GAIN p) (toW w.1)).swr (Reg.RX_DELAY p) (toW w.2)
        | none => u1
      (u2, x.2.1 + 1, x.2.2)) (s, 0, 0)

/-- The results of the cycle, R347-R349: what every antenna measured, its new alignment where one is within reach, the path registers of the
packages, the generation and the counts; the cycle is idle. In reciprocity mode the transmit settings are aligned by the ratio of the transmit and
receive responses, and the receive settings stay (R349). -/
def State.calFinish (s : State) : State :=
  let anchor := s.rf Reg.CAL_CFG 8 0
  let recip := s.rb Reg.CAL_CFG 30
  let rx := s.calMeas 1
  let tx0 := s.calMeas 0
  let tx := if recip then tx0.filterMap (fun (m : Nat × CalMeas) => (rx.find? (fun (k : Nat × CalMeas) => k.1 == m.1)).map (fun k =>
      (m.1, ({ m.2 with gain := m.2.gain * 2 ^ 24 / max 1 k.2.gain, delay := m.2.delay - k.2.delay, phase := m.2.phase - k.2.phase } : CalMeas)))) else tx0
  let tt := calTargets anchor tx
  let tr := calTargets anchor rx
  let ants := (List.range s.calAnts).filter (fun a => a != s.refPath && (if a / 96 = s.pkgNum then decide (a % 96 < s.part.paths) else decide (a / 96 < s.reach)))
  let gen := (s.rf Reg.CAL_STAT 15 0 + 1) % 65536
  let one := fun (a : Nat) =>
    let mt := (tx.find? (fun (m : Nat × CalMeas) => m.1 == a)).map Prod.snd
    let mr := (rx.find? (fun (m : Nat × CalMeas) => m.1 == a)).map Prod.snd
    let nt := mt.map (s.calNew tt)
    let nr := if recip then none else mr.map (s.calNew tr)
    (a, mt, mr, nt, nr)
  let all_ := ants.map one
  let s1 := s.forEach all_ fun u x =>
    let (a, mt, mr, nt, nr) := x
    let wt := (mt.map (fun m => calWords tt m (nt == some none))).getD (0, 0)
    let wr_ := (mr.map (fun m => calWords tr m (nr == some none))).getD (0, 0)
    let st := toW (b2n (u.rb (Reg.CAL_PSTAT (a % 96)) 31) * 2 ^ 31 + min 127 ((mt.map CalMeas.snr).getD 0) * 2 ^ 24 +
      min 127 ((mr.map CalMeas.snr).getD 0) * 2 ^ 16 + gen)
    let u1 := u.putResult a [wt.1, wt.2, wr_.1, wr_.2, st]
    let u2 := u1.when (mt.isNone && mr.isNone) (fun v => v.bump (Cnt.cal 4))
    u2.when (nt == some none || nr == some none) (fun v => v.bump (Cnt.cal 5))
  let res := all_.filterMap (fun x =>
    let (a, _, _, nt, nr) := x
    let t := nt.getD none
    let r := nr.getD none
    if t = none ∧ r = none then none else some ({ ant := a, tx := t, rx := r } : CalRes))
  let s2 := { s1 with cal := { s1.cal with results := res } }
  let s3 := (((s2.setCalState 0).pf Reg.CAL_STAT 15 0 gen).pb Reg.CAL_STAT 20 true).bump (Cnt.cal 0)
  s3

/-- CAL_RESULTS, R347-R350: the results of the cycle are computed and written; apply stages them at once. -/
def execCalResults (s : State) : Out :=
  .next (if s.calState = 3 then (if s.calFinish.rb Reg.CAL_CFG 29 then s.calFinish.applyResults.1 else s.calFinish) else s)

/-! ### Commands -/

/-- Write CAL_CFG: ref_path is discarded outside STANDBY, READY and TEST (R340); a new reference path is muted, and ends REF_FAIL. -/
def State.writeCalCfg (s : State) (w : Word) : State :=
  let old := s.rf Reg.CAL_CFG 15 9
  let free := s.dev == 2 || s.dev == 3 || s.dev == 5
  let w1 := if free then w else putFld w 15 9 old
  let s1 := s.poke Reg.CAL_CFG w1
  let new := s1.rf Reg.CAL_CFG 15 9
  if new = old then s1
  else
    let s2 := if s1.isLead ∧ new < s1.part.paths then s1.muteForce new else s1
    if s2.calState = 4 then s2.setCalState 0 else s2

/-- CAL_CONFIG: CAL_CFG, CAL_SCHED, CAL_TRK. -/
def execCalConfig (p : Pkt) (s : State) : Out :=
  let cfg := wordAt p.params 0
  let same := fld cfg 15 9 == s.rf Reg.CAL_CFG 15 9
  .next (s.command 0x700 p (p.is 3 && decide (fld cfg 15 9 < s.part.paths ∧ fld cfg 8 0 < 384) && !s.antAbsent (fld cfg 8 0))
    (same || s.dev == 2 || s.dev == 3 || s.dev == 5) s.isLead fun u =>
    ((((u.writeCalCfg cfg).poke Reg.CAL_SCHED (wordAt p.params 1)).poke Reg.CAL_TRK (wordAt p.params 2)).copyDown 0x700 p.params, .ok []))

/-- CAL_NET_LOAD: first antenna, count, ring; the entries are taken from the LOAD ring (R463), eight bytes each. -/
def execCalNetLoad (p : Pkt) (s : State) : Out :=
  let ring := p.arg 2
  .next (s.command 0x701 p (p.is 3 && decide (p.arg 0 + p.arg 1 ≤ 384 ∧ 0 < p.arg 1) && (List.range (p.arg 1)).all (fun k => !s.antAbsent (p.arg 0 + k)) && s.loadRing ring) true s.isLead fun u =>
    if u.loadBusy ring then (u, .status stBUSY [])
    else (u.startLoad ring (p.ref 0x701 ring) (8 * p.arg 1) [p.arg 0], .accepted ring []))

/-- CAL_RUN: 1 starts a cycle now (not with a faulted reference path, R408), 0 stops the running one. -/
def execCalRun (p : Pkt) (s : State) : Out :=
  .next (s.command 0x702 p (p.is 1 && decide (p.arg 0 < 2)) true s.isLead fun u =>
    let running := decide (1 ≤ u.calState ∧ u.calState ≤ 3)
    if p.arg 0 = 1 ∧ running then (u, .status stBUSY [])
    else if p.arg 0 = 1 ∧ !u.pathAvail u.refPath then (u, .status stITEM [])
    else
      let u1 := if p.arg 0 = 1 then u.beginCycle else if running then u.setCalState 0 else u
      (u1, .ok [u1.rd Reg.CAL_STAT]))

/-- CAL_APPLY: paths staged and paths held. -/
def execCalApply (p : Pkt) (s : State) : Out :=
  .next (s.command 0x703 p (p.is 0) true s.isLead fun u =>
    if u.cal.results = [] then (u, .status stITEM [])
    else
      let (u1, n, h) := u.applyResults
      (u1, .ok [toW n, toW h]))

/-- What a calibration slot keeps of one path: its live alignment, its NCO words and its Nyquist mode (R353). -/
def State.calPathWords (s : State) (p : Nat) : List Word :=
  [s.rd (Reg.TX_GAIN p), s.rd (Reg.TX_DELAY p), s.rd (Reg.RX_GAIN p), s.rd (Reg.RX_DELAY p), s.rd (Reg.TX_NCO_LO p), s.rd (Reg.TX_NCO_HI p),
    s.rd (Reg.RX_NCO_LO p), s.rd (Reg.RX_NCO_HI p), toW (s.rf (Reg.TX_DAC p) 4 4)]

/-- CAL_SAVE: slot 0-3 (R353, R575). -/
def execCalSave (p : Pkt) (s : State) : Out :=
  let k := p.arg 0
  .next (s.command 0x704 p (p.is 1 && decide (k < 4)) true s.isLead fun u =>
    let ws := (List.range 96).flatMap (fun q => if q < u.part.paths then u.calPathWords q else List.replicate 9 0) ++
      (List.range 384).flatMap (fun a => [u.rd (Reg.CAL_NET_W0 a), u.rd (Reg.CAL_NET_W1 a)])
    if u.celWriting 0x10 k then (u, .status stBUSY [])
    else match u.celRefuse 0x10 [k] (setBytes ws.length) with
      | some st => (u.celFull st, .status st [])
      | none => (u.orderSet 0x10 k ws (some (p.ref 0x704 0)), .accepted 0 []))

/-- The paths whose staged NCO words lie within 10 MHz of a saved slot's, in the same mode (R353). -/
def State.calMatch (s : State) (ws : List Word) : List Nat :=
  s.paths.filter fun p =>
    let at_ := fun (i : Nat) => (wordAt ws (9 * p + i)).toNat
    let near := fun (a b : Nat) => decide (1600 * (((a : Int) - (b : Int)).natAbs) ≤ 2 ^ 48)
    near (s.srdPair (Reg.TX_NCO_LO p) (Reg.TX_NCO_HI p)) (at_ 4 + at_ 5 * 2 ^ 32) &&
      near (s.srdPair (Reg.RX_NCO_LO p) (Reg.RX_NCO_HI p)) (at_ 6 + at_ 7 * 2 ^ 32) && s.srf (Reg.TX_DAC p) 4 4 == at_ 8

/-- Stage a slot's values for paths. -/
def State.calStage (s : State) (ws : List Word) (ps : List Nat) : State :=
  s.forEach ps fun u p =>
    u.forEach (List.range 4) fun v i => v.swr ([Reg.TX_GAIN p, Reg.TX_DELAY p, Reg.RX_GAIN p, Reg.RX_DELAY p].getD i 0) (wordAt ws (9 * p + i))

/-- The slot that matches the most of the given paths, the lowest of equals, with its words (R353). -/
def State.calBest (s : State) (ps : List Nat) : Option (Nat × List Word) :=
  (List.range 4).foldl (fun (best : Option (Nat × List Word)) k =>
    match s.celSet 0x10 k, best with
    | none, b => b
    | some ws, none => some (k, ws)
    | some ws, some b =>
      let n := fun (x : List Word) => ((s.calMatch x).filter (fun p => ps.contains p)).length
      if n b.2 < n ws then some (k, ws) else some b) none

/-- Restore the alignment of a tile's paths from the best slot after its retention failed (R353). -/
def State.calRestoreTile (s : State) (t : Nat) : State :=
  let ps := (List.range 24).map (24 * t + ·)
  match s.calBest ps with
  | some (_, ws) =>
    let s1 := s.calStage ws ((s.calMatch ws).filter (fun p => ps.contains p))
    { s1 with cal := { s1.cal with request := true } }
  | none => { s with cal := { s.cal with request := true } }

/-- CAL_RESTORE: slot 0-3, or 0xFF for the slot that matches best; the slot used and the paths staged. -/
def execCalRestore (p : Pkt) (s : State) : Out :=
  let k := p.arg 0
  .next (s.command 0x705 p (p.is 1 && decide (k < 4 ∨ k = 0xFF)) true s.isLead fun u =>
    match (if k = 0xFF then u.calBest u.paths else (u.celSet 0x10 k).map (fun ws => (k, ws))) with
    | none => (u, .status stPARTIAL [toW k, 0])
    | some (j, ws) =>
      let ps := u.calMatch ws
      let res := [toW j, toW ps.length]
      (u.calStage ws ps, if ps.length = u.part.paths then .ok res else .status stPARTIAL res))

/-- CAL_STATUS: path. -/
def execCalStatus (p : Pkt) (s : State) : Out :=
  let q := p.arg 0
  .next (s.command 0x706 p (p.is 1 && decide (q < s.part.paths)) true true fun u =>
    (u, .ok [u.peek (Reg.CAL_TXM0 q), u.peek (Reg.CAL_TXM1 q), u.peek (Reg.CAL_RXM0 q), u.peek (Reg.CAL_RXM1 q), u.peek (Reg.CAL_PSTAT q)]))

end Sys2Proof.Machine
end

