-- ==== Sys2Proof/Machine/Thermal.lean ====
section
/-!
DEFINITION. Temperature sensing, warn and throttling, the decision of the shutdown path, and the thermal commands (R519-R536). What a
shutdown does and the restart after it stand in Reset.lean.
-/
namespace Sys2Proof.Machine

/-! ### Sensors -/

def State.senOf (s : State) (n : Nat) : SensorSt := Sparse.get (fun _ => {}) s.th.sensors n
def State.setSen (s : State) (n : Nat) (x : SensorSt) : State :=
  { s with th := { s.th with sensors := Sparse.set (fun _ => {}) s.th.sensors n x } }

/-- The die of a sensor (R519): 0-3 a tile, 4 the hub. -/
def sensorDie (n : Nat) : Nat := if n < 32 then n / 8 else 4

/-- Whether a sensor is a shutdown sensor (R519). -/
def isShutdown (n : Nat) : Bool := if n < 32 then decide (6 ≤ n % 8) else decide (44 ≤ n)

/-- Whether a sensor is present (R519). -/
def State.senPresent (s : State) (n : Nat) : Bool := decide (n < 46 ∧ (32 ≤ n ∨ n / 8 < s.part.tiles))

/-- Whether a sensor's domain is powered (R519). -/
def State.senPowered (s : State) (n : Nat) : Bool :=
  isShutdown n || (if n < 32 then s.domOn (8 + n / 8) else s.domOn 5)

/-- The reading a register shows, in 1/8 degC. -/
def State.senTemp (s : State) (n : Nat) : Int := sext (s.rf (Reg.TH_SENSE n) 15 0) 16
def State.senValid (s : State) (n : Nat) : Bool := s.rb (Reg.TH_SENSE n) 31

/-- Whole degrees of a reading, rounded down, as 8 bits. -/
def degC (t : Int) : Nat := wrapN (t / 8) 8

/-- A thermal event notice, R531. -/
def State.thNotice (s : State) (kind idx : Nat) (t : Int) : State := s.eventNotice 4 0x05 (kind * 2 ^ 20 + idx * 2 ^ 8 + degC t)

/-- A sensor raises or releases warn (R523). Events are recorded while warn_en is 1. -/
def State.senWarn (s : State) (n : Nat) (raise_ : Bool) (t : Int) : State :=
  let s1 := s.pb (Reg.TH_SENSE n) 29 raise_
  let s2 := if raise_ then (s1.thEvt 0).bump (Cnt.thSensor n 1) else s1.thEvt 1
  if s.rb Reg.TH_CTRL 30 then
    let s3 := s2.hubEvent (if raise_ then 0x60 else 0x61) (n * 2 ^ 8 + degC t)
    if raise_ then s3.thNotice 0 n t else s3
  else s2

/-- A sensor stops converting or has failed: its reading is not valid, and its warn goes without an event (R520, R521, R523). -/
def State.senStop (s : State) (n : Nat) : State :=
  ((s.pb (Reg.TH_SENSE n) 31 false).pb (Reg.TH_SENSE n) 29 false).setSen n { s.senOf n with hot := 0, overRun := 0 }

/-- A valid reading of a sensor (R520, R523); a simulated one sets `sim` (R532). -/
def State.senReads (s : State) (n : Nat) (t : Int) : State :=
  let warn : Int := 8 * ((s.rf Reg.TH_THR 7 0 : Nat) : Int)
  let x := s.senOf n
  let hot := if warn < t then x.hot + 1 else 0
  let s1 := s.wr (Reg.TH_SENSE n) (toW (2 ^ 31 + b2n (s.rb (Reg.TH_SENSE n) 29) * 2 ^ 29 + b2n x.sim.isSome * 2 ^ 28 + wrapN t 16))
  let s2 := s1.setSen n { x with hot := hot, bad := 0 }
  let s3 := if warn < t then s2.bump (Cnt.thSensor n 0) else s2
  if s.rb (Reg.TH_SENSE n) 29 then (if t ≤ warn - 16 then s3.senWarn n false t else s3)
  else if 8 ≤ hot then s3.senWarn n true t
  else s3

/-- An invalid reading of a sensor (R521): the third in a row marks it failed. -/
def State.senInvalid (s : State) (n : Nat) : State :=
  let x := s.senOf n
  let s1 := ((s.pb (Reg.TH_SENSE n) 31 false).setSen n { x with hot := 0, overRun := 0, bad := x.bad + 1 }).bump (Cnt.thSensor n 2)
  if x.bad < 2 then s1
  else
    let s2 := ((s1.setSen n { s1.senOf n with failed := true }).senStop n).pb (Reg.TH_SENSE n) 30 true
    ((s2.pb Reg.TH_STAT 4 true).thEvt 4).hubEvent 0x66 (n * 2 ^ 8)

/-- Whether a raw reading is valid (R521). -/
def rawOk (r : Int × Bool) : Bool := decide (-440 ≤ r.1 ∧ r.1 ≤ 1200) && !r.2

/-- One conversion of a sensor; `r` is the reading of the analogue sensor in 1/8 degC and whether its oscillator count has not changed
over two conversions. -/
def State.senConvert (s : State) (n : Nat) (r : Int × Bool) : State :=
  if !s.senPresent n then s
  else if (s.senOf n).failed then (s.senStop n).pb (Reg.TH_SENSE n) 30 true
  else if !s.senPowered n then s.senStop n
  else match (s.senOf n).sim with
    | some t => s.senReads n t
    | none => if rawOk r then s.senReads n r.1 else s.senInvalid n

/-! ### Throttling -/

/-- The highest of some readings. -/
def maxOf (l : List Int) : Option Int :=
  match l with
  | [] => none
  | t :: ts => some (ts.foldl max t)

/-- The temperature that a parcel throttles on (R521, R524): the highest valid reading of its row sensors, else of the shutdown sensors
of its tile. -/
def State.parcelTemp (s : State) (q : Nat) : Option Int :=
  let t := q / 2
  let read := fun (l : List Nat) => (l.filter s.senValid).map s.senTemp
  match maxOf (read ((List.range 3).map (fun i => 8 * t + 3 * (q % 2) + i))) with
  | some v => some v
  | none => maxOf (read [8 * t + 6, 8 * t + 7])

/-- The multiplier of a back-off in 1/16 dB, R525: round(2^16 * 10^(-b/320)). -/
def backoffMult (b : Nat) : Nat :=
  (List.range 17).foldl (fun m i =>
    let c := m + 2 ^ (16 - i)
    if ((2 * c - 1) ^ 20) ^ 16 * 10 ^ b ≤ (131072 ^ 20) ^ 16 then c else m) 0

/-- The target back-off of a throttle temperature, in 1/16 dB, R524. -/
def State.backoffTarget (s : State) (tth : Int) : Nat :=
  if !s.rb Reg.TH_CTRL 31 then 0
  else
    let bmax : Int := 4 * ((s.rf Reg.TH_BOFF 13 8 : Nat) : Int)
    let start : Int := 8 * ((s.rf Reg.TH_THR 15 8 : Nat) : Int)
    let full : Int := 8 * ((s.rf Reg.TH_THR 23 16 : Nat) : Int)
    let b := if full ≤ start then 0 else (2 * bmax * (tth - start) + (full - start)) / (2 * (full - start))
    (max 0 (min bmax b)).toNat

/-- The gain references of a path follow a change of the multiplier (R281), rounded down. -/
def State.scaleBackoff (s : State) (p old new : Nat) : State :=
  let x := s.prOf p
  s.setPr p { x with gref := (x.gref.1 * (new : Int) / (old : Int), x.gref.2 * (new : Int) / (old : Int)) }

/-- The throttle temperature and back-off of a parcel of a tile in RUN, at a conversion (R524, R525). -/
def State.throttle (s : State) (q : Nat) : State :=
  if s.tileState (q / 2) ≠ 0 ∨ s.part.tiles ≤ q / 2 then { s with th := { s.th with init := s.th.init.filter (· ≠ q) } }
  else match s.parcelTemp q with
  | none => s
  | some t =>
    let fresh := !s.th.init.contains q
    let tth0 : Int := if fresh then 8 * ((s.rf Reg.TH_THR 15 8 : Nat) : Int) else sext (s.rf (Reg.TH_PARCEL q) 15 0) 16
    let tth := if tth0 < t then t else if t + 16 < tth0 then t + 16 else tth0
    let target := s.backoffTarget tth
    let b0 := s.rf (Reg.TH_PARCEL q) 23 16
    let slew := max 1 (s.rf Reg.TH_BOFF 3 0)
    let b := if b0 < target then min target (b0 + slew) else max target (b0 - slew)
    let bmax := 4 * s.rf Reg.TH_BOFF 13 8
    let full := decide (b = bmax ∧ 0 < b)
    let wasFull := s.rb (Reg.TH_PARCEL q) 30
    let m := backoffMult b
    let s0 := { s with th := { s.th with init := if fresh then s.th.init ++ [q] else s.th.init } }
    let s1 := (s0.wr (Reg.TH_PARCEL q) (toW (b2n (decide (0 < b)) * 2 ^ 31 + b2n full * 2 ^ 30 + b * 2 ^ 16 + wrapN tth 16))).wr
      (Reg.TH_PMULT q) (toW m)
    let s2 := if b = b0 then s1
      else s1.forEach ((List.range 12).map (fun i => 12 * q + i)) fun u p => u.scaleBackoff p (max 1 (s.rf (Reg.TH_PMULT q) 16 0)) m
    let s3 := if b0 = 0 ∧ 0 < b then ((s2.thEvt 2).hubEvent 0x62 (q * 2 ^ 8 + degC tth)).thNotice 2 q tth else s2
    let s4 := if full ∧ !wasFull then (s3.thEvt 3).hubEvent 0x64 (q * 2 ^ 8) else s3
    let s5 := if 0 < b0 ∧ b = 0 then (s4.hubEvent 0x63 (q * 2 ^ 8 + degC tth)).thNotice 3 q tth else s4
    (s5.when (decide (0 < b)) (fun u => u.bump (Cnt.thParcel q 0))).when full (fun u => u.bump (Cnt.thParcel q 1))

/-! ### The shutdown path -/

/-- The shutdown path fires, unless it has fired already (R526). -/
def State.thFire (s : State) (n : Nat) (t : Int) (emerg : Bool) : State :=
  if s.th.latched ∨ s.th.fire.isSome then s else { s with th := { s.th with fire := some (n, t, emerg) } }

/-- A shutdown sensor as the shutdown path sees it: the real reading, never a simulated one (R526). -/
def State.pathSees (s : State) (n : Nat) (r : Int × Bool) : State :=
  let x := s.senOf n
  if x.failed ∨ !rawOk r then s.setSen n { x with overRun := 0 }
  else
    let overRun := if 8 * ((s.rf Reg.TH_THR 31 24 : Nat) : Int) < r.1 then x.overRun + 1 else 0
    let s1 := s.setSen n { x with overRun := overRun }
    if 1000 < r.1 then s1.thFire n r.1 true
    else if 8 ≤ overRun then s1.thFire n r.1 false
    else s1

/-- The shutdown sensors and the ordinary sensors of a die. -/
def dieSensors (die : Nat) (shutdown : Bool) : List Nat := (List.range 46).filter (fun n => sensorDie n == die && isShutdown n == shutdown)

/-- A die whose two shutdown sensors have failed (R521): the highest reading of its powered ordinary sensors goes into the path; without
any sensor left the die counts as above the threshold. -/
def State.dieSees (s : State) (die : Nat) (rs : List (Int × Bool)) : State :=
  if (dieSensors die true).any (fun n => !(s.senOf n).failed) then s
  else
    let left := (dieSensors die false).filter (fun n => !(s.senOf n).failed && s.senPowered n)
    let read := (left.filter (fun n => rawOk (rs.getD n (0, true)))).map (fun n => ((rs.getD n (0, true)).1, n))
    let top := read.foldl (fun (a : Option (Int × Nat)) (v : Int × Nat) =>
      match a with
      | none => some v
      | some w => if w.1 < v.1 then some v else a) none
    let shdn : Int := 8 * ((s.rf Reg.TH_THR 31 24 : Nat) : Int)
    let above := left == [] || top.any (fun v => decide (shdn < v.1))
    let n := if above then Sparse.get (fun _ => 0) s.th.dies die + 1 else 0
    let s1 := { s with th := { s.th with dies := Sparse.set (fun _ => 0) s.th.dies die n } }
    let v := top.getD (s.senTemp ((dieSensors die true).headD 0), (dieSensors die true).headD 0)
    if left ≠ [] ∧ top.any (fun v => decide (1000 < v.1)) then s1.thFire v.2 v.1 true
    else if 8 ≤ n then s1.thFire v.2 v.1 false
    else s1

/-- The restart rule of AON while shutdown is latched (R528). -/
def State.restartRule (s : State) : State :=
  if !s.th.latched then s
  else
    let lim : Int := 8 * ((s.rf Reg.TH_RESTART 7 0 : Nat) : Int)
    let ok := ((List.range 46).filter (fun n => s.senPresent n && isShutdown n && s.senValid n)).all (fun n => decide (s.senTemp n < lim))
    { s with th := { s.th with okSince := if ok then some (s.th.okSince.getD s.tick) else none } }

/-- THERM_N is driven low (R530). -/
def State.thermLow (s : State) : Bool :=
  s.th.latched || (s.rb Reg.TH_CTRL 0 && s.rb Reg.TH_STAT 0) || (s.rb Reg.TH_CTRL 1 && s.rb Reg.TH_STAT 1)

/-- The summary of TH_STAT (R536). -/
def State.thSummary (s : State) : State :=
  let valid := (List.range 46).filter s.senValid
  let hottest := valid.foldl (fun (a : Option Nat) n =>
    match a with
    | none => some n
    | some m => if s.senTemp m < s.senTemp n then some n else a) none
  ((s.pf Reg.TH_STAT 15 8 (hottest.getD 0)).pb Reg.TH_STAT 0 ((List.range 46).any (fun n => s.rb (Reg.TH_SENSE n) 29))).pb
    Reg.TH_STAT 1 ((List.range 8).any (fun q => s.rb (Reg.TH_PARCEL q) 31))

/-- SENSOR_CONVERSION, R520-R526: on a 64 us boundary of the tick counter every powered sensor converts. `rs` gives for each of the 46
sensors its reading in 1/8 degC and whether its oscillator count is stuck. -/
def execSensorConversion (rs : List (Int × Bool)) (s : State) : Out :=
  let at_ := if s.tick % 102400 = 0 ∧ s.th.last ≠ s.tick + 1 then s.tick else (s.tick / 102400 + 1) * 102400
  if rs.length ≠ 46 ∨ s.dev = 0 then .next s
  else
    let s0 := s.advanceTo at_
    let s1 := { s0 with th := { s0.th with last := at_ + 1 } }
    let s2 := s1.forEach (List.range 46) fun u n => u.senConvert n (rs.getD n (0, true))
    let s3 := s2.forEach ((List.range 46).filter (fun n => s.senPresent n && isShutdown n)) fun u n => u.pathSees n (rs.getD n (0, true))
    let s4 := s3.forEach (s.tiles ++ [4]) fun u d => u.dieSees d rs
    let s5 := s4.forEach (List.range 8) State.throttle
    .next (s5.thSummary.restartRule)

/-! ### Thresholds -/

/-- The order and the limits of R522. -/
def thresholdsOk (thr boff restart : Word) : Bool :=
  let warn := fld thr 7 0
  let start := fld thr 15 8
  let full := fld thr 23 16
  let shdn := fld thr 31 24
  decide (warn ≤ start ∧ start < full ∧ full ≤ shdn ∧ 60 ≤ warn ∧ warn ≤ 120 ∧ 60 ≤ start ∧ start ≤ 119 ∧ 61 ≤ full ∧ full ≤ 120 ∧
    100 ≤ shdn ∧ shdn ≤ 120 ∧ fld boff 13 8 ≤ 48 ∧ 60 ≤ fld restart 7 0 ∧ fld restart 7 0 + 5 ≤ warn)

/-- A write of TH_THR (`r` 0), TH_BOFF (1) or TH_RESTART (2): discarded with thr_err where R522 forbids it. -/
def State.writeThr (s : State) (r : Nat) (w : Word) : State :=
  let thr := if r = 0 then w else s.rd Reg.TH_THR
  let boff := if r = 1 then maskW w 0x3F0F else s.rd Reg.TH_BOFF
  let rst := if r = 2 then maskW w 0xFFFF else s.rd Reg.TH_RESTART
  if thresholdsOk thr boff rst then ((s.wr Reg.TH_THR thr).wr Reg.TH_BOFF boff).wr Reg.TH_RESTART rst
  else s.pb Reg.TH_STAT 3 true

/-- TH_THR_WRITE, R522. -/
def execThThrWrite (r : Nat) (w : Word) (s : State) : Out :=
  .next (if r ≤ 2 ∧ s.dev ≠ 0 then s.writeThr r w else s)

/-! ### Commands, R533 -/

/-- TH_STATUS, R533. -/
def execThStatus (p : Pkt) (s : State) : Out :=
  .next (s.command 0x940 p (p.is 0) true true fun u =>
    (u, .ok ([u.rd Reg.TH_STAT, u.rd Reg.TH_SHDN] ++ (List.range 8).map (fun q => u.rd (Reg.TH_PARCEL q)))))

/-- TH_SET, R522, R533. -/
def execThSet (p : Pkt) (s : State) : Out :=
  let w := fun (i : Nat) => wordAt p.params i
  let boff := maskW (w 2) 0x3F0F
  let rst := maskW (w 3) 0xFFFF
  .next (s.command 0x941 p (p.is 4 && thresholdsOk (w 1) boff rst) true true fun u =>
    ((((u.wr Reg.TH_CTRL (maskW (w 0) 0xC0000003)).wr Reg.TH_THR (w 1)).wr Reg.TH_BOFF boff).wr Reg.TH_RESTART rst, .ok []))

/-- TH_READ, R533. -/
def execThRead (p : Pkt) (s : State) : Out :=
  .next (s.command 0x942 p (p.is 2 && decide (1 ≤ p.arg 1 ∧ p.arg 1 ≤ 14 ∧ p.arg 0 + p.arg 1 ≤ 46)) true true fun u =>
    (u, .ok ((List.range (p.arg 1)).map (fun i => u.rd (Reg.TH_SENSE (p.arg 0 + i))))))

/-- TH_SIMULATE, R532. -/
def execThSimulate (p : Pkt) (s : State) : Out :=
  .next (s.command 0x943 p (p.is 2 && s.senPresent (p.arg 0)) (s.dev == 5) true fun u =>
    let v := p.arg 1 % 2 ^ 16
    (u.setSen (p.arg 0) { u.senOf (p.arg 0) with sim := if v = 0x8000 then none else some (sext v 16) }, .ok []))

end Sys2Proof.Machine
end

