-- ==== Sys2Proof/Machine/Retain.lean ====
section
/-!
DEFINITION. The retention banks and what a failed check does to each (R549-R551).
-/
namespace Sys2Proof.Machine

/-- Forget the words of a store whose offset satisfies `p`: they read their reset values again. -/
def forget (p : Nat → Bool) (l : Sparse Word) : Sparse Word := l.filter (fun (x : Nat × Word) => !p x.1)

/-- Live registers and counters return to their reset values. -/
def State.forgetLive (s : State) (p : Nat → Bool) : State := { s with live := forget p s.live }

/-- Staged values return to their reset values. -/
def State.forgetStaged (s : State) (p : Nat → Bool) : State := { s with staged := forget p s.staged }

/-- Configuration registers in some offsets return to their reset values, live and staged; read-only fields keep their values. -/
def State.resetConfig (s : State) (p : Nat → Bool) : State :=
  let keep := s.live.filterMap fun (x : Nat × Word) =>
    if !p x.1 then none
    else match regAt x.1 with
      | some (r, _, _) => some (x.1, maskW x.2 r.ro ||| maskW (resetWord s.part x.1) (0xFFFFFFFF - r.ro))
      | none => none
  let s1 := (s.forgetLive p).forgetStaged p
  s1.forEach keep fun u (x : Nat × Word) => u.wr x.1 x.2

/-- Whether an offset is one of the hub's in a range. -/
def inHub (lo hi a : Nat) : Bool := decide (lo ≤ a ∧ a < hi) && !isCounter a

/-- Whether an offset is a path's alignment value or a coefficient (banks 12-15). -/
def isCalReg (o : Nat) : Bool :=
  decide (0x1000 ≤ o ∧ o < 0x3000) || o == 0x14 || o == 0x18 || o == 0x314 || o == 0x318

/-- Whether a live offset lies in tile `t`'s path or row registers, beside the calibration data (banks 8-11). -/
def inTileConfig (t a : Nat) : Bool :=
  match placeOf a with
  | (.path p, o) => p / 24 == t && !isCalReg o
  | (.row r, _) => r / 6 == t
  | _ => false

/-- Remove the bytes of the stores in a range. -/
def State.clearMem (s : State) (lo hi : Nat) : State :=
  let out := fun (a : Nat) => decide (a < lo ∨ hi ≤ a)
  { s with tr := { s.tr with
    mem := s.tr.mem.filter (fun (x : Host.Cell) => out x.1), lows := s.tr.lows.filter (fun (x : Nat × Option Word) => out x.1) } }

/-- Bank 0, the time base: local time restarts from 0 on the wake tick (R549). -/
def State.failBank0 (s : State) : State :=
  let s1 := (s.wr Reg.TB_RATE_LO (resetWord s.part Reg.TB_RATE_LO)).wr Reg.TB_RATE_HI (resetWord s.part Reg.TB_RATE_HI)
  let s2 := s1.jumpTo 0
  let s3 := ((s2.stepRecord 0).pb Reg.TB_STATUS 0 false).ppsFollow
  let s4 := ((s3.wr Reg.TB_GRID_ORG_SEC_LO (resetWord s.part Reg.TB_GRID_ORG_SEC_LO)).wr Reg.TB_GRID_ORG_SEC_HI
    (resetWord s.part Reg.TB_GRID_ORG_SEC_HI)).wr Reg.TB_GRID_ORG_NS (resetWord s.part Reg.TB_GRID_ORG_NS)
  ((s4.resetSources fun _ => true).forEach (List.range 64) State.disarm).pb Reg.TB_ALARM_CTRL 0 false

/-- Banks 12-15, a tile's calibration data (R286, R309, R353): the ADCs calibrate in the foreground, the Press and canceller sets last saved
are loaded, and the alignment is restored. -/
def State.failCalBank (s : State) (t : Nat) : State :=
  let paths := (List.range 24).map (24 * t + ·)
  let adcs := paths ++ (List.range 6).map (96 + 6 * t + ·)
  let s1 := s.forEach adcs fun u a =>
    let u1 := (u.setAdc a { (u.adcOf a) with sets := [], foreground := some (u.tick, none) }).pf (adcStat a) 31 29 0
    if a < 96 then (u1.pb (Reg.RX_STATUS a) 4 false).rxUpdate a else u1
  let s2 := s1.forEach paths fun u q =>
    let saved := u.celSet 0x11 q
    let cs := (saved.map (fun ws => ws.take 128)).getD identityCoefs
    let ts := (saved.map (fun ws => ws.drop 128)).getD []
    let u1 := u.setPr q { (u.prOf q) with coefs := cs, adapted := none, reverting := false, adaptedLive := false }
    let u2 := u1.setCan q { (u1.canOf q) with taps := ts, adapted := none, reverting := false }
    let full := ts ++ List.replicate (256 - ts.length) 0
    let u3 := ((((u2.wrList (Reg.PR_COEF_LO q 0) cs).wrList (Reg.PR_GOOD_LO q 0) cs).wrList (Reg.CAN_TAP_LO q 0) full).wrList
      (Reg.CAN_GOOD_LO q 0) full)
    let u4 := u3.forgetStaged (fun a => decide (Reg.PR_COEF_LO q 0 ≤ a ∧ a < Reg.PR_COEF_LO q 0 + 0x2000))
    (((u4.restartPress q).restartCan q).pb (Reg.PR_STAT q) 23 false).pb (Reg.CAN_STAT q) 23 (u4.canOf q).pend.isSome
  let s3 := s2.resetConfig (fun a => match placeOf a with
    | (.path p, o) => p / 24 == t && (o == 0x14 || o == 0x18 || o == 0x314 || o == 0x318)
    | _ => false)
  s3.calRestoreTile t

/-- What a bank that fails its check loses and what the device does about it, R549. -/
def State.loseBank (s : State) (n : Nat) : State :=
  if n = 0 then s.failBank0
  else if n = 1 then { s.resetConfig (inHub 0x200000 0x204000) with fh := { frames := s.fh.frames } }
  else if n = 2 then
    s.resetConfig (fun a => inHub 0x80F0000 0x80F0010 a || match placeOf a with
      | (.link l, _) => decide (4 ≤ l)
      | _ => false)
  else if n = 3 then
    let s1 := s.resetConfig (fun a => inHub 0x400000 0x404000 a || inHub 0x600000 0x604000 a)
    { s1 with cars := [], tddOld := [], tr := { s1.tr with vers := [(0, s1.liveTrellis)], appliedAt := 0 } }
  else if n = 4 then
    let s1 := s.resetConfig (fun a => inHub 0x801000 0x803000 a)
    let s2 := s1.forEach (List.range 64) fun u j => u.setJobState j 0
    let s3 := s2.pf Reg.SOL_KERNEL_VALID 15 8 0
    { s3 with sol := { s3.sol with
      cores := [], jobs := [], prog := [], kernels := s3.sol.kernels.filter (fun (x : Nat × Option Kernel) => x.1 < 8) } }
  else if n = 5 then s.clearMem (btBase 0) (btBase 0 + 0x800000)
  else if n = 6 then s.clearMem (wsBase 0) (wsBase 0 + 0x8000000)
  else if n = 7 then s.clearMem 0 0x04000000
  else if n < 12 then
    let t := n - 8
    let s1 := s.resetConfig (inTileConfig t)
    s1.forEach ((List.range 24).map (24 * t + ·)) fun u p =>
      let x := u.txOf p
      let y := u.rxOf p
      let u1 := u.setTx p { x with
        pend := none, mNotEn := true, app := { ({} : TxVals) with gain := x.app.gain, delay := x.app.delay } }
      let u2 := u1.setRx p { y with pend := none, app := { ({} : RxVals) with gain := y.app.gain, delay := y.app.delay } }
      let u3 := (u2.setPr p { u2.prOf p with pend := none }).setCan p { u2.canOf p with pend := none }
      (u3.pb (Reg.CAN_STAT p) 23 (u3.canOf p).adapted.isSome).muteUpdate p
  else if n < 16 then s.failCalBank (n - 12)
  else
    let t := n - 16
    let mine := fun (a : Nat) => isCounter a && (match placeOf a with
      | (.tile k, _) => k == t
      | _ => false)
    let s1 := s.forgetLive mine
    ((s1.setRec t {}).wr (Reg.REC_T_NEXT t) 0).wr (Reg.REC_T_STAT t) 0

/-- A bank fails its check (R551): it is cleared, reported and recorded. -/
def State.failBank (s : State) (n : Nat) : State :=
  let s1 := ((s.loseBank n).pb Reg.PW_RET_FAIL n true).pb Reg.PW_WAKE_REC n true
  ((s1.pwEvt 3).hubEvent 0x76 n).bump (Cnt.pwPackage 5)

/-- The banks that a wake step checks (R549, R555), and that fail. -/
def State.checkBanks (s : State) (banks : List Nat) (bad : Nat) : State :=
  s.forEach (banks.filter (bitN bad)) State.failBank

end Sys2Proof.Machine
end

