-- ==== Sys2Proof/Machine/Power.lean ====
section
/-!
DEFINITION. Power states (R537-R564): the negotiation and execution of entries, blanking windows, wakes, pads and the power commands.
-/
namespace Sys2Proof.Machine

/-! ### Phase 1, R542, R543 -/

/-- What the blocks answer: ready, or a delay or a refusal with the reason and the domain of the block. -/
inductive Answer where
  | ready
  | delay (reason dom : Nat)
  | refuse (reason dom : Nat)
  deriving DecidableEq, Repr

/-- One question to a block: whether its condition holds, whether it then refuses (else it delays), the reason and the domain. -/
structure Ask where
  holds : Bool
  refuses : Bool
  reason : Nat
  dom : Nat
  deriving DecidableEq, Repr

/-- Rows, monitor ADCs and receive ADCs of a tile. -/
def tileRows (t : Nat) : List Nat := (List.range 6).map (6 * t + ·)
def tileAdcs (t : Nat) : List Nat := (List.range 24).map (24 * t + ·) ++ (List.range 6).map (96 + 6 * t + ·)

/-- The blocks of a tile, in the order of R542, with the conditions of R543. -/
def State.tileAsks (s : State) (t : Nat) : List Ask :=
  let d := 8 + t
  [⟨(tileRows t).any (fun r => (s.rowOf r).active.isSome), false, 0x01, d⟩,
   ⟨(tileRows t).any (fun r => (s.rowOf r).queue.any (fun e => e.trigTick.isNone)), true, 0x02, d⟩,
   ⟨[2 * t, 2 * t + 1].any (fun q => (s.maOf q).run.isSome), false, 0x03, d⟩,
   ⟨(tileRows t).any (fun r => (s.orxOf r).host.isSome), true, 0x04, d⟩,
   ⟨(tileAdcs t).any (fun a => (s.adcOf a).foreground.isSome || (s.adcOf a).retest.isSome), true, 0x05, d⟩,
   ⟨decide (1 ≤ s.calState ∧ s.calState ≤ 3), true, 0x06, d⟩,
   ⟨(s.recOf t).testing, false, 0x07, d⟩]

/-- The blocks of the package for DEEP, in the order of R542. -/
def State.deepAsks (s : State) (e : PwEntry) : List Ask :=
  (s.tiles.filter (fun t => s.tileState t == 0 || s.tileState t == 1)).flatMap s.tileAsks ++
  [⟨s.tr.defer.isSome || s.tr.exec.isSome, true, 0x0B, 5⟩,
   ⟨(List.range 64).any s.jobActive, true, 0x0A, 6⟩,
   ⟨!e.sys && [4, 5].any (fun l => s.part.hasLink l && s.linkState l == 2), true, 0x09, 4⟩,
   ⟨(List.range 32).any s.chanBusy, false, 0x08, 1⟩,
   ⟨s.host.accepted.any (fun r => some r != e.ref && !decide (0xA00 ≤ r.op ∧ r.op < 0xB00)), true, 0x0C, 1⟩,
   ⟨e.sys && !(s.dev == 2 || s.dev == 3), true, 0x0F, 0⟩]

/-- The answer of the blocks to an entry: a refusal ends it, a delay holds it. -/
def State.askBlocks (s : State) (e : PwEntry) : Answer :=
  let asks := (if e.scope = 4 then s.deepAsks e else s.tileAsks e.scope).filter Ask.holds
  match asks.find? Ask.refuses, asks with
  | some a, _ => .refuse a.reason a.dom
  | none, a :: _ => .delay a.reason a.dom
  | none, [] => .ready

/-- Replace an entry. -/
def State.putEntry (s : State) (e e' : PwEntry) : State :=
  { s with pw := { s.pw with entries := s.pw.entries.map (fun x => if x = e then e' else x) } }

/-- Ask the blocks (R542). A member of a system entry reports the end of its phase 1 to the lead (R546). -/
def State.askEntry (s : State) (e : PwEntry) : State :=
  match s.askBlocks e with
  | .refuse r d => s.abandonEntry e r d
  | .delay _ _ => s.putEntry e { e with delayFrom := some (e.delayFrom.getD s.tick) }
  | .ready =>
    let s1 := s.putEntry e { e with delayFrom := none }
    if e.sys ∧ !s.isLead then
      match s.port 1 with
      | some l => s1.sendMsg l 0xB opReport [toW s.pkgNum, 0]
      | none => s1
    else s1

/-- Phase 1 of an entry begins (R542). -/
def State.startEntry (s : State) (e : PwEntry) : State :=
  let e1 := { e with idle := e.scope != 4 && s.tileState e.scope == 1 }
  let s1 := { s with pw := { s.pw with entries := s.pw.entries ++ [e1], orders := s.pw.orders.erase e } }
  (if e.scope = 4 then s1.setPkg 1 else s1.setTileState e.scope 4).askEntry e1

/-- A change of a tile that is ordered begins (R538, R559): an entry, a wake by source 6, or nothing when the tile is there already. A change
that its state does not allow fails. -/
def State.beginChange (s : State) (e : PwEntry) (dueBy : Option Nat) : State :=
  let t := e.scope
  let cur := s.tileState t
  let s0 := { s with pw := { s.pw with orders := s.pw.orders.erase e } }
  if cur = e.target then s0.tileNotice e.ref stOK e.late
  else if e.target = 0 ∧ (cur = 1 ∨ cur = 2) ∧ s.rb Reg.PW_WAKE_EN 5 then (s0.startTileWake t 6 e.ref dueBy e.late).bump (Cnt.pwWake 6)
  else if (e.target = 1 ∧ cur = 0) ∨ (e.target = 2 ∧ cur ≤ 1) then s.startEntry e
  else s0.tileNotice e.ref stITEM e.late

/-- POWER_ENTRY_START, R542, R559: the change ordered for a scope (a tile, or 4 for the package) begins, at once or when its comparator
has fired. -/
def execPowerEntryStart (scope : Nat) (s : State) : Out :=
  .next <| match s.pw.orders.find? (fun e => e.scope == scope) with
  | some e => if scope = 4 then s.startEntry e else s.beginChange e none
  | none =>
    match s.pw.pends.find? (fun p => p.tile == scope && decide (s.shortDiff p.begin_ ≤ 0)) with
    | none => s
    | some p =>
      match s.tb.dues.find? (fun d => d.line == 31 && d.refs.contains p.ref) with
      | none => s
      | some d =>
        let left := s.pw.pends.erase p
        let more := left.any (fun x => d.refs.contains x.ref && decide (s.shortDiff x.begin_ ≤ 0))
        let s1 := { s with
          pw := { s.pw with pends := left }
          tb := { s.tb with dues := if more then s.tb.dues else s.tb.dues.erase d } }
        s1.beginChange { scope := scope, target := p.target, start := s.tick, ref := some p.ref, late := d.late } p.time

/-- ENTRY_REASK, R542: a block that answered delay is asked again a microsecond later. -/
def execEntryReask (scope : Nat) (s : State) : Out :=
  .next <| match s.pw.entries.find? (fun e => e.scope == scope && e.delayFrom.isSome) with
  | none => s
  | some e => (s.advanceTo (s.tick + 1600)).askEntry e

/-- Members that have not reported ready in a system entry (R546). -/
def State.unreported (s : State) : List Nat := ((List.range s.reach).drop 1).filter (fun k => !s.pw.reports.contains (k, 0))

/-- ENTRY_DELAY_TIMEOUT, R543, R546: a delay lasts longer than delay_max_us, or a member's report is missing. -/
def execEntryDelayTimeout (scope : Nat) (s : State) : Out :=
  let lim := s.rf Reg.PW_CFG 31 16 * 1600 + 1
  .next <| match s.pw.entries.find? (fun e => e.scope == scope) with
  | none => s
  | some e =>
    match e.delayFrom, s.askBlocks e, s.unreported with
    | some d, .delay _ _, _ => (s.advanceTo (d + lim)).abandonEntry e 0x0E 0
    | none, _, k :: _ =>
      if e.sys ∧ s.isLead then ((s.advanceTo (e.start + lim)).abandonHere e 0x0E 0 k).copyDown opAbandon [0x0E00] else s
    | _, _, _ => s

/-! ### Phase 2, R542, R547, R548 -/

/-- A tile enters IDLE or RETAIN. -/
def State.enterTile (s : State) (e : PwEntry) : State :=
  let t := e.scope
  let s1 := ({ s with pw := { s.pw with entries := s.pw.entries.erase e } } : State).forEach (tileRows t) State.latchRow
  let s2 := s1.setTileState t e.target
  let s3 :=
    if e.target = 1 then (if s2.linkState t = 2 then s2.setLinkState t 3 else s2).bump (Cnt.pwTile t 0)
    else
      let u := (((s2.setLinkState t 0).setDom (8 + t) false).bump (Cnt.pwTile t 1))
      { u with pw := { u.pw with pen := clrBitN u.pw.pen (1 + t), ppg := clrBitN u.pw.ppg (1 + t) } }
  (s3.powerEvent t e.target).tileNotice e.ref stOK e.late

/-- The package enters DEEP (R537, R542): the tiles, then the hub's domains in the order of R34; the device goes to SLEEP. With a ready time
the alarm is armed 50 ms before it (R559). -/
def State.enterDeep (s : State) (e : PwEntry) : State :=
  let states := (List.range 4).map s.tileState
  let s1 := s.forEach s.rows State.latchRow
  let s2 := s1.forEach ((List.range 6).filter s.part.hasLink) fun u l => u.setLinkState l 0
  let s3 := s2.forEach s.tiles fun u t => (if states.getD t 0 ≤ 1 then u.setTileState t 2 else u).setDom (8 + t) false
  let s4 := s3.forEach [5, 6, 3, 4, 7, 2] fun u d => u.setDom d false
  let s5 := { s4 with
    pw := { s4.pw with entries := [], deepTiles := states, pen := 0, ppg := 0, reports := [], sysGo := false }
    tb := { s4.tb with ppsOut := false } }
  let s6 := ((s5.setPkg 2).powerEvent 4 2).bump (Cnt.pwPackage 0)
  let s7 := (match e.ref with
    | some r => s6.finish r stOK []
    | none => s6).enterState 7 0x11
  match e.ready with
  | some t => s7.armAlarm ((t + 2 ^ 48 - 50000000) % 2 ^ 48)
  | none => s7

/-- POWER_ENTRY_EXEC, R542, R546: every block is ready, and in a system entry every package; the entry is executed. The lead sends GO down
the chain; a member forwards it. -/
def execPowerEntryExec (scope : Nat) (s : State) : Out :=
  .next <| match s.pw.entries.find? (fun e => e.scope == scope && e.delayFrom.isNone) with
  | none => s
  | some e =>
    if scope < 4 then s.enterTile e
    else if !e.sys then s.enterDeep e
    else if s.isLead then (if s.unreported = [] then (s.copyDown opGo []).enterDeep e else s)
    else if s.pw.sysGo then s.enterDeep e
    else s

/-! ### Blanking windows, R541 -/

/-- The paths named by PW_BLK_PATH whose tile is in RUN. -/
def State.blankPaths (s : State) (t : Nat) : List Nat :=
  ((List.range 24).map (24 * t + ·)).filter fun p => s.tileState t == 0 && s.rb (Reg.PW_BLK_PATH (p / 32)) (p % 32)

/-- BLANK_WINDOW, R541: a firing of line 9, at every tile that has its message. -/
def execBlankWindow (s : State) : Out :=
  .next <| match s.tb.tileDues.find? (fun (d : Nat × Nat × Nat × Bool) => d.1 == 9) with
  | none => s
  | some d =>
    let at_ := d.2.2.1
    let same := s.tb.tileDues.filter (fun (x : Nat × Nat × Nat × Bool) => x.1 = 9 ∧ x.2.2.1 = at_)
    let s0 := ({ s with tb := { s.tb with tileDues := s.tb.tileDues.filter (fun (x : Nat × Nat × Nat × Bool) => !same.contains x) } } : State).advanceTo at_
    let ns := s.rf Reg.PW_BLK_LEN 19 0
    if ns < 4000 then (s0.pwEvt 6).bump (Cnt.pwBlank 1)
    else
      let stop := at_ + ticksNs ns
      let ps := same.flatMap (fun (x : Nat × Nat × Nat × Bool) => s.blankPaths x.2.1)
      let s1 := s0.forEach ps fun u p =>
        let x := u.txOf p
        ((u.setTx p { x with blankEnd := some (max stop (x.blankEnd.getD 0)) }).blankEnter p).followDemands p
      s1.bump (Cnt.pwBlank 0)

/-- BLANKING_WINDOW_END, R541: the window of path `p` ends; the path leaves blank idle unless the DAC idles in a TDD gap (R254), and TXEN
follows its demand again. -/
def execBlankingWindowEnd (p : Nat) (s : State) : Out :=
  .next <| match (s.txOf p).blankEnd with
  | none => s
  | some t =>
    let s1 := s.advanceTo t
    let s2 := s1.setTx p { s1.txOf p with blankEnd := none }
    (if s2.mayBlank p 6400 ∧ !s2.txDemand (p / 4) s2.tick then s2 else s2.blankLeave p).followDemands p

/-! ### Wakes, R553-R558 -/

/-- WAKE_SOURCE, R553: WAKE_N (3), PCIe link activity (4) or a fronthaul wake frame that names tiles (5). The alarm, the doorbell and PW_TILE
have commands of their own. -/
def execWakeSource (src : Nat) (tiles : List Nat) (s : State) : Out :=
  .next (if 3 ≤ src ∧ src ≤ 5 then s.wakeArrive src tiles else s)

/-- Step 2 of a wake from DEEP (R552, R555): CLK on, the hub counter loaded, holdover, and bank 0 checked. Comparators and the alarm whose
targets have passed fire at once, late (R57). -/
def State.wakeClk (s : State) (bad : Nat) : State :=
  let s1 := (s.setDom 2 true).pb Reg.TB_STATUS 2 (s.rb Reg.TB_STATUS 2 || s.pw.refclkLost)
  let s2 := ({ s1 with pw := { s1.pw with refclkLost := false } } : State).enterHoldover
  let s3 := s2.checkBanks [0] bad
  let s4 := s3.forEach ((List.range 64).filter (fun n => s3.armed n && s3.cmpDueNow n)) State.fireCmp
  if s4.rb Reg.TB_ALARM_CTRL 0 ∧ s4.shortDiff s4.tb.alarmTarget ≤ 0 then s4.fireAlarm true else s4

/-- A tile of a wake from DEEP begins its steps 5 to 7 (R555). -/
def State.wakeDeepTile (s : State) (t src : Nat) : State :=
  let w : PwWake := { scope := t, step := 5, stepStart := s.tick, start := s.tick, source := src, seen := 0 }
  let s1 := s.setTileState t 5
  { s1 with pw := { s1.pw with wakes := s1.pw.wakes ++ [w], pen := setBitN s1.pw.pen (1 + t) } }

/-- The tiles that wake with the package: in RUN or IDLE at entry (R555). -/
def State.deepWakes (s : State) : List Nat := s.tiles.filter (fun t => decide (s.pw.deepTiles.getD t 3 ≤ 1))

/-- Power good of a supply. -/
def State.powerGood (s : State) (b : Nat) : State := { s with pw := { s.pw with ppg := setBitN s.pw.ppg b } }

/-- WAKE_STEP_DONE, R555: the running step of a scope's wake completes, and the next begins. `bad` gives the banks whose check code differs. -/
def execWakeStepDone (scope bad : Nat) (s : State) : Out :=
  .next <| match s.pw.wakes.find? (fun w => w.scope == scope) with
  | none => s
  | some w =>
    if scope = 4 then
      if w.step = 1 then (s.powerGood 0).setWakeStep 4 2
      else if w.step = 2 then (s.wakeClk bad).setWakeStep 4 3
      else if w.step = 3 then
        (((s.forEach [7, 3, 4] fun u d => u.setDom d true).pf Reg.FH_STATUS 7 0 0).checkBanks [1, 2, 5, 6, 7] bad).setWakeStep 4 4
      else if w.step = 4 then
        let s1 := ((s.forEach [5, 6] fun u d => u.setDom d true).checkBanks [3, 4] bad).setWakeStep 4 5
        s1.forEach s1.deepWakes fun u t => u.wakeDeepTile t w.source
      else if w.step = 5 ∧ !s.pw.wakes.any (fun x => decide (x.scope < 4 ∧ x.step < 8)) then
        (s.setWakeStep 4 8).forEach ([4, 5].filter s.part.hasLink) fun u l => u.startTrain l none
      else s
    else if w.step = 5 then ((s.powerGood (1 + scope)).setDom (8 + scope) true).setWakeStep scope 6
    else if w.step = 6 then s.setWakeStep scope 7
    else if w.step = 7 ∧ s.linkState scope ≠ 1 then
      (s.checkBanks [8 + scope, 12 + scope, 16 + scope] bad).startTrain scope none
    else s

/-- The record of a wake in PW_LAST_WAKE (R554). -/
def State.recordWake (s : State) (w : PwWake) : State :=
  s.wr Reg.PW_LAST_WAKE (toW (w.source * 2 ^ 28 + w.seen % 64 * 2 ^ 16 + min 0xFFFF ((s.tick - w.start) / 16000)))

/-- A wake from DEEP fails (R556): everything it powered goes off and the package stays in DEEP, in WAKE_FAIL. -/
def State.failPkgWake (s : State) (w : PwWake) : State :=
  let s1 := { (s.setDom 2 false) with pw := { s.pw with wakes := [], pen := 0, ppg := 0 } }
  let s2 := (((s1.setPkg 4).pf Reg.PW_WAKE_REC 31 28 w.step).hubEvent 0x74 w.step).recordWake w
  let s3 := (((s2.faultRecord 2 [s2.rd Reg.PW_WAKE_REC]).faultSum 8).pwEvt 2).bump (Cnt.pwPackage 4)
  match w.ref with
  | some r => s3.finish r stITEM [s3.rd Reg.PW_WAKE_REC]
  | none => s3

/-- WAKE_STEP_TIMEOUT, R556, R557: step 1, 2, 5 or 6 reaches its timeout; after 1 ms it runs once more, and a second time it fails. -/
def execWakeStepTimeout (scope : Nat) (s : State) : Out :=
  .next <| match s.pw.wakes.find? (fun w => w.scope == scope) with
  | none => s
  | some w =>
    let pg := w.step = 1 ∨ w.step = 5
    let lim := if pg then max 1 (s.rf Reg.PW_CFG 15 8) * 1600000 else max 1 (s.rf Reg.PW_CFG 7 0) * 16000
    if !(w.step == 1 || w.step == 2 || w.step == 5 || w.step == 6) ∨ (scope = 4 ∧ 5 ≤ w.step) then s
    else
      let s1 := s.advanceTo (w.stepStart + lim)
      if w.retried then (if scope = 4 then s1.failPkgWake w else s1.failTileWake scope)
      else
        let s2 := (s1.hubEvent 0x73 ((if scope = 4 then 0xF else scope) * 256 + w.step)).bump (Cnt.pwPackage 3)
        let s3 := s2.advanceTo (s2.tick + 1600000)
        { s3 with pw := { s3.pw with wakes := s3.pw.wakes.map (fun x =>
            if x = w then { w with retried := true, stepStart := s3.tick } else x) } }

/-- The rows of a tile that auto_rel releases at its completed wake (R548): not those latched by a shutdown. -/
def State.autoRelease (s : State) (t : Nat) : State :=
  if s.rb (Reg.PW_PAD_CFG t) 8 then
    s.releasePads (maskOf ((tileRows t).filter (fun r => s.rb Reg.PW_PAD_STAT r && !bitN s.pw.shdnLatch r)))
  else s

/-- A tile is in RUN again: its throttle temperature starts anew (R524) and its unavailability ends (R557). -/
def State.tileRunning (s : State) (t : Nat) : State :=
  let s1 := ((s.setTileState t 0).pb Reg.GL_UNIT_AVAIL (8 + t) false).pb Reg.PW_WAKE_REC (24 + t) false
  let s2 := if s1.linkState t = 3 then s1.setLinkState t 2 else s1
  let s3 := { s2 with th := { s2.th with init := s2.th.init.filter (fun q => q / 2 ≠ t) } }
  let s4 := (s3.powerEvent t 0).autoRelease t
  s4.forEach ((List.range 24).map (24 * t + ·)) fun u p => u.followDemands p

/-- A tile returns to its state at entry to DEEP (R558). -/
def State.tileBack (s : State) (t : Nat) : State :=
  if s.pw.deepTiles.getD t 3 = 0 then s.tileRunning t
  else ((if s.linkState t = 2 then s.setLinkState t 3 else s).setTileState t 1).powerEvent t 1

/-- WAKE_COMPLETE, R554, R557, R558: the wake of a scope completes. -/
def execWakeComplete (scope : Nat) (s : State) : Out :=
  .next <| match s.pw.wakes.find? (fun w => w.scope == scope && w.step == 8) with
  | none => s
  | some w =>
    if scope < 4 then
      if s.pkgState = 3 then s
      else
        let late := w.late || w.dueBy.any (fun t => decide (s.shortDiff t < 0))
        let s1 := (({ s with pw := { s.pw with wakes := s.pw.wakes.erase w } } : State).recordWake w).tileRunning scope
        let s2 := s1.bumpBy (Cnt.pwTile scope 4) (b2n late)
        match w.ref with
        | some r => if r.op = 0x904 then s2.retryNotice r else s2.tileNotice (some r) stOK late
        | none => s2
    else
      let ts := s.tiles.filter (fun t => s.pw.wakes.any (fun x => x.scope == t))
      let gone := s.rf Reg.PW_WAKE_REC 27 24
      let s1 := (({ s with pw := { s.pw with wakes := [] } } : State).recordWake w).forEach ts State.tileBack
      let s2 := { s1 with pw := { s1.pw with deepTiles := [] } }
      let s3 := ((s2.setPkg 0).powerEvent 4 0).enterState (s.rf Reg.GL_STATE 15 12) 0x12
      let s4 := (s3.hubEvent 0x72 (w.source * 2 ^ 16 + s3.rf Reg.PW_LAST_WAKE 15 0)).pwEvt 0
      let s5 := s4.eventNotice 5 0x06 (w.source + gone * 256)
      match w.ref with
      | some r => s5.finish r stOK [s5.rd Reg.PW_WAKE_REC]
      | none => s5

/-- REFCLK_LOSS, R552: in DEEP REFCLK shows no edge for 100 ns. -/
def execRefclkLoss (s : State) : Out :=
  .next (if (s.pkgState = 2 ∨ s.pkgState = 3 ∨ s.pkgState = 4) ∧ !s.domOn 2 ∧ !s.pw.refclkLost then
    ((({ s with pw := { s.pw with refclkLost := true } } : State).pwEvt 5).hubEvent 0x77 0).bump (Cnt.pwPackage 7)
  else s)

/-- PW_DOORBELL_WRITE, R553. -/
def execPwDoorbellWrite (w : Word) (s : State) : Out :=
  .next (s.access Reg.PW_DOORBELL fun s => if bit w 0 then s.wakeArrive 2 [] else s)

/-! ### Pads, R548 -/

/-- The rows of a mask whose tile is in RUN. -/
def State.runRows (s : State) (mask : Nat) : List Nat := (bitsSet mask 24).filter (fun r => s.tileState (r / 6) == 0)

/-- PW_PAD_REL_WRITE, R548: a release of a row whose tile is not in RUN is discarded. -/
def execPwPadRelWrite (w : Word) (s : State) : Out := .next (s.access Reg.PW_PAD_REL fun s => s.releasePads (maskOf (s.runRows (fld w 23 0))))

/-! ### Commands, R561 -/

/-- Whether a scope's entry or wake is in progress or ordered (R545). -/
def State.scopeBusy (s : State) (t : Nat) : Bool :=
  let hit := fun (k : Nat) => t == 4 || k == t || k == 4
  (s.pw.entries ++ s.pw.orders).any (fun e => hit e.scope) || s.pw.wakes.any (fun w => hit w.scope)

/-- PW_STATUS, R561. -/
def execPwStatus (p : Pkt) (s : State) : Out :=
  .next (s.command 0x900 p (p.is 0) true true fun u =>
    (u, .ok [u.rd Reg.PW_STAT, u.rd Reg.PW_WAKE_REC, u.rd Reg.PW_LAST_WAKE, u.rd Reg.PW_RET_FAIL]))

/-- The lead of a scheduled wake in ns (R559): 20 us from IDLE, 2 ms from RETAIN. -/
def State.wakeLead (s : State) (t target : Nat) : Nat :=
  let from_ := match (s.pw.pends.find? (fun p => p.tile == t)) with
    | some p => p.target
    | none => s.tileState t
  if target ≠ 0 then 0 else if from_ = 2 then 2000000 else if from_ = 1 then 20000 else 0

/-- Schedule a change of a tile (R559): a firmware comparator at its start time. -/
def State.schedulePower (s : State) (t target time : Nat) (ref : CmdRef) : State :=
  let begin_ := (time + 2 ^ 48 - s.wakeLead t target) % 2 ^ 48
  match s.freeCmp with
  | none => s
  | some n =>
    let x : PwPend := { tile := t, target := target, time := if target = 0 then some time else none, begin_ := begin_, ref := ref }
    ({ s with pw := { s.pw with pends := s.pw.pends ++ [x] } } : State).schedule n 31 begin_ 0 (some ref)

/-- Cancel the pending changes of tiles (R559): the commands that ordered them report each tile ABORTED. -/
def State.cancelPower (s : State) (ts : List Nat) : State :=
  s.forEach (s.pw.pends.filter (fun p => ts.contains p.tile)) fun u p =>
    let u1 := { u with pw := { u.pw with pends := u.pw.pends.erase p } }
    let u2 := match (List.range 32).find? (fun n => u1.armed n && (u1.cmpOf n).ref == some p.ref && (u1.cmpOf n).target == p.begin_) with
      | some n => u1.disarm n
      | none => u1
    u2.tileNotice (some p.ref) stABORTED false

/-- Order changes of tiles to states. -/
def State.orderTiles (s : State) (l : List (Nat × Nat)) (ref : CmdRef) : State :=
  let es := l.map (fun (x : Nat × Nat) => ({ scope := x.1, target := x.2, start := s.tick, ref := some ref } : PwEntry))
  { s with pw := { s.pw with orders := s.pw.orders ++ es } }

/-- PW_TILE, R559, R561. What needs no entry takes effect with the command. -/
def execPwTile (p : Pkt) (s : State) : Out :=
  let mask := p.arg 0
  let ts := bitsSet mask 4
  let now := bitN p.flags 0
  let cancel := bitN p.flags 1
  let n := p.params.length
  let shape := if cancel then n == 1 || n == 2 || n == 5 else if now then n == 2 else n == 5 && s.ptpOk p.params 2
  let valid := decide (p.flags < 4 ∧ mask < 2 ^ s.part.tiles ∧ mask ≠ 0) && shape && (cancel || decide (p.arg 1 ≤ 2))
  let ref := p.ref 0x901 0
  let s1 := s.command 0x901 p valid true true fun u =>
    if cancel then
      ((u.cancelPower ts).orderTiles (ts.map (fun t => (t, u.tileState t))) ref, .accepted 0 [])
    else if ts.any (fun t => u.scopeBusy t || u.pw.pends.any (fun x => x.tile == t)) then (u, .status stBUSY [])
    else if now then
      (u.orderTiles (ts.map (fun t => (t, p.arg 1))) ref, .accepted 0 [])
    else if ((List.range 32).filter (fun c => !u.armed c)).length < ts.length then (u, .status stRESOURCE [])
    else (u.forEach ts fun v t => v.schedulePower t (p.arg 1) (shortOf (ptpParam p.params 2)) ref, .accepted 0 [])
  if ref ∈ s1.host.accepted ∧ ref ∉ s.host.accepted then
    .next (s1.forEach (s1.pw.orders.filter (fun e => e.ref == some ref &&
      !((e.target == 1 && s1.tileState e.scope == 0) || (e.target == 2 && decide (s1.tileState e.scope ≤ 1))))) fun u e =>
        if e ∈ u.pw.orders then u.beginChange e none else u)
  else .next s1

/-- Order an entry to DEEP. -/
def State.orderDeep (s : State) (ref : Option CmdRef) (sys : Bool) (ready : Option Nat) : State :=
  let e : PwEntry := { scope := 4, target := 2, start := s.tick, ref := ref, sys := sys, ready := ready }
  { s with pw := { s.pw with orders := s.pw.orders ++ [e], reports := [], sysGo := false } }

/-- PW_DEEP, R546, R559, R561: with flag bit 1 the lead copies it to every reachable package. -/
def execPwDeep (p : Pkt) (s : State) : Out :=
  let timed := bitN p.flags 0
  let sys := bitN p.flags 1
  let valid := decide (p.flags < 4) && (if timed then p.params.length == 3 && s.ptpOk p.params 0 else p.params.length == 0)
  .next (s.command 0x902 p valid (s.dev == 2 || s.dev == 3) (!sys || s.isLead) fun u =>
    if u.scopeBusy 4 then (u, .status stBUSY [])
    else
      let u1 := u.orderDeep (some (p.ref 0x902 0)) sys (if timed then some (shortOf (ptpParam p.params 0)) else none)
      (if sys then u1.copyDown 0x902 p.params else u1, .accepted 0 []))

/-- PW_WAKE, R553, R561: a doorbell by command. -/
def execPwWake (p : Pkt) (s : State) : Out :=
  .next (s.command 0x903 p (p.is 0) true true fun u => (u.wakeArrive 2 [], .ok []))

/-- PW_WAKE_RETRY, R556, R557, R561. -/
def execPwWakeRetry (p : Pkt) (s : State) : Out :=
  let mask := p.arg 0
  let ts := (bitsSet mask 4).filter (fun t => s.tileState t == 6)
  let failed := if mask = 0 then s.pkgState == 4 else ts != []
  let ref := p.ref 0x904 mask
  .next (s.command 0x904 p (p.is 1 && decide (mask < 2 ^ s.part.tiles) && failed) (mask == 0 || s.dev != 7) true fun u =>
    if mask = 0 then
      let w : PwWake := { scope := 4, step := 1, stepStart := u.tick, start := u.tick, source := 0, seen := 0, ref := some ref }
      let u1 := (u.setPkg 3).bump (Cnt.pwPackage 2)
      ({ u1 with pw := { u1.pw with wakes := u1.pw.wakes ++ [w], pen := setBitN u1.pw.pen 0 } }, .accepted mask [])
    else if ts.any u.scopeBusy then (u, .status stBUSY [])
    else
      let u1 := u.forEach ts fun v t =>
        let w : PwWake := { scope := t, step := 5, stepStart := v.tick, start := v.tick, source := 0, seen := 0, ref := some ref }
        let v1 := v.setTileState t 5
        { v1 with pw := { v1.pw with wakes := v1.pw.wakes ++ [w], pen := setBitN v1.pw.pen (1 + t) } }
      (u1, .accepted mask []))

/-- PW_PAD_RELEASE, R548, R561: a row that is absent on the part is BAD_PARAM (R2). -/
def execPwPadRelease (p : Pkt) (s : State) : Out :=
  .next (s.command 0x905 p (p.is 1 && decide (p.arg 0 < 2 ^ s.part.rows)) true true fun u =>
    let rows := bitsSet (p.arg 0) 24
    if u.runRows (p.arg 0) ≠ rows then (u, .status stITEM [])
    else (u.releasePads (p.arg 0), .ok [toW (Nat.land (p.arg 0) (u.rf Reg.PW_PAD_STAT 23 0))]))

/-- The banks whose loss is cleared by a report (R551): all but the calibration banks. -/
def reportedBanks : Nat := 0xF0FFF

/-- PW_RET_CLEAR, R551, R561. -/
def execPwRetClear (p : Pkt) (s : State) : Out :=
  .next (s.command 0x906 p (p.is 1 && decide (p.arg 0 < 2 ^ 20)) true true fun u =>
    let m := Nat.land (p.arg 0) reportedBanks
    let u1 := u.wr Reg.PW_RET_FAIL (maskW (u.rd Reg.PW_RET_FAIL) (0xFFFFFFFF - m))
    (u1, .ok [u1.rd Reg.PW_RET_FAIL]))

/-- PW_CONFIG, R561. -/
def execPwConfig (p : Pkt) (s : State) : Out :=
  .next (s.command 0x907 p (p.is 6) true true fun u =>
    let u1 := (u.poke Reg.PW_CFG (wordAt p.params 0)).poke Reg.PW_WAKE_EN (wordAt p.params 1)
    (u1.forEach (List.range 4) fun v t => v.poke (Reg.PW_PAD_CFG t) (wordAt p.params (2 + t)), .ok []))

/-- PW_BLANK, R541, R561. -/
def execPwBlank (p : Pkt) (s : State) : Out :=
  let ok := (List.range 96).all (fun q => !bit (wordAt p.params (q / 32)) (q % 32) || decide (q < s.part.paths))
  .next (s.command 0x908 p (p.is 4 && ok) true true fun u =>
    let u1 := u.forEach (List.range 3) fun v n => v.poke (Reg.PW_BLK_PATH n) (wordAt p.params n)
    (u1.poke Reg.PW_BLK_LEN (wordAt p.params 3), .ok []))

end Sys2Proof.Machine
end

