-- ==== Sys2Proof/Machine/Cellar.lean ====
section
/-!
DEFINITION. The Cellar and the security engine (R565-R590): writing records and racking, verifying and storing images, identity and
attestation, the debug lock and the commands of their group.
-/
namespace Sys2Proof.Machine

/-! ### Bytes -/

/-- A little-endian number of `n` bytes at an offset. -/
def leN (bs : List Byte) (o n : Nat) : Nat := ((bs.drop o).take n).reverse.foldl (fun v b => v * 256 + b.toNat) 0

/-- The bytes of words, and the words of bytes. -/
def wordBytes (ws : List Word) : List Byte := ws.flatMap leBytes
def bytesWords (bs : List Byte) : List Word := (List.range ((bs.length + 3) / 4)).map (fun i => toW (leN bs (4 * i) 4))

/-- `n` bytes of a number, least significant first. -/
def leBytesN (v n : Nat) : List Byte := (List.range n).map (fun i => BitVec.ofNat 8 (v / 2 ^ (8 * i)))

/-- The first 32 bytes of SHA-512. -/
def sha32 (bs : List Byte) : List Byte := (List.range 32).map (Config.sha512 bs)

/-! ### The journal, R566-R575 -/

/-- Show the Cellar's fill (R589). -/
def State.showCel (s : State) : State :=
  (s.wr Reg.CEL_FILL (toW (s.liveBytes / 1024 * 2 ^ 16 + s.cel.segs.length))).wr Reg.CEL_LOGS (toW s.logRecs.length)

/-- 16-byte units of a segment, and of a record of `w` payload words (R566). -/
def segUnits : Nat := 16384
def recUnits (w : Nat) : Nat := (24 + 4 * w + 15) / 16

/-- The place where a record of `n` units goes, with the segments after it (R567): the open segment, or else the next free one. -/
def State.celPlace (s : State) (n : Nat) : Option (Nat × Nat × List (Nat × Nat)) :=
  let segs := s.cel.segs
  match segs.getLast? with
  | none => some (0, 1, [(0, 1 + n)])
  | some (g, f) =>
    if f + n ≤ segUnits then some (g, f, segs.dropLast ++ [(g, f + n)])
    else match (List.range 32).find? (fun k => !segs.any (fun (x : Nat × Nat) => x.1 == k)) with
      | some k => some (k, 1, segs.dropLast ++ [(g, segUnits), (k, 1 + n)])
      | none => none

/-- The payload of the next record of an order, and whether it is its last (R573): the last chunk of a set begins with the count of chunks
and the CRC-32C. -/
def CelOrder.next (o : CelOrder) : List Word × Bool :=
  if !o.set then (o.payload, true)
  else
    let c := setChunkCount o.payload.length
    let part := (o.payload.drop (recWordsMax * o.chunk)).take recWordsMax
    if o.chunk + 1 < c then (part, false)
    else (toW c :: toW (crc32c (wordBytes o.payload)) :: part, true)

/-- The notice or the reply of a command whose writes are done (R575). -/
def State.celAnswer (s : State) (r : CmdRef) (status : Nat) (res : List Word) : State :=
  let s1 := { s with host := { s.host with plans := s.host.plans.filter (fun (x : CmdRef × Nat × List Word) => x.1 ≠ r) } }
  if s1.host.busy.any (fun (b : CmdRef × Bool) => b.1 == r) then s1.busyReply status res else s1.finish r status res

/-- A command whose last record is written answers with what was decided when it was taken; CEL_LOG_CLEAR with what the log holds. -/
def State.celDone (s : State) (r : CmdRef) : State :=
  if s.celOrders.any (fun o => o.ref == some r) then s
  else
    let plan := (s.host.plans.find? (fun (x : CmdRef × Nat × List Word) => x.1 == r)).map (fun (x : CmdRef × Nat × List Word) => x.2)
    let (st, res) := plan.getD (stOK, [])
    s.celAnswer r st (if r.op = 0xA43 then [toW s.logRecs.length] else res)

/-- The writes of the Cellar fail (R567, R575): every order ends, and its command with it. -/
def State.celFail (s : State) : State :=
  let refs := (s.celOrders.filterMap (fun o => o.ref))
  let s1 := { s with celOrders := [] }
  s1.forEach refs fun u r =>
    if r ∈ u.host.accepted ∨ u.host.busy.any (fun (b : CmdRef × Bool) => b.1 == r) then
      u.celAnswer r stITEM (if r.op = 0xA40 then [0x0B] else []) else u

/-- What a record that is written brings with it: the anti-rollback counters in force (R580), and rec_done (R527). -/
def State.celEffect (s : State) (o : CelOrder) : State :=
  if o.kind = 0x01 ∧ o.inst = 1 then s.forEach (List.range 4) fun u k => u.wr (Reg.SEC_ARB k) (wordAt o.payload k)
  else if o.kind = 0x31 then s.pb Reg.TH_SHDN 30 true
  else s

/-- The next record ordered is written, R566, R567, R575: device firmware writes the next record ordered; `ok` tells whether its read-back matched. The third
failure in a row makes the Cellar read-only. -/
def State.cellarWrite (s : State) (ok : Bool) : State :=
  match s.celOrders with
  | [] => s
  | o :: rest =>
    if s.celMode = 0 then s
    else if s.celMode ≠ 1 then s.celFail
    else
      let (payload, final) := o.next
      let n := recUnits payload.length
      match s.celPlace n with
      | none => s
      | some (g, f, segs) =>
        if !ok then
          let s1 := { s with cel := { s.cel with segs := segs, fails := s.cel.fails + 1 } }
          if s.cel.fails < 2 then s1.showCel else ((s1.pf Reg.CEL_STAT 31 30 2).celFail).showCel
        else
          let seq := s.rdPair Reg.CEL_SEQ_LO Reg.CEL_SEQ_HI
          let r : CelRec := {
            seg := g, off := f, kind := o.kind, inst := o.inst, n := n, seq := seq, last := o.set && final, chunk := o.chunk
            payload := payload }
          let drop := isLog o.kind && decide (4096 ≤ s.logRecs.length)
          let orders := if final then rest else { o with chunk := o.chunk + 1, seq := if o.chunk = 0 then seq else o.seq } :: rest
          let s1 := { s with celOrders := orders, cel := { s.cel with segs := segs, fails := 0, recs := s.cel.recs ++ [r] } }
          let s2 := (s1.wrPair Reg.CEL_SEQ_LO Reg.CEL_SEQ_HI (seq + 1)).when drop (fun u => u.pb Reg.CEL_STAT 1 true)
          let s3 := if final then s2.celEffect o else s2
          let s4 := match final, o.ref with
            | true, some c => s3.celDone c
            | _, _ => s3
          s4.showCel

/-- CELLAR_RECORD_WRITE, R566, R567, R575. -/
def execCellarRecordWrite (ok : Bool) (s : State) : Out := .next (s.cellarWrite ok)

/-- Copy the live records of a segment into the head (R570): each keeps its number and has `copied` set. -/
def State.rackCopy (s : State) (g : Nat) : State :=
  s.forEach (s.cel.recs.filter (fun r => r.seg == g && s.liveRec r)) fun u r =>
    match u.celPlace r.n with
    | none => u
    | some (h, f, segs) =>
      { u with cel := { u.cel with
        segs := segs, recs := u.cel.recs.map (fun x => if x = r then { r with seg := h, off := f, copied := true } else x) } }

/-- RACKING, R570: when more than 24 segments are in use, or on CEL_RACK, the oldest segment's live records are copied into the head and the
segment is freed; until at most 20 are in use. -/
def execRacking (s : State) : Out :=
  let n := s.cel.segs.length
  .next <| match s.cel.segs with
  | (g, _) :: _ :: _ =>
    if s.celMode ≠ 1 ∨ !(s.cel.rack.isSome || decide (24 < n)) then s
    else
      let s1 := s.rackCopy g
      let s2 := { s1 with cel := { s1.cel with
        segs := s1.cel.segs.filter (fun (x : Nat × Nat) => x.1 ≠ g), recs := s1.cel.recs.filter (fun r => r.seg ≠ g) } }
      let more := decide (20 < s2.cel.segs.length)
      let s3 := ({ s2 with cel := { s2.cel with rack := if more then some 0 else none } } : State).pb Reg.CEL_STAT 29 more
      let s4 := s3.showCel
      match more, s4.cel.rackRef with
      | false, some r => ({ s4 with cel := { s4.cel with rackRef := none } } : State).finish r stOK [s4.rd Reg.CEL_FILL]
      | _, _ => s4
  | _ =>
    match s.cel.rackRef with
    | some r =>
      (({ s with cel := { s.cel with rack := none, rackRef := none } } : State).pb Reg.CEL_STAT 29 false).finish r stOK [s.rd Reg.CEL_FILL]
    | none => s

/-- SECURE_WINDOW_WRITE, R587. -/
def execSecureWindowWrite (s : State) : Out := .next (s.access Reg.CEL_STAT fun s => s.pb Reg.CEL_STAT 0 true)

/-- A command fills SEC_BUF (R587): the generation is odd while it fills and even when it has finished. -/
def State.fillBuf (s : State) (bs : List Byte) : State :=
  ({ s with cel := { s.cel with buf := bs.take 8192 } } : State).pf Reg.SEC_BUF_GEN 15 0 (s.rf Reg.SEC_BUF_GEN 15 0 + 2)

/-! ### Images, R576-R582 -/

/-- Fields of an image header (R576). -/
def imgKind (bs : List Byte) : Nat := leN bs 6 1
def imgSlot (bs : List Byte) : Nat := leN bs 7 1
def imgVer (bs : List Byte) : Nat := leN bs 12 4
def imgLen (bs : List Byte) : Nat := leN bs 16 4
def imgTarget (bs : List Byte) : Nat := leN bs 20 4
def imgPayload (bs : List Byte) : List Byte := (bs.drop 128).take (imgLen bs)
def imgKernel (bs : List Byte) : Nat := imgTarget bs / 2 ^ 28
def imgFirst (bs : List Byte) : Nat := imgTarget bs / 2 ^ 15 % 2 ^ 13
def imgEntry (bs : List Byte) : Nat := imgTarget bs % 2 ^ 13
def imgLast (bs : List Byte) : Nat := imgFirst bs + imgLen bs / 8 - 1

/-- The code range of a kernel: kernels 1-3 in 0x0000-0x07FF; others in 0x0800-0x1FFF, overlapping no other valid kernel (R229). -/
def State.kernelFits (s : State) (bs : List Byte) : Bool :=
  let k := imgKernel bs
  if 1 ≤ k ∧ k ≤ 3 then decide (0 < imgLen bs ∧ imgLast bs ≤ 0x7FF)
  else decide (8 ≤ k ∧ 0 < imgLen bs ∧ 0x800 ≤ imgFirst bs ∧ imgLast bs ≤ 0x1FFF) &&
    !(s.sol.kernels.any (fun (x : Nat × Option Kernel) => x.1 != k && s.rb Reg.SOL_KERNEL_VALID x.1 &&
      x.2.any (fun c => decide (c.first ≤ imgLast bs ∧ imgFirst bs ≤ c.last))))

/-- The entries of a configuration payload (R583): offset and value. -/
def cfgEntries (payload : List Byte) : List (Nat × Word) :=
  (List.range (payload.length / 8)).map (fun i => (leN payload (8 * i) 4, toW (leN payload (8 * i + 4) 4)))

/-- Whether the content of an image is valid for its kind (R229, R581, R583). -/
def State.imgContent (s : State) (bs : List Byte) : Bool :=
  match imgKind bs with
  | 1 => decide (imgLen bs ≤ 8383120)
  | 3 => s.kernelFits bs
  | 4 => (cfgEntries (imgPayload bs)).all (fun e => decide (e.1 < 0x09000000 ∨ 0x09FFFFFF < e.1)) && decide (imgTarget bs < 8)
  | 5 => decide (imgLen bs = 80)
  | _ => true

/-- Whether a slot may sign a kind (R578). -/
def slotAllowed (bs : List Byte) : Bool :=
  match imgKind bs with
  | 1 | 2 => decide (imgSlot bs < 2)
  | 3 => decide (imgSlot bs < (if imgKernel bs ≤ 3 then 2 else 4))
  | 4 => decide (2 ≤ imgSlot bs ∧ imgSlot bs < 4)
  | _ => decide (imgSlot bs < 4)

/-- The fused key hash of a slot. -/
def State.keyHash (s : State) (slot : Nat) : List Byte := wordBytes ((List.range 8).map (fun w => s.rd (Reg.SEC_KEYHASH slot w)))

/-- The verification code of an image that a command expects to be of a kind (R579); `k` is the kernel expected, when there is one. -/
def State.verify (s : State) (bs : List Byte) (kind : Nat) (k : Option Nat) : Nat :=
  let n := imgLen bs
  let head := bs.take 128
  let t := bs.drop (128 + n)
  let keys := t.take 1984
  let id := (s.rd Reg.ID_DEVICE).toNat
  let slot := imgSlot bs
  let zero := fun (l : List Byte) => l.all (· == 0)
  let format := decide (128 ≤ bs.length) && leN bs 0 4 == 0x5A4B494D && leN bs 4 2 == 1 && leN bs 11 1 == 0 &&
    zero ((bs.drop 96).take 32) && n % 16 == 0 && bs.length == 128 + n + 5360 && zero (t.drop 5357) && s.imgContent bs
  if !format then 0x01
  else if !((leN bs 8 2 == id / 2 ^ 16 || leN bs 8 2 == 0xFFFF) && leN bs 10 1 == id % 256) then 0x02
  else if imgKind bs ≠ kind ∨ !slotAllowed bs ∨ k.any (fun x => imgKernel bs != x) then 0x03
  else if !s.rb Reg.SEC_REVOKE (4 + slot) ∨ sha32 keys ≠ s.keyHash slot then 0x04
  else if s.rb Reg.SEC_REVOKE slot then 0x05
  else if (List.range 64).map (Config.sha512 (imgPayload bs)) ≠ (bs.drop 32).take 64 then 0x06
  else if !Config.edVerify (t.take 32) head ((t.drop 1984).take 64) then 0x07
  else if !Config.mldsaVerify ((t.drop 32).take 1952) head ((t.drop 2048).take 3309) then 0x08
  else if kind ≤ 4 ∧ imgVer bs < (s.rd (Reg.SEC_ARB (kind - 1))).toNat then 0x09
  else 0x00

/-- Record a verification code in last_ver (R579). -/
def State.lastVer (s : State) (code : Nat) : State := s.pf Reg.SEC_STAT 23 16 code

/-- The command status of a verification code (R579). -/
def verStatus (code : Nat) : Nat :=
  if code = 0 then stOK else if code ≤ 9 then stDENIED else if code = 10 then stRESOURCE else stITEM

/-- The bank whose image the running firmware came from, and the bank an IMG_LOAD of kind 1 writes (R582, R604). -/
def State.runBank (s : State) : Nat := s.rf Reg.SEC_STAT 31 31
def State.loadBank (s : State) : Nat :=
  if s.rb Reg.GL_BOOT 2 then
    match s.celState 0x03 0 with
    | some ws => 1 - (wordAt ws 0).toNat % 2
    | none => 0
  else 1 - s.runBank

/-- Store an image in a flash bank. -/
def State.setFlash (s : State) (b : Nat) (bs : List Byte) : State :=
  { s with cel := if b = 0 then { s.cel with bankA := bs } else { s.cel with bankB := bs } }
def State.flashOf (s : State) (b : Nat) : List Byte := if b = 0 then s.cel.bankA else s.cel.bankB

/-- An IMG_LOAD has all its bytes (R582): it verifies them and only then stores them. -/
def State.imageLoaded (s : State) (r : CmdRef) (bs : List Byte) (kind : Nat) : State :=
  let code0 := s.verify bs kind none
  let code := if code0 = 0 ∧ kind = 3 ∧ 8 ≤ imgKernel bs then 0x03 else code0
  let inst := if kind = 3 then imgKernel bs else if kind = 4 then imgTarget bs % 8 else 0
  if code ≠ 0 then (s.lastVer code).finish r (verStatus code) [toW code, toW (imgVer bs), 0]
  else if kind = 1 then
    if s.rf Reg.GL_BOOT 1 0 = 2 then
      ({ s.lastVer 0 with cel := { s.cel with held := bs } } : State).finish r stOK [0, toW (imgVer bs), 0]
    else ((s.lastVer 0).setFlash s.loadBank bs).finish r stOK [0, toW (imgVer bs), toW s.loadBank]
  else
    let ws := bytesWords bs
    let typ := 0x10 + kind
    if s.celMode ≠ 1 ∨ s.celWriting typ inst then (s.lastVer 0x0B).finish r stITEM [0x0B, toW (imgVer bs), toW inst]
    else match s.celRefuse typ [inst] (Sys2Proof.Machine.setBytes ws.length) with
      | some _ => ((s.lastVer 0x0A).pb Reg.CEL_STAT 2 true).finish r stRESOURCE [0x0A, toW (imgVer bs), toW inst]
      | none =>
        let s1 := (s.lastVer 0).orderSet typ inst ws (some r)
        { s1 with host := { s1.host with plans := s1.host.plans ++ [(r, stOK, [0, toW (imgVer bs), toW inst])] } }

/-- Write a kernel's code to the program memory of every core and make it valid (R229). -/
def State.installKernel (s : State) (bs : List Byte) : State :=
  let k := imgKernel bs
  let pay := imgPayload bs
  let prog := (List.range (imgLen bs / 8)).foldl (fun m i =>
    Sparse.set (fun _ => none) m (imgFirst bs + i) (some (leN pay (8 * i) 8))) s.sol.prog
  let kern : Kernel := { entry := imgEntry bs, first := imgFirst bs, last := imgLast bs }
  ({ s with
    sol := { s.sol with prog := prog, kernels := Sparse.set (fun _ => none) s.sol.kernels k (some kern) }
    cel := { s.cel with kernels := Sparse.set (fun _ => []) s.cel.kernels k (bs.take 128) } } : State).pb Reg.SOL_KERNEL_VALID k true

/-- A SOL_KERNEL_LOAD has all its bytes (R229, R582). -/
def State.kernelLoaded (s : State) (r : CmdRef) (bs : List Byte) (k : Nat) : State :=
  let code := s.verify bs 3 (some k)
  let s1 := s.lastVer code
  (if code = 0 then s1.installKernel bs else s1).finish r (verStatus code) [toW code]

/-- The device ID (R584). -/
def deviceId : List Byte := sha32 ((List.range 1984).map Config.identity)

/-- A SEC_DBG_UNLOCK has its token (R586): it must verify and match the device ID and the challenge, which is consumed. -/
def State.tokenLoaded (s : State) (r : CmdRef) (bs : List Byte) : State :=
  let code := s.verify bs 5 none
  let pay := imgPayload bs
  let good := code == 0 && pay.take 32 == deviceId && s.cel.challenge == some (bytesWords ((pay.drop 32).take 32)) && s.cel.challenge.isSome
  let s1 := ({ s with cel := { s.cel with challenge := none } } : State).lastVer code
  if good then
    let s2 := s1.wr Reg.SEC_DBG (toW (2 ^ 31 + leN pay 64 4 % 8))
    s2.finish r stOK [s2.rd Reg.SEC_DBG]
  else s1.finish r stDENIED [s1.rd Reg.SEC_DBG]

/-- A load of the security group or of a kernel has all its bytes. -/
def State.secLoaded (s : State) (r : CmdRef) (bs : List Byte) (args : List Nat) : State :=
  if r.op = 0xA40 then s.imageLoaded r bs (args.getD 0 0)
  else if r.op = 0x404 then s.kernelLoaded r bs (args.getD 0 0)
  else s.tokenLoaded r bs

/-- Take the bytes of a command from the SPI load stream, when it holds them all (R603). -/
def State.spiLoad (s : State) : State :=
  match s.host.spiJob with
  | none => s
  | some (r, need, args) =>
    if s.host.spiStream.length < need then s
    else
      let bs := s.host.spiStream.take need
      ({ s with host := { s.host with spiJob := none, spiStream := s.host.spiStream.drop need } } : State).secLoaded r bs args

/-! ### Commands, R588 -/

/-- CEL_STATUS. -/
def execCelStatus (p : Pkt) (s : State) : Out :=
  .next (s.command 0xA00 p (p.is 0) true true fun u =>
    (u, .ok [u.rd Reg.CEL_STAT, u.rd Reg.CEL_FILL, u.rd Reg.CEL_SEQ_LO, u.rd Reg.CEL_SEQ_HI, u.rd Reg.CEL_LOGS]))

/-- The bytes of a record, R566. -/
def CelRec.bytes (r : CelRec) : List Byte :=
  let head := leBytesN (r.kind * 2 ^ 24 + r.inst * 2 ^ 16 + r.n * 2 ^ 8 + 1) 4 ++ leBytesN r.seq 8 ++
    leBytesN (b2n r.last * 2 ^ 31 + b2n r.copied * 2 ^ 30 + r.chunk) 4
  let pay := wordBytes r.payload
  let body := head ++ pay ++ List.replicate (16 * r.n - 24 - pay.length) 0
  body ++ leBytesN (crc32c body) 4 ++ leBytesN 0x5A17C311 4

/-- What CEL_READ returns of a state type: the payload of the newest record or set. -/
def State.celContent (s : State) (kind inst : Nat) : Option (List Byte) :=
  if kind = 0 ∨ isLog kind then none
  else if 0x10 ≤ kind then (s.celSet kind inst).map wordBytes
  else (s.celState kind inst).map wordBytes

/-- CEL_READ: a type and instance, or in log mode (flag bit 0) the records of a log type from a sequence number on. -/
def execCelRead (p : Pkt) (s : State) : Out :=
  let log := p.flags == 1
  let valid := decide (p.flags < 2) && p.params.length == (if log then 5 else 2) && (!log || decide (1 ≤ p.arg 4 ∧ p.arg 4 ≤ 32))
  .next (s.command 0xA01 p valid true (p.arg 0 != 0x02) fun u =>
    if log then
      let rs := (u.logRecs.filter (fun r => r.kind == p.arg 0 && decide (p.arg 2 + p.arg 3 * 2 ^ 32 ≤ r.seq))).take (p.arg 4)
      if rs = [] then (u, .status stPARAM [])
      else
        let u1 := u.fillBuf (rs.flatMap (fun r => r.bytes ++ List.replicate (256 - 16 * r.n) 0))
        (u1, .ok [u1.rd Reg.SEC_BUF_GEN])
    else match u.celContent (p.arg 0) (p.arg 1) with
      | none => (u, .status stPARAM [])
      | some bs =>
        let u1 := u.fillBuf bs
        (u1, .ok [u1.rd Reg.SEC_BUF_GEN]))

/-- SEC_ID, R584. Without an identity record (R569) there is nothing to report. -/
def execSecId (p : Pkt) (s : State) : Out :=
  .next (s.command 0xA02 p (p.is 0) true true fun u =>
    if (u.celSet 0x02 0).isNone then (u, .status stITEM [])
    else
      let u1 := u.fillBuf ((List.range 5357).map Config.identity)
      (u1, .ok [5357, u1.rd Reg.SEC_BUF_GEN]))

/-- SEC_ATTEST, R585: one report at a time. -/
def execSecAttest (p : Pkt) (s : State) : Out :=
  .next (s.command 0xA03 p (p.is 8) true true fun u =>
    if u.cel.attest.isSome then (u, .status stBUSY [])
    else
      let u1 := u.pf Reg.SEC_BUF_GEN 15 0 (u.rf Reg.SEC_BUF_GEN 15 0 + 1)
      ({ u1 with cel := { u1.cel with attest := some (p.ref 0xA03 0, p.params) } }, .accepted 0 []))

/-- The image headers that an attestation report names, in its order (R585): empty where the image is absent. -/
def State.headers (s : State) : List (List Byte) :=
  let set := fun (k i : Nat) => ((s.celSet k i).map (fun ws => (wordBytes ws).take 128)).getD []
  let kern := fun (k : Nat) => if s.rb Reg.SOL_KERNEL_VALID k then Sparse.get (fun _ => []) s.cel.kernels k else []
  [s.cel.running.take 128, s.cel.calImage.take 128] ++ (List.range 8).map (set 0x14) ++ (List.range 3).map (fun i => set 0x13 (1 + i)) ++
    (List.range 8).map (fun i => kern (8 + i))

/-- The report body of R585, 960 bytes. -/
def State.report (s : State) (nonce : List Word) : List Byte :=
  let hs := s.headers
  let digest := fun (h : List Byte) => if h = [] then List.replicate 32 0 else sha32 h
  let present := maskOf ((List.range hs.length).filter (fun i => hs.getD i [] != []))
  leBytesN 0x5A4B4154 4 ++ leBytesN 1 2 ++ leBytesN 4333 2 ++ wordBytes nonce ++
    leBytes (s.rd Reg.ID_DEVICE) ++ leBytes (s.rd Reg.GL_STATE) ++ leBytesN (s.rf Reg.SEC_STAT 15 0) 4 ++ leBytesN s.epoch 1 ++
    leBytesN (s.rf Reg.SEC_DBG 2 0) 1 ++ List.replicate 2 0 ++
    leBytesN (secOf s.now) 6 ++ leBytesN (nanoOf s.now) 4 ++ leBytesN (fracOf s.now) 2 ++ List.replicate 4 0 ++
    deviceId ++ (List.range 4).flatMap s.keyHash ++
    leBytesN (s.rf Reg.SEC_REVOKE 3 0) 4 ++ (List.range 4).flatMap (fun k => leBytes (s.rd (Reg.SEC_ARB k))) ++ List.replicate 20 0 ++
    hs.flatMap digest ++ leBytesN present 4 ++ List.replicate 12 0

/-- ATTESTATION_DONE, R585: the report and its signatures are in SEC_BUF. -/
def execAttestationDone (s : State) : Out :=
  .next <| match s.cel.attest with
  | none => s
  | some (r, nonce) =>
    let body := s.report nonce
    let s1 := { s with cel := { s.cel with attest := none, buf := body ++ (List.range 3373).map (Config.identitySign body) } }
    let s2 := s1.pf Reg.SEC_BUF_GEN 15 0 (s1.rf Reg.SEC_BUF_GEN 15 0 + 1)
    s2.finish r stOK [4333, s2.rd Reg.SEC_BUF_GEN]

/-- SEC_DBG_CHALLENGE, R586: the challenge is random. -/
def execSecDbgChallenge (p : Pkt) (s : State) : Out :=
  .next (s.command 0xA04 p (p.is 0) true true fun u =>
    let ws := (List.range 8).map (fun i => Config.freeWord (u.fresh + i))
    ({ u with fresh := u.fresh + 8, cel := { u.cel with challenge := some ws } }, .ok ws))

/-- Whether a load ring number may be named: an enabled LOAD ring, or 0xFF for the SPI load stream (R463, R603). -/
def State.secRing (s : State) (ring : Nat) : Bool := if ring = 0xFF then s.host.spiPeriph else s.loadRing ring

/-- Begin a load of the security group from a ring or the SPI stream. -/
def State.startSec (s : State) (ring : Nat) (ref : CmdRef) (need : Nat) (args : List Nat) : State :=
  if ring = 0xFF then { s with host := { s.host with spiJob := some (ref, need, args) } } else s.startLoad ring ref need args

/-- Whether a load ring or the stream is being consumed. -/
def State.secBusy (s : State) (ring : Nat) : Bool := if ring = 0xFF then s.host.spiJob.isSome else s.loadBusy ring

/-- IMG_LOAD, R582, R603. -/
def execImgLoad (p : Pkt) (s : State) : Out :=
  let ok := p.is 3 && decide (1 ≤ p.arg 0 ∧ p.arg 0 ≤ 4 ∧ 0 < p.arg 2) && s.secRing (p.arg 1)
  let ref := p.ref 0xA40 0
  let s1 := s.command 0xA40 p ok true true fun u =>
    if u.host.accepted.any (fun r => r.op == 0xA40 || r.op == 0x404) || u.secBusy (p.arg 1) then (u, .status stBUSY [])
    else (u.startSec (p.arg 1) ref (p.arg 2) [p.arg 0], .accepted 0 [])
  .next (if ref ∈ s1.host.accepted ∧ ref ∉ s.host.accepted then s1.spiLoad else s1)

/-- A command whose reply waits for its Cellar writes (R575): until then no other is taken. -/
def State.celLater (s : State) (r : CmdRef) (quiet : Bool) (res : List Word) : State :=
  { s with host := { s.host with busy := some (r, quiet), plans := s.host.plans ++ [(r, stOK, res)] } }

/-- Order a state record of a command. -/
def State.orderState (s : State) (kind inst : Nat) (payload : List Word) (r : CmdRef) : State :=
  { s with celOrders := s.celOrders ++ [{ kind := kind, inst := inst, payload := payload, ref := some r }] }

/-- IMG_ACTIVATE, R582: the bank's image is read back and verified. -/
def execImgActivate (p : Pkt) (s : State) : Out :=
  let ref := p.ref 0xA41 0
  .next (s.command 0xA41 p (p.is 1 && decide (p.arg 0 < 2)) true true fun u =>
    let code := u.verify (u.flashOf (p.arg 0)) 1 none
    let u1 := u.lastVer code
    if code ≠ 0 then (u1, .status stDENIED [])
    else match u1.celRefuse 0x03 [0] 32 with
      | some st => (u1.celFull st, .status st [])
      | none => ((u1.orderState 0x03 0 [toW (p.arg 0)] ref).celLater ref p.quiet [], .later))

/-- CEL_LOG_CLEAR: the log floor. -/
def execCelLogClear (p : Pkt) (s : State) : Out :=
  let ref := p.ref 0xA43 0
  .next (s.command 0xA43 p (p.is 2) true true fun u =>
    match u.celRefuse 0x04 [0] 32 with
    | some st => (u.celFull st, .status st [])
    | none => ((u.orderState 0x04 0 p.params ref).celLater ref p.quiet [], .later))

/-- The lowest security version of some headers. -/
def lowestVer (hs : List (List Byte)) : Option Nat :=
  match hs.filter (· != []) with
  | [] => none
  | h :: t => some (t.foldl (fun a b => min a (imgVer b)) (imgVer h))

/-- The security version of the image of a kind in use (R580). -/
def State.usedVer (s : State) (kind : Nat) : Option Nat :=
  let hs := s.headers
  if kind = 1 then lowestVer [hs.getD 0 []]
  else if kind = 2 then lowestVer [hs.getD 1 []]
  else if kind = 3 then
    lowestVer (((List.range 3).filter (fun i => s.rb Reg.SOL_KERNEL_VALID (1 + i))).map (fun i => hs.getD (10 + i) []) ++ hs.drop 13)
  else lowestVer ((hs.drop 2).take 8)

/-- SEC_ARB_ADVANCE, R580: both instances are written before the reply. Without an image of the kind in use the counter may not be raised. -/
def execSecArbAdvance (p : Pkt) (s : State) : Out :=
  let k := p.arg 0
  let v := p.arg 1
  let ref := p.ref 0xA44 0
  let cur := (s.rd (Reg.SEC_ARB (k - 1))).toNat
  let ok := p.is 2 && decide (1 ≤ k ∧ k ≤ 4 ∧ cur ≤ v ∧ v ≤ (s.usedVer k).getD cur)
  .next (s.command 0xA44 p ok true true fun u =>
    if u.celMode ≠ 1 then (u, .status stITEM [])
    else
      let ws := (List.range 4).map (fun i => if i + 1 = k then toW v else u.rd (Reg.SEC_ARB i))
      (((u.orderState 0x01 0 ws ref).orderState 0x01 1 ws ref).celLater ref p.quiet [toW v], .later))

/-- CEL_RACK, R570. -/
def execCelRack (p : Pkt) (s : State) : Out :=
  .next (s.command 0xA45 p (p.is 0) true true fun u =>
    if u.cel.rack.isSome ∨ 24 < u.cel.segs.length then (u, .status stBUSY [])
    else if u.celMode ≠ 1 then (u, .status stITEM [])
    else
      (({ u with cel := { u.cel with rack := some 0, rackRef := some (p.ref 0xA45 0) } } : State).pb Reg.CEL_STAT 29 true, .accepted 0 []))

/-- SEC_KEY_FUSE, R578. -/
def execSecKeyFuse (p : Pkt) (s : State) : Out :=
  let k := p.arg 0
  .next (s.command 0xA80 p (p.is 9 && decide (k = 2 ∨ k = 3)) true (!s.rb Reg.SEC_REVOKE (4 + k)) fun u =>
    let u1 := u.forEach (List.range 8) fun v w => v.wr (Reg.SEC_KEYHASH k w) (wordAt p.params (1 + w))
    (u1.pb Reg.SEC_REVOKE (4 + k) true, .ok []))

/-- SEC_KEY_REVOKE, R578: slots 0 and 1 may not both be revoked. -/
def execSecKeyRevoke (p : Pkt) (s : State) : Out :=
  let k := p.arg 0
  let last := decide (k < 2) && s.rb Reg.SEC_REVOKE (1 - k)
  .next (s.command 0xA81 p (p.is 1 && decide (k < 4)) true (!last) fun u =>
    let u1 := u.pb Reg.SEC_REVOKE k true
    (u1, .ok [u1.rd Reg.SEC_REVOKE]))

/-- SEC_DBG_UNLOCK, R586, R603. -/
def execSecDbgUnlock (p : Pkt) (s : State) : Out :=
  let ref := p.ref 0xA82 0
  let s1 := s.command 0xA82 p (p.is 2 && decide (0 < p.arg 1) && s.secRing (p.arg 0)) true true fun u =>
    if u.secBusy (p.arg 0) then (u, .status stBUSY [])
    else (u.startSec (p.arg 0) ref (p.arg 1) [], .accepted 0 [])
  .next (if ref ∈ s1.host.accepted ∧ ref ∉ s.host.accepted then s1.spiLoad else s1)

/-- SEC_DBG_LOCK, R586. -/
def execSecDbgLock (p : Pkt) (s : State) : Out :=
  .next (s.command 0xA83 p (p.is 0) true true fun u => (u.wr Reg.SEC_DBG 0, .ok [0]))

end Sys2Proof.Machine
end

