-- ==== Sys2Proof/Machine/Dma.lean ====
section
/-!
DEFINITION. DMA channels and descriptor rings (R451-R476): the run of a ring, its functions, write-backs, and direct mode. The hand-over of
a direct transfer, which may write registers, stands with BAR0.
-/
namespace Sys2Proof.Machine

/-- Fields of a descriptor's W0 (R453). -/
def Desc.eoc (d : Desc) : Bool := bit (wordAt d.words 0) 31
def Desc.irq (d : Desc) : Bool := bit (wordAt d.words 0) 30
def Desc.more (d : Desc) : Bool := bit (wordAt d.words 0) 29
def Desc.len (d : Desc) : Nat := fld (wordAt d.words 0) 23 0
/-- Its host buffer, and its BAR2 offset (R453, R454). -/
def Desc.buf (d : Desc) : Nat := (wordAt d.words 1).toNat + (wordAt d.words 2).toNat * 2 ^ 32
def Desc.off (d : Desc) : Nat := fld (wordAt d.words 3) 27 0

/-- Whether the PCIe link is up: PERST_N is high and the management domain is on (R595). -/
def State.pcieUp (s : State) : Bool := !s.host.perst && s.domOn 1

/-- The size of a ring in descriptors, R480. -/
def State.ringSize (s : State) (n : Nat) : Nat := 2 ^ clampN (s.rf (Reg.RING_CFG n) 23 20) 3 12

/-- BAR2 ranges a transfer may touch (R456, R154): inside one window, and a writable one for a write. -/
def barRange (o len : Nat) (write : Bool) : Bool :=
  let w := (barWindow o).1
  let e := (barWindow (o + len - 1)).1
  w == e && decide (w < 5) && !(write && (w == 2 || w == 4))

/-- A failure that makes a descriptor BAD_DESC (R453, R454, R456, R465). -/
def Desc.bad (d : Desc) : Bool :=
  let w3 := wordAt d.words 3
  d.len == 0 || fld (wordAt d.words 0) 28 24 != 0 ||
    (match d.func with
    | 0 => w3 != 0
    | 1 => fld w3 31 28 != 0 || d.len % 8 != 0 || d.off % 8 != 0
    | 10 => fld w3 31 28 != 0 || d.len % 8 != 0 || d.off % 8 != 0
    | 2 => fld w3 4 3 == 0 || fld w3 31 5 != 0
    | _ => false)

/-! ### Items -/

/-- The head item of a host-bound ring is done (R457, R466, R467, R510): its bank becomes free, or held when the item failed; its command
sends its notice. -/
def State.endItem (s : State) (n : Nat) (ok : Bool) : State :=
  let x := s.ringOf n
  match x.items with
  | [] => s
  | i :: rest =>
    let s1 := (s.setRing n { x with items := rest, inItem := false, failed := false }).showWaiting n
    let s2 := match i.bank with
      | some b => s1.bankDelivered b ok
      | none => s1
    match i.ref with
    | some r => s2.finish r (if ok then stOK else stITEM) []
    | none => s2

/-- The bytes of an item from `o` on, `k` of them: those it holds, or those of its snapshot bank; none when they are not all there yet. -/
def State.itemBytes (s : State) (i : DevItem) (o k : Nat) : Option (List Byte) :=
  match i.bank with
  | some b =>
    some ((List.range k).map fun j => BitVec.ofNat 8 ((s.bankWord b (o + j)).toNat / 2 ^ (8 * ((o + j) % 4))))
  | none => if o + k ≤ i.data.length then some ((i.data.drop o).take k) else none

/-! ### Write-back and the run of a ring, R455, R459, R461 -/

/-- Add bytes moved to a channel's count in units of 2^16 (R476). -/
def State.addMoved (s : State) (n k : Nat) : State :=
  let old := Sparse.get (fun _ => 0) s.dma.moved n
  let s1 := { s with dma := { s.dma with moved := Sparse.set (fun _ => 0) s.dma.moved n (old + k) } }
  s1.bumpBy (Cnt.dma n 2) ((old + k) / 2 ^ 16 - old / 2 ^ 16)

/-- A write of the device to host memory, while the PCIe link is up. -/
def State.hostWrite (s : State) (a : Nat) (bs : List Byte) : State :=
  if bs = [] ∨ !s.pcieUp then s else { s with dma := { s.dma with out := s.dma.out ++ [{ addr := a, bytes := bs }] } }

/-- A ring enters OFF (R461): a host-bound item that has begun ends there. -/
def State.ringOff (s : State) (n : Nat) : State :=
  let x := s.ringOf n
  let begun := x.items.any (fun i => decide (0 < i.moved)) && x.inItem
  let s1 := (s.setRing n { x with
    desc := none, reread := false, frame := [], failed := false, inItem := x.inItem && begun, begun := false }).setRingState n 0
  let s2 := if begun then s1.endItem n false else s1
  s2.pf (Reg.DMA_STAT n) 31 28 0

/-- A ring stops at the end mark of `last` (R459). -/
def State.ringStop (s : State) (n : Nat) : State :=
  let s1 := ((s.setRingState n 2).pb (Reg.RING_STOP n) 31 true).bump (Cnt.dma n 4)
  if s1.rb (Reg.RING_CFG n) 17 then s1.irq (8 + n) else s1

/-- The ring after its descriptor is finished (R459, R461). -/
def State.ringNext (s : State) (n : Nat) (d : Desc) : State :=
  let s1 := s.setRing n { s.ringOf n with desc := none }
  if s1.ringState n = 4 then s1.ringOff n
  else if !d.eoc then s1
  else
    let s2 := s1.pf (Reg.RING_STOP n) 11 0 d.idx
    if d.db then s2.setRing n { s2.ringOf n with reread := true } else s2.ringStop n

/-- Write a descriptor back (R455, R456): W3 where the function has it, W4 to W6, then W7 in a separate write; the ring then goes on.
`time` and `epoch` are those of a receive timestamp. -/
def State.writeBack (s : State) (n : Nat) (d : Desc) (status moved : Nat) (w3 : Option Word) (stamp : Option RxStamp)
    (first last : Bool) : State :=
  let t := (stamp.map RxStamp.time).getD s.now
  let ep := (stamp.map RxStamp.epoch).getD s.epoch
  let fields := [toW (status * 2 ^ 24 + moved % 2 ^ 24), toW (nanoOf t), toW (secOf t)]
  let w7 := toW (2 ^ 31 + b2n stamp.isSome * 2 ^ 30 + b2n first * 2 ^ 29 + b2n last * 2 ^ 28 + ep % 256 * 2 ^ 16 +
    secOf t / 2 ^ 32 % 2 ^ 16)
  let s1 := match w3 with
    | some w => s.hostWrite (d.addr + 12) (wordBytes (w :: fields))
    | none => s.hostWrite (d.addr + 16) (wordBytes fields)
  let s2 := ((s1.hostWrite (d.addr + 28) (leBytes w7)).bump (Reg.RING_DONE n)).bump (Cnt.dma n (if status = 0 then 0 else 1))
  let s3 := (s2.addMoved n moved).when (status != 0) (fun u => u.pb (Reg.RING_STAT n) 16 true)
  (s3.when d.irq (fun u => u.irq (8 + n))).ringNext n d

/-- Finish a descriptor of a device-bound ring or of STORE_READ: its item is failed by it, and ends with it when `more` is 0 (R457). -/
def State.finishDesc (s : State) (n : Nat) (d : Desc) (status moved : Nat) : State :=
  let x := s.ringOf n
  let s1 := s.setRing n { x with
    inItem := d.more, failed := d.more && (x.failed || status != 0), frame := if d.more then x.frame else [] }
  s1.writeBack n d status moved none none (!x.inItem) (!d.more)

/-- Finish a descriptor of FRAME_RX or DELIVER (R454, R466, R467): `k` bytes of the head item fall to it, and the item ends with its bytes;
its later descriptors are SKIPPED when it has failed (R457). -/
def State.finishItem (s : State) (n : Nat) (d : Desc) (i : DevItem) (status k : Nat) : State :=
  let x := s.ringOf n
  let last := decide (i.len ≤ i.moved + k)
  let failed := x.failed || status != 0
  let w3 := match i.stamp with
    | some t => toW (t.port * 2 ^ 29 + t.cls * 2 ^ 27 + b2n t.tsOk * 2 ^ 26 + fracOf t.time)
    | none => toW (i.code * 2 ^ 24 + i.detail % 2 ^ 24)
  let s1 := s.setRing n { x with items := { i with moved := i.moved + k } :: x.items.tail, inItem := true, failed := failed }
  let s2 := if last then s1.endItem n (!failed) else s1
  s2.writeBack n d status (if status = 0 then k else 0) (some w3) i.stamp (!x.inItem) last

/-! ### LOAD, R463 -/

/-- Write words to BAR2 in order; the offsets of those refused (R157). -/
def State.putWords2 (s : State) (o : Nat) (ws : List Word) : State × List Nat :=
  ws.zipIdx.foldl (fun (a : State × List Nat) (x : Word × Nat) =>
    let (u, r) := a.1.writeBar2 (o + 4 * x.2) x.1 15
    (u, if r = .frozen then a.2 ++ [o + 4 * x.2] else a.2)) (s, [])

/-- The command that consumes a ring takes bytes: BF_LOAD writes each word as it is complete, and notes the entries refused. -/
def State.loadTake (s : State) (n : Nat) (l : LoadJob) (bs : List Byte) : State × Bool :=
  let got := l.got ++ bs
  if l.ref.op = 0x302 then
    let o := l.got.length / 4 * 4
    let e := got.length / 4 * 4
    let base := l.args.getD 0 0
    let (s1, bad) := s.putWords2 (base + o) (bytesWords ((got.drop o).take (e - o)))
    let items := (bad.map (fun a => (a - base) / l.args.getD 1 1)).eraseDups.filter (fun i => i ∉ l.args.drop 3)
    (s1.setRing n { s1.ringOf n with load := some { l with got := got, args := l.args ++ items } }, bad != [])
  else (s.setRing n { s.ringOf n with load := some { l with got := got } }, false)

/-- The command has all its bytes: it ends (R166, R355, R463). -/
def State.loadDone (s : State) (n : Nat) : State :=
  match (s.ringOf n).load with
  | none => s
  | some l =>
    let s1 := s.setRing n { s.ringOf n with load := none }
    if l.ref.op = 0x302 then
      let bad := (l.args.drop 3).length
      s1.finish l.ref (if bad = 0 then stOK else stPARTIAL) [toW (l.args.getD 2 0 - bad)]
    else if l.ref.op = 0x701 then
      let ws := bytesWords l.got
      let s2 := s1.forEach (List.range (l.need / 8)) fun u k =>
        let a := l.args.getD 0 0 + k
        (u.poke (Reg.CAL_NET_W0 a) (wordAt ws (2 * k))).poke (Reg.CAL_NET_W1 a) (wordAt ws (2 * k + 1))
      s2.finish l.ref stOK [toW (l.need / 8)]
    else s1.secLoaded l.ref l.got l.args

/-- The consuming command takes what it needs of a LOAD descriptor; the remainder stays for the next command (R463). -/
def State.loadFeed (s : State) (n : Nat) (d : Desc) (l : LoadJob) (data : List Byte) : State :=
  let k := min data.length (l.need - l.got.length)
  let (s1, bad) := s.loadTake n l (data.take k)
  let d1 := { d with moved := d.moved + k, data := data.drop k, refused := d.refused || bad }
  let s2 := s1.setRing n { s1.ringOf n with desc := some d1 }
  let s3 := if d1.data = [] then s2.finishDesc n d1 (if d1.refused then 3 else 0) d1.moved else s2
  if l.need ≤ l.got.length + k then s3.loadDone n else s3

/-! ### STORE_WRITE, STORE_READ and FRAME_TX, R464, R465 -/

/-- Write slots of eight bytes to BAR2 until one is refused: the bytes written and whether one was (R464). -/
def State.storeWrite (s : State) (o : Nat) (bs : List Byte) : Nat → State × Nat × Bool
  | 0 => (s, 0, false)
  | k + 1 =>
    let (s1, r1) := s.writeBar2 o (toW (leN bs 0 4)) 15
    let (s2, r2) := s1.writeBar2 (o + 4) (toW (leN bs 4 4)) 15
    if r1 = .frozen ∨ r2 = .frozen then (s2, 0, true)
    else
      let (s3, m, f) := s2.storeWrite (o + 8) (bs.drop 8) k
      (s3, m + 8, f)

/-- Read bytes of BAR2 (R14, R154). -/
def State.storeRead (s : State) (o len : Nat) : List Byte :=
  (List.range ((len + 3) / 4)).flatMap (fun i => leBytes (s.readBar2 (o + 4 * i)))

/-- A FRAME_TX descriptor's bytes have been read (R457, R465). It waits while its class's share of the buffer has no room (R88). -/
def State.frameTx (s : State) (n : Nat) (d : Desc) (data : List Byte) : State :=
  let x := s.ringOf n
  let frame := x.frame ++ data
  let port := fld (wordAt d.words 3) 2 0
  if d.more then (s.setRing n { x with frame := frame }).finishDesc n d 0 d.len
  else if frame.length < 60 ∨ s.maxFrame port - 4 < frame.length then s.finishDesc n d 1 0
  else if !(s.portUp port && s.portPresent port) then s.finishDesc n d 8 0
  else if shareSize (fld (wordAt d.words 3) 4 3) < s.egressRun.shareUse (fld (wordAt d.words 3) 4 3) + frame.length + 4 then s.egressRun
  else
    let bs := frame ++ frameFcs frame
    (s.queueFrame { port := port, cls := fld (wordAt d.words 3) 4 3, at_ := s.tick, bytes := bs }).finishDesc n d 0 d.len

/-! ### The arbiter, R473 -/

/-- Whether a channel's direct transfer runs (R478). -/
def State.directRuns (s : State) (n : Nat) : Bool := s.rf (Reg.DMA_STAT n) 31 28 == 1

/-- The priority of a channel, 0 the highest. -/
def State.prioOf (s : State) (n : Nat) : Nat := if s.directRuns n then s.rf (Reg.DMA_MODE n) 25 24 else s.rf (Reg.RING_CFG n) 19 18

/-- The 64-byte beats of `len` bytes from a device address (R474). -/
def beats (addr len : Nat) : Nat := if len = 0 then 0 else (addr % 64 + len + 63) / 64

/-- The beats of what a channel moves now. -/
def State.beatsOf (s : State) (n : Nat) : Nat :=
  match (s.ringOf n).desc with
  | some d =>
    if d.bad || (s.ringOf n).failed then 0
    else if d.func = 8 ∨ d.func = 9 then (match (s.ringOf n).items with
      | i :: _ => beats i.moved (min d.len (i.len - i.moved))
      | [] => 0)
    else beats d.off d.len
  | none => if s.directRuns n then beats (s.rd (Reg.DMA_DADDR n)).toNat (s.rd (Reg.DMA_LEN n)).toNat else 0

/-- The beats that a channel still asks for. -/
def State.beatsLeft (s : State) (n : Nat) : Nat := s.beatsOf n - Sparse.get (fun _ => 0) s.dma.granted n

/-- Whether a channel sends to the host and has all it sends: it asks for its beats without waiting for host memory. -/
def State.sending (s : State) (n : Nat) : Bool :=
  match (s.ringOf n).desc with
  | some d => (s.ringState n == 1 || s.ringState n == 4) && (match (s.ringOf n).items with
      | i :: _ => (d.func == 8 || d.func == 9) && (i.bank.isSome || decide (i.moved + min d.len (i.len - i.moved) ≤ i.data.length))
      | [] => false)
  | none => s.directRuns n && s.rb (Reg.DMA_MODE n) 31

/-- The channel that is granted the next beat: one that has waited through 1,024 beats of higher priorities, else the lowest prio value; the
first of them in the round after the last one granted. -/
def State.nextBeat (s : State) (cs : List Nat) : Option Nat :=
  let place := fun (c : Nat) => (c + 31 - s.dma.last % 32) % 32
  let starved := cs.filter (fun c => decide (1024 ≤ Sparse.get (fun _ => 0) s.dma.passed c))
  let low := cs.foldl (fun m c => min m (s.prioOf c)) 3
  (if starved = [] then cs.filter (fun c => s.prioOf c == low) else starved).foldl (fun (b : Option Nat) c => match b with
    | some x => if place c < place x then some c else b
    | none => some c) none

/-- Whether a beat granted to `c` preempts the channel that was granted the last one: that one has begun, has beats left and is of lower
priority (R473). -/
def State.preempts (s : State) (cs : List Nat) (c : Nat) : Bool :=
  let l := s.dma.last
  cs.contains l && l != c && decide (0 < Sparse.get (fun _ => 0) s.dma.granted l) && decide (s.prioOf c < s.prioOf l)

/-- A beat is granted to channel `c` while the channels `cs` ask; a preemption is counted (R476). -/
def State.grantBeat (s0 : State) (cs : List Nat) (c : Nat) : State :=
  let s := if s0.preempts cs c then s0.bump (Cnt.dma s0.dma.last 6) else s0
  let passed := cs.foldl (fun m w =>
    Sparse.set (fun _ => 0) m w (if w ≠ c ∧ s.prioOf c < s.prioOf w then Sparse.get (fun _ => 0) s.dma.passed w + 1 else 0)) s.dma.passed
  { s with dma := { s.dma with
    granted := Sparse.set (fun _ => 0) s.dma.granted c (Sparse.get (fun _ => 0) s.dma.granted c + 1), passed := passed, last := c } }

/-- Beats are granted among the channels `cs` until channel `n` has all of its own; answers the channels that had all of theirs before. -/
def State.arbitrate (s : State) (n : Nat) : List Nat → Nat → State × List Nat
  | _, 0 => (s, [])
  | cs, k + 1 =>
    if s.beatsLeft n = 0 then (s, [])
    else match s.nextBeat cs with
      | none => (s, [])
      | some c =>
        let s1 := s.grantBeat cs c
        if s1.beatsLeft c = 0 ∧ c ≠ n then
          let (s2, l) := s1.arbitrate n (cs.filter (· ≠ c)) k
          (s2, c :: l)
        else s1.arbitrate n cs k

/-- What a channel moved has ended: the beats of the next begin. -/
def State.clearBeats (s : State) (n : Nat) : State :=
  { s with dma := { s.dma with granted := Sparse.set (fun _ => 0) s.dma.granted n 0, passed := Sparse.set (fun _ => 0) s.dma.passed n 0 } }

/-! ### Ring rows -/

/-- End the command that consumes a LOAD ring which is being disabled. -/
def State.dropLoad (s : State) (n : Nat) : State :=
  match (s.ringOf n).load with
  | none => s
  | some l => (s.setRing n { s.ringOf n with load := none }).finish l.ref stITEM []

/-- A direct transfer ends with a failure (R472): ERROR, with the status in DMA_STAT and DMA_HO. -/
def State.directFail (s : State) (n code : Nat) : State :=
  let s1 := ((s.pf (Reg.DMA_STAT n) 31 28 2).pf (Reg.DMA_STAT n) 23 16 code).pb (Reg.DMA_STAT n) 2 true
  let s2 := s1.pf (Reg.DMA_HO n) 31 24 code
  if s2.rb (Reg.DMA_CTRL n) 0 then s2.irq (8 + n) else s2

/-- Write RING_CFG (R458, R461, R480). -/
def State.writeRingCfg (s : State) (n : Nat) (w : Word) : State :=
  let old := s.rd (Reg.RING_CFG n)
  let func := fld w 27 24
  if bit old 31 then
    let s1 := s.wr (Reg.RING_CFG n) (putFld old 19 16 (fld w 19 16))
    let s2 := if fld w 27 20 ≠ fld old 27 20 ∨ fld w 11 0 ≠ fld old 11 0 then s1.pb (Reg.RING_STAT n) 18 true else s1
    if bit w 31 then s2
    else
      let s3 := (s2.pb (Reg.RING_CFG n) 31 false).dropLoad n
      match (s3.ringOf n).desc with
      | some _ => s3.setRingState n 4
      | none => s3.ringOff n
  else
    let s1 := s.poke (Reg.RING_CFG n) (putFld w 31 31 0)
    if !bit w 31 then s1
    else if !((if n < 16 then [0, 1, 2] else [8, 9, 10]).contains func) then s1.pb (Reg.RING_STAT n) 18 true
    else
      let s2 := if s1.rf (Reg.DMA_STAT n) 31 28 = 1 then s1.directFail n 6 else s1
      let s3 := match (s2.ringOf n).desc with
        | some d => s2.finishDesc n d 6 d.moved
        | none => s2
      let x := s3.ringOf n
      let s4 := s3.setRing n { x with desc := none, reread := false, inItem := false, failed := false, frame := [], begun := false }
      let s5 := (s4.pb (Reg.RING_CFG n) 31 true).wr (Reg.RING_POS n) (toW (fld w 11 0 % s4.ringSize n))
      ((s5.pb (Reg.RING_STOP n) 31 true).setRingState n 2).pf (Reg.DMA_STAT n) 31 28 3

/-- Write RING_BASE_LO or _HI: discarded while the ring is enabled (R458). -/
def State.writeRingBase (s : State) (n a : Nat) (w : Word) : State :=
  if s.rb (Reg.RING_CFG n) 31 then s.pb (Reg.RING_STAT n) 18 true else s.poke a w

/-- RING_ENABLE, R452, R458: a write of RING_CFG with en = 1. -/
def execRingEnable (n : Nat) (w : Word) (s : State) : Out :=
  .next (if n < 32 ∧ s.domOn 1 then (s.writeRingCfg n (putFld w 31 31 1)).forwardLocks else s)

/-- RING_DISABLE, R461: a write of RING_CFG with en = 0. -/
def execRingDisable (n : Nat) (w : Word) (s : State) : Out :=
  .next (if n < 32 ∧ s.domOn 1 then (s.writeRingCfg n (putFld w 31 31 0)).forwardLocks else s)

/-- Write back ABORTED the descriptor in progress of a ring (R461). -/
def State.abortDesc (s : State) (n : Nat) : State :=
  let x := s.ringOf n
  match x.desc with
  | none => s
  | some d =>
    if d.func = 8 ∨ d.func = 9 then
      match x.items with
      | i :: _ => s.finishItem n d i 6 0
      | [] => s.finishDesc n d 6 0
    else s.finishDesc n d 6 d.moved

/-- RING_DRAIN, R461: the descriptor in progress cannot finish and is written back ABORTED; the ring enters OFF. -/
def execRingDrain (n : Nat) (s : State) : Out := .next (if s.ringState n = 4 ∧ n < 32 then (s.abortDesc n).forwardLocks else s)

/-- RING_DB_WRITE, R458, R459: counted; a ring that is OFF, in ERROR or DRAINING discards it. -/
def State.doorbell (s : State) (n : Nat) : State :=
  let s1 := s.bump (Cnt.dma n 3)
  let x := s1.ringOf n
  match s1.ringState n with
  | 1 => match x.desc with
    | some d => s1.setRing n { x with desc := some { d with db := true } }
    | none => s1
  | 2 =>
    if x.begun then s1.setRing n { x with reread := true }
    else ((s1.setRing n { x with begun := true }).setRingState n 1).pb (Reg.RING_STOP n) 31 false
  | _ => s1

def execRingDbWrite (n : Nat) (s : State) : Out := .next (if n < 32 ∧ s.domOn 1 then s.doorbell n else s)

/-- A fetch fails (R462): RING_POS keeps the index. -/
def State.fetchError (s : State) (n : Nat) : State :=
  let x := s.ringOf n
  let s1 := ((s.setRing n { x with reread := false }).setRingState n 3).pb (Reg.RING_STAT n) 17 true
  if s1.rb (Reg.RING_CFG n) 16 then s1.irq (8 + n) else s1

/-- Whether the engine may read host memory for a ring now: it runs or re-reads, holds no descriptor, and its function has work. -/
def State.mayFetch (s : State) (n : Nat) : Bool :=
  let x := s.ringOf n
  decide (n < 32) && s.pcieUp && !s.quiet 4 && x.desc.isNone &&
    (x.reread && (s.ringState n == 1 || s.ringState n == 2) ||
     s.ringState n == 1 && (match s.ringFunc n with
      | some 0 => x.load.isSome
      | some 8 => x.items != []
      | some 9 => x.items != []
      | _ => true))

/-- DESC_FETCH, R459, R462: host memory answers with the eight words of the descriptor, or, on a re-read, with W0 of last_idx; `err`: with a
PCIe error or a timeout. -/
def execDescFetch (n : Nat) (words : List Word) (err : Bool) (s : State) : Out :=
  .next <|
    if !s.mayFetch n then s
    else
      let x := s.ringOf n
      if err then s.fetchError n
      else if x.reread then
        let s1 := s.setRing n { x with reread := false }
        if bit (wordAt words 0) 31 then if s.ringState n = 1 then s1.ringStop n else s1
        else
          let s2 := (s1.wr (Reg.RING_POS n) (toW ((s.rf (Reg.RING_STOP n) 11 0 + 1) % s.ringSize n))).setRingState n 1
          (s2.pb (Reg.RING_STOP n) 31 false).bump (Cnt.dma n 5)
      else
        let idx := (s.rd (Reg.RING_POS n)).toNat
        let d : Desc := {
          idx := idx
          words := words
          func := s.rf (Reg.RING_CFG n) 27 24
          addr := s.rdPair (Reg.RING_BASE_LO n) (Reg.RING_BASE_HI n) + 32 * idx }
        ((((s.clearBeats n).setRing n { x with desc := some d }) : State).wr (Reg.RING_POS n) (toW ((idx + 1) % s.ringSize n))).forwardLocks

/-- The progress of a descriptor of FRAME_RX or DELIVER. -/
def State.hostBound (s : State) (n : Nat) (d : Desc) (err : Bool) : State :=
  let x := s.ringOf n
  match x.items with
  | [] => if d.bad then s.finishDesc n d 1 0 else s
  | i :: _ =>
    let k := min d.len (i.len - i.moved)
    if d.bad then s.finishItem n d i 1 k
    else if x.failed then s.finishItem n d i 7 k
    else match s.itemBytes i i.moved k with
      | none => s
      | some bs => if err then s.finishItem n d i 4 k else (s.hostWrite d.buf bs).finishItem n d i 0 k

/-- The progress of a device-bound descriptor or of STORE_READ: `data` are the bytes that host memory answered with, `err` a PCIe error. -/
def State.moveDesc (s : State) (n : Nat) (d : Desc) (data : List Byte) (err : Bool) : State :=
  let x := s.ringOf n
  if x.failed then s.finishDesc n d 7 0
  else if d.bad then s.finishDesc n d 1 0
  else if (d.func = 1 ∨ d.func = 10) ∧ !barRange d.off d.len (d.func == 1) then s.finishDesc n d 2 0
  else if err then s.finishDesc n d 4 d.moved
  else if d.func = 10 then
    if s.domOn 7 then (s.hostWrite d.buf (s.storeRead d.off d.len)).finishDesc n d 0 d.len
    else (s.offAccess.hostWrite d.buf (List.replicate d.len 0)).finishDesc n d 0 d.len
  else if d.func = 0 then
    match x.load with
    | none => s
    | some l => if 0 < d.moved then s.loadFeed n d l d.data else if data.length = d.len then s.loadFeed n d l data else s
  else if data.length ≠ d.len then s
  else if d.func = 1 then
    if !s.domOn 7 then s.offAccess.finishDesc n d 0 d.len
    else
      let (s1, m, refused) := s.storeWrite d.off data (d.len / 8)
      s1.finishDesc n d (if refused then 3 else 0) m
  else s.frameTx n d data

/-- The descriptor in progress of a channel moves its data: `data` from host memory. -/
def State.finishMove (s : State) (n : Nat) (data : List Byte) (err : Bool) : State :=
  match (s.ringOf n).desc with
  | none => s
  | some d =>
    let s1 := if d.func = 8 ∨ d.func = 9 then s.hostBound n d err else (s.moveDesc n d data err).forwardLocks
    if (s1.ringOf n).desc = some d then s1 else s1.clearBeats n

/-- The fabric grants beats until channel `n` has moved all of its own (R473); host-bound descriptors that had all of theirs before are written
back before. -/
def State.takeBeats (s : State) (n : Nat) : State :=
  let cs := (List.range 32).filter (fun c => c == n || (s.sending c && decide (0 < s.beatsLeft c)))
  let (s1, first) := s.arbitrate n cs ((cs.map s.beatsLeft).sum)
  s1.forEach first fun u c => if (u.ringOf c).desc.isSome then u.finishMove c [] false else u

/-- DESC_FINISH, R455, R473: the data of the descriptor in progress moves, and it is written back when that is done. -/
def execDescFinish (n : Nat) (data : List Byte) (err : Bool) (s : State) : Out :=
  .next <| if !(decide (n < 32) && s.pcieUp && (s.ringState n == 1 || s.ringState n == 4)) || (s.ringOf n).desc.isNone then s
    else (s.takeBeats n).finishMove n data err

/-- READ_COMPLETION_TIMEOUT, R462, R475: a read of host memory is not answered within 50 us: the descriptor or the direct transfer fails with
TIMEOUT; an outstanding fetch puts the ring in ERROR. -/
def execReadCompletionTimeout (n : Nat) (s : State) : Out :=
  .next <| match (s.ringOf n).desc with
  | some d => if d.func < 8 ∧ n < 32 then (s.finishDesc n d 5 d.moved).forwardLocks else s
  | none =>
    if s.mayFetch n then s.fetchError n
    else if n < 32 ∧ s.rf (Reg.DMA_STAT n) 31 28 = 1 ∧ !s.rb (Reg.DMA_MODE n) 31 then (s.directFail n 5).forwardLocks
    else s

/-! ### Direct mode, R469-R472 -/

/-- How a set fails before it starts: 0 for not at all (R456, R469). -/
def State.directCheck (s : State) (daddr len : Nat) (mode : Word) : Nat :=
  let space := fld mode 27 26
  let write := !bit mode 31
  if 2 ≤ space then 2
  else if len = 0 then 1
  else if space = 0 then
    if daddr % 8 ≠ 0 ∨ len % 8 ≠ 0 then 1 else if barRange daddr len write then 0 else 2
  else if daddr % 4 ≠ 0 ∨ len % 4 ≠ 0 then 1
  else if daddr < 0x0A000000 ∧ 0x09000000 < daddr + len then 2
  else if 0x10000000 < daddr + len then 2
  else if !s.part.has (placeOf daddr).1 && (placeOf daddr).1 != .none then 2
  else 0

/-- Load the shadow set into the active set. -/
def State.loadShadow (s : State) (n : Nat) : State :=
  let cp := fun (u : State) (from_ to_ : Nat) => u.wr to_ (u.rd from_)
  let s1 := cp (cp (cp (cp (cp s (Reg.DMA_SH_HADDR_LO n) (Reg.DMA_HADDR_LO n)) (Reg.DMA_SH_HADDR_HI n) (Reg.DMA_HADDR_HI n))
    (Reg.DMA_SH_DADDR n) (Reg.DMA_DADDR n)) (Reg.DMA_SH_LEN n) (Reg.DMA_LEN n)) (Reg.DMA_SH_MODE n) (Reg.DMA_MODE n)
  (s1.pb (Reg.DMA_SH_STAT n) 31 false).pf (Reg.DMA_HO n) 23 16 (s.rf (Reg.DMA_SH_STAT n) 23 16)

/-- Start the transfer of the active set, or fail it. -/
def State.startDirect (s : State) (n : Nat) : State :=
  let s1 := { s.clearBeats n with dma := { (s.clearBeats n).dma with half := s.dma.half.filter (· ≠ n) } }
  let code := s1.directCheck (s1.rd (Reg.DMA_DADDR n)).toNat (s1.rd (Reg.DMA_LEN n)).toNat (s1.rd (Reg.DMA_MODE n))
  if code = 0 then s1.pf (Reg.DMA_STAT n) 31 28 1 else s1.directFail n code

/-- DMA_SH_COMMIT_WRITE, R469, R471. -/
def State.directCommit (s : State) (n : Nat) (w : Word) : State :=
  if s.rb (Reg.RING_CFG n) 31 then s.pb (Reg.DMA_STAT n) 3 true
  else
    let ho := s.rf (Reg.DMA_HO n) 15 0
    let st := Reg.DMA_SH_STAT n
    let s1 := ((s.pb st 31 true).pf st 23 16 (s.rf st 23 16 + 1)).pf st 15 0 ho
    let late := !bit w 16 && fld w 15 0 != ho
    let s2 := if late then (s1.pb st 30 true).bump (Cnt.dma n 8) else s1
    let state := s.rf (Reg.DMA_STAT n) 31 28
    if state = 0 ∨ state = 2 then (s2.loadShadow n).startDirect n else s2

def execDmaShCommitWrite (n : Nat) (w : Word) (s : State) : Out :=
  .next (if n < 32 ∧ s.domOn 1 then (s.directCommit n w).forwardLocks else s)

/-- DIRECT_HALF_POINT, R472: once in a transfer. -/
def execDirectHalfPoint (n : Nat) (s : State) : Out :=
  .next <|
    if n < 32 ∧ s.rf (Reg.DMA_STAT n) 31 28 = 1 ∧ n ∉ s.dma.half then
      let s1 := { s with dma := { s.dma with half := n :: s.dma.half } }
      if s1.rb (Reg.DMA_MODE n) 29 then (s1.pb (Reg.DMA_STAT n) 0 true).irq (8 + n) else s1
    else s

/-- Stop the direct transfer of a channel (R472, R595). -/
def State.directStop (s : State) (n : Nat) : State :=
  if s.rf (Reg.DMA_STAT n) 31 28 = 1 then s.directFail n 6 else s

/-- DMA_STOP_WRITE, R472: a write of DMA_CTRL with stop = 1. -/
def execDmaStopWrite (n : Nat) (s : State) : Out := .next (if n < 32 ∧ s.domOn 1 then (s.directStop n).forwardLocks else s)

end Sys2Proof.Machine
end

