-- ==== Sys2Proof/Machine/Reset.lean ====
section
/-!
DEFINITION. Reset, boot and bring-up (R591-R607), the effects of PERST_N and FLR (R595), and the thermal shutdown with its restart
(R527-R529).
-/
namespace Sys2Proof.Machine

/-! ### Receiver resets, R425 -/

/-- Device firmware resets the host-to-device queue of a mailbox. -/
def State.h2dReset (s : State) (m : Nat) : State :=
  let b := s.mbox m
  let n := b.h2d.length
  let s1 := s.setMbox m { b with h2d := [], published := 0 }
  let s2 := if n = 0 then s1 else (s1.pf (Reg.MB_ACK m) 31 16 (s.rf (Reg.MB_ACK m) 31 16 + n)).pf (Reg.MB_ACK m) 15 0 stABORTED
  (s2.bumpBy (Cnt.chiast m 6) n).mbEvt m 2

/-- Groups of at most three. -/
def threes : Nat → List Nat → List (List Nat)
  | 0, _ => []
  | _, [] => []
  | f + 1, l => l.take 3 :: threes f (l.drop 3)

/-- The host resets the device-to-host queue of a mailbox: the words discarded are counted, and event 0x07 lists the tags of the packets
whose header word was still in the queue (R504). -/
def State.d2hReset (s : State) (m : Nat) : State :=
  let b := s.mbox m
  let n := b.words
  if n = 0 then s
  else
    let whole := if b.popped = 0 then b.d2h else b.d2h.drop 1
    let tags := threes 16 (whole.map OutPkt.tag)
    let recs := if tags = [] then [[]] else tags
    let s1 := (((s.setMbox m { b with d2h := [], popped := 0 }).bumpSatF (Reg.MB_LOST m) 15 0 n).bumpBy (Cnt.chiast m 6) n).mbEvt m 3
    s1.forEach recs fun u l =>
      u.hubEvent 0x07 (l.getD 0 0 * 2 ^ 24 + l.getD 1 0 * 2 ^ 16 + l.getD 2 0 * 2 ^ 8 + min 31 b.d2h.length * 8 + m)

/-! ### Cold reset, R591, R592 -/

/-- Registers that hold fuses, which every reset keeps (R592). -/
def isFuse (a : Nat) : Bool := decide (Reg.SEC_REVOKE = a ∨ (Reg.SEC_KEYHASH 0 0 ≤ a ∧ a < Reg.SEC_DBG))

/-- What a Cellar keeps through any reset: its records and the flash (R592). -/
def CelSt.kept (c : CelSt) : CelSt := { recs := c.recs, segs := c.segs, bankA := c.bankA, bankB := c.bankB }

/-- A cold reset (R591, R592): everything at its reset value but the Cellar, the flash and the fuses. Sensors that have failed stay so until
power-on (R521). -/
def State.coldReset (s : State) (kind : Nat) : State :=
  let sensors := s.th.sensors.filterMap (fun (x : Nat × SensorSt) => if x.2.failed then some (x.1, ({ failed := true } : SensorSt)) else none)
  let s1 : State := {
    part := s.part
    live := s.live.filter (fun (x : Nat × Word) => isFuse x.1)
    host := { readData := s.host.readData, irqs := s.host.irqs, perst := s.host.perst }
    fh := { frames := s.fh.frames }
    dma := { out := s.dma.out }
    th := { sensors := if kind = 0 then [] else sensors }
    cel := s.cel.kept
    pending := s.pending
    fresh := s.fresh }
  (s1.pf Reg.GL_STATE 23 16 0x01).pf Reg.GL_BOOT 31 28 kind

/-! ### Warm reset, R592, R594 -/

/-- The bits of a register that a warm reset keeps beside those marked ST: the rate word, epoch and time_set (R592), the role (R606), the
acknowledgements (R425), the level of FAULT_N (R409), and the fuses. -/
def warmMask (a : Nat) : Nat :=
  if a = Reg.TB_RATE_LO ∨ a = Reg.TB_RATE_HI ∨ isFuse a then 0xFFFFFFFF
  else if a = Reg.TB_STATUS then 0x00FF0001
  else if a = Reg.CX_CFG then 3
  else if a = Reg.SV_FAULT_SUM then 0x80000000
  else if (List.range 8).any (fun m => a == Reg.MB_ACK m) then 0xFFFFFFFF
  else 0

/-- The live registers that a warm reset keeps. -/
def State.keptLive (s : State) : Sparse Word :=
  s.live.foldl (fun (m : Sparse Word) (x : Nat × Word) =>
    match regAt x.1 with
    | some (r, _, _) =>
      let k := Nat.lor r.st (warmMask x.1)
      Sparse.set (resetWord s.part) m x.1 (maskW x.2 k ||| maskW (resetWord s.part x.1) (0xFFFFFFFF - k))
    | none => m) []

/-- The units that are still declared faulted: their availability bits and the mutes of their paths (R22, R35-R38). -/
def State.keepFaults (s : State) : State :=
  let units := s.paths.map (fun p => (0, p)) ++ s.rows.map (fun r => (1, r)) ++ s.parcels.map (fun q => (2, q)) ++ s.tiles.map (fun t => (3, t))
  s.forEach (units.filter (fun (x : Nat × Nat) => s.faulted x.1 x.2)) fun u x =>
    let u1 := u.setAvail x.1 x.2 false
    if x.1 = 0 then u1.muteFault x.2 else u1

/-- The first actions of a warm reset, R594: mute, enables low, pads latched; and the descriptors in progress are written back (R461). -/
def State.resetEntry (s : State) : State :=
  let s1 := s.forEach s.paths fun u p =>
    (u.muteForce p).setTx p { (u.muteForce p).txOf p with txen := false, rxen := false }
  let s2 := s1.forEach s.rows State.latchRow
  s2.forEach (List.range 32) State.abortDesc

/-- The fault records of a declaration that are ordered and not written (R574, source 3). -/
def State.tornFaults (s : State) : List (List Word) :=
  (s.celOrders.filter (fun o => o.kind == 0x30 && wordAt o.payload 0 == 0)).map (fun o => o.payload.drop 4)

/-- Commands in flight: those that replied ACCEPTED, and one whose reply waits for its work (R426, R575). -/
def State.inFlight (s : State) : List CmdRef :=
  s.host.aborted ++ s.host.accepted ++ (s.host.busy.map Prod.fst).toList

/-- What the pads keep (R548, R592). -/
def State.keptTx (s : State) : Sparse TxSt :=
  s.paths.foldl (fun (m : Sparse TxSt) p =>
    let x := s.txOf p
    let y : TxSt := {
      txen := false, rxen := x.rxen, latched := true, muteTick := s.tick, broken := s.tick, rxFall := x.rxFall, blankTick := s.tick }
    Sparse.set (fun _ => {}) m p y) []
def State.keptRows (s : State) : Sparse RowSt :=
  s.rows.foldl (fun (m : Sparse RowSt) r =>
    let x := s.rowOf r
    let y : RowSt := { feDriven := x.feDriven, csN := x.csN, sdio := x.sdio, feClk := x.feClk }
    Sparse.set (fun _ => {}) m r y) []

/-- What a warm reset keeps of the state `a` that its first actions leave (R592): everything else is at its reset value. `faultN` is the level
at which FAULT_N is held until BOOT ends. -/
def State.warmKept (a : State) (faultN : Bool) : State := {
  part := a.part
  tick := a.tick
  live := a.keptLive
  tb := { baseTime := a.tb.baseTime, baseCount := a.tb.baseCount, prevRate := a.tb.prevRate, stepTick := a.tb.stepTick, syncTick := a.tick }
  host := {
    mboxes := (List.range 8).foldl (fun (m : Sparse Mbox) k =>
      Sparse.set (fun _ => {}) m k { h2d := (a.mbox k).h2d, published := (a.mbox k).published }) []
    aborted := a.inFlight
    readData := a.host.readData
    perst := a.host.perst
    irqs := a.host.irqs }
  recs := (List.range 5).foldl (fun (m : Sparse RecSt) r => Sparse.set (fun _ => {}) m r { retired := (a.recOf r).retired }) []
  tx := a.keptTx
  rowst := a.keptRows
  fh := { frames := a.fh.frames }
  sv := { took := a.sv.took }
  dma := { out := a.dma.out }
  pw := { shdnLatch := a.pw.shdnLatch, pen := a.pw.pen, ppg := a.pw.ppg }
  th := {
    sensors := a.th.sensors.filterMap (fun (x : Nat × SensorSt) =>
      let y : SensorSt := { bad := x.2.bad, overRun := x.2.overRun, failed := x.2.failed }
      if y = {} then none else some (x.1, y))
    dies := a.th.dies, last := a.th.last, fire := a.th.fire, latched := a.th.latched, okSince := a.th.okSince }
  cel := { a.cel.kept with held := a.cel.held }
  boot := { faultN := some faultN, torn := a.boot.torn ++ a.tornFaults }
  pending := a.pending
  fresh := a.fresh }

/-- A warm reset, R592-R594: the device enters BOOT with a cause and a kind. -/
def State.warmReset (s : State) (cause kind : Nat) : State :=
  let s1 := s.resetEntry.warmKept (s.boot.faultN.getD (s.rb Reg.SV_FAULT_SUM 31))
  let s2 := (s1.forEach (List.range 8) State.h2dReset).keepFaults
  let s3 := s2.forEach (List.range 24) fun u r => if r < u.part.rows then u.pb Reg.PW_PAD_STAT r true else u
  let s4 := s3.wr Reg.GL_STATE (toW (cause * 2 ^ 16 + s.dev * 2 ^ 8 + 1))
  s4.pf Reg.GL_BOOT 31 28 kind

/-- A hub restart: a warm reset of cause 0x03, counted in restarts (R593). -/
def State.hubRestart (s : State) (kind : Nat) : State :=
  (s.bumpSatF Reg.GL_BOOT 11 8 1).warmReset 0x03 kind

/-- A hub fault, R400: SV_LAST, SV_FAULT_SUM and the Cellar record, and then the hub restarts. The record is written before the restart. -/
def State.hubFault (s : State) (cause chk unit : Nat) : State :=
  let s1 := ((s.wr Reg.SV_LAST (lastWord 5 cause chk unit)).bump (Cnt.svDecl 4)).faultSum 4
  let o : CelOrder := {
    kind := 0x30
    payload := [0, toW s.tick, toW (s.tick / 2 ^ 32), toW (s.dev * 256 + s.epoch), lastWord 5 cause chk unit, 0] }
  let s2 := if s1.celMode = 1 then ({ s1 with celOrders := o :: s1.celOrders } : State).cellarWrite true else s1
  s2.hubRestart 3

/-! ### Reset sources, R591 -/

/-- POWER_ON, R591: the AON supplies enter their operating range. -/
def execPowerOn (s : State) : Out := .next (if s.dev = 0 then s.coldReset 0 else s)

/-- RST_N_LOW, R591: RST_N is held low for a time in ns. During a reset that has not reached device firmware a short pulse has no further
effect. -/
def execRstNLow (ns : Nat) (s : State) : Out :=
  .next <|
    if s.dev = 0 ∨ ns < 1000 then s
    else if 100000000 ≤ ns then s.coldReset 1
    else if s.dev = 1 ∨ s.th.latched then s
    else s.warmReset 0x02 2

/-- WATCHDOG_TIMEOUT, R591: device firmware has not served the watchdog for 1 s. -/
def execWatchdogTimeout (s : State) : Out := .next (if 2 ≤ s.dev ∧ s.domOn 1 then s.hubRestart 4 else s)

/-- HUB_RESTART_WINDOW_EXPIRY, R593: 60 s without a hub restart. -/
def execHubRestartWindowExpiry (s : State) : Out := .next (s.pf Reg.GL_BOOT 11 8 0)

/-- SUPPLY_REMOVAL, R436: the device is OFF; what only power keeps is gone. -/
def execSupplyRemoval (s : State) : Out :=
  .next (((s.coldReset 0).wr Reg.GL_STATE 0).wr Reg.PW_STAT 0)

/-! ### PERST_N and FLR, R595 -/

/-- Both disable every ring and stop every direct-mode channel. -/
def State.pcieReset (s : State) : State :=
  s.forEach (List.range 32) fun u n =>
    let u1 := if u.rb (Reg.RING_CFG n) 31 then u.writeRingCfg n (putFld (u.rd (Reg.RING_CFG n)) 31 31 0) else u
    u1.directStop n

/-- PERST_N_ASSERT, R595. -/
def execPerstNAssert (s : State) : Out :=
  .next ({ s.pcieReset with host := { s.pcieReset.host with perst := true } })

/-- PERST_N_RELEASE, R598: the endpoint starts link training. -/
def execPerstNRelease (s : State) : Out := .next { s with host := { s.host with perst := false } }

/-- FUNCTION_LEVEL_RESET, R425, R595. -/
def execFunctionLevelReset (s : State) : Out :=
  .next (if !s.pcieUp then s
    else s.pcieReset.forEach (List.range 4) fun u m => (u.d2hReset m).h2dReset m)

/-! ### Thermal shutdown and restart, R527-R529 -/

/-- The shutdown record of R574: `boot` when it is written at boot. -/
def State.shutdownRecord (s : State) (boot : Bool) : List Word :=
  [s.rd Reg.TH_SHDN, s.rd Reg.TH_SHDN_T_LO, s.rd Reg.TH_SHDN_T_HI, toW (b2n boot * 256 + s.epoch)]

/-- THERMAL_SHUTDOWN, R527, R529: the shutdown path has fired. `cut`: a shutdown sensor reads above 125 degC while the Cellar is written, so
that MGMT goes off at once. -/
def execThermalShutdown (cut : Bool) (s : State) : Out :=
  .next <| match s.th.fire with
  | none => s
  | some (n, t, emerg) =>
    if s.dev = 0 ∨ s.th.latched then s
    else
      let before := s.rf Reg.PW_PAD_STAT 23 0
      let s1 := (s.forEach s.paths fun u p => (u.muteForce p).setTx p { (u.muteForce p).txOf p with txen := false, rxen := false }).forEach
        s.rows State.latchRow
      let s2 := { s1 with pw := { shdnLatch := Nat.lor s1.pw.shdnLatch (s1.rf Reg.PW_PAD_STAT 23 0 - before), pen := 0, ppg := 0 } }
      let busy := !s.celOrders.isEmpty && s.domOn 1 && s.celMode == 1
      let w := 2 ^ 31 + b2n emerg * 2 ^ 29 + b2n busy * 2 ^ 28 + (s.rf Reg.TH_SHDN 23 16 + 1) % 256 * 2 ^ 16 + n * 2 ^ 8 + degC t
      let s3 := (s2.wr Reg.TH_SHDN (toW w)).wrPair Reg.TH_SHDN_T_LO Reg.TH_SHDN_T_HI s.tick
      let s4 := ((s3.pb Reg.TH_STAT 2 true).bump (Cnt.thPackage 0)).bumpBy (Cnt.thPackage 1) (b2n emerg)
      let s5 := (s4.forEach s4.tiles fun u k => (u.setTileState k 2).setLinkState k 0).forEach [8, 9, 10, 11, 5, 6, 3, 4, 7, 2] fun u d => u.setDom d false
      let s6 :=
        if cut ∨ !(s.domOn 1 && s.celMode == 1) then s5
        else
          let u := if busy then s5.cellarWrite true else s5
          let o : CelOrder := { kind := 0x31, payload := u.shutdownRecord false }
          ({ u with celOrders := o :: u.celOrders } : State).cellarWrite true
      let s7 := { s6 with
        host := { s6.host with
          aborted := s6.inFlight, accepted := [], busy := none, plans := [], slots := [], captures := [], restart := none
          spiStream := [], spiJob := none }
        tb := { s6.tb with pendStep := none }
        boot := { s6.boot with torn := s6.boot.torn ++ s6.tornFaults }
        celOrders := []
        th := { s6.th with fire := none, latched := true, okSince := none } }
      (s7.forEach (List.range 8) State.h2dReset).setDom 1 false

/-- THERMAL_RESTART, R528: every valid shutdown sensor has read below the restart threshold for the restart time. -/
def execThermalRestart (s : State) : Out :=
  .next <| match s.th.okSince with
  | none => s
  | some t =>
    if !s.th.latched then s
    else
      let s1 := s.advanceTo (t + max 1 (s.rf Reg.TH_RESTART 15 8) * 1600000000)
      let s2 := s1.warmReset 0x05 6
      (({ s2 with th := { s2.th with latched := false, okSince := none } } : State).thEvt 5).bump (Cnt.thPackage 2)

/-! ### Boot, R597-R604 -/

/-- Whether the chunk is part of a complete set, or no chunk of a set (R573). -/
def State.whole (s : State) (r : CelRec) : Bool :=
  isLog r.kind || decide (r.kind < 0x10 ∧ r.kind ≠ 0x02) ||
    (decide (r.chunk ≤ r.seq) && s.setChunks r.kind r.inst (r.seq - r.chunk) != [])

/-- Whether the mount can succeed, R569: a segment header was read, and the anti-rollback and identity records are there. -/
def State.canMount (s : State) (headers : Bool) : Bool :=
  headers && s.cel.recs.any (fun r => r.kind == 0x01) && (s.celSet 0x02 0).isSome

/-- The Cellar is mounted, R568, R573, R580: `torn` records were found torn; partial sets are discarded. -/
def State.mount (s : State) (headers : Bool) (torn : Nat) : State :=
  if !s.canMount headers then s.pf Reg.CEL_STAT 31 30 3
  else
    let keep := s.cel.recs.filter s.whole
    let n := min 255 (torn + (s.cel.recs.length - keep.length))
    let next := keep.foldl (fun m r => max m (r.seq + 1)) 0
    let s1 := ({ s with cel := { s.cel with recs := keep, fails := 0 } } : State).wr Reg.CEL_STAT (toW (2 ^ 30 + n * 2 ^ 8))
    let arb := fun (u : State) (k : Nat) =>
      u.wr (Reg.SEC_ARB k) (toW (([0, 1].map (fun i => (wordAt ((s1.celState 0x01 i).getD []) k).toNat)).foldl max 0))
    ((s1.wrPair Reg.CEL_SEQ_LO Reg.CEL_SEQ_HI next).forEach (List.range 4) arb).showCel

/-- The boot record's count (R574): the boots recorded so far. -/
def State.bootsRecorded (s : State) : Nat :=
  match newestRec (s.cel.recs.filter (fun r => r.kind == 0x33)) with
  | some r => (wordAt r.payload 0).toNat
  | none => 0

/-- The recovery firmware or device firmware starts (step 6 of R597): its version, the boot record, the fault records torn by the reset, the
shutdown record that R528 requires, and the notices of the commands that the reset ended (R426). -/
def State.firmwareStart (s : State) (version : Word) (sramOk : Bool) : State :=
  let cause := s.rf Reg.GL_STATE 23 16
  let n := s.bootsRecorded + 1
  let s1 := (s.wr Reg.GL_FW_VER version).pf Reg.SEC_STAT 15 0 n
  let s2 := if s1.celMode = 1 then s1.orderRecord 0x33 [toW n, toW cause, toW (s1.rf Reg.SEC_STAT 15 0)] else s1
  let s3 := s2.forEach s2.boot.torn fun u ws => u.faultRecord 3 ws
  let owed := s.rb Reg.TH_SHDN 31 && !s.rb Reg.TH_SHDN 30
  let s4 := if owed then (s3.orderRecord 0x31 (s3.shutdownRecord true)).bump (Cnt.thPackage 3) else s3
  let det := s.rf Reg.TH_SHDN 29 29 * 2 ^ 16 + s.rf Reg.TH_SHDN 15 0
  let s5 := if cause = 5 then s4.hubEvent 0x65 det else s4
  let s6 := if cause = 5 ∨ owed then s5.hubEvent 0x67 (b2n owed) else s5
  let refs := s6.host.aborted
  let s7 := ({ s6 with host := { s6.host with aborted := [] }, boot := { s6.boot with torn := [] } } : State).pb Reg.TH_STAT 2 (s6.rb Reg.TH_SHDN 31)
  if sramOk then s7.forEach refs fun u r => u.notify r.mb (noticePkt stABORTED r true [])
  else s7.forEach (List.range 4) fun u m => u.notify m (eventPkt 0x07 0)

/-- The end of a boot (R437, R599): the device leaves BOOT, and FAULT_N follows R409 from then on. -/
def State.bootEnd (s : State) (dev cause : Nat) : State :=
  (({ s with boot := { s.boot with faultN := none } } : State).faultOut).enterState dev cause

/-- The hub and tile domains are off (R599, R602). -/
def State.hubOff (s : State) : State :=
  let s1 := (s.forEach s.tiles fun u t => (u.setTileState t 2).setLinkState t 0).forEach ((List.range 12).drop 2) fun u d => u.setDom d false
  { s1 with pw := { s1.pw with pen := 0, ppg := 0 } }

/-- The recovery firmware of R602. -/
def State.recovery (s : State) (sramOk : Bool) (dev cause : Nat) : State :=
  let sel := s.rf Reg.GL_BOOT 1 0
  let s1 := (s.hubOff.pb Reg.GL_BOOT 2 true).firmwareStart 1 sramOk
  (({ s1 with host := { s1.host with spiPeriph := sel == 2 || sel == 3 } } : State)).bootEnd dev cause

/-- Step 8 of R597 for a tile: brought to RUN with its ADCs in foreground calibration, or left unavailable (R557, R599). -/
def State.bootTile (s : State) (t : Nat) (bad : Bool) : State :=
  if bad then
    let s1 := (((s.setDom (8 + t) false).setTileState t 6).setLinkState t 0).pb Reg.GL_UNIT_AVAIL (8 + t) true
    let s2 := ((s1.pf Reg.PW_WAKE_REC 31 28 5).pb Reg.PW_WAKE_REC (24 + t) true).hubEvent 0x75 (t * 256 + 5)
    (s2.pwEvt 4).bump (Cnt.pwTile t 5)
  else
    let s1 := ((s.setDom (8 + t) true).setTileState t 0).setLinkState t 2
    let s2 := s1.setLnk t { s1.lnk t with trained := s1.now }
    let s3 := { s2 with
      pw := { s2.pw with pen := setBitN s2.pw.pen (1 + t), ppg := setBitN s2.pw.ppg (1 + t) }
      tb := { s2.tb with aligned := t :: s2.tb.aligned } }
    s3.forEach (tileAdcs t) fun u a => u.setAdc a { (u.adcOf a) with foreground := some (u.tick, none) }

/-- The saved Press sets of every path, staged (step 8 of R597). -/
def State.stageSets (s : State) : State :=
  s.forEach (s.paths.filter (fun q => (s.celSet 0x11 q).isSome)) fun u q =>
    let ws := ((u.celSet 0x11 q).getD []).take 128
    u.forEach (List.range 128) fun v i => v.stage (Reg.PR_COEF_LO q 0 + 4 * i) (wordAt ws i)

/-- Steps 7 to 9 of R597: the hub, the kernels and the calibration image, the tiles, the saved sets, and the cascade ports. -/
def State.bringUp (s : State) (badTiles : Nat) : State :=
  let s1 := s.forEach [2, 7, 3, 4, 5, 6] fun u d => u.setDom d true
  let s2 := { s1 with pw := { s1.pw with pen := setBitN s1.pw.pen 0, ppg := setBitN s1.pw.ppg 0 } }
  let s3 := s2.forEach [1, 2, 3] fun u k =>
    match u.celSet 0x13 k with
    | some ws => u.installKernel (wordBytes ws)
    | none => u
  let s4 := match s3.celSet 0x12 0 with
    | some ws => { s3 with cel := { s3.cel with calImage := wordBytes ws } }
    | none => s3
  let s5 := (s4.forEach s4.tiles fun u t => u.bootTile t (bitN badTiles t)).stageSets
  let s6 := match s5.calBest s5.paths with
    | some (_, ws) => s5.calStage ws (s5.calMatch ws)
    | none => s5
  s6.forEach ([4, 5].filter s6.part.hasLink) fun u l => u.startTrain l none

/-- The verification of a flash bank at boot, R579, R581: its code goes to ver_a or ver_b. -/
def State.tryBank (s : State) (b : Nat) : State × Bool :=
  let code := s.verify (s.flashOf b) 1 none
  ((if b = 0 then s.pf Reg.GL_BOOT 23 20 code else s.pf Reg.GL_BOOT 19 16 code).lastVer code, code == 0)

/-- The image that runs and its bank (steps 3 to 5 of R597, R604). -/
def State.findImage (s : State) : State × Option (List Byte × Nat) :=
  let sel := s.rf Reg.GL_BOOT 1 0
  if sel = 2 ∧ s.cel.held ≠ [] then
    let code := s.verify s.cel.held 1 none
    (s.lastVer code, if code = 0 then some (s.cel.held, 0) else none)
  else if sel = 1 ∨ sel = 2 then (s, none)
  else
    let b := match s.celState 0x03 0 with
      | some ws => (wordAt ws 0).toNat % 2
      | none => 0
    let (s1, ok1) := s.tryBank b
    if ok1 then (s1, some (s1.flashOf b, b))
    else
      let (s2, ok2) := s1.tryBank (1 - b)
      (s2, if ok2 then some (s2.flashOf (1 - b), 1 - b) else none)

/-- BOOT, R597-R604: from the release of reset to STANDBY, RECOVERY or FAULT. `sel` is BOOT_SEL; `headers` tells whether a segment header of the
Cellar can be read and `torn` how many torn records are found; `version` is that of the device firmware; `hubOk` tells whether the steps of the
hub succeed, `badTiles` which tiles fail; `sramOk` whether the retained table of commands is whole (R426). -/
def execBoot (sel : Nat) (headers : Bool) (torn : Nat) (version : Word) (hubOk : Bool) (badTiles : Nat) (sramOk : Bool) (s : State) : Out :=
  .next <|
    if s.dev ≠ 1 then s
    else
      let s1 := (s.pf Reg.GL_BOOT 1 0 sel).mount headers torn
      if s1.celMode = 3 then s1.recovery sramOk 8 0x08
      else
        let (s2, image) := s1.findImage
        match image with
        | none => s2.recovery sramOk 6 0x07
        | some (bs, bank) =>
          let s3 := (({ s2 with cel := { s2.cel with running := bs } } : State).pf Reg.SEC_STAT 31 31 bank).firmwareStart version sramOk
          if 3 ≤ s.rf Reg.GL_BOOT 11 8 ∧ s.rf Reg.GL_STATE 23 16 = 3 then s3.hubOff.bootEnd 8 0x08
          else if !hubOk then s3.hubOff.bootEnd 6 0x07
          else (s3.bringUp badTiles).bootEnd 2 0x06

end Sys2Proof.Machine
end

