-- ==== Sys2Proof/Machine/Host.lean ====
section
/-!
DEFINITION. Mailboxes as the host and the SPI port see them (R420-R425, R434, R603), framing (R423, R431), and the system and state commands
(R437, R438, R444, R445).
-/
namespace Sys2Proof.Machine

/-! ### Mailbox accesses -/

/-- Whether the host reaches the queues of a mailbox over PCIe (R420, R421): not those of a neighbour, nor mailbox 0 in SPI peripheral mode. -/
def State.hostMbox (s : State) (m : Nat) : Bool :=
  decide (m < 8 ∧ m ≠ 4 ∧ m ≠ 5) && s.domOn 1 && s.dev != 0 && !(m == 0 && s.host.spiPeriph)

/-- Whether a mailbox is locked with debug (R421, R586). -/
def State.mboxLocked (s : State) (m : Nat) : Bool := (m == 6 || m == 7) && !s.debugOpen 0

/-- Push one word (R422): a full queue discards it. A locked mailbox's word is acknowledged DENIED (R423). -/
def State.pushWord (s : State) (m : Nat) (w : Word) : State :=
  let b := s.mbox m
  if s.mboxLocked m then
    (s.pf (Reg.MB_ACK m) 31 16 (s.rf (Reg.MB_ACK m) 31 16 + 1)).pf (Reg.MB_ACK m) 15 0 stDENIED
  else if 16 ≤ b.h2d.length then s.mbEvt m 0
  else s.setMbox m { b with h2d := b.h2d ++ [w] }

/-- A doorbell publishes every word pushed before it (R422). -/
def State.publish (s : State) (m : Nat) : State :=
  let b := s.mbox m
  s.setMbox m { b with published := b.h2d.length, dbTick := s.tick }

/-- MB_H2D_DATA_WRITE, R421, R422. -/
def execMbH2dDataWrite (m : Nat) (w : Word) (s : State) : Out := .next (if s.hostMbox m then s.pushWord m w else s)

/-- MB_DB_WRITE, R422. -/
def execMbDbWrite (m : Nat) (w : Word) (s : State) : Out := .next (if s.hostMbox m ∧ bit w 0 then s.publish m else s)

/-- A packet whose tag a framing error reports. -/
def barePkt (m tag : Nat) : Pkt := { mb := m, tag := tag, quiet := false, flags := 0, params := [] }

/-- Whether the oldest published words of a mailbox break the framing (R423): a parameter length above 14, or a packet still incomplete. -/
def Mbox.broken (b : Mbox) : Bool :=
  match b.h2d with
  | [] => false
  | h :: _ => decide (0 < b.published) && (decide (14 < fld h 19 14) || decide (b.published < fld h 19 14 + 1))

/-- PACKET_TIMEOUT, R423: a published packet is incomplete 1 ms after its last doorbell, or its header gives a length above 14: every word in the
queue is discarded and one BAD_PARAM reply carries the header's tag. -/
def execPacketTimeout (m : Nat) (s : State) : Out :=
  let b := s.mbox m
  .next <|
    if !(decide (m < 8) && s.domOn 1 && decide (2 ≤ s.dev) && b.broken && b.reply == none) then s
    else
      let h := wordAt b.h2d 0
      let s1 := if 14 < fld h 19 14 then s else s.advanceTo (b.dbTick + 1600000)
      ((s1.ackWords m b.h2d.length stPARAM).mbEvt m 4).reply (barePkt m (fld h 13 6)) stPARAM []

/-- A reply that waits is pushed when there is room (R424, R434). -/
def State.pushReply (s : State) (m : Nat) : State :=
  let b := s.mbox m
  match b.reply with
  | some p => if b.fits p then (s.setMbox m { b with reply := none }).pushPkt m p else s
  | none => s

/-- The host has read a packet: when it is the reply of SYS_RESTART, device firmware restarts (R444). -/
def State.packetRead (s : State) (m : Nat) (p : OutPkt) : State :=
  match s.host.restart with
  | some (r, _) => if r.mb = m ∧ r.tag = p.tag ∧ !p.notice then s.warmReset 0x04 5 else s
  | none => s

/-- Pop one word of a device-to-host queue (R424): the word, and the state after. -/
def State.popWord (s : State) (m : Nat) : State × Word :=
  let b := s.mbox m
  match b.d2h with
  | [] => (s.mbEvt m 1, 0)
  | p :: rest =>
    let w := wordAt p.words b.popped
    if p.words.length ≤ b.popped + 1 then
      (((s.setMbox m { b with d2h := rest, popped := 0 }).pushReply m).packetRead m p, w)
    else (s.setMbox m { b with popped := b.popped + 1 }, w)

/-- MB_D2H_DATA_READ, R424. -/
def execMbD2hDataRead (m : Nat) (s : State) : Out :=
  .next (if s.hostMbox m ∧ !s.mboxLocked m then ((s.popWord m).1).answer (s.popWord m).2 else s.answer 0)

/-- D2H_RST_WRITE, R425. -/
def execD2hRstWrite (m : Nat) (s : State) : Out :=
  .next (if s.hostMbox m ∧ !s.mboxLocked m then (s.d2hReset m).pushReply m else s)

/-- MB_LOST_READ, R449. -/
def execMbLostRead (m : Nat) (s : State) : Out :=
  .next (if s.hostMbox m then (s.answer (s.rd (Reg.MB_LOST m))).wr (Reg.MB_LOST m) 0 else s.answer 0)

/-- Send the packets in the queue of a cascade mailbox to the neighbour as MBOX messages (R421, R367). -/
def State.sendMbox (s : State) (m : Nat) : State :=
  let b := s.mbox m
  if s.part.hasLink m ∧ s.linkState m = 2 then
    (b.d2h.foldl (fun (u : State) p => u.sendMsg m 0xA 0 p.words) s).setMbox m { b with d2h := [], popped := 0 }
  else s

/-- NOTICE_PUSH, R434: a reply that waits, or the oldest waiting notice, is pushed when the queue has room; NOTICE_LOST follows the backlog. The
queue of a cascade mailbox is sent first. -/
def execNoticePush (m : Nat) (s : State) : Out :=
  .next <|
    if 8 ≤ m ∨ !s.domOn 1 then s
    else
      let s1 := (if m = 4 ∨ m = 5 then s.sendMbox m else s).pushReply m
      let b := s1.mbox m
      if b.reply ≠ none then s1
      else match b.waiting with
        | p :: rest => if b.fits p then (s1.setMbox m { b with waiting := rest }).pushPkt m p else s1
        | [] =>
          let p := eventPkt 0x08 b.lostNew
          if 0 < b.lostNew ∧ b.fits p then (s1.setMbox m { b with lostNew := 0 }).pushPkt m p else s1

/-- MBOX_MESSAGE, R367, R421: words from the neighbour on cascade port `k` arrive for mailbox 4 + k, and are published. -/
def execMboxMessage (k : Nat) (ws : List Word) (s : State) : Out :=
  .next <|
    if 2 ≤ k ∨ !s.part.hasLink (4 + k) ∨ s.linkState (4 + k) ≠ 2 then s
    else ((s.popMsg (4 + k) 0xA).forEach ws fun u w => u.pushWord (4 + k) w).publish (4 + k)

/-! ### The SPI port in peripheral mode, R420, R603 -/

def State.spiOn (s : State) : Bool := s.host.spiPeriph && s.domOn 1 && s.dev != 0

/-- SPI_WRITE_WORDS, R420. -/
def execSpiWriteWords (ws : List Word) (s : State) : Out :=
  .next (if s.spiOn then (s.forEach ws fun u w => u.pushWord 0 w).publish 0 else s)

/-- SPI_READ_WORDS, R420: the words read, oldest first. -/
def execSpiReadWords (n : Nat) (s : State) : Out :=
  .next <|
    if !s.spiOn then s
    else
      let r := (List.range n).foldl (fun (a : State × List Word) _ => ((a.1.popWord 0).1, a.2 ++ [(a.1.popWord 0).2])) (s, [])
      { r.1 with host := { r.1.host with spiOut := r.2 } }

/-- SPI_READ_STATUS, R420. -/
def execSpiReadStatus (s : State) : Out :=
  .next (if s.spiOn then
    { s with host := { s.host with spiOut := [s.peek (Reg.MB_ACK 0), s.peek (Reg.MB_H2D_STAT 0), s.peek (Reg.MB_D2H_STAT 0)] } }
  else s)

/-- SPI_WRITE_LOAD_BYTES, R603: each word, most significant byte first, joins the load stream of 64 KiB. -/
def execSpiWriteLoadBytes (ws : List Word) (s : State) : Out :=
  .next <|
    if !s.spiOn then s
    else
      let all := s.host.spiStream ++ ws.flatMap (fun w => (leBytes w).reverse)
      let s1 := { s with host := { s.host with spiStream := all.take 65536 } }
      (if 65536 < all.length then s1.mbEvt 0 4 else s1).spiLoad

/-! ### Framing and undefined opcodes -/

/-- The opcodes that the manual defines outside the test and debug range. -/
def opDefined (op : Nat) : Bool :=
  let rng := fun a b => decide (a ≤ op ∧ op ≤ b)
  rng 0x000 0x008 || rng 0x030 0x034 || rng 0x040 0x044 || rng 0x100 0x108 || rng 0x200 0x207 || rng 0x210 0x214 || rng 0x300 0x307 ||
    rng 0x400 0x407 || rng 0x500 0x509 || rng 0x520 0x527 || rng 0x600 0x60D || rng 0x700 0x706 || rng 0x800 0x803 || rng 0x840 0x844 ||
    rng 0x880 0x885 || rng 0x900 0x908 || rng 0x940 0x943 || rng 0xA00 0xA04 || rng 0xA40 0xA45 || rng 0xA80 0xA83

/-- A command of the range `ok` that device firmware takes and answers with BAD_OPCODE unless an earlier step rejects it. -/
def State.refuseOp (s : State) (op : Nat) (p : Pkt) (status : Nat) (res : List Word) : State :=
  if !s.takes op p then s
  else if s.mboxLocked p.mb then (s.takeCmd op p).pf (Reg.MB_ACK p.mb) 15 0 stDENIED
  else if 14 < p.params.length then
    ((s.ackWords p.mb (max (s.mbox p.mb).h2d.length (p.params.length + 1)) stPARAM).mbEvt p.mb 4).reply p stPARAM []
  else (s.takeCmd op p).reply p status res

/-- UNDEFINED_OPCODE, R431 step 1. -/
def execUndefinedOpcode (op : Nat) (p : Pkt) (s : State) : Out :=
  .next (if opDefined op ∨ 0xF00 ≤ op then s else s.refuseOp op p stOPCODE [])

/-- TEST_DEBUG_CMD, R629: judged on its tag, the state and the debug lock; the firmware of this model provides no command of the range. -/
def execTestDebugCmd (op : Nat) (p : Pkt) (s : State) : Out :=
  .next <|
    if op < 0xF00 ∨ 0xFFF < op then s
    else if p.tag = 0 ∨ 255 < p.tag ∨ s.tagInUse p.mb p.tag then s.refuseOp op p stPARAM []
    else if !acceptedIn op s.dev then s.refuseOp op p stSTATE [s.stateWord]
    else if !s.debugOpen 2 then s.refuseOp op p stDENIED []
    else s.refuseOp op p stOPCODE []

/-! ### System and state, R437, R438, R444 -/

/-- SYS_NOP. -/
def execSysNop (p : Pkt) (s : State) : Out := .next (s.command 0x000 p (p.flags == 0) true true fun u => (u, .ok p.params))

/-- SYS_INFO. -/
def execSysInfo (p : Pkt) (s : State) : Out :=
  .next (s.command 0x001 p (p.is 0) true true fun u =>
    (u, .ok [u.rd Reg.ID_DEVICE, u.rd Reg.GL_FW_VER, u.rd Reg.GL_CHIAST, u.rd Reg.GL_STATE, u.rd Reg.GL_PKG_POS]))

/-- SYS_STATE_GET. -/
def execSysStateGet (p : Pkt) (s : State) : Out :=
  .next (s.command 0x002 p (p.is 0) true true fun u => (u, .ok [u.rd Reg.GL_STATE]))

/-- The transitions of R437 with cause SYS_STATE_SET. -/
def stateMove (old new : Nat) : Bool :=
  [(2, 3), (3, 4), (4, 3), (5, 3), (3, 2), (5, 2), (6, 2), (2, 5), (3, 5), (2, 6), (8, 6)].contains (old, new)

/-- Whether the calibration data of a tile is loaded (R309, R549): its bank has not failed and its ADCs are calibrated. -/
def State.calLoaded (s : State) (t : Nat) : Bool :=
  !s.rb Reg.PW_RET_FAIL (12 + t) && (tileAdcs t).all (fun a => (s.adcOf a).foreground.isNone)

/-- The conditions of R438 that are not met, as a mask. -/
def State.unmet (s : State) : Nat :=
  let member := s.rf Reg.CX_CFG 1 0 == 2
  let c0 := (s.tiles.filter (fun t => !s.faulted 3 t)).all (fun t => s.tileState t == 0 && s.linkState t == 2)
  let mounted := s.celMode == 1 || s.celMode == 2
  let c1 := mounted && (s.rd Reg.PW_RET_FAIL).toNat == 0 && (s.tiles.filter (fun t => s.tileState t == 0)).all s.calLoaded
  let c2 := s.rb Reg.TB_STATUS 0 && (!member || s.rb Reg.CX_TSTAT 31)
  let c3 := (List.range 4).any s.carValid
  let lead := s.rf Reg.CX_CFG 1 0 == 1
  let c4 := !([4, 5].any (fun l => s.part.hasLink l && s.rb (Reg.AX_STATUS l) 11)) && (!lead || s.rf Reg.GL_PKG_POS 3 2 != 0)
  maskOf ([c0, c1, c2, c3, c4, mounted].zipIdx.filterMap (fun (x : Bool × Nat) => if x.1 then none else some x.2))

/-- The conditions checked on a transition (R438). -/
def moveNeeds (old new : Nat) : Nat :=
  if new = 3 ∧ old ≠ 4 then 3 else if new = 4 then 0x1C else if new = 6 then 0x20 else 0

/-- SYS_STATE_SET, R437, R438: the reply follows the transition. -/
def execSysStateSet (p : Pkt) (s : State) : Out :=
  let t := p.arg 0
  .next (s.command 0x003 p (p.is 1 && decide (t ≤ 8)) (t == s.dev || stateMove s.dev t) true fun u =>
    if t = u.dev then (u, .ok [u.rd Reg.GL_STATE])
    else
      let bad := Nat.land u.unmet (moveNeeds u.dev t)
      if bad ≠ 0 then (u, .status stITEM [toW bad])
      else
        let u1 := u.enterState t 0x10
        (u1, .ok [u1.rd Reg.GL_STATE]))

/-- SYS_RESTART, R444. -/
def execSysRestart (p : Pkt) (s : State) : Out :=
  .next (s.command 0x007 p (p.is 0) true true fun u =>
    ({ u with host := { u.host with restart := some (p.ref 0x007 0, u.tick) } }, .ok []))

/-- SYS_RESTART_EXPIRY, R444: 10 ms after the reply. -/
def execSysRestartExpiry (s : State) : Out :=
  .next <| match s.host.restart with
  | some (_, t) => (s.advanceTo (t + 16000000)).warmReset 0x04 5
  | none => s

/-- SYS_EVENT_CFG, R445. -/
def execSysEventCfg (p : Pkt) (s : State) : Out :=
  let m := p.arg 0
  .next (s.command 0x008 p (p.is 2 && decide (m < 4 ∧ p.arg 1 < 64)) true true fun u =>
    let b := u.mbox m
    (u.setMbox m { b with evMask := p.arg 1 }, .ok [toW b.evMask]))

end Sys2Proof.Machine
end

