-- ==== Sys2Proof/Machine/Selvedge.lean ====
section
/-!
DEFINITION. Selvedge: judging check failures (R398, R399), the spine clock monitor, repair self-tests (R405, R406), fault injection
(R410), the fault commands (R411) and the loss of a package (R24).
-/
namespace Sys2Proof.Machine

/-! ### Check points, R394 -/

/-- The unit that a check point owns: 0 none, 1 a path, 2 a row, 3 the hub, 4 a solver core. -/
def chkOwner (c : Nat) : Nat :=
  if 3 ≤ c ∧ c ≤ 8 then 3
  else if c = 0x10 ∨ c = 0x11 ∨ (0x13 ≤ c ∧ c ≤ 0x19) then 1
  else if c = 0x20 then 2
  else if c = 0x30 then 4
  else 0

/-- The codes of R394. -/
def chkCode (c : Nat) : Bool := decide ((1 ≤ c ∧ c ≤ 8) ∨ (0x10 ≤ c ∧ c ≤ 0x19) ∨ c = 0x20 ∨ c = 0x30)

/-- Whether a check point of R394 exists at a unit of this part: hub check points ignore the unit, 0x10-0x19 name a path, 0x20 a row and
0x30 a core (R410). -/
def State.chkAt (s : State) (c unit : Nat) : Bool :=
  chkCode c &&
    (if c ≤ 8 then true
    else if c = 0x20 then s.unitPresent 1 unit
    else if c = 0x30 then decide (unit < 32)
    else s.unitPresent 0 unit)

/-- The cause of a fault that a check point declares, R399. -/
def chkCause (c : Nat) : Nat :=
  if c ≤ 8 then 0x09 else if c ≤ 0x11 then 0x03 else if c ≤ 0x15 then 0x01 else if c ≤ 0x19 then 0x02 else 0x06

/-- fault_n, 2-8 (R414). -/
def State.faultN (s : State) : Nat := min 8 (max 2 (s.rf Reg.SV_CTRL 3 0))

/-- Add what was seen at a check point to a list of counts by key. -/
def addSeen (acc : Sparse (Nat × Nat)) (c : Nat × Nat × Nat) : Sparse (Nat × Nat) :=
  let old := Sparse.get (fun _ => (0, 0)) acc c.1
  Sparse.set (fun _ => (0, 0)) acc c.1 (old.1 + c.2.1, old.2 + c.2.2)

/-- Declare the fault that a check point has reached (R398, R399, R401). -/
def State.declareChk (s : State) (key : Nat) : State :=
  let c := key / 256
  let unit := key % 256
  if chkOwner c = 1 then s.declareFault 0 unit (chkCause c) c (if c ≤ 0x11 then 4 else unit / 24)
  else if chkOwner c = 2 then s.declareFault 1 unit (chkCause c) c (unit / 6)
  else s

/-- The ticks of one second. -/
def tickS : Nat := 1600000000

/-- CHECK_INTERVAL_END, R398: a 1 us interval of local time ends. `seen` lists the check points that received words in it and whose
failures no other command has counted; failures that an injection caused since the last interval, which it has counted, join them in the
judgement. On the tick at which an interval begins, the one before it ends. A check point that received no words breaks its run. -/
def execCheckIntervalEnd (seen : List CheckSeen) (s : State) : Out :=
  .next <|
    if s.dev < 2 ∨ !s.domOn 1 then s
    else
      let cur := nsOf s.now / 1000
      let begins := decide (s.tickReaching (cur * 1000 * nsU) = s.tick)
      let iv := if begins ∧ 0 < cur ∧ s.sv.interval + 1 ≠ cur ∧ s.sv.interval ≠ cur then cur - 1
        else if cur = s.sv.interval then cur + 1 else cur
      let s0 := s.advanceTo (s.tickReaching ((iv + 1) * 1000 * nsU))
      let mine := (seen.filter (fun x => s.chkAt x.chk x.unit)).map (fun x => (256 * x.chk + (if x.chk ≤ 8 then 0 else x.unit), x.fails, x.poisoned))
      let all := mine.foldl addSeen s.sv.acc
      let s1 := s0.forEach mine fun u (x : Nat × Nat × Nat) => u.countCheck (x.1 / 256) (x.1 % 256) x.2.1 x.2.2
      let old := fun (k : Nat) => if iv = s.sv.interval + 1 then Sparse.get (fun _ => 0) s.sv.runs k else 0
      let failed := all.filter (fun (x : Nat × Nat × Nat) => decide (0 < x.2.1) && decide (chkOwner (x.1 / 256) ≠ 0))
      let runs := failed.map (fun (x : Nat × Nat × Nat) => (x.1, old x.1 + 1))
      let recent := s.sv.recent.filter (fun (x : Nat × Nat × Nat) => decide (s0.tick < x.1 + tickS)) ++
        failed.map (fun (x : Nat × Nat × Nat) => (s0.tick, x.1, x.2.1))
      let within := fun (k : Nat) => ((recent.filter (fun (x : Nat × Nat × Nat) => x.2.1 = k)).map (fun (x : Nat × Nat × Nat) => x.2.2)).sum
      let burst := s.rf Reg.SV_CTRL 31 16
      let due := (runs.filter (fun (x : Nat × Nat) => decide (s.faultN ≤ x.2) || (burst != 0 && decide (burst ≤ within x.1)))).map Prod.fst
      let s2 := { s1 with sv := { s1.sv with acc := [], runs := runs, recent := recent, interval := iv } }
      let s3 := s2.forEach due State.declareChk
      match due.find? (fun k => chkOwner (k / 256) == 3) with
      | some k => s3.hubFault 0x09 (k / 256) 0
      | none => s3

/-- SPINE_FAULT, R399: the branch of parcel `q` is missing, or off frequency by more than 1 %, for 64 ns. -/
def execSpineFault (q : Nat) (s : State) : Out := .next (if s.domOn 1 ∧ 2 ≤ s.dev then s.declareFault 2 q 0x07 0 (q / 2) else s)

/-! ### Repair -/

/-- The parents of a unit, R405. -/
def parents (kind unit : Nat) : List (Nat × Nat) :=
  if kind = 0 then [(2, unit / 12), (3, unit / 24)]
  else if kind = 1 then [(2, unit / 3), (3, unit / 6)]
  else if kind = 2 then [(3, unit / 2)]
  else []

/-- A parent of the unit is faulted. -/
def State.parentFaulted (s : State) (kind unit : Nat) : Bool := (parents kind unit).any (fun x => s.faulted x.1 x.2)

/-- Whether the cause recorded for a unit still holds, where the block itself shows it (R405): an ADC without four usable slices, or a
tile link that is not ACTIVE. Of the other causes the self-test's outcome tells. -/
def State.causeHolds (s : State) (kind unit : Nat) : Bool :=
  let w := s.rd (causeReg kind unit)
  let dead := fun (a : Nat) => s.rf (adcStat a) 31 29 == 4
  if fld w 23 16 = 0x04 then dead unit
  else if fld w 23 16 = 0x06 ∧ fld w 15 8 = 0 then dead (96 + unit)
  else if fld w 23 16 = 0x08 then s.linkState unit != 2
  else false

/-- The front-end bus of a row is repaired (R257, R405): fe_fail is cleared and its runs of mismatches start again. -/
def State.mendBus (s : State) (r : Nat) : State :=
  (s.pb (Reg.ROW_TX_STAT r) 16 false).setRow r { s.rowOf r with verifyRun := 0, padRun := 0 }

/-- SELF_TEST_DONE, R405, R406: the self-test of a unit ends with an outcome. It passes only when the unit's cause no longer holds; a path
faulted for its bus brings the bus back to service. -/
def execSelfTestDone (kind unit : Nat) (pass : Bool) (s : State) : Out :=
  .next <|
    match s.sv.tests.find? (fun t => t.kind = kind ∧ t.unit = unit) with
    | none => s
    | some t =>
      let s1 := { s with sv := { s.sv with tests := s.sv.tests.filter (· ≠ t) } }
      if pass && !t.spoiled && !s.parentFaulted kind unit && !s.causeHolds kind unit then
        let s2 := (s1.when (kind == 0 && s1.rf (causeReg 0 unit) 23 16 == 0x05) (fun u => u.mendBus (unit / 4))).repairUnit kind unit
        s2.finish t.ref stOK [s2.rd (causeReg kind unit)]
      else s1.finish t.ref stITEM [s1.rd (causeReg kind unit)]

/-! ### Injection, R410 -/

/-- Start an injection with the parameters in SV_INJECT. -/
def State.startInject (s : State) (ref : Option CmdRef) : State :=
  let i : Injection := {
    chk := s.rf Reg.SV_INJECT 23 16, unit := s.rf Reg.SV_INJECT 15 8, left := max 1 (s.rf Reg.SV_INJECT 7 0)
    mode := s.rf Reg.SV_INJECT 27 27, ref := ref }
  { s with sv := { s.sv with inject := some i } }.pb Reg.SV_STAT 1 true

/-- A write of SV_INJECT: outside TEST it is discarded with inj_err; go with parameters that break R410, or during an injection, likewise.
A write without go sets the fields. -/
def State.writeSvInject (s : State) (w : Word) : State :=
  let bad := bit w 31 && (!s.chkAt (fld w 23 16) (fld w 15 8) || s.sv.inject.isSome)
  if s.dev ≠ 5 ∨ bad then s.pb Reg.SV_STAT 0 true
  else
    let s1 := s.wr Reg.SV_INJECT (maskW w 0x08FFFFFF)
    if bit w 31 then s1.startInject none else s1

/-- SV_INJECT_GO, R410. -/
def execSvInjectGo (w : Word) (s : State) : Out := .next (s.access Reg.SV_INJECT fun s => s.writeSvInject w)

/-- INJECTION_DONE, R410: the words that the injection in progress has left have passed its check point. -/
def execInjectionDone (s : State) : Out :=
  .next <| match s.sv.inject with
  | some i => s.injectCount i i.left
  | none => s

/-! ### The fault summary, R409 -/

/-- Whether bit `b` of the summary may not be cleared: a unit of its class is still faulted, the chain is still short, or WAKE_FAIL
persists. -/
def State.sumHeld (s : State) (b : Nat) : Bool :=
  if b < 4 then (List.range 96).any (fun u => s.unitPresent b u && s.faulted b u)
  else if b = 5 then s.isLead && decide (s.rf Reg.GL_PKG_POS 11 8 < s.rf Reg.GL_PKG_POS 3 2 + 1)
  else b == 8 && s.pkgState == 4

/-- Clear bits of the fault summary (R409); FAULT_N follows. -/
def State.clearSum (s : State) (mask : Nat) : State :=
  let keep := maskOf ((List.range 9).filter (fun b => s.rb Reg.SV_FAULT_SUM b && (!bitN mask b || s.sumHeld b)))
  (s.pf Reg.SV_FAULT_SUM 8 0 keep).faultOut

/-! ### Commands, R411 -/

/-- SV_STATUS. -/
def execSvStatus (p : Pkt) (s : State) : Out :=
  .next (s.command 0x040 p (p.is 2 && s.unitPresent (p.arg 0) (p.arg 1)) true true fun u =>
    (u, .ok [u.rd (causeReg (p.arg 0) (p.arg 1)), u.peek Reg.SV_FAULT_SUM, u.rd Reg.SV_LAST]))

/-- SV_REPAIR, R405. -/
def execSvRepair (p : Pkt) (s : State) : Out :=
  let k := p.arg 0
  let n := p.arg 1
  let key := k * 256 + n
  .next (s.command 0x041 p (p.is 2 && s.unitPresent k n && s.faulted k n) true true fun u =>
    if u.sv.tests.any (fun t => (t.kind, t.unit) = (k, n) ∨ (t.kind, t.unit) ∈ parents k n) then (u, .status stBUSY [])
    else if u.parentFaulted k n then (u, .status stITEM [u.rd (causeReg k n)])
    else
      let t : SelfTest := { kind := k, unit := n, ref := p.ref 0x041 key, start := u.tick }
      ({ u with sv := { u.sv with tests := u.sv.tests ++ [t] } }, .accepted key []))

/-- SV_DECLARE, R399, R411. -/
def execSvDeclare (p : Pkt) (s : State) : Out :=
  let k := p.arg 0
  let n := p.arg 1
  .next (s.command 0x042 p (p.is 2 && s.unitPresent k n && !s.faulted k n) true true fun u =>
    let u1 := u.declareFault k n 0x0A 0 4
    (u1, .ok [u1.rd (causeReg k n)]))

/-- SV_INJECT, R410. -/
def execSvInject (p : Pkt) (s : State) : Out :=
  let c := p.arg 0
  let unit := p.arg 1
  .next (s.command 0x043 p (p.is 4 && s.chkAt c unit && decide (unit < 256 ∧ p.arg 2 < 256 ∧ p.arg 3 < 2)) true true fun u =>
    if u.sv.inject.isSome then (u, .status stBUSY [])
    else
      let u1 := u.wr Reg.SV_INJECT (toW (p.arg 3 * 2 ^ 27 + c * 2 ^ 16 + unit * 2 ^ 8 + p.arg 2))
      (u1.startInject (some (p.ref 0x043 0)), .accepted 0 []))

/-- SV_CLEAR, R409. -/
def execSvClear (p : Pkt) (s : State) : Out :=
  .next (s.command 0x044 p (p.is 1 && decide (p.arg 0 < 512)) true true fun u =>
    let u1 := u.clearSum (p.arg 0)
    (u1, .ok [u1.peek Reg.SV_FAULT_SUM]))

/-! ### Package loss -/

/-- PACKAGE_LOSS, R24, R381: package `k` of the system fails. The lead goes on with packages 0 to k - 1; a package beyond k has lost its
upstream. -/
def execPackageLoss (k : Nat) (s : State) : Out :=
  .next <|
    if s.dev < 2 ∨ !s.domOn 1 then s
    else if s.isLead then (if 1 ≤ k ∧ k < s.reach then s.losePackage k else s)
    else if k < s.pkgNum then s.upstreamLost
    else s

end Sys2Proof.Machine
end

