-- ==== Sys2Proof/Machine/Ctrl.lean ====
section
/-!
DEFINITION. CTRL messages between the packages of a system (R367): copies of the lead's commands (R188, R352, R500, R546), the results that
the lead returns (R352), the steps of a system entry to DEEP (R546), the sections that the lead forwards (R163), and the loss of a
package (R24).
-/
namespace Sys2Proof.Machine

/-- A command reference that no mailbox holds: the system snapshot of a member (R500). -/
def sysSnapRef : CmdRef := { mb := 8, tag := 0, op := 0x800, key := 2 }

/-- The entry of the package to DEEP that is running. -/
def State.deepEntry (s : State) : Option PwEntry := s.pw.entries.find? (fun e => e.scope == 4 && e.sys)

/-- A member's system entry to DEEP ends by the lead's ABANDON (R546). -/
def State.ctrlAbandon (s : State) (w : Word) : State :=
  let s1 := { s with pw := { s.pw with orders := s.pw.orders.filter (fun e => !(e.scope == 4 && e.sys)) } }
  match s1.deepEntry with
  | some e => s1.abandonHere e (fld w 15 8) (fld w 7 0) 0
  | none => s1

/-- What a member does with a command copy of the lead. -/
def State.ctrlCopy (s : State) (op : Nat) (ws : List Word) : State :=
  let w := fun (i : Nat) => wordAt ws i
  let n := fun (i : Nat) => (wordAt ws i).toNat
  if op = 0x400 then
    if n 0 < 256 then s.forEach (List.range 4) fun u k => u.stage (Reg.SOL_SRS_W0 (n 0) + 4 * k) (w (1 + k)) else s
  else if op = 0x401 then
    if n 0 < 64 ∧ !s.jobActive (n 0) then
      (s.forEach (List.range 7) fun u k => u.poke (Reg.SOL_JOB_W0 (n 0) + 4 * k) (w (1 + k))).submitJob (n 0) none
    else s
  else if op = 0x402 then (if n 0 < 64 then s.cancelJob (n 0) else s)
  else if op = 0x406 then s.pb Reg.SOL_CTRL 8 (n 0 == 1)
  else if op = 0x700 then ((s.writeCalCfg (w 0)).poke Reg.CAL_SCHED (w 1)).poke Reg.CAL_TRK (w 2)
  else if op = 0x800 then
    if bit (w 0) 0 then s.fireLine 2 (s.ownTick (n 1 + n 2 * 2 ^ 32)) false [] true
    else match s.freeCmp with
      | some c => s.schedule c 2 (shortOf (ptpParam ws 1)) 0 (some sysSnapRef)
      | none => s
  else if op = 0x902 then
    if s.scopeBusy 4 then s else s.orderDeep none true (if ws.length = 3 then some (shortOf (ptpParam ws 0)) else none)
  else s

/-- The results that the lead returns to the package that has their path (R352): its registers, and its new alignment, staged unless the
host has staged that path since the last commit (R350). -/
def State.ctrlResult (s : State) (op : Nat) (ws : List Word) : State :=
  let a := (wordAt ws 0).toNat
  let p := a % 96
  if a / 96 ≠ s.pkgNum ∨ s.part.paths ≤ p then s
  else if op = 0x7F0 then s.forEach ((ws.drop 1).zipIdx) fun u (x : Word × Nat) => if x.2 < 5 then u.wr (Reg.CAL_TXM0 p + 4 * x.2) x.1 else u
  else if [Reg.TX_GAIN p, Reg.TX_DELAY p, Reg.RX_GAIN p, Reg.RX_DELAY p].any (fun r => s.cal.touched.contains r) then
    (s.pb (Reg.CAL_TXM1 p) 29 true).bump (Cnt.cal 6)
  else
    let have_ := wordAt ws 1
    let s1 := if bit have_ 0 then (s.swr (Reg.TX_GAIN p) (wordAt ws 2)).swr (Reg.TX_DELAY p) (wordAt ws 3) else s
    if bit have_ 1 then (s1.swr (Reg.RX_GAIN p) (wordAt ws 4)).swr (Reg.RX_DELAY p) (wordAt ws 5) else s1

/-- A section of the lead joins the section table of a member (R163). -/
def State.ctrlSection (s : State) (x : FwdSec) : State :=
  let (cfg, slot) := s.readUnder x.car x.frameId x.subframeId x.slotId
  let h : SecHdr := {
    port := 0, eaxc := 0, sectionId := x.sectionId, frameId := x.frameId, subframeId := x.subframeId, slotId := x.slotId
    symbolId := x.symbolId, startPrb := x.prbs.headD 0, numPrb := x.prbs.length }
  let sec : Sec := {
    hdr := h, entry := 256 + x.layer, dl := x.dl, typ := x.typ, car := x.car, mu := cfgMu cfg, ext := cfgExt cfg, slot := slot
    sym := x.symbolId, numSym := x.numSym, prbs := x.prbs, beam := x.beam, ue := x.ue, comp := (0, 16)
    air := s.airOf cfg slot x.symbolId, layer := x.layer }
  if 16384 ≤ s.tableUse ∨ 4 ≤ x.car ∨ 32 ≤ x.layer then s
  else { s with fh := { s.fh with secs := s.fh.secs ++ [sec], fwd := s.fh.fwd ++ [sec] } }

/-- A report reaches the lead: the end of a member's phase 1 (R546), the loss of a package (R24). -/
def State.ctrlReport (s : State) (op : Nat) (ws : List Word) : State :=
  let k := (wordAt ws 0).toNat
  if op = opReport then
    let w := wordAt ws 1
    if w = 0 then { s with pw := { s.pw with reports := s.pw.reports.filter (fun (x : Nat × Nat) => x.1 ≠ k) ++ [(k, 0)] } }
    else match s.deepEntry with
      | some e => (s.abandonHere e (fld w 15 8) (fld w 7 0) k).copyDown opAbandon [w]
      | none => s
  else if op = 0x7F2 ∧ 1 ≤ k ∧ k < s.reach then s.losePackage k
  else s

/-- Send a message on towards the lead or down the chain. -/
def State.passOn (s : State) (dir op : Nat) (ws : List Word) : State :=
  match s.port dir with
  | some l => s.sendMsg l 0xB op ws
  | none => s

/-- CTRL_MESSAGE, R188, R352, R367, R546: a message on cascade port `k`. What comes from the lead takes effect on a member and goes on down the
chain; what comes from a member goes on to the lead. -/
def execCtrlMessage (k : Nat) (m : CtrlMsg) (s : State) : Out :=
  let l := 4 + k
  .next <|
    if 2 ≤ k ∨ !s.linkUp l ∨ !s.domOn 4 then s
    else
      let s0 := s.popMsg l 0xB
      let up := s0.rf (Reg.CX_PORT l) 1 0 == 1
      if up ∧ !s0.isLead then
        match m with
        | .word op ws =>
          let s1 := s0.passOn 2 op ws
          if op = opGo then { s1 with pw := { s1.pw with sysGo := true } }
          else if op = opAbandon then s1.ctrlAbandon (wordAt ws 0)
          else if op = 0x7F0 ∨ op = 0x7F1 then s1.ctrlResult op ws
          else s1.ctrlCopy op ws
        | .sec x => s0.ctrlSection x
        | .state pkg dev avail => (if pkg < 4 then s0.hearState pkg dev avail else s0).passState 2 pkg dev avail
      else if up then s0
      else match m with
        | .word op ws => if s0.isLead then s0.ctrlReport op ws else s0.passOn 1 op ws
        | .sec _ => s0
        | .state pkg dev avail => (if 0 < pkg ∧ pkg < 4 then s0.hearState pkg dev avail else s0).passState 1 pkg dev avail

end Sys2Proof.Machine
end

