-- ==== Sys2Proof/Machine/Receive.lean ====
section
/-!
DEFINITION. The receive path: ADC slices and their calibration (R307-R317), overload and detectors (R318-R320), gain control
(R328-R331) and the receive commands (R332). ADCs are numbered 0-95 for the paths and 96 + r for the ORX of row r.
-/
namespace Sys2Proof.Machine

/-! ### ADC slices -/

/-- Fields of ADC_STAT (R338). -/
def State.adcState (s : State) (a : Nat) : Nat := s.rf (adcStat a) 31 29
def State.adcFailed (s : State) (a : Nat) : Nat := s.rf (adcStat a) 28 24
def State.adcSpare (s : State) (a : Nat) : Nat := s.rf (adcStat a) 23 21
def State.adcShadow (s : State) (a : Nat) : Nat := s.rf (adcStat a) 19 18
def State.adcPos (s : State) (a j : Nat) : Nat := s.rf (adcStat a) (3 * j + 2) (3 * j)

/-- cal_ms in ticks (R338). -/
def State.calTicks (s : State) (a : Nat) : Nat := max 1 (s.rf (adcCfg a) 7 0) * 1600000

/-- The state an ADC runs in (R315, R338): failed when a position is held by a failed slice, DEGRADED without a spare, else
rotating or frozen. -/
def State.adcRun (s : State) (a : Nat) : State :=
  let dead := (List.range 4).any (fun j => bitN (s.adcFailed a) (s.adcPos a j))
  s.pf (adcStat a) 31 29 (if dead then 4 else if s.adcSpare a = 7 then 3 else if s.rb (adcCfg a) 31 then 1 else 2)

/-- The spare begins to shadow position `j` (R310). -/
def State.beginShadow (s : State) (a j : Nat) : State :=
  (s.setAdc a { s.adcOf a with shadow := s.tick, timeoutFrom := s.tick, estimates := 0, last := [], converged := none, handNow := false }).pf
    (adcStat a) 19 18 j

/-- Event 0x14: an ADC slice failure (R504). -/
def State.sliceEvent (s : State) (a slice : Nat) : State :=
  let t := adcTile a
  s.tileEvent t 0x14 t false (toW (slice * 256 + (if a < 96 then a else 128 + (a - 96))))

/-- A slice is marked failed, counted and recorded (R314, R315). -/
def State.markSlice (s : State) (a slice : Nat) : State :=
  let s1 := (s.pf (adcStat a) 28 24 (setBitN (s.adcFailed a) slice)).pb (adcEvt a) 1 true
  (s1.bump (adcCnt a 2)).sliceEvent a slice

/-- The calibration data of a tile is loaded again once every ADC of the tile has finished its foreground calibration (R549, R551): the
bank's bit clears and the paths leave blank idle. -/
def State.calReloaded (s : State) (t : Nat) : State :=
  let adcs := (List.range 24).map (24 * t + ·) ++ (List.range 6).map (96 + 6 * t + ·)
  if !s.rb Reg.PW_RET_FAIL (12 + t) ∨ adcs.any (fun a => (s.adcOf a).foreground.isSome) then s
  else (s.pb Reg.PW_RET_FAIL (12 + t) false).forEach ((List.range 24).map (24 * t + ·)) fun u p =>
    if (u.txOf p).blankEnd = none ∧ !(u.rb (Reg.TX_CTRL p) 1 && !(u.txOf p).txen) then u.blankLeave p else u

/-- ADC_FG_CAL_DONE, R309: the foreground calibration of ADC `a` ends with its 20 measured sets (by slice and position). -/
def execAdcFgCalDone (a : Nat) (sets : List (List Int)) (s : State) : Out :=
  let x := s.adcOf a
  .next <| match x.foreground with
  | none => s
  | some (_, ref) =>
    if !s.adcPresent a then s
    else
      let st := (List.range (min 20 sets.length)).foldl (fun m k => Sparse.set (fun _ => []) m k (sets.getD k [])) x.sets
      let s1 := s.setAdc a { x with foreground := none, sets := st }
      let s2 := ((s1.beginShadow a (s1.adcShadow a)).adcRun a).bump (adcCnt a 6)
      let s3 := (if a < 96 then (s2.pb (Reg.RX_STATUS a) 4 true).rxUpdate a else s2).calReloaded (adcTile a)
      match ref with
      | some r => s3.finish r stOK [s3.rd (adcStat a)]
      | none => s3

/-- Whether two successive estimates agree (R310): less than 0.25 LSB (4 units of 1/16 LSB), 0.01 dB (75 steps of 2^-16 near 1.0)
and 50 fs (2 units of 25 fs). -/
def estimatesAgree (a b : List Int) : Bool :=
  a != [] && (a.getD 0 0 - b.getD 0 0).natAbs < 4 && (a.getD 1 0 - b.getD 1 0).natAbs ≤ 75 && (a.getD 2 0 - b.getD 2 0).natAbs < 2

/-- SPARE_ESTIMATE, R310: once a millisecond the terms of the shadowing slice (the spare, or the slice under retest) are
estimated; the estimate becomes its set for the position. -/
def execSpareEstimate (a : Nat) (est : List Int) (s : State) : Out :=
  let x := s.adcOf a
  let slice := match x.retest with
    | some (k, _) => k
    | none => s.adcSpare a
  .next <| if !s.adcPresent a ∨ slice = 7 ∨ !(s.adcState a = 1 ∨ s.adcState a = 5) then s
  else
    let s1 := s.advanceTo (x.shadow + (x.estimates + 1) * 1600000)
    let conv := if x.converged.isSome then x.converged else if estimatesAgree x.last est then some s1.tick else none
    s1.setAdc a { x with
      estimates := x.estimates + 1, last := est, converged := conv
      sets := Sparse.set (fun _ => []) x.sets (4 * slice + s.adcShadow a) est }

/-- Whether a handover of R311 finds its quiet moment: RXEN low for at least 100 ns, or the ORX idle (R339). -/
def State.adcQuiet (s : State) (a : Nat) : Bool :=
  if a < 96 then !(s.txOf a).rxen && decide ((s.txOf a).rxFall + 160 ≤ s.tick) else s.rf (Reg.ORX_STAT (a - 96)) 29 28 == 0

/-- A change of slices in an ORX discards the capture in progress (R277, R317). -/
def State.adcTouch (s : State) (a : Nat) : State :=
  if a < 96 then s
  else match (s.orxOf (a - 96)).cap with
    | some c => s.setOrx (a - 96) { s.orxOf (a - 96) with cap := some { c with discard := true } }
    | none => s

/-- SLICE_HANDOVER, R311: at the first permitted sample (no overload, and no load strobe applies values on it) the converged spare takes its position; the relieved slice becomes the
spare and shadows the next position. -/
def execSliceHandover (a : Nat) (s : State) : Out :=
  let x := s.adcOf a
  .next <| match x.converged with
  | none => s
  | some tc =>
    let cfg := s.rd (adcCfg a)
    let s1 := s.advanceTo (x.shadow + s.calTicks a)
    let quiet := !bit cfg 30 || x.handNow || s1.adcQuiet a
    let forced := !quiet && decide (tc + max 1 (fld cfg 23 16) * 1600000 ≤ s1.tick)
    let ovl := decide (a < 96) && (s1.rb (Reg.RX_STATUS a) 7 || (s1.txOf a).setTick == s1.tick || (s1.rxOf a).setTick == s1.tick)
    if !s.adcPresent a ∨ s.adcState a ≠ 1 ∨ ovl ∨ !(quiet || forced) ∨ !s.adcAvail a ∨ s.adcSpare a = 7 then s
    else
      let j := s1.adcShadow a
      let old := s1.adcPos a j
      let s2 := (s1.pf (adcStat a) (3 * j + 2) (3 * j) (s1.adcSpare a)).pf (adcStat a) 23 21 old
      let s3 := (s2.beginShadow a ((j + 1) % 4)).bump (adcCnt a 0)
      let s4 := if forced then (s3.bump (adcCnt a 1)).pb (adcEvt a) 0 true else s3
      s4.adcTouch a

/-- SPARE_TIMEOUT, R312, R315: the spare has not converged within 4 x cal_ms and is declared failed. -/
def execSpareTimeout (a : Nat) (s : State) : Out :=
  let x := s.adcOf a
  let sp := s.adcSpare a
  let held := decide (a < 96) && s.rb (Reg.RX_STATUS a) 7 && decide (x.ovlTick ≤ x.timeoutFrom)
  .next <| if !s.adcPresent a ∨ s.adcState a ≠ 1 ∨ sp = 7 ∨ x.converged.isSome ∨ held then s
  else
    let s1 := s.advanceTo (x.timeoutFrom + 4 * s.calTicks a)
    (((s1.bump (adcCnt a 3)).markSlice a sp).pf (adcStat a) 23 21 7).adcRun a

/-- Ticks of the window on which a check of R313 decides (0 clock, 1 stuck code, 2 power, 3 shadow), held to 10 us (R314). -/
def sliceWindow (check : Nat) : Nat := [4, 205, 1600, 16000].getD check 16000

/-- SLICE_FAILURE, R313-R315, R317: a check of R313 declares slice `slice` of ADC `a` failed. An active one is replaced at once by the spare,
which is a spared fault (R399), and the samples of its position since the window began are poisoned; without a spare the path or row is
declared faulted. -/
def execSliceFailure (a slice check : Nat) (s : State) : Out :=
  .next <| if !s.adcPresent a ∨ 5 ≤ slice ∨ bitN (s.adcFailed a) slice ∨ s.adcState a = 0 then s
  else
    let s1 := s.markSlice a slice
    let unit := if a < 96 then a else a - 96
    match (List.range 4).find? (fun j => s.adcPos a j == slice) with
    | none => (s1.pf (adcStat a) 23 21 7).adcRun a
    | some j =>
      if s.adcSpare a ≠ 7 then
        let s2 := (s1.pf (adcStat a) (3 * j + 2) (3 * j) (s.adcSpare a)).pf (adcStat a) 23 21 7
        let s3 := { s2 with air := { s2.air with bad := s2.air.bad ++ [(a, j, s2.tick - sliceWindow check, s2.tick)] } }
        ((s3.adcRun a).adcTouch a).spared 0 unit (adcTile a)
      else
        let s2 := (s1.adcRun a).pb (adcEvt a) 2 true
        if a < 96 then s2.declareFault 0 a 0x04 0 (a / 24) else s2.declareFault 1 (a - 96) 0x06 0 (adcTile a)

/-- SLICE_RETEST_DONE, R316: a retest ends. A slice that converged is usable again: it takes a position that a failed slice holds, or
becomes the spare. -/
def execSliceRetestDone (a : Nat) (s : State) : Out :=
  let x := s.adcOf a
  .next <| match x.retest with
  | none => s
  | some (k, ref) =>
    let s0 := if x.converged.isSome then s else s.advanceTo (x.shadow + 4 * s.calTicks a)
    let s1 := s0.setAdc a { x with retest := none }
    if x.converged.isSome then
      let s2 := s1.pf (adcStat a) 28 24 (clrBitN (s1.adcFailed a) k)
      let s3 := match (List.range 4).find? (fun j => bitN (s2.adcFailed a) (s2.adcPos a j)) with
        | some j => s2.pf (adcStat a) (3 * j + 2) (3 * j) k
        | none => if (List.range 4).any (fun j => s2.adcPos a j == k) then s2 else s2.pf (adcStat a) 23 21 k
      let s4 := ((s3.beginShadow a (s3.adcShadow a)).adcRun a).bump (adcCnt a 4)
      s4.finish ref stOK [s4.rd (adcStat a)]
    else
      let s2 := (s1.adcRun a).bump (adcCnt a 5)
      s2.finish ref stITEM [s2.rd (adcStat a)]

/-! ### Overload and detectors -/

/-- OVERLOAD_ENTER, R318: codes of path `p` are sampled; the path enters overload with the block that fills ovl_n of four. -/
def execOverloadEnter (p : Nat) (adc : List Int) (s : State) : Out := .next (s.feed p adc)

/-- OVERLOAD_EXIT, R318: codes of path `p` are sampled; it leaves overload when 1 us has passed without a clipped block. -/
def execOverloadExit (p : Nat) (adc : List Int) (s : State) : Out :=
  let s1 := s.feed p adc
  .next (if s1.rb (Reg.RX_STATUS p) 7 ∧ (s1.feedOf p).lastClip + 1600 ≤ s1.tick then s1.leaveOverload p else s1)

/-- DETECTOR_WINDOW_END, R320: the window of path `p` ends: its peak and RMS are latched, or 0xFFFF for both where it took no sample. The
samples of a window are those that reach the detectors in it. -/
def execDetectorWindowEnd (p : Nat) (adc : List Int) (s : State) : Out :=
  .next <| if s.part.paths ≤ p ∨ !s.pathOn p then s
  else
    let s1 := (s.advanceTo ((s.agcOf p).window + max 1 (s.rf (Reg.RX_DET_CFG p) 31 16) * 1600)).feed p adc
    let f := s1.feedOf p
    let s2 := (s1.setAgc p { s1.agcOf p with window := s1.tick }).when (decide (0 < f.n)) (fun u =>
      u.setFeed p { f with peak := 0, sq := 0, n := 0 })
    let db := fun (sum n : Nat) => if sum = 0 then 0xFFFF else clampN (logRound 40 (n * 2 ^ 46) sum).toNat 0 0xFFFF
    if f.n = 0 then s2.wr (Reg.RX_DET_RES p) 0xFFFFFFFF
    else s2.wr (Reg.RX_DET_RES p) (toW (db f.sq f.n * 2 ^ 16 + db f.peak 1))

/-! ### Gain control -/

/-- Unit of the attenuator code in dB (R336). -/
def agcUnit (fe : Word) : Nat := 2 ^ min 2 (fld fe 23 22)
def agcWidth (fe : Word) : Nat := clampN (fld fe 26 24) 1 5

/-- The largest attenuation a path may take (R330). -/
def State.attMax (s : State) (p : Nat) : Nat :=
  let fe := s.rd (Reg.RX_AGC_FE p)
  min (s.rf (Reg.RX_AGC_CFG p) 12 8) (agcUnit fe * (2 ^ agcWidth fe - 1))

/-- The AGC frame of an attenuation (R330). -/
def State.agcFrame (s : State) (p att : Nat) : Word :=
  let fe := s.rd (Reg.RX_AGC_FE p)
  let pos := fld fe 31 27
  putFld (s.rd (Reg.RX_AGC_FRM p)) (pos + agcWidth fe - 1) pos (att / agcUnit fe)

/-- Whether an interval power exceeds -thr dBFS (R329): sum / n over 2^46 against 10^(-thr / 10), exactly. -/
def powerAbove (sum n thr : Nat) : Bool := decide ((n * 2 ^ 46) ^ 10 < sum ^ 10 * 10 ^ thr)

/-- The decision of R329 from an attenuation. -/
def State.agcDecide (s : State) (p att sum n : Nat) : Nat :=
  let cfg := s.rd (Reg.RX_AGC_CFG p)
  let step := fld cfg 15 14 + 1
  if (s.agcOf p).overload ∨ (0 < n ∧ powerAbove sum n (fld cfg 27 22)) then min (att + step) (s.attMax p)
  else if 0 < n ∧ !powerAbove sum n (fld cfg 21 16) ∧ (n * 2 ^ 46) ^ 10 ≠ sum ^ 10 * 10 ^ fld cfg 21 16 then att - step
  else att

/-- The tick of the next AGC boundary's decision, and of its frame (R329, R330). -/
def State.agcNext (s : State) (p : Nat) : Nat × Nat :=
  let adv := min 10000 (s.rf (Reg.FE_TIME (p / 4)) 15 0)
  let t := s.timeAt (s.agcOf p).start + (adv + 1000) * nsU + 1
  let b := s.tickReaching (s.slotBoundaryFrom (s.rf (Reg.RX_AGC_CFG p) 29 28) false t)
  (b - ticksNs (adv + 1000), b - ticksNs adv)

/-- AGC_DECISION, R319, R328-R330: the interval of path `p` ends, when the samples that reached the balls up to the decision's time have come
through the resampler (8 ticks); the sum of I^2 + Q^2 and its count of samples decide. In modes 0 and 2 att_man applies from the boundary
on (R328). -/
def execAgcDecision (p : Nat) (adc : List Int) (s : State) : Out :=
  .next <| if s.part.paths ≤ p ∨ !s.pathOn p then s
  else
    let (d, f) := s.agcNext p
    let s0 := (s.advanceTo (d + 8)).feed p adc
    let sum := (s0.feedOf p).pwr
    let n := (s0.feedOf p).pwrN
    let s1 := s0.when (decide (0 < n)) (fun u => u.setFeed p { u.feedOf p with pwr := 0, pwrN := 0 })
    let s2 := (s1.wrPair (Reg.RX_PWR_LO p) (Reg.RX_PWR_HI p) (sum / 2 ^ 16)).wr (Reg.RX_PWR_N p) (toW n)
    let cfg := s2.rd (Reg.RX_AGC_CFG p)
    let m := if fld cfg 31 30 = 3 then 0 else fld cfg 31 30
    let pw := if n = 0 ∨ sum = 0 then 255 else (clampN (logRound 40 (n * 2 ^ 46) sum).toNat 0 255)
    let frozen := !s2.pathAvail p || s2.rb (Reg.ROW_TX_STAT (p / 4)) 16
    let g := s2.agcOf p
    let s3 := s2.setAgc p { g with mode := m, overload := s2.rb (Reg.RX_STATUS p) 7, start := s2.tick }
    let st := (s3.pf (Reg.RX_AGC_STAT p) 7 0 pw).pf (Reg.RX_AGC_STAT p) 31 30 (if frozen then 3 else m)
    let man := min (fld cfg 4 0) (s2.attMax p)
    let b := f + ticksNs (min 10000 (s.rf (Reg.FE_TIME (p / 4)) 15 0))
    let manual := fun (u : State) => u.setAgc p { u.agcOf p with comp := (u.agcOf p).comp ++ [(b, man)] }
    if frozen then st
    else if m = 0 then (manual st).pf (Reg.RX_AGC_STAT p) 12 8 man
    else
      let cur := s2.rf (Reg.RX_AGC_STAT p) 12 8
      let att := s2.agcDecide p cur sum n
      let s4 := (st.pf (Reg.RX_AGC_STAT p) 12 8 att).bumpBy (Cnt.rxAgc p 4) (b2n (n == 0))
      if m = 2 then manual s4
      else if att = cur then s4
      else
        let e : FeEntry := {
          frame := s4.agcFrame p att, trig := 0, read := false, verify := false, trigTick := some f, agc := some (p, att) }
        let x := s4.rowOf (p / 4)
        (s4.bump (Cnt.rxAgc p (if cur < att then 0 else 1))).setRow (p / 4) { x with agcWait := x.agcWait ++ [(p, e)] }

/-- AGC_FRAME_SEND, R330: at a frame boundary of row `r`'s bus the waiting AGC frame of the lowest path is sent. -/
def execAgcFrameSend (r : Nat) (s : State) : Out :=
  let x := s.rowOf r
  .next <| match x.active, (if s.rowHolds r then [] else x.agcWait) with
  | none, h :: t =>
    let (p, e) := t.foldl (fun (a : Nat × FeEntry) (b : Nat × FeEntry) => if b.1 < a.1 then b else a) h
    let at_ := e.trigTick.getD s.tick
    let s1 := (s.setRow r { x with agcWait := x.agcWait.erase (p, e) }).startFrame r e at_
    (s1.bump (Cnt.rxAgc p 2)).bumpBy (Cnt.rxAgc p 3) (b2n (decide (at_ + 1600 < s1.tick)))
  | _, _ => s

/-- AGC_COMP_APPLY, R328, R331: the oldest compensation due applies: a frame's, agc_dly after its FE_CS_N rise, or that of att_man, at the
AGC boundary. -/
def execAgcCompApply (p : Nat) (s : State) : Out :=
  let g := s.agcOf p
  .next <| match g.comp with
  | (t, att) :: rest =>
    ((s.advanceTo t).setAgc p { g with comp := rest }).pf (Reg.RX_AGC_STAT p) 20 16 att
  | [] => s

/-- RX_FAST_READ, R334: the read returns the record and clears it. -/
def execRxFastRead (p : Nat) (s : State) : Out :=
  .next (s.accessRead (Reg.RX_FAST p) fun s => (s.answer (s.rd (Reg.RX_FAST p))).wr (Reg.RX_FAST p) 0xFF00)

/-! ### Commands -/

/-- Write ADC_CAL_CFG or ORX_ADC_CFG: rotation starts or freezes with rot_en (R310). -/
def State.writeAdcCfg (s : State) (a : Nat) (w : Word) : State :=
  let s1 := s.poke (adcCfg a) w
  if s1.adcState a = 1 ∨ s1.adcState a = 2 then
    if bit w 31 ∧ s1.adcState a = 2 then (s1.beginShadow a (s1.adcShadow a)).adcRun a else s1.adcRun a
  else s1

/-- RX_SET: path; RX_GAIN, RX_DELAY and RX_SHIFT staged. -/
def execRxSet (p : Pkt) (s : State) : Out :=
  .next (s.command 0x520 p (p.is 4 && decide (p.arg 0 < s.part.paths)) true true fun u =>
    u.onPaths [p.arg 0] fun u => (((u.stage (Reg.RX_GAIN (p.arg 0)) (wordAt p.params 1)).stage (Reg.RX_DELAY (p.arg 0))
      (wordAt p.params 2)).stage (Reg.RX_SHIFT (p.arg 0)) (wordAt p.params 3), .ok []))

/-- RX_NCO: path or 0xFF; word LO, HI and phase staged; BAD_PARAM for a word above 0xE000_0000_0000. -/
def execRxNco (p : Pkt) (s : State) : Out :=
  .next (s.command 0x521 p (p.is 4 && s.pathArgOk (p.arg 0) && decide (p.arg 1 + p.arg 2 * 2 ^ 32 ≤ 0xE00000000000)) true true fun u =>
    u.onPaths (u.pathArgs (p.arg 0)) fun u => (u.forEach (u.pathArgs (p.arg 0)) fun v q =>
      ((v.stage (Reg.RX_NCO_LO q) (wordAt p.params 1)).stage (Reg.RX_NCO_HI q) (wordAt p.params 2)).stage (Reg.RX_NCO_PH q)
        (wordAt p.params 3), .ok []))

/-- RX_ENABLE: three mask words; rx_en staged; rx_gate written at once (R631). -/
def execRxEnable (p : Pkt) (s : State) : Out :=
  .next (s.command 0x522 p (p.is 5 && s.maskOk p && decide (p.arg 3 < 2 ∧ p.arg 4 < 2)) true true fun u =>
    u.onPaths (maskPaths p) fun u => (u.forEach (maskPaths p) fun v q =>
      v.poke (Reg.RX_CTRL q) (putFld (putFld (v.rd (Reg.RX_CTRL q)) 1 1 (p.arg 4)) 0 0 (p.arg 3)), .ok []))

/-- RX_AGC_SET: path or 0xFF; RX_AGC_CFG, RX_AGC_FE and RX_AGC_FRM. -/
def execRxAgcSet (p : Pkt) (s : State) : Out :=
  .next (s.command 0x523 p (p.is 4 && s.pathArgOk (p.arg 0)) true true fun u =>
    u.onPaths (u.pathArgs (p.arg 0)) fun u => (u.forEach (u.pathArgs (p.arg 0)) fun v q =>
      ((v.poke (Reg.RX_AGC_CFG q) (wordAt p.params 1)).poke (Reg.RX_AGC_FE q) (wordAt p.params 2)).poke (Reg.RX_AGC_FRM q)
        (wordAt p.params 3), .ok []))

/-- RX_AGC_TAB: path in [22:16] and first entry in [4:0]; count 1-12; entries. -/
def execRxAgcTab (p : Pkt) (s : State) : Out :=
  let path := fld (wordAt p.params 0) 22 16
  let first := fld (wordAt p.params 0) 4 0
  let n := p.arg 1
  .next (s.command 0x524 p (p.flags == 0 && decide (1 ≤ n ∧ n ≤ 12 ∧ p.params.length = 2 + n ∧ first + n ≤ 32 ∧ path < s.part.paths)) true true
    fun u => u.onPaths [path] fun u => (u.forEach (List.range n) fun v i =>
      v.poke (Reg.RX_AGC_TAB path (first + i)) (wordAt p.params (2 + i)), .ok []))

/-- RX_DETECT: path; RX_DET_CFG; ovl_n; ovl_rec. -/
def execRxDetect (p : Pkt) (s : State) : Out :=
  .next (s.command 0x525 p (p.is 4 && decide (p.arg 0 < s.part.paths ∧ p.arg 2 < 8 ∧ p.arg 3 < 2)) true true fun u =>
    u.onPaths [p.arg 0] fun u =>
      (((u.poke (Reg.RX_DET_CFG (p.arg 0)) (wordAt p.params 1)).pf (Reg.RX_CTRL (p.arg 0)) 6 4 (p.arg 2)).pf (Reg.RX_CTRL (p.arg 0)) 3 3
        (p.arg 3), .ok []))

/-- The ADC that the target of ADC_CAL names: a path, or 0x100 + row for an ORX. -/
def adcTarget (t : Nat) : Nat := if t < 0x100 then t else 96 + (t - 0x100)

/-- Whether the target of ADC_CAL is present. -/
def State.adcTargetOk (s : State) (t : Nat) : Bool :=
  if t < 0x100 then decide (t < s.part.paths) else decide (t - 0x100 < s.part.rows)

/-- ADC_CAL: target; action; for action 4 the slice (R309, R311, R316). -/
def execAdcCal (p : Pkt) (s : State) : Out :=
  let a := adcTarget (p.arg 0)
  let act := p.arg 1
  .next (s.command 0x526 p (p.is (if act = 4 then 3 else 2) && s.adcTargetOk (p.arg 0) && decide (act ≤ 4) &&
      (act != 4 || (decide (p.arg 2 < 5) && bitN (s.adcFailed a) (p.arg 2)))) true true fun u =>
    let ref := p.ref 0x526 a
    if !u.adcPresent a then (u, .status stITEM [])
    else if act = 0 then (u.writeAdcCfg a (putFld (u.rd (adcCfg a)) 31 31 0), .ok [])
    else if act = 1 then (u.writeAdcCfg a (putFld (u.rd (adcCfg a)) 31 31 1), .ok [])
    else if act = 2 then (u.setAdc a { u.adcOf a with handNow := true }, .ok [])
    else if act = 3 then
      let busy := if a < 96 then u.rb (Reg.RX_STATUS a) 3 || !u.pathAvail a
        else u.rf (Reg.ORX_STAT (a - 96)) 29 28 != 0 || !u.rowAvail (a - 96)
      if busy then (u, .status stITEM [])
      else if (u.adcOf a).foreground.isSome then (u, .status stBUSY [])
      else
        let u1 := (u.setAdc a { u.adcOf a with foreground := some (u.tick, some ref) }).pf (adcStat a) 31 29 0
        let u2 := if a < 96 then (u1.pb (Reg.RX_STATUS a) 4 false).rxUpdate a else u1
        (u2, .accepted a [])
    else if (u.adcOf a).retest.isSome ∨ (u.adcOf a).foreground.isSome then (u, .status stBUSY [])
    else
      let u1 := u.setAdc a { u.adcOf a with retest := some (p.arg 2, ref), shadow := u.tick, estimates := 0, last := [], converged := none }
      (u1.pf (adcStat a) 31 29 5, .accepted a []))

/-- RX_STATUS: path. -/
def execRxStatus (p : Pkt) (s : State) : Out :=
  .next (s.command 0x527 p (p.is 1 && decide (p.arg 0 < s.part.paths)) true true fun u =>
    let w := fun a => if u.pathOn (p.arg 0) then u.peek a else 0
    (u, .ok [w (Reg.RX_STATUS (p.arg 0)), w (Reg.ADC_STAT (p.arg 0)), w (Reg.RX_AGC_STAT (p.arg 0))]))

end Sys2Proof.Machine
end

