-- ==== Sys2Proof/Machine/Bar0.lean ====
section
/-!
DEFINITION. BAR0 and BAR2 as the host, the links and direct transfers see them (R8-R13, R155, R540): a write of any register, with what
its write does, a read with what the read does, register accesses over the links (R367), the hand-over of a direct transfer (R470),
and the writes of a stored configuration (R583).
-/
namespace Sys2Proof.Machine

/-! ### Register pairs, R13 -/

/-- The writable _LO registers of pairs whose _HI write updates both halves. The grid origin has its own (R64). -/
def pairLos : List String :=
  ["TB_ALARM_TGT_LO", "TB_CMP_TGT_LO", "TX_NCO_LO", "RX_NCO_LO", "PR_GREF_LO", "PR_COEF_LO", "CAN_TAP_LO", "RING_BASE_LO",
    "DMA_SH_HADDR_LO", "MA_SEQ_LO"]
def pairHis : List String :=
  ["TB_ALARM_TGT_HI", "TB_CMP_TGT_HI", "TX_NCO_HI", "RX_NCO_HI", "PR_GREF_HI", "PR_COEF_HI", "CAN_TAP_HI", "RING_BASE_HI",
    "DMA_SH_HADDR_HI", "MA_SEQ_HI"]
/-- The _LO registers whose read captures the other half. -/
def readLos : List String :=
  pairLos ++ ["TB_COUNT_LO", "TB_RATE_LO", "TB_NOW_SEC_LO", "TB_STEP_CNT_LO", "TB_PPSIN_SEC_LO", "TB_GRID_ORG_SEC_LO", "GL_CMT_T_LO",
    "TR_WC_B_LO", "DMA_HADDR_LO", "SNAP_B_TICK_LO", "TH_SHDN_T_LO", "CX_CNT_OFS_LO", "CEL_SEQ_LO", "RX_PWR_LO", "PR_GOOD_LO", "CAN_GOOD_LO"]

/-- The last value written to a _LO register, else what the register holds. -/
def State.lastLo (s : State) (a : Nat) (now : Word) : Word := ((s.tb.loLatch.find? (fun x => x.1 == a)).map Prod.snd).getD now

/-- Keep the value written to a _LO register. -/
def State.latchLo (s : State) (a : Nat) (w : Word) : State :=
  { s with tb := { s.tb with loLatch := s.tb.loLatch.filter (fun (x : Nat × Word) => x.1 ≠ a) ++ [(a, w)] } }

/-- The bits of `w` in the enabled bytes and of `old` elsewhere (R8). -/
def mergeW (old w : Word) (m : Nat) : Word := maskW w m ||| maskW old (0xFFFFFFFF - m)

/-! ### Writes -/

/-- The error flag that a discarded write of a register sets, with its bit. -/
def errFlag (name : String) (i : Nat) (pl : Place) : Option (Nat × Nat) :=
  if name = "GL_CMT_NOW" then some (Reg.GL_CMT_STAT, 16)
  else if name = "SV_INJECT" then some (Reg.SV_STAT, 0)
  else if name = "TB_RATE_ADJ" then some (Reg.TB_STATUS, 4)
  else if name = "TB_TRIG_SEL" then some (Reg.TB_STATUS, 8)
  else if ["TB_GRID_ORG_SEC_LO", "TB_GRID_ORG_SEC_HI", "TB_GRID_ORG_NS"].contains name then some (Reg.TB_STATUS, 9)
  else if name = "FH_EAXC_FMT" then some (Reg.FH_STATUS, 8)
  else if name = "FH_PORT_MODE" then some (Reg.FH_STATUS, 9)
  else if name = "SE_CTRL" then some (Reg.SE_STATUS, 0)
  else if name = "TR_WC_NOW" then some (Reg.TR_STATUS, 11)
  else if ["SOL_JOB_W0", "SOL_JOB_W1", "SOL_JOB_W2", "SOL_JOB_W3", "SOL_JOB_W4", "SOL_JOB_W5", "SOL_JOB_W6"].contains name then
    some (Reg.SOL_STATUS, 4)
  else if name = "DMA_SH_COMMIT" then some (Reg.DMA_STAT i, 3)
  else if ["RING_CFG", "RING_BASE_LO", "RING_BASE_HI"].contains name then some (Reg.RING_STAT i, 18)
  else if name = "MB_H2D_DATA" then some (Reg.MB_EVT i, 0)
  else if name = "MON_SNAP_REL" then some (Reg.MON_SNAP_STAT, 8)
  else if name = "REC_LIST" then some (Reg.REC_PKG_STAT, 29)
  else if ["TH_THR", "TH_BOFF", "TH_RESTART"].contains name then some (Reg.TH_STAT, 3)
  else match pl with
    | .tile t => if name = "REC_T_LIST" then some (Reg.REC_T_STAT t, 27) else none
    | .row r => if name = "FE_QW1" then some (Reg.ROW_TX_STAT r, 17) else none
    | .parcel q => if name = "MA_INJ" then some (Reg.MA_STAT q, 2) else none
    | _ => none

/-- Whether a write of a register is discarded by a rule that sets no error flag: a firmware comparator (R55), what a member may not
write (R188, R380), a port absent in the mode (R117), CX_CFG outside STANDBY and READY (R386), a ring that is off (R458), a mailbox the
host does not reach (R420, R421), and a monitor ADC that is not up (R493). -/
def State.refuses (s : State) (name : String) (i : Nat) (pl : Place) : Bool :=
  if ["TB_CMP_TGT_LO", "TB_CMP_TGT_HI", "TB_CMP_PER", "TB_CMP_CTRL"].contains name then decide (i < 32)
  else if ["SOL_SRS_W0", "SOL_SRS_W1", "SOL_SRS_W2", "SOL_SRS_W3", "SOL_JOB_W0", "SOL_JOB_W1", "SOL_JOB_W2", "SOL_JOB_W3", "SOL_JOB_W4",
    "SOL_JOB_W5", "SOL_JOB_W6", "TB_RATE_ADJ"].contains name then !s.isLead
  else if ["TB_GRID_ORG_SEC_LO", "TB_GRID_ORG_SEC_HI", "TB_GRID_ORG_NS"].contains name then !s.isLead && s.dev != 4
  else if name = "FH_PORT_CFG" then !s.portPresent i
  else if name = "CX_CFG" then !(s.dev == 2 || s.dev == 3)
  else if name = "RING_DB" then s.ringState i == 0
  else if ["MB_H2D_DATA", "MB_DB", "MB_CTRL", "MB_EVT"].contains name then !s.hostMbox i
  else match pl with
    | .parcel q => ["MA_INJ", "MA_CAL", "MA_TAKE"].contains name && !s.maUp q
    | _ => false

/-- The state of a meaning that answers a next state. -/
def State.ran (s : State) (o : Out) : State :=
  match o with
  | .next t => t
  | _ => s

/-- SYNCE_OUT follows its configuration (R70). -/
def State.synceFollow (s : State) : State :=
  { s with tb := { s.tb with
    synceOut := s.rb Reg.TB_SYNCE_CFG 8 && (s.rb Reg.TB_STATUS 6 || !s.rb Reg.TB_SYNCE_CFG 9) } }

/-- What a write of a hub register does beyond its fields; `i` and `j` are its instance, `a` its offset. -/
def State.writeHub (s : State) (name : String) (i j a : Nat) (v : Word) : State :=
  if name = "GL_CMT_NOW" then s.ran (execGlCmtNowWrite v s)
  else if name = "SV_FAULT_SUM" then s.clearSum (fld v 8 0)
  else if name = "SV_FAULT_MASK" then (s.poke a v).faultOut
  else if name = "SV_INJECT" then s.writeSvInject v
  else if name = "CAL_CFG" then s.writeCalCfg v
  else if name = "TB_CTRL" then s.writeTbCtrl v
  else if name = "TB_RATE_ADJ" then s.ran (execTbRateAdjWrite v s)
  else if name = "TB_SW_STROBE" then s.ran (execTbSwStrobe v s)
  else if name = "TB_GRID_ORG_SEC_LO" then s.writeOrigin 0 v
  else if name = "TB_GRID_ORG_SEC_HI" then s.writeOrigin 1 v
  else if name = "TB_GRID_ORG_NS" then s.writeOrigin 2 v
  else if name = "TB_ALARM_CTRL" then s.writeAlarmCtrl v
  else if name = "TB_CMP_CTRL" then s.writeCmpCtrl i v
  else if name = "TB_TRIG_SEL" then s.writeTrigSel i v
  else if name = "TB_PPSOUT_CFG" ∨ name = "TB_PPSOUT_OFS" then ((s.poke a v).retime s).ppsFollow
  else if name = "TB_HOLD_CFG" ∨ name = "TB_PTP_CFG" then (s.poke a v).restartSync
  else if name = "TB_SYNCE_CFG" then (s.poke a v).synceFollow
  else if name = "FH_PORT_MODE" then s.ran (execFhPortModeWrite v s)
  else if name = "FH_EAXC_FMT" then s.ran (execFhEaxcFmtWrite v s)
  else if name = "SE_CTRL" then s.ran (execSeCtrlWrite v s)
  else if name = "TR_WC_NOW" then s.ran (execTrWcNowWrite v s)
  else if name = "TR_WS_LOCK" then (s.pb Reg.TR_WS_LOCK 0 (bit v 0)).forwardLocks
  else if ["SOL_JOB_W0", "SOL_JOB_W1", "SOL_JOB_W2", "SOL_JOB_W3", "SOL_JOB_W4", "SOL_JOB_W5", "SOL_JOB_W6"].contains name then
    s.writeJob i (a % 0x40 / 4) v
  else if name = "DMA_CTRL" then (if bit v 31 then (s.poke a v).directStop i else s.poke a v)
  else if name = "DMA_SH_COMMIT" then s.directCommit i v
  else if name = "RING_CFG" then s.writeRingCfg i v
  else if name = "RING_BASE_LO" ∨ name = "RING_BASE_HI" then s.writeRingBase i a v
  else if name = "RING_DB" then s.doorbell i
  else if name = "MB_H2D_DATA" then s.ran (execMbH2dDataWrite i v s)
  else if name = "MB_DB" then s.ran (execMbDbWrite i v s)
  else if name = "MB_CTRL" then (if bit v 31 then (s.poke a v).ran (execD2hRstWrite i (s.poke a v)) else s.poke a v)
  else if name = "MON_SNAP_CTRL" then s.writeSnapCtrl v
  else if name = "MON_SNAP_REL" then s.releaseBanks (fld v 1 0)
  else if name = "REC_PKG_CTRL" then s.writeRecCtrl 4 v
  else if name = "REC_MARK" then s.hubEvent 0x21 v.toNat
  else if name = "REC_LIST" then s.writeRecList 4 i j v
  else if name = "TH_THR" then s.writeThr 0 v
  else if name = "TH_BOFF" then s.writeThr 1 v
  else if name = "TH_RESTART" then s.writeThr 2 v
  else if name = "PW_DOORBELL" then s.ran (execPwDoorbellWrite v s)
  else if name = "PW_PAD_REL" then s.ran (execPwPadRelWrite v s)
  else if name = "PW_RET_FAIL" then s.poke a (maskW v 0xFFFF0FFF)
  else if name = "CX_CFG" then s.writeCxCfg v
  else s.poke a v

/-- The same for the registers of a unit. -/
def State.writeUnit (s : State) (pl : Place) (name : String) (i j a : Nat) (v : Word) : State :=
  match pl with
  | .path p =>
    if name = "TX_CTRL" then s.writeTxCtrl p v
    else if name = "PR_ADAPT" then s.writePrAdapt p v
    else if name = "CAN_ADAPT" then s.writeCanAdapt p v
    else if name = "ADC_CAL_CFG" then s.writeAdcCfg p v
    else s.poke a v
  | .row r =>
    if name = "FE_QW1" then s.ran (execFeQw1Write r v s)
    else if name = "ORX_ADC_CFG" then s.writeAdcCfg (96 + r) v
    else s.poke a v
  | .parcel q =>
    if name = "MA_CFG" then s.writeMaCfg q v
    else if name = "MA_INJ" then s.ran (execMaInjWrite q v s)
    else if name = "MA_CAL" then s.ran (execMaCalWrite q v s)
    else if name = "MA_TAKE" then s.ran (execMaTakeWrite q v s)
    else s.poke a v
  | .tile t =>
    if name = "REC_T_CTRL" then s.writeRecCtrl t v
    else if name = "REC_T_LIST" then s.writeRecList t i j v
    else s.poke a v
  | .link l => if name = "AX_CTRL" then s.writeAxCtrl l v else s.poke a v
  | _ => s.writeHub name i j a v

/-- The bits of a register by which a write of it acts beyond its fields; none where any write does. A write of other bytes only writes
their fields (R8: no side effects on the other bytes). -/
def actingBits (name : String) : Option Nat :=
  if name = "TB_CMP_CTRL" ∨ name = "SE_CTRL" ∨ name = "FH_PORT_MODE" then some 0x3
  else if name = "TB_ALARM_CTRL" then some 0x1
  else if name = "FH_EAXC_FMT" then some 0xFFFF
  else none

/-- Write a register at its live offset: the fields of the enabled bytes, then what the write does; a _HI write sets both halves of its
pair (R8, R12, R13). -/
def State.writeReg (s : State) (r : RegRow) (i j a m : Nat) (w : Word) : State :=
  let pl := (placeOf a).1
  let old := maskW (s.rd a) r.rw ||| maskW (s.srd a) r.stg
  if pairLos.contains r.name ∧ r.name ≠ "RING_BASE_LO" then s.latchLo a (mergeW (s.lastLo a old) w m)
  else if r.name = "RING_BASE_LO" then
    (if s.rb (Reg.RING_CFG i) 31 then s.writeRingBase i a w else s.latchLo a (mergeW (s.lastLo a old) w m))
  else
    let v := maskW w m ||| maskW old (0xFFFFFFFF - m)
    if pairHis.contains r.name then
      let oldLo := s.rd (a - 4)
      let lo := s.lastLo (a - 4) (if r.stg = 0 then oldLo else s.srd (a - 4))
      (s.writeUnit pl r.name i j (a - 4) lo).writeUnit pl r.name i j a v
    else if r.name = "TB_GRID_ORG_SEC_LO" then s.writeUnit pl r.name i j a (mergeW (s.lastLo a old) w m)
    else if (actingBits r.name).any (fun b => Nat.land b m == 0) then s.poke a v
    else s.writeUnit pl r.name i j a v

/-- Write a register in its staged view (R12): STG fields only; a _LO write waits for its _HI (R13). -/
def State.writeStaged (s : State) (r : RegRow) (a m : Nat) (w : Word) : State :=
  if r.stg = 0 then s
  else
    let old := s.srd a
    if pairLos.contains r.name then s.latchLo a (mergeW (s.lastLo a old) w m)
    else if pairHis.contains r.name then (s.stage (a - 4) (s.lastLo (a - 4) (s.srd (a - 4)))).stage a (mergeW old w m)
    else s.stage a (mergeW old w m)

/-- A write of 32 bits of BAR0 with a mask of its enabled bits, and whether it was taken (R583: a discarded write is counted). -/
def State.writeBits (s : State) (o m : Nat) (w : Word) : State × Bool :=
  let a := o / 4 * 4
  if !s.domOn 1 then (s, false)
  else if 0x09000000 ≤ a ∧ a < 0x0A000000 then (s.pb Reg.CEL_STAT 0 true, false)
  else
    let live := (stagedToLive a).getD a
    let pl := (placeOf live).1
    if !s.part.has pl then (s, false)
    else match regAt live with
      | none => (if s.domOn (domainOf live) then s else s.offAccess, false)
      | some (r, i, j) =>
        if !s.domOn (domainOf live) then (s.offAccess, false)
        else if s.lostTo live then (s, false)
        else if s.refuses r.name i pl then (if r.name = "RING_DB" then s.doorbell i else s, false)
        else if a ≠ live then (s.writeStaged r live m w, r.stg != 0)
        else if r.rw = 0 ∧ r.stg = 0 ∧ r.w1c = 0 ∧ r.wo = 0 then (s, false)
        else match errFlag r.name i pl with
          | none => (s.writeReg r i j a m w, true)
          | some (f, b) =>
            let s1 := (s.pb f b false).writeReg r i j a m w
            (s1.pb f b (s.rb f b || s1.rb f b), !s1.rb f b)

/-- A write to BAR0 with four byte enables (R8). -/
def State.writeBar0 (s : State) (o : Nat) (w : Word) (be : Nat) : State := (s.writeBits o (enableMask be) w).1

/-- REGISTER_WRITE, R8-R13: BAR0 offset, value and byte enables. -/
def execRegisterWrite (o : Nat) (w : Word) (be : Nat) (s : State) : Out :=
  .next (if o < 0x10000000 ∧ s.pcieUp then (s.writeBar0 o w be).forwardLocks else s)

/-- STORE_SLOT_WRITE, R8, R155, R157: BAR2 offset, value and byte enables. -/
def execStoreSlotWrite (o : Nat) (w : Word) (be : Nat) (s : State) : Out :=
  .next (if !s.pcieUp then s
    else if !s.domOn 7 then s.offAccess
    else (s.writeBar2 o w be).1)

/-! ### Reads -/

/-- The registers whose read clears or pops, with the command of that read. -/
def State.readRun (s : State) (name : String) (i : Nat) (pl : Place) : Option State :=
  if name = "TB_NOW_NS" then some (s.ran (execTbNowNsRead s))
  else if name = "TB_LATE_CNT" then some (s.ran (execTbLateCntRead s))
  else if name = "TB_PPSIN_NS" then some (s.ran (execPpsinNsRead s))
  else if name = "TB_TXTS_W3" then some (s.ran (execTxtsPop s))
  else if name = "FH_FAIL_LOST" then some (s.ran (execFhFailLostRead s))
  else if name = "FH_BUF_STAT" then some (s.ran (execFhBufPeakRead s))
  else if name = "MB_D2H_DATA" then some (s.ran (execMbD2hDataRead i s))
  else if name = "MB_LOST" then some (s.ran (execMbLostRead i s))
  else match pl with
    | .path p => if name = "RX_FAST" then some (s.ran (execRxFastRead p s)) else none
    | .row r => if name = "FE_RDATA" then some (s.ran (execFeRdataRead r s)) else none
    | .parcel q => if name = "MA_INJ_RES" then some (s.ran (execMaInjResRead q s)) else none
    | _ => none

/-- The values of the staged view, and of FH_WIN_MAX, that follow the staged configuration (R105, R124). -/
def State.stagedRead (s : State) (a : Nat) : Option Word :=
  if a = 0x500008 then some (loadWord ((List.range 4).map s.carStaged) true)
  else if a = 0x50000C then some (loadWord ((List.range 4).map s.carStaged) false)
  else if a = Reg.FH_WIN_MAX then some (toW (winMax ((List.range 4).map s.carStaged) s.stagedLayers))
  else none

/-- A read of a register at its live offset: what it returns is in the answer. Only the bytes read are cleared (R8); a _LO read captures
its _HI, and the next read of that _HI returns it (R13). -/
def State.readReg (s : State) (r : RegRow) (i a m : Nat) (pl : Place) : State :=
  match s.readRun r.name i pl with
  | some t =>
    let t1 := if ["TB_LATE_CNT", "FH_FAIL_LOST", "FH_BUF_STAT", "RX_FAST", "MB_LOST", "MA_INJ_RES", "FE_RDATA"].contains r.name then
      t.wr a (mergeW (s.rd a) (t.rd a) m) else t
    t1.answer (maskW t1.host.readData m)
  | none =>
    match s.tb.hiCap.find? (fun x => x.1 == a) with
    | some x =>
      ({ s with tb := { s.tb with hiCap := s.tb.hiCap.filter (fun (y : Nat × Word) => y.1 ≠ a) } } : State).answer (maskW x.2 m)
    | none =>
      let s1 := s.answer (maskW ((s.stagedRead a).getD (s.peek a)) m)
      if readLos.contains r.name then
        { s1 with tb := { s1.tb with hiCap := s1.tb.hiCap.filter (fun (y : Nat × Word) => y.1 ≠ a + 4) ++ [(a + 4, s.peek (a + 4))] } }
      else s1

/-- A read of BAR0 with a mask of the bytes read. -/
def State.readBar0 (s : State) (o m : Nat) : State :=
  let a := o / 4 * 4
  let live := (stagedToLive a).getD a
  let pl := (placeOf live).1
  let s0 := s.answer 0
  if !s.domOn 1 ∨ !s.part.has pl then s0
  else if !s.domOn (domainOf live) then s0.offAccess
  else if s.lostTo live then s0
  else match regAt live with
    | none => s0.answer (maskW ((s.stagedRead a).getD (s.peek a)) m)
    | some (r, i, _) =>
      if ["MB_H2D_STAT", "MB_D2H_STAT", "MB_ACK", "MB_CTRL", "MB_EVT"].contains r.name ∧ !s.hostMbox i then s0
      else if a ≠ live then
        match s0.tb.hiCap.find? (fun x => x.1 == a) with
        | some x =>
          ({ s0 with tb := { s0.tb with hiCap := s0.tb.hiCap.filter (fun (y : Nat × Word) => y.1 ≠ a) } } : State).answer (maskW x.2 m)
        | none =>
          let s1 := s0.answer (maskW ((s.stagedRead a).getD (s.peek a)) m)
          if r.stg ≠ 0 ∧ readLos.contains r.name then
            { s1 with tb := { s1.tb with hiCap := s1.tb.hiCap.filter (fun (y : Nat × Word) => y.1 ≠ a + 4) ++ [(a + 4, s.peek (a + 4))] } }
          else s1
      else s0.readReg r i a m pl

/-- REGISTER_READ, R8, R12, R13, R540: a read of BAR0 or of BAR2 with byte enables. Frames whose turn has come have left before (R90). -/
def execRegisterRead (bar2 : Bool) (o be : Nat) (s : State) : Out :=
  .next <|
    let s := s.egressRun
    if !s.pcieUp then s
    else if bar2 then
      if !s.domOn 7 then (s.answer 0).offAccess else s.answer (maskW (s.readBar2 o) (enableMask be))
    else if o < 0x10000000 then s.readBar0 o (enableMask be)
    else s

/-! ### Accesses over a link, R367 -/

/-- REG_REQ, R367: a register access arrives over link `l`: in the tile region of a tile link's tile, or by the lead in a member over a
cascade port. The response goes back over the link. -/
def execRegReq (l : Nat) (write : Bool) (o : Nat) (w : Word) (s : State) : Out :=
  .next <|
    if !s.linkUp l ∨ 0x10000000 ≤ o then s
    else
      let s0 := s.popMsg l 3
      let inTile := decide (o / 0x01000000 = l + 1)
      let fromLead := decide (4 ≤ l) && s.rf (Reg.CX_PORT l) 1 0 == 1 && !s.isLead
      if !((l < 4 && inTile) || fromLead) then s0
      else
        let kept := s0.host.readData
        let s1 := if write then s0.writeBar0 o w 15 else s0.readBar0 o 0xFFFFFFFF
        (s1.answer kept).sendMsg l 4 (b2n write) [if write then 0 else s1.host.readData]

/-! ### Direct transfers -/

/-- Words of a direct transfer to BAR0. -/
def State.writeWords0 (s : State) (o : Nat) (bs : List Byte) : Nat → State
  | 0 => s
  | k + 1 => (s.writeBar0 o (toW (leN bs 0 4)) 15).writeWords0 (o + 4) (bs.drop 4) k

/-- Words of a direct transfer from BAR0. -/
def State.readWords0 (s : State) (o : Nat) : Nat → State × List Byte
  | 0 => (s, [])
  | k + 1 =>
    let s1 := s.readBar0 o 0xFFFFFFFF
    let (s2, bs) := s1.readWords0 (o + 4) k
    (s2, leBytes s1.host.readData ++ bs)

/-- Move the bytes of a direct transfer; `data` is what the host memory holds. True when the stores refused it. -/
def State.directMove (s : State) (n : Nat) (data : List Byte) : State × Bool :=
  let mode := s.rd (Reg.DMA_MODE n)
  let host := (s.rd (Reg.DMA_HADDR_LO n)).toNat + (s.rd (Reg.DMA_HADDR_HI n)).toNat * 2 ^ 32
  let o := (s.rd (Reg.DMA_DADDR n)).toNat
  let len := (s.rd (Reg.DMA_LEN n)).toNat
  if fld mode 27 26 = 0 then
    if bit mode 31 then (if s.domOn 7 then s.hostWrite host (s.storeRead o len) else s.offAccess.hostWrite host (List.replicate len 0), false)
    else if !s.domOn 7 then (s.offAccess, false)
    else
      let (s1, _, frozen) := s.storeWrite o data (len / 8)
      (s1, frozen)
  else if bit mode 31 then
    let kept := s.host.readData
    let (s1, bs) := s.readWords0 o (len / 4)
    ((s1.answer kept).hostWrite host bs, false)
  else (s.writeWords0 o data (len / 4), false)

/-- After a hand-over the shadow is taken, a cyclic transfer repeats, or the channel is IDLE (R470). -/
def State.directNext (s : State) (n : Nat) : State :=
  if s.rb (Reg.DMA_SH_STAT n) 31 then (s.loadShadow n).startDirect n
  else if s.rb (Reg.DMA_MODE n) 30 then s.startDirect n
  else s.pf (Reg.DMA_STAT n) 31 28 0

/-- DIRECT_HANDOVER, R470, R472, R473: the last byte of a direct transfer reaches its destination. `data` is what the host buffer held where the
transfer reads it; `err` (R456) ends the transfer with a status instead. -/
def execDirectHandover (n : Nat) (data : List Byte) (err : Nat) (s : State) : Out :=
  .next <|
    if 32 ≤ n ∨ s.rf (Reg.DMA_STAT n) 31 28 ≠ 1 ∨ !s.pcieUp then s
    else if err ≠ 0 then (s.directFail n (err % 256)).forwardLocks
    else
      let len := (s.rd (Reg.DMA_LEN n)).toNat
      let (s1, refused) := (s.takeBeats n).directMove n data
      if refused then (s1.directFail n 3).forwardLocks
      else
        let s2 := ((s1.pf (Reg.DMA_HO n) 15 0 (s1.rf (Reg.DMA_HO n) 15 0 + 1)).pf (Reg.DMA_HO n) 31 24 0).bump (Cnt.dma n 7)
        let s3 := s2.addMoved n len
        let s4 := if s3.rb (Reg.DMA_MODE n) 28 then (s3.pb (Reg.DMA_STAT n) 1 true).irq (8 + n) else s3
        (s4.directNext n).forwardLocks

/-! ### Stored configurations -/

/-- CFG_APPLY, R583: the stored set of an instance is verified again, and its entries are written in order as host writes. -/
def execCfgApply (p : Pkt) (s : State) : Out :=
  let k := p.arg 0
  let img := if k < 8 then (s.celSet 0x14 k).map wordBytes else none
  .next (s.command 0xA42 p (p.is 1 && decide (k < 8) && img.isSome) true true fun u =>
    let bs := img.getD []
    let code := u.verify bs 4 none
    let u1 := u.lastVer code
    if code ≠ 0 then (u1, .status stDENIED [])
    else
      let r := (cfgEntries (imgPayload bs)).foldl (fun (a : State × Nat × Nat) (e : Nat × Word) =>
        let (v, ok) := a.1.writeBits e.1 0xFFFFFFFF e.2
        (v, a.2.1 + b2n ok, a.2.2 + b2n (!ok))) (u1, 0, 0)
      (r.1, .ok [toW r.2.1, toW r.2.2]))

end Sys2Proof.Machine
end

