-- ==== Sys2Proof/Machine/MSlot.lean ====
section
/-!
DEFINITION. The M slot of a solver core (R200-R204, R208): each instruction reads its operands and holds its writes until the X slot
of its bundle issues (R205).
-/
namespace Sys2Proof.Machine

/-- What an M-slot instruction computes: its writes, its saturated components (R202), whether it made a requantisation check and
whether that failed (R222), and a program error (R228). -/
structure MRes where
  w : MWrites := {}
  sats : Nat := 0
  checked : Bool := false
  fail : Bool := false
  err : Option Nat := none
  deriving DecidableEq, Repr

/-- The result of an instruction that writes one D register. -/
def CoreSt.toD (x : CoreSt) (dst : Nat) (w : DWord) (sats : Nat) : MRes :=
  { w := { d := some (x.phys dst, w) }, sats := if w.poisoned then 0 else sats }

/-- Whether a core can issue the M slot of a bundle now: it runs a work item, and the bundle has not begun. -/
def State.mReady (s : State) (c : Nat) : Bool :=
  decide (c < 32) && (s.coreOf c).item.isSome && (s.coreOf c).mw == none

/-- Issue an M-slot instruction on core `c`: its word must be the one that program memory holds at PC, where the model has the
code. An illegal encoding there is a program error (R228). `f` computes the result from the core. -/
def State.mIssue (s : State) (c word : Nat) (fits : Bool) (f : CoreSt → MRes) : State :=
  if !s.mReady c then s
  else
    let x := s.coreOf c
    let held := (s.bundle x.pc).map (· % 2 ^ 32)
    if held.any (fun h => !legalM h) then s.progError c 3
    else if !fits || held.any (· != word) then s
    else if !legalM word then s.progError c 3
    else
      let r := f x
      match r.err with
      | some e => s.progError c e
      | none =>
        let (hit, s1) := if r.checked then s.injected 0x30 c else (none, s)
        if r.fail || hit == some 0 then s1.coreFail c 1
        else
          let w := if hit == some 1 then { r.w with d := r.w.d.map (fun (y : Nat × DWord) => (y.1, y.2.seal)) } else r.w
          (s1.setCore c { s1.coreOf c with mw := some w }).bumpBy Cnt.solKernel r.sats

/-! ### Multiplies -/

/-- A complex accumulation into an accumulator. -/
def macC (a : AccW) (clr ng bad : Bool) (i : Int) (ri : Nat) (q : Int) (rq : Nat) : AccW :=
  let (vi, xi) := accAdd clr ng a.i a.ri i ri
  let (vq, xq) := accAdd clr ng a.q a.rq q rq
  let b := bad || (!clr && a.poisoned)
  { i := vi, q := vq, ri := if b then 15 else xi, rq := if b then 15 else xq }

/-- The complex product of x and y, or of x and conj(y), with its residues: I, its residue, Q, its residue (R200, R391). -/
def cmul (x y : OpC) (cj : Bool) : (Int × Nat) × (Int × Nat) :=
  if cj then
    ((x.i * y.i + x.q * y.q, rAdd (rMul x.ri y.ri) (rMul x.rq y.rq)),
      (x.q * y.i - x.i * y.q, rSub (rMul x.rq y.ri) (rMul x.ri y.rq)))
  else
    ((x.i * y.i - x.q * y.q, rSub (rMul x.ri y.ri) (rMul x.rq y.rq)),
      (x.i * y.q + x.q * y.i, rAdd (rMul x.ri y.rq) (rMul x.rq y.ri)))

/-- M_NOP. -/
def execMNop (c : Nat) (f : FmtMR) (s : State) : Out := .next (s.mIssue c (f.word 0) f.fits fun _ => {})

/-- CMAC, R200, R201. -/
def execMCmac (c : Nat) (f : FmtMA) (s : State) : Out :=
  .next (s.mIssue c (f.word 1) f.fits fun x =>
    let a := (x.reg f.x).asC
    let b := (x.reg f.y).asC
    let ((i, ri), (q, rq)) := cmul a b f.cj
    { w := { accs := [(f.acc, macC (x.accOf f.acc) f.clr f.ng (a.bad || b.bad) i ri q rq)] } })

/-- DMAC, R200, R201. With acc2 = acc the two accumulations follow one another. -/
def execMDmac (c : Nat) (f : FmtMA) (s : State) : Out :=
  .next (s.mIssue c (f.word 2) f.fits fun x =>
    let a := (x.reg f.x).asC
    let b := (x.reg f.y).asC
    let z := (x.reg f.z).asC
    let r1 := macC (x.accOf f.acc) f.clr f.ng (a.bad || b.bad) (a.i * b.i) (rMul a.ri b.ri) (a.q * b.q) (rMul a.rq b.rq)
    let same := f.acc2 == f.acc
    let r2 := macC (if same then r1 else x.accOf f.acc2) (f.clr && !same) f.ng (a.bad || z.bad) (a.i * z.i) (rMul a.ri z.ri)
      (a.q * z.q) (rMul a.rq z.rq)
    { w := { accs := [(f.acc, r1), (f.acc2, r2)] } })

/-- MULW, R200, R201: the exact product of two real words into acc.I. -/
def execMMulw (c : Nat) (f : FmtMA) (s : State) : Out :=
  .next (s.mIssue c (f.word 3) f.fits fun x =>
    let a := (x.reg f.x).asR
    let b := (x.reg f.y).asR
    let old := x.accOf f.acc
    let (v, r) := accAdd f.clr f.ng old.i old.ri (a.x * b.x) (rMul a.r b.r)
    let bad := a.bad || b.bad || (!f.clr && old.poisoned)
    let q := if f.clr then 0 else old.q
    let rq := if f.clr then 0 else old.rq
    { w := { accs := [(f.acc, { i := v, q := q, ri := if bad then 15 else r, rq := if bad then 15 else rq })] } })

/-- The requantisation count of a k field: SR when it is 63 (R202). -/
def CoreSt.shift (x : CoreSt) (k : Nat) : Nat := if k = 63 then x.sr else k

/-- Requantise two components to 24 bits into a complex word (R202, R222). -/
def CoreSt.quantC (x : CoreSt) (dst k : Nat) (rnd bad : Bool) (i : Int) (ri : Nat) (q : Int) (rq : Nat) : MRes :=
  let (vi, xi, pi) := requant i ri k rnd
  let (vq, xq, pq) := requant q rq k rnd
  let (wi, yi, ni) := satR vi xi 24
  let (wq, yq, nq) := satR vq xq 24
  { x.toD dst (mkC bad wi wq yi yq) (ni + nq) with checked := !bad, fail := !bad && !(pi && pq) }

/-- CMPY, R200, R202. -/
def execMCmpy (c : Nat) (f : FmtMP) (s : State) : Out :=
  .next (s.mIssue c (f.word 4) f.fits fun x =>
    let a := (x.reg f.x).asC
    let b := (x.reg f.y).asC
    let ((i, ri), (q, rq)) := cmul a b f.cj
    x.quantC f.dst (x.shift f.k) f.rnd (a.bad || b.bad) i ri q rq)

/-- RDQ, R202, R222: an accumulator into a D register; clr then zeroes it. -/
def execMRdq (c : Nat) (f : FmtMQ) (s : State) : Out :=
  .next (s.mIssue c (f.word 5) f.fits fun x =>
    let a := x.accOf f.acc
    let k := x.shift f.k
    let r :=
      if f.real then
        let bad := a.ri == 15
        let (v, xr, pass) := requant a.i a.ri k f.rnd
        let (w, y, n) := satR v xr 48
        { x.toD f.dst (mkR bad w y) n with checked := !bad, fail := !bad && !pass }
      else x.quantC f.dst k f.rnd a.poisoned a.i a.ri a.q a.rq
    { r with w := { r.w with accs := if f.clr then [(f.acc, {})] else [] } })

/-! ### Conversions and sums -/

/-- CPLX: real a into I, saturating; Q = 0. -/
def execMCplx (c : Nat) (f : FmtMR) (s : State) : Out :=
  .next (s.mIssue c (f.word 6) f.fits fun x =>
    let a := (x.reg f.a).asR
    let (v, r, n) := satR a.x a.r 24
    x.toD f.dst (mkC a.bad v 0 r 0) n)

/-- REAL: I of complex a, sign-extended. -/
def execMReal (c : Nat) (f : FmtMR) (s : State) : Out :=
  .next (s.mIssue c (f.word 7) f.fits fun x =>
    let a := (x.reg f.a).asC
    x.toD f.dst (mkR a.bad a.i a.ri) 0)

/-- A sum or difference in view, saturating (R202, R221). -/
def CoreSt.addSub (x : CoreSt) (f : FmtMR) (sub : Bool) : MRes :=
  let op := fun (a b : Int) => if sub then a - b else a + b
  let rop := fun (a b : Nat) => if sub then rSub a b else rAdd a b
  if f.real then
    let a := (x.reg f.a).asR
    let b := (x.reg f.b).asR
    let (v, r, n) := satR (op a.x b.x) (rop a.r b.r) 48
    x.toD f.dst (mkR (a.bad || b.bad) v r) n
  else
    let a := (x.reg f.a).asC
    let b := (x.reg f.b).asC
    let (vi, ri, ni) := satR (op a.i b.i) (rop a.ri b.ri) 24
    let (vq, rq, nq) := satR (op a.q b.q) (rop a.rq b.rq) 24
    x.toD f.dst (mkC (a.bad || b.bad) vi vq ri rq) (ni + nq)

/-- ADD, SUB in view. -/
def execMAdd (c : Nat) (f : FmtMR) (s : State) : Out := .next (s.mIssue c (f.word 8) f.fits fun x => x.addSub f false)
def execMSub (c : Nat) (f : FmtMR) (s : State) : Out := .next (s.mIssue c (f.word 9) f.fits fun x => x.addSub f true)

/-- NEG in view. -/
def execMNeg (c : Nat) (f : FmtMR) (s : State) : Out :=
  .next (s.mIssue c (f.word 0x0A) f.fits fun x =>
    if f.real then
      let a := (x.reg f.a).asR
      let (v, r, n) := satR (-a.x) (rNeg a.r) 48
      x.toD f.dst (mkR a.bad v r) n
    else
      let a := (x.reg f.a).asC
      let (vi, ri, ni) := satR (-a.i) (rNeg a.ri) 24
      let (vq, rq, nq) := satR (-a.q) (rNeg a.rq) 24
      x.toD f.dst (mkC a.bad vi vq ri rq) (ni + nq))

/-- CONJ. -/
def execMConj (c : Nat) (f : FmtMR) (s : State) : Out :=
  .next (s.mIssue c (f.word 0x0B) f.fits fun x =>
    let a := (x.reg f.a).asC
    let (vq, rq, nq) := satR (-a.q) (rNeg a.rq) 24
    x.toD f.dst (mkC a.bad a.i vq a.ri rq) nq)

/-- SWAP: the components and their residues exchanged. -/
def execMSwap (c : Nat) (f : FmtMR) (s : State) : Out :=
  .next (s.mIssue c (f.word 0x0C) f.fits fun x =>
    let a := (x.reg f.a).asC
    x.toD f.dst (mkC a.bad a.q a.i a.rq a.ri) 0)

/-- MOV: the word with its residues and its view. -/
def execMMov (c : Nat) (f : FmtMR) (s : State) : Out :=
  .next (s.mIssue c (f.word 0x0D) f.fits fun x => x.toD f.dst (x.reg f.a) 0)

/-! ### Bits and shifts -/

/-- A bitwise operation on two words in real view; the residue is formed from the result. -/
def CoreSt.bitwise (x : CoreSt) (f : FmtMR) (op : BitVec 48 → BitVec 48 → BitVec 48) : MRes :=
  let a := (x.reg f.a).asR
  let b := (x.reg f.b).asR
  let v := op (BitVec.ofInt 48 a.x) (BitVec.ofInt 48 b.x)
  x.toD f.dst (mkCtl (a.bad || b.bad) v.toInt) 0

def execMAnd (c : Nat) (f : FmtMR) (s : State) : Out := .next (s.mIssue c (f.word 0x0E) f.fits fun x => x.bitwise f (· &&& ·))
def execMOr (c : Nat) (f : FmtMR) (s : State) : Out := .next (s.mIssue c (f.word 0x0F) f.fits fun x => x.bitwise f (· ||| ·))
def execMXor (c : Nat) (f : FmtMR) (s : State) : Out := .next (s.mIssue c (f.word 0x10) f.fits fun x => x.bitwise f (· ^^^ ·))

/-- Shift a word left by `n` in a view, saturating (R202, R203). -/
def CoreSt.shl (x : CoreSt) (dst : Nat) (w : DWord) (real bad : Bool) (n : Nat) : MRes :=
  if real then
    let a := w.asR
    let (v, r, k) := satR (a.x * 2 ^ n) (rShl a.r n) 48
    x.toD dst (mkR (a.bad || bad) v r) k
  else
    let a := w.asC
    let (vi, ri, ki) := satR (a.i * 2 ^ n) (rShl a.ri n) 24
    let (vq, rq, kq) := satR (a.q * 2 ^ n) (rShl a.rq n) 24
    x.toD dst (mkC (a.bad || bad) vi vq ri rq) (ki + kq)

/-- SHL. -/
def execMShl (c : Nat) (f : FmtMR) (s : State) : Out :=
  .next (s.mIssue c (f.word 0x11) f.fits fun x => x.shl f.dst (x.reg f.a) f.real false f.imm6)

/-- SHR: requantised toward minus infinity (R202). -/
def execMShr (c : Nat) (f : FmtMR) (s : State) : Out :=
  .next (s.mIssue c (f.word 0x12) f.fits fun x =>
    if f.real then
      let a := (x.reg f.a).asR
      let (v, r, pass) := requant a.x a.r f.imm6 true
      { x.toD f.dst (mkR a.bad v r) 0 with checked := !a.bad, fail := !a.bad && !pass }
    else
      let a := (x.reg f.a).asC
      x.quantC f.dst f.imm6 true a.bad a.i a.ri a.q a.rq)

/-- EXP of a word in a view: the count and whether the operand is poisoned (R203). -/
def DWord.expIn (w : DWord) (real : Bool) : Nat × Bool :=
  if real then (expOf w.asR.x 48, w.asR.bad) else (min (expOf w.asC.i 24) (expOf w.asC.q 24), w.asC.bad)

/-- EXP. -/
def execMExp (c : Nat) (f : FmtMR) (s : State) : Out :=
  .next (s.mIssue c (f.word 0x13) f.fits fun x =>
    let (n, bad) := (x.reg f.a).expIn f.real
    x.toD f.dst (mkCtl bad n) 0)

/-- EXPMIN: the smaller of the destination and EXP of the operand. -/
def execMExpmin (c : Nat) (f : FmtMR) (s : State) : Out :=
  .next (s.mIssue c (f.word 0x14) f.fits fun x =>
    let (n, bad) := (x.reg f.a).expIn f.real
    let d := (x.reg f.dst).asR
    x.toD f.dst (mkCtl (bad || d.bad) (min d.x n)) 0)

/-- NORM: operand a shifted left by the count in real register b, 0-23 or 0-47 (R203). -/
def execMNorm (c : Nat) (f : FmtMR) (s : State) : Out :=
  .next (s.mIssue c (f.word 0x15) f.fits fun x =>
    let b := (x.reg f.b).asR
    let n := clampN b.x.toNat 0 (if f.real then 47 else 23)
    x.shl f.dst (x.reg f.a) f.real b.bad n)

/-- RCP, RSQ, R204. -/
def execMRcp (c : Nat) (f : FmtMR) (s : State) : Out :=
  .next (s.mIssue c (f.word 0x16) f.fits fun x =>
    let a := (x.reg f.a).asR
    x.toD f.dst (mkCtl a.bad (rcpOf a.x).1) (b2n (rcpOf a.x).2))
def execMRsq (c : Nat) (f : FmtMR) (s : State) : Out :=
  .next (s.mIssue c (f.word 0x17) f.fits fun x =>
    let a := (x.reg f.a).asR
    x.toD f.dst (mkCtl a.bad (rsqOf a.x).1) (b2n (rsqOf a.x).2))

/-- MIN, MAX: real view; the residue is the source's. -/
def execMMin (c : Nat) (f : FmtMR) (s : State) : Out :=
  .next (s.mIssue c (f.word 0x18) f.fits fun x =>
    let a := (x.reg f.a).asR
    let b := (x.reg f.b).asR
    x.toD f.dst (if b.x < a.x then mkR (a.bad || b.bad) b.x b.r else mkR (a.bad || b.bad) a.x a.r) 0)
def execMMax (c : Nat) (f : FmtMR) (s : State) : Out :=
  .next (s.mIssue c (f.word 0x19) f.fits fun x =>
    let a := (x.reg f.a).asR
    let b := (x.reg f.b).asR
    x.toD f.dst (if a.x < b.x then mkR (a.bad || b.bad) b.x b.r else mkR (a.bad || b.bad) a.x a.r) 0)

/-! ### Flags, SR and immediates -/

/-- CMP: F(flag) = cond(a, b), real view. -/
def execMCmp (c : Nat) (f : FmtMR) (s : State) : Out :=
  .next (s.mIssue c (f.word 0x1A) f.fits fun x =>
    { w := { flag := some (f.flag, condOf f.imm6 (x.reg f.a).asR.x (x.reg f.b).asR.x) } })

/-- TST: F(flag) = cond(a, 0) in view. In complex view only equality is stated; an ordering gives a free flag (log entry 7). -/
def execMTst (c : Nat) (f : FmtMR) (s : State) : Out :=
  let (free, s1) := if f.real || decide (f.imm6 < 2) then (false, s) else s.drawBool
  .next (s1.mIssue c (f.word 0x1B) f.fits fun x =>
    let a := (x.reg f.a).asC
    let zero := a.i == 0 && a.q == 0
    let v := if f.real then condOf f.imm6 (x.reg f.a).asR.x 0
      else if f.imm6 = 0 then zero else if f.imm6 = 1 then !zero else free
    { w := { flag := some (f.flag, v) } })

/-- TPOIS: F(flag) = a is poisoned. -/
def execMTpois (c : Nat) (f : FmtMR) (s : State) : Out :=
  .next (s.mIssue c (f.word 0x1C) f.fits fun x => { w := { flag := some (f.flag, (x.reg f.a).poisoned) } })

/-- MOVS: SR = a, 0-62. -/
def execMMovs (c : Nat) (f : FmtMR) (s : State) : Out :=
  .next (s.mIssue c (f.word 0x1D) f.fits fun x => { w := { sr := some (clampN (x.reg f.a).asR.x.toNat 0 62) } })

/-- MOVI: dst = imm20 sign-extended, real. -/
def execMMovi (c : Nat) (f : FmtMI) (s : State) : Out :=
  .next (s.mIssue c (f.word 0x1E) f.fits fun x => x.toD f.dst (mkCtl false (sext f.imm20 20)) 0)

/-- MOVIH: dst = dst * 2^20 + imm20; a destination outside -2^27 to 2^27 - 1 is a program error (R228). -/
def execMMovih (c : Nat) (f : FmtMI) (s : State) : Out :=
  .next (s.mIssue c (f.word 0x1F) f.fits fun x =>
    let d := (x.reg f.dst).asR
    if d.bad then x.toD f.dst (mkCtl true d.x) 0
    else if d.x < -(2 ^ 27) ∨ 2 ^ 27 ≤ d.x then { err := some 7 }
    else x.toD f.dst (mkCtl false (d.x * 2 ^ 20 + f.imm20)) 0)

end Sys2Proof.Machine
end

