-- ==== Sys2Proof/Machine/Kernel.lean ====
section
/-!
DEFINITION. The outputs of the default solver kernels (R185, R186): the estimates of a subband, the vectors of kernels 1-3, and why a subband
has none.
-/
namespace Sys2Proof.Machine

/-- Element `a` of the estimate that directory entry `d` holds for its group `g` (R173), as a job's kernel sees it (R180). -/
def State.estElem (s : State) (j d g a : Nat) : Cx :=
  let n := fld (s.dirWord d 2) 31 30 + 1
  let slot := fld (s.dirWord d 2) 14 0 + g * n + a / 96
  if bitN (s.jobOf j).mask a ∧ a / 96 < n ∧ slot < 21674 then (s.readSlot (0x20000 + slot * 0x300 + 8 * (a % 96))).1 else cx0

/-- The centre of subband `i` of a job from PRB 0, in half PRBs (R178). -/
def State.subCentre (s : State) (j i : Nat) : Nat :=
  let g := fld (s.jobW j 2) 31 28 + 1
  2 * (fld (s.jobW j 2) 26 16 + i * g) + g

/-- The estimate of an antenna at a subband, in units of 2^-12 (R186): interpolated between the centres of the channel groups. Beyond them the
spec gives none: a value of `Config.edgeEstimate` (DESIGN CHOICE, log entry 55). -/
def State.estimate (s : State) (j d i a : Nat) : Cx :=
  let w1 := s.dirWord d 1
  let step := 2 * (fld w1 27 24 + 1)
  let rel : Int := (s.subCentre j i : Int) - ((2 * fld w1 22 12 + fld w1 27 24 + 1 : Nat) : Int)
  let last : Int := ((fld w1 10 0 * step : Nat) : Int)
  if rel < 0 ∨ last < rel then
    let x := s.estElem j d (if rel < 0 then 0 else fld w1 10 0) a
    if x.bad ∨ x.isZero then x
    else
      let y := Config.edgeEstimate rel step (x.i, x.q)
      { i := y.1, q := y.2 }
  else
    let g := (rel / (step : Int)).toNat
    let r := rel % (step : Int)
    let x := s.estElem j d g a
    if r = 0 then cxShl 12 x
    else
      let y := s.estElem j d (g + 1) a
      { i := divRound (((step : Int) - r) * x.i * 4096 + r * y.i * 4096) step
        q := divRound (((step : Int) - r) * x.q * 4096 + r * y.q * 4096) step, bad := x.bad || y.bad }

/-- The column of a directory entry at a subband: its E elements. -/
def State.column (s : State) (j els i d : Nat) : List Cx := (List.range els).map (s.estimate j d i)

/-- sigma^2 of kernel 1 (R186), in units of 2^-24: the mean extension 8 factor of the inputs where one is present, else the noise word of the
group of the first input that holds the subband's centre, times reg_scale. Also whether that word is poisoned. -/
def State.sigma2 (s : State) (j i : Nat) : Int × Bool :=
  let d0 := fld (s.jobW j 0) 15 5
  let ues := (List.range (s.jobInputs j)).map (fun k => fld (s.dirWord (d0 + k) 0) 14 0)
  let fs := s.sol.ext8.filter (fun (x : Nat × Nat) => ues.contains x.1)
  if fs ≠ [] then ((Config.regularize ((fs.map Prod.snd).sum / fs.length) : Int), false)
  else
    let w1 := s.dirWord d0 1
    let g := min (fld w1 10 0) ((s.subCentre j i - 2 * fld w1 22 12) / (2 * (fld w1 27 24 + 1)))
    let n := (s.readSlot (0x10000 + (fld (s.jobW j 0) 22 21 * 2048 + g) * 8)).1
    let reg := fld (s.jobW j 5) 31 16
    let v := n.i * ((if reg = 0 then 256 else reg : Nat) : Int)
    (if 0 ≤ n.q + 16 then v * 2 ^ (n.q + 16).toNat else v / 2 ^ (-(n.q + 16)).toNat, n.bad)

/-- The matrix of inner products of columns. -/
def gram (cols : List (List Cx)) : List (List Cx) := cols.map (fun u => cols.map (fun v => cxDot ((u.map cxConj).zip v)))

/-- Add a real number to the diagonal of a matrix. -/
def addDiag (m : List (List Cx)) (x : Int) : List (List Cx) :=
  m.zipIdx.map (fun (r : List Cx × Nat) => r.1.zipIdx.map (fun (e : Cx × Nat) => if e.2 = r.2 then { e.1 with i := e.1.i + x } else e.1))

/-- A combination of columns, and the same scaled to the Euclidean norm `norm` (R186), with the components that did not fit (R143). -/
def combine (els : Nat) (cols : List (List Cx)) (cs : List Cx) : List Cx :=
  (List.range els).map (fun a => cxDot ((cols.zip cs).map (fun (x : List Cx × Cx) => (x.1.getD a cx0, x.2))))
def toNorm (norm : Nat) (v : List Cx) : List (Cx × Nat) :=
  let size := isqrt (powerSum v * 2 ^ 64)
  v.map (fun x => if size = 0 then (cx0, 0)
    else cxSat 24 { i := divRound (x.i * ((norm * 2 ^ 32 : Nat) : Int)) size, q := divRound (x.q * ((norm * 2 ^ 32 : Nat) : Int)) size })

/-- The inputs of a job that come from the SRS entry of input `k`: its UE in kernel 3 (R175, R186). -/
def State.portsOf (s : State) (j k : Nat) : List Nat :=
  let d0 := fld (s.jobW j 0) 15 5
  let entry := fun (d : Nat) => (List.range 256).find? (fun e =>
    bit (s.srsW e 0) 31 && decide (fld (s.srsW e 3) 31 21 ≤ d ∧ d < fld (s.srsW e 3) 31 21 + 2 ^ fld (s.srsW e 0) 26 25))
  match entry (d0 + k) with
  | none => [k]
  | some e => (List.range (s.jobInputs j)).filter (fun n => entry (d0 + n) == some e)

/-- What a default kernel makes of a subband (R185, R186): the reason its items fail, or the vector of input `k` with its saturations. -/
inductive KernelOut where
  | fails (reason : Nat)
  | vector (els : List (Cx × Nat))
  deriving DecidableEq, Repr

/-- The vector of input `k` at subband `i` of job `j` (R186). A subband whose input holds a poisoned word fails with POISONED, one whose
factorisation meets a pivot that is not positive with SINGULAR (R185). -/
def State.kernelOut (s : State) (j els i k : Nat) : KernelOut :=
  let d0 := fld (s.jobW j 0) 15 5
  let h := (List.range (s.jobInputs j)).map (fun n => s.column j els i (d0 + n))
  let norm := if fld (s.jobW j 6) 23 0 = 0 then 0x400000 else fld (s.jobW j 6) 23 0
  if s.jobKernel j = 3 then
    let ports := s.portsOf j k
    let cols := ports.map (fun n => h.getD n [])
    if cols.any (fun c => c.any Cx.bad) then .fails 6
    else
      let m := (gram cols).map (fun r => r.map (fun e => (e.i, e.q)))
      let cs := (Config.eigenvector m (ports.idxOf k)).map (fun (v : Int × Int) => ({ i := v.1, q := v.2 } : Cx))
      .vector (toNorm norm (combine els cols cs))
  else
    let cols := if s.jobKernel j = 1 then h ++ (s.jobIntf j).map (s.column j els i) else h
    let g := gram cols
    let tr := (g.zipIdx.map (fun (r : List Cx × Nat) => (r.1.getD r.2 cx0).i)).sum
    let (sigma, bad) := if s.jobKernel j = 1 then s.sigma2 j i else (tr / ((2 ^ 20 * s.jobInputs j : Nat) : Int), false)
    if bad || cols.any (fun c => c.any Cx.bad) then .fails 6
    else match solve (addDiag g sigma) ((List.range cols.length).map (fun c => if c = k then { i := 1, q := 0 } else cx0)) with
      | none => .fails 7
      | some xs => .vector (toNorm norm (combine els cols (xs.map Prod.fst)))

/-- Why the items of a work item of a default kernel fail: poison that it read or that its inputs hold, or a singular factorisation; none for
a kernel that was loaded. -/
def State.kernelFault (s : State) (x : WorkItem) : Option Nat :=
  if 3 < s.jobKernel x.job then none
  else if s.silent x then some 6
  else match s.kernelOut x.job x.els x.sub 0 with
    | .fails r => some r
    | .vector _ => none

/-- The input whose vector of a subband lies in a vector slot (R178). -/
def State.slotInput (s : State) (j sub slot : Nat) : Option Nat :=
  let out := fld (s.jobW j 2) 14 0
  let ng := s.jobGroups j
  let n := (slot - out) / ng
  if slot < out ∨ (slot - out) % ng ≠ sub ∨ s.jobInputs j * s.itemsPer j ≤ n then none else some (n % s.jobInputs j)

/-- The words that a default kernel sends to a slot, with the saturations; those of the core's memory where the slot is none of the
item's, and for a kernel that was loaded. -/
def State.kernelWords (s : State) (x : WorkItem) (slot : Nat) (held : List (Nat × Nat)) : List (Nat × Nat) × Nat :=
  if 3 < s.jobKernel x.job then (held, 0)
  else match s.slotInput x.job x.sub slot with
    | none => (held, 0)
    | some k =>
      match s.kernelOut x.job x.els x.sub k with
      | .fails _ => (held, 0)
      | .vector els => (els.map (fun (e : Cx × Nat) =>
          let v := wrapN e.1.i 24 * 2 ^ 24 + wrapN e.1.q 24
          (v, tag48 v)), (els.map Prod.snd).sum)

end Sys2Proof.Machine
end

