-- ==== Sys2Proof/Machine/XSlot.lean ====
section
/-!
DEFINITION. The X slot of a solver core (R209-R220, R227): addressing, data memory, the stream port, loops and branches, and the end of
a work item. The X slot completes its bundle: it writes what both slots have computed and moves PC.
-/
namespace Sys2Proof.Machine

/-- What an X-slot instruction does to PC (R213, R215), or that it waits (R220), is in error (R228) or ends the item (R227). -/
inductive XNext where
  | seq
  /-- A taken branch. -/
  | jump (target : Nat)
  /-- A new loop over the bundles from the next one to `last`. -/
  | loop (count last : Nat) (rot : Bool)
  | stall
  | err (cause : Nat)
  | fin (mask reason : Nat)
  deriving DecidableEq, Repr

/-- What an X-slot instruction computes: the core with its address registers, buffers, memory and stream port as it leaves them, the
D registers (physical) it writes, and where PC goes. -/
structure XRes where
  core : CoreSt
  ds : List (Nat × DWord) := []
  next : XNext := .seq
  deriving DecidableEq, Repr

/-! ### Addressing -/

/-- The address after a step of address register `a`, under its binding (R210). -/
def CoreSt.stepped (x : CoreSt) (a : Nat) (step : Int) : Nat :=
  let v := x.a.getD a 0
  let b := x.binds.getD a 0
  let base := x.cbBase.getD (b - 1) 0
  let len := x.cbLen.getD (b - 1) 0
  if b = 0 ∨ len = 0 then wrapN (v + step) 15
  else (base + (((((v + 2 ^ 15 - base) % 2 ^ 15 : Nat) : Int) + step) % (len : Int)).toNat) % 2 ^ 15

/-- Post-modify address register `a`. -/
def CoreSt.postMod (x : CoreSt) (a : Nat) (step : Int) : CoreSt := { x with a := setAt x.a a (x.stepped a step) }

/-- Data memory, R198: unlisted slots hold zero words. -/
def CoreSt.load (x : CoreSt) (a : Nat) : DWord := Sparse.get (fun _ => {}) x.mem (a % 2 ^ 15)
def CoreSt.store (x : CoreSt) (a : Nat) (w : DWord) : CoreSt := { x with mem := Sparse.set (fun _ => {}) x.mem (a % 2 ^ 15) w }

/-! ### The end of a bundle -/

/-- The bundle after the last one that was passed (R213, R214): loops that end there count down, rotate, repeat or end. -/
def loopEnd (pc : Nat) : List LoopLevel → Nat → Nat × List LoopLevel × Nat
  | [], rrb => ((pc + 1) % 2 ^ 13, [], rrb)
  | l :: rest, rrb =>
    if pc = l.last then
      let r := if l.rot then (rrb + 15) % 16 else rrb
      if 1 < l.left then (l.first, { l with left := l.left - 1 } :: rest, r) else loopEnd pc rest r
    else ((pc + 1) % 2 ^ 13, l :: rest, rrb)

/-- Write what the M slot has computed. -/
def CoreSt.applyM (x : CoreSt) (w : MWrites) : CoreSt :=
  let x1 := match w.d with
    | some (n, v) => { x with d := setAt x.d n v }
    | none => x
  let x2 := { x1 with acc := w.accs.foldl (fun l (e : Nat × AccW) => setAt l e.1 e.2) x1.acc }
  let x3 := match w.flag with
    | some (n, b) => { x2 with flags := setAt x2.flags n b }
    | none => x2
  match w.sr with
  | some v => { x3 with sr := v, mw := none }
  | none => { x3 with mw := none }

/-- A core waits on the stream port, or runs again (R231). -/
def State.coreState (s : State) (c v : Nat) : State := s.pf (Reg.SOL_CORE_STAT c) 31 28 v

/-- The work item of a core ends (R227): the inputs it reports fail, and every input of a default kernel whose subband has no vector
(R185). -/
def State.endWork (s : State) (c mask reason : Nat) : State :=
  match (s.coreOf c).item with
  | none => s
  | some i =>
    let s1 := s.idleCore c
    let s2 := s1.forEach ((List.range (s1.jobInputs i.job)).filter (bitN mask)) fun u k => u.failItem i.job k reason
    (match s.kernelFault i with
      | some r => s2.failAll i.job r
      | none => s2).subDone i.job i.sub

/-- Complete a bundle: both slots write (two writes of one register are a program error, R216, R228), and PC moves. -/
def State.endBundle (s : State) (c : Nat) (mw : MWrites) (r : XRes) : State :=
  match r.next with
  | .stall => s.coreState c 2
  | .err e => s.progError c e
  | n =>
    if mw.d.any (fun (m : Nat × DWord) => r.ds.any (fun (d : Nat × DWord) => d.1 == m.1)) then s.progError c 6
    else
      let x1 := r.core.applyM mw
      let x2 := { x1 with d := r.ds.foldl (fun l (e : Nat × DWord) => setAt l e.1 e.2) x1.d }
      let s1 := s.coreState c 1
      match n with
      | .jump t =>
        s1.setCore c { x2 with pc := t, loops := x2.loops.dropWhile (fun l => !decide (l.first ≤ t ∧ t ≤ l.last)) }
      | .loop count last rot =>
        if count = 0 then
          let (pc, loops, rrb) := loopEnd last x2.loops x2.rrb
          s1.setCore c { x2 with pc := pc, loops := loops, rrb := rrb }
        else
          let first := (x2.pc + 1) % 2 ^ 13
          s1.setCore c { x2 with pc := first, loops := { left := count, first := first, last := last, rot := rot } :: x2.loops }
      | .fin mask reason => (s1.setCore c x2).endWork c mask reason
      | _ =>
        let (pc, loops, rrb) := loopEnd x2.pc x2.loops x2.rrb
        s1.setCore c { x2 with pc := pc, loops := loops, rrb := rrb }

/-- Issue an X-slot instruction on core `c` after the M slot of its bundle. -/
def State.xIssue (s : State) (c word : Nat) (fits : Bool) (f : CoreSt → XRes) : State :=
  let x := s.coreOf c
  match x.mw with
  | none => s
  | some mw =>
    let held := (s.bundle x.pc).map (· / 2 ^ 32)
    if !decide (c < 32) then s
    else if held.any (fun h => !legalX h) then s.progError c 3
    else if !fits || held.any (· != word) then s
    else if !legalX word then s.progError c 3
    else s.endBundle c mw (f x)

/-! ### Loads, stores and addresses -/

/-- X_NOP. -/
def execXNop (c : Nat) (f : FmtXL) (s : State) : Out := .next (s.xIssue c (f.word 0) f.fits fun x => { core := x })

/-- LD: d = [a]; a post-modified. -/
def execXLd (c : Nat) (f : FmtXL) (s : State) : Out :=
  .next (s.xIssue c (f.word 0x20) f.fits fun x =>
    { core := x.postMod f.a (sext f.step 10), ds := [(x.phys f.d, x.load (x.a.getD f.a 0))] })

/-- ST: [a] = d; a post-modified. -/
def execXSt (c : Nat) (f : FmtXL) (s : State) : Out :=
  .next (s.xIssue c (f.word 0x21) f.fits fun x =>
    { core := (x.store (x.a.getD f.a 0) (x.reg f.d)).postMod f.a (sext f.step 10) })

/-- LDD: d1 = [a1], d2 = [a2]; both post-modified. -/
def execXLdd (c : Nat) (f : FmtXD) (s : State) : Out :=
  .next (s.xIssue c (f.word 0x22) f.fits fun x =>
    { core := (x.postMod f.a1 (sext f.step1 5)).postMod f.a2 (sext f.step2 5)
      ds := [(x.phys f.d1, x.load (x.a.getD f.a1 0)), (x.phys f.d2, x.load (x.a.getD f.a2 0))] })

/-- LDST: d1 = [a1], [a2] = d2; both post-modified. -/
def execXLdst (c : Nat) (f : FmtXD) (s : State) : Out :=
  .next (s.xIssue c (f.word 0x23) f.fits fun x =>
    { core := ((x.store (x.a.getD f.a2 0) (x.reg f.d2)).postMod f.a1 (sext f.step1 5)).postMod f.a2 (sext f.step2 5)
      ds := [(x.phys f.d1, x.load (x.a.getD f.a1 0))] })

/-- The 15-bit value of format XA: imm17[14:0], or d[14:0]. -/
def CoreSt.xaValue (x : CoreSt) (f : FmtXA) : Nat := (if f.src then (x.reg f.d).v else f.imm17) % 2 ^ 15

/-- SETA. -/
def execXSeta (c : Nat) (f : FmtXA) (s : State) : Out :=
  .next (s.xIssue c (f.word 0x28) f.fits fun x => { core := { x with a := setAt x.a f.idx (x.xaValue f) } })

/-- ADDA: by the signed imm17, addressed as a post-modify (R210). -/
def execXAdda (c : Nat) (f : FmtXA) (s : State) : Out :=
  .next (s.xIssue c (f.word 0x29) f.fits fun x => { core := x.postMod f.idx (sext f.imm17 17) })

/-- MOVDA: D(d) = A(idx), real. -/
def execXMovda (c : Nat) (f : FmtXA) (s : State) : Out :=
  .next (s.xIssue c (f.word 0x2A) f.fits fun x => { core := x, ds := [(x.phys f.d, mkCtl false (x.a.getD f.idx 0))] })

/-- SETCBB: moves no address register (R212). -/
def execXSetcbb (c : Nat) (f : FmtXA) (s : State) : Out :=
  .next (s.xIssue c (f.word 0x2C) f.fits fun x => { core := { x with cbBase := setAt x.cbBase f.idx (x.xaValue f) } })

/-- SETCBL: folds the registers bound to the buffer (R211). -/
def execXSetcbl (c : Nat) (f : FmtXA) (s : State) : Out :=
  .next (s.xIssue c (f.word 0x2D) f.fits fun x =>
    let len := x.xaValue f
    let base := x.cbBase.getD f.idx 0
    let fold := fun (v b : Nat) => if b = f.idx + 1 ∧ len ≠ 0 then (base + (v + 2 ^ 15 - base) % 2 ^ 15 % len) % 2 ^ 15 else v
    { core := { x with cbLen := setAt x.cbLen f.idx len, a := List.zipWith fold x.a x.binds } })

/-- BIND. -/
def execXBind (c : Nat) (f : FmtXA) (s : State) : Out :=
  .next (s.xIssue c (f.word 0x2E) f.fits fun x => { core := { x with binds := setAt x.binds f.idx f.imm17 } })

/-! ### The stream port -/

/-- The number of sources of a store, R218. -/
def streamRange (store : Nat) : Nat :=
  if store = 0 then 21674 else if store = 1 then 8192 else if store = 2 then 28672 else 4096

/-- Whether the port has room for another descriptor, R220. -/
def CoreSt.portFull (x : CoreSt) : Bool := decide (8 ≤ x.gets.length + x.puts.length)

/-- SGET, R218: a stream read into data memory at the address in a, following its binding. -/
def execXSget (c : Nat) (f : FmtXS) (s : State) : Out :=
  .next (s.xIssue c (f.word 0x30) f.fits fun x =>
    let src := (x.reg f.d).v % 2 ^ 22
    let isOver := streamRange f.store ≤ src ∨ (f.store = 1 ∧ streamRange 1 < src + f.count)
    if isOver then { core := x, next := .err 5 }
    else if x.portFull then { core := x, next := .stall }
    else
      let b := x.binds.getD f.a 0
      let g : SGetD := {
        store := f.store, src := src, count := f.count, tag := f.tag, addr := x.a.getD f.a 0
        base := x.cbBase.getD (b - 1) 0, len := if b = 0 then 0 else x.cbLen.getD (b - 1) 0 }
      { core := { x with gets := x.gets ++ [g] } })

/-- The address of word `n` of a stream read. -/
def SGetD.at (g : SGetD) (n : Nat) : Nat :=
  if g.len = 0 then (g.addr + n) % 2 ^ 15
  else if n = 0 then g.addr
  else (g.base + ((g.addr + 2 ^ 15 - g.base) % 2 ^ 15 + n) % g.len) % 2 ^ 15

/-- The memory address of word `n` of a stream read, R171, R218. -/
def State.streamSrc (s : State) (g : SGetD) (n : Nat) : Nat :=
  if g.store = 0 then 0x20000 + g.src * 0x300 + 8 * n
  else if g.store = 1 then 0x10000 + (g.src + n) * 8
  else if g.store = 2 then wsBase s.liveStore + 0x100000 + g.src * 0x300 + 8 * n
  else btBase s.liveStore + g.src * 0x300 + 8 * n

/-- The package whose antennas a channel slot holds (R173, R175), from the directory entries of a job's inputs and interferers. -/
def State.slotPkg (s : State) (j slot : Nat) : Option Nat :=
  let ds := (List.range (s.jobInputs j)).map (fun k => fld (s.jobW j 0) 15 5 + k) ++ s.jobIntf j
  ds.findSome? fun d =>
    let n := fld (s.dirWord d 2) 31 30 + 1
    let base := fld (s.dirWord d 2) 14 0
    if base ≤ slot ∧ slot < base + n * (fld (s.dirWord d 1) 10 0 + 1) then some ((slot - base) % n) else none

/-- A word of a stream read as the job's kernel sees it: an element of an antenna outside the job's mask is zero (R180). -/
def State.masked (s : State) (x : CoreSt) (g : SGetD) (k : Nat) (w : Cx × Bool) : Cx × Bool :=
  match x.item, g.store with
  | some i, 0 =>
    match s.slotPkg i.job g.src with
    | some m => if bitN (s.jobOf i.job).mask (96 * m + k) then w else ({ i := 0, q := 0 }, false)
    | none => w
  | _, _ => w

/-- SGET_ARRIVAL: the words of the `n`th outstanding stream read of core `c` arrive, each checked against its tag (R393). -/
def execSgetArrival (c n : Nat) (s : State) : Out :=
  let x := s.coreOf c
  match x.gets[n]? with
  | none => .next s
  | some g =>
    let (s, read) := s.crossWords 1 c ((List.range g.count).map (fun k => (s.readSlot (s.streamSrc g k)).1))
    let fail := (List.range g.count).map (fun k => (s.readSlot (s.streamSrc g k)).2)
    let (s, read) := s.injectWords 0x02 0 read
    let ws := ((read.zip fail).zipIdx).map (fun (w : (Cx × Bool) × Nat) => s.masked x g w.2 w.1)
    let taint := g.store ≤ 1 && ws.any (fun (w : Cx × Bool) => w.1.bad)
    let x1 := (ws.zipIdx).foldl (fun (y : CoreSt) (w : (Cx × Bool) × Nat) =>
      let v := w.1.1
      y.store (g.at w.2) (mkC v.bad v.i v.q (residue v.i) (residue v.q))) { x with gets := x.gets.eraseIdx n, item := x.item.map (fun i => { i with tainted := i.tainted || taint }) }
    let fails := (ws.filter (fun (w : Cx × Bool) => w.2)).length
    .next ((s.setCore c x1).hubCheck 2 fails 0)

/-- A word as the stream port sends it (R219, R223, R224): its bits and tag; one in real view is poisoned. -/
def DWord.sent (w : DWord) : Nat × Nat := if w.poisoned || w.real then (w.v, 255) else (w.v, w.ri * 16 + w.rq)

/-- SPUT, R219: the E words at a go to vector slot d of the idle weight store. A word whose residues do not match its tag is a check
failure of the core (R224). The port reads the words as it takes the descriptor; an antenna outside the job's mask has weight 0 (R180).
A default kernel sends the vectors of R186. -/
def execXSput (c : Nat) (f : FmtXS) (s : State) : Out :=
  let x := s.coreOf c
  let slot := (x.reg f.d).v % 2 ^ 22
  let e := (x.item.map WorkItem.els).getD 96
  let b := x.binds.getD f.a 0
  let g : SGetD := {
    store := 0, src := 0, count := e, tag := f.tag, addr := x.a.getD f.a 0
    base := x.cbBase.getD (b - 1) 0, len := if b = 0 then 0 else x.cbLen.getD (b - 1) 0 }
  let words := (List.range e).map (fun k => (x.load (g.at k)).sent)
  let open_ := x.mw.isSome && !x.portFull && decide (slot < 28672) && f.fits && legalX (f.word 0x31) &&
    !(s.bundle x.pc).any (fun h => h / 2 ^ 32 != f.word 0x31)
  let wrong := words.any (fun (w : Nat × Nat) => w.2 != 255 && w.2 != tag48 w.1)
  let (hit, s1) := if open_ then s.injected 0x30 c else (none, s)
  if open_ && (wrong || hit == some 0) then .next (s1.coreFail c 1)
  else
    let mask := (s1.jobOf ((x.item.map WorkItem.job).getD 0)).mask
    let (made, sats) := match x.item with
      | some i => s1.kernelWords i slot words
      | none => (words, 0)
    let words1 := (if hit == some 1 then made.map (fun (w : Nat × Nat) => (w.1, 255)) else made).zipIdx.map
      (fun (w : (Nat × Nat) × Nat) => if bitN mask w.2 then w.1 else (0, 0))
    let isOut := x.item.any (fun i => (s1.kernelFault i).isSome)
    .next ((s1.when (open_ && !isOut && decide (c < 32)) (fun u => u.bumpBy Cnt.solKernel sats)).xIssue c (f.word 0x31) f.fits fun x =>
      if 28672 ≤ slot then { core := x, next := .err 5 }
      else if x.portFull then { core := x, next := .stall }
      else if isOut then { core := x }
      else { core := { x with puts := x.puts ++ [{
        job := (x.item.map WorkItem.job).getD 0, sub := (x.item.map WorkItem.sub).getD 0, slot := slot, words := words1 }] } })

/-- SPUT_LAND, R182, R219: the oldest burst of core `c` lands in the idle weight store, which must accept writes. -/
def execSputLand (c : Nat) (s : State) : Out :=
  .next (if s.rb Reg.TR_STATUS 1 then s else s.landBurst c)

/-- SWAIT, R220: for the SGETs with the tag, or all of them, to have arrived; SPUTs have read their words at issue. -/
def execXSwait (c : Nat) (f : FmtXS) (s : State) : Out :=
  .next (s.xIssue c (f.word 0x32) f.fits fun x =>
    if x.gets.any (fun g => f.all || g.tag == f.tag) then { core := x, next := .stall } else { core := x })

/-! ### Control -/

/-- LOOP, R213. -/
def execXLoop (c : Nat) (f : FmtXC) (s : State) : Out :=
  .next (s.xIssue c (f.word 0x38) f.fits fun x =>
    let r := x.reg (f.count % 32)
    let n := if f.src then (if sext r.v 48 < 0 then 0 else r.v % 2 ^ 16) else f.count
    { core := x, next := if 2 ≤ x.loops.length then .err 4 else .loop n f.last f.rot })

/-- BR, JMP, R215. -/
def execXBr (c : Nat) (f : FmtXB) (s : State) : Out :=
  .next (s.xIssue c (f.word 0x39) f.fits fun x =>
    { core := x, next := if x.flags.getD f.flag false = f.sense then .jump f.target else .seq })
def execXJmp (c : Nat) (f : FmtXB) (s : State) : Out :=
  .next (s.xIssue c (f.word 0x3A) f.fits fun x => { core := x, next := .jump f.target })

/-- SETRRB. -/
def execXSetrrb (c : Nat) (f : FmtXE) (s : State) : Out :=
  .next (s.xIssue c (f.word 0x3B) f.fits fun x => { core := { x with rrb := f.imm4 } })

/-- END, R227: waits until every SPUT has landed or waits under R182; then the inputs in d1 fail with the reason in d2. -/
def execXEnd (c : Nat) (f : FmtXE) (s : State) : Out :=
  .next (s.xIssue c (f.word 0x3F) f.fits fun x =>
    if !x.puts.isEmpty && !s.rb Reg.TR_STATUS 1 then { core := x, next := .stall }
    else { core := x, next := .fin ((x.reg f.d1).v % 2 ^ 32) ((x.reg f.d2).v % 2 ^ 8) })

end Sys2Proof.Machine
end

