-- ==== Sys2Proof/Machine/Dispatch.lean ====
section
/-!
DEFINITION. The dispatch: one arm per constructor of `Instr`, each one direct call of that command's meaning.
-/
namespace Sys2Proof.Machine

def exec (i : Instr) (s : State) : Host.Outcome State Fault Refusal :=
  match i with
  | .registerWrite o w be => Sys2Proof.Machine.execRegisterWrite o w be s
  | .storeSlotWrite o w be => Sys2Proof.Machine.execStoreSlotWrite o w be s
  | .crossingOverflow row die unit n => Sys2Proof.Machine.execCrossingOverflow row die unit n s
  | .triggerMessage tile line target => Sys2Proof.Machine.execTriggerMessage tile line target s
  | .packageLoss k => Sys2Proof.Machine.execPackageLoss k s
  | .tbRateAdjWrite w => Sys2Proof.Machine.execTbRateAdjWrite w s
  | .tbNowNsRead => Sys2Proof.Machine.execTbNowNsRead s
  | .timeStepApply => Sys2Proof.Machine.execTimeStepApply s
  | .comparatorFire n => Sys2Proof.Machine.execComparatorFire n s
  | .cmpArm n w => Sys2Proof.Machine.execCmpArm n w s
  | .cmpCancel n w => Sys2Proof.Machine.execCmpCancel n w s
  | .tbTrigSelWrite line w => Sys2Proof.Machine.execTbTrigSelWrite line w s
  | .tbSwStrobe w => Sys2Proof.Machine.execTbSwStrobe w s
  | .tbLateCntRead => Sys2Proof.Machine.execTbLateCntRead s
  | .gridBoundary src ahead => Sys2Proof.Machine.execGridBoundary src ahead s
  | .gridOriginWrite idx w => Sys2Proof.Machine.execGridOriginWrite idx w s
  | .txtsPop => Sys2Proof.Machine.execTxtsPop s
  | .syncTimeout => Sys2Proof.Machine.execSyncTimeout s
  | .holdSet w => Sys2Proof.Machine.execHoldSet w s
  | .holdClr w => Sys2Proof.Machine.execHoldClr w s
  | .synceLockLoss => Sys2Proof.Machine.execSynceLockLoss s
  | .ppsInEdge => Sys2Proof.Machine.execPpsInEdge s
  | .ppsinAbsent => Sys2Proof.Machine.execPpsinAbsent s
  | .ppsinNsRead => Sys2Proof.Machine.execPpsinNsRead s
  | .ppsOutRise ahead => Sys2Proof.Machine.execPpsOutRise ahead s
  | .ppsOutFall => Sys2Proof.Machine.execPpsOutFall s
  | .alarmArmWrite w => Sys2Proof.Machine.execAlarmArmWrite w s
  | .alarmFire => Sys2Proof.Machine.execAlarmFire s
  | .timeRead p => Sys2Proof.Machine.execTimeRead p s
  | .timeRateAdj p => Sys2Proof.Machine.execTimeRateAdj p s
  | .timeStep p => Sys2Proof.Machine.execTimeStep p s
  | .timeHold p => Sys2Proof.Machine.execTimeHold p s
  | .timeSched p => Sys2Proof.Machine.execTimeSched p s
  | .timeCancel p => Sys2Proof.Machine.execTimeCancel p s
  | .timeGrid p => Sys2Proof.Machine.execTimeGrid p s
  | .timeAlarm p => Sys2Proof.Machine.execTimeAlarm p s
  | .timePps p => Sys2Proof.Machine.execTimePps p s
  | .configCapture => Sys2Proof.Machine.execConfigCapture s
  | .configCommit => Sys2Proof.Machine.execConfigCommit s
  | .fhPortModeWrite w => Sys2Proof.Machine.execFhPortModeWrite w s
  | .fhEaxcFmtWrite w => Sys2Proof.Machine.execFhEaxcFmtWrite w s
  | .fhFailLostRead => Sys2Proof.Machine.execFhFailLostRead s
  | .fhBufPeakRead => Sys2Proof.Machine.execFhBufPeakRead s
  | .portLinkUp n => Sys2Proof.Machine.execPortLinkUp n s
  | .portLinkDown n => Sys2Proof.Machine.execPortLinkDown n s
  | .frameReceive n bs => Sys2Proof.Machine.execFrameReceive n bs s
  | .ecpriMessage m => Sys2Proof.Machine.execEcpriMessage m s
  | .cplaneWindowClose c => Sys2Proof.Machine.execCplaneWindowClose c s
  | .ulEgress => Sys2Proof.Machine.execUlEgress s
  | .failRecordPost => Sys2Proof.Machine.execFailRecordPost s
  | .fhPortMode p => Sys2Proof.Machine.execFhPortMode p s
  | .fhPortCfg p => Sys2Proof.Machine.execFhPortCfg p s
  | .fhEaxcSet p => Sys2Proof.Machine.execFhEaxcSet p s
  | .fhWindowSet p => Sys2Proof.Machine.execFhWindowSet p s
  | .fhClassSet p => Sys2Proof.Machine.execFhClassSet p s
  | .fhWinQuery p => Sys2Proof.Machine.execFhWinQuery p s
  | .fhFailCfg p => Sys2Proof.Machine.execFhFailCfg p s
  | .fhWakeCfg p => Sys2Proof.Machine.execFhWakeCfg p s
  | .seCtrlWrite w => Sys2Proof.Machine.execSeCtrlWrite w s
  | .dlSymbol c n l => Sys2Proof.Machine.execDlSymbol c n l s
  | .ulSymbol c n l adc => Sys2Proof.Machine.execUlSymbol c n l adc s
  | .prachOccasion k adc => Sys2Proof.Machine.execPrachOccasion k adc s
  | .srsEstimate c n => Sys2Proof.Machine.execSrsEstimate c n s
  | .carrierSwitch c => Sys2Proof.Machine.execCarrierSwitch c s
  | .carSet p => Sys2Proof.Machine.execCarSet p s
  | .carSrsSet p => Sys2Proof.Machine.execCarSrsSet p s
  | .carQuery p => Sys2Proof.Machine.execCarQuery p s
  | .seLinkRate p => Sys2Proof.Machine.execSeLinkRate p s
  | .carStatus p => Sys2Proof.Machine.execCarStatus p s
  | .trWcNowWrite w => Sys2Proof.Machine.execTrWcNowWrite w s
  | .weightCommitEval => Sys2Proof.Machine.execWeightCommitEval s
  | .weightCommitReeval => Sys2Proof.Machine.execWeightCommitReeval s
  | .weightSwitch => Sys2Proof.Machine.execWeightSwitch s
  | .weightRetire => Sys2Proof.Machine.execWeightRetire s
  | .carryFwdDone => Sys2Proof.Machine.execCarryFwdDone s
  | .trellisCfgApply => Sys2Proof.Machine.execTrellisCfgApply s
  | .cascPartialTimeout => Sys2Proof.Machine.execCascPartialTimeout s
  | .bfCommit p => Sys2Proof.Machine.execBfCommit p s
  | .bfLock p => Sys2Proof.Machine.execBfLock p s
  | .bfLoad p => Sys2Proof.Machine.execBfLoad p s
  | .bfScale p => Sys2Proof.Machine.execBfScale p s
  | .bfFallback p => Sys2Proof.Machine.execBfFallback p s
  | .bfMode p => Sys2Proof.Machine.execBfMode p s
  | .bfNullSet p => Sys2Proof.Machine.execBfNullSet p s
  | .bfStatus p => Sys2Proof.Machine.execBfStatus p s
  | .jobGoWrite j v => Sys2Proof.Machine.execJobGoWrite j v s
  | .jobRelease => Sys2Proof.Machine.execJobRelease s
  | .workItemStart c => Sys2Proof.Machine.execWorkItemStart c s
  | .workItemTimeout c => Sys2Proof.Machine.execWorkItemTimeout c s
  | .jobDeadline j => Sys2Proof.Machine.execJobDeadline j s
  | .cascSliceTimeout j idx => Sys2Proof.Machine.execCascSliceTimeout j idx s
  | .solSrsSet p => Sys2Proof.Machine.execSolSrsSet p s
  | .solJobSubmit p => Sys2Proof.Machine.execSolJobSubmit p s
  | .solJobCancel p => Sys2Proof.Machine.execSolJobCancel p s
  | .solJobStatus p => Sys2Proof.Machine.execSolJobStatus p s
  | .solKernelLoad p => Sys2Proof.Machine.execSolKernelLoad p s
  | .solCoreCtrl p pass => Sys2Proof.Machine.execSolCoreCtrl p pass s
  | .solCascMode p => Sys2Proof.Machine.execSolCascMode p s
  | .solChClear p => Sys2Proof.Machine.execSolChClear p s
  | .mNop c f => Sys2Proof.Machine.execMNop c f s
  | .mCmac c f => Sys2Proof.Machine.execMCmac c f s
  | .mDmac c f => Sys2Proof.Machine.execMDmac c f s
  | .mMulw c f => Sys2Proof.Machine.execMMulw c f s
  | .mCmpy c f => Sys2Proof.Machine.execMCmpy c f s
  | .mRdq c f => Sys2Proof.Machine.execMRdq c f s
  | .mCplx c f => Sys2Proof.Machine.execMCplx c f s
  | .mReal c f => Sys2Proof.Machine.execMReal c f s
  | .mAdd c f => Sys2Proof.Machine.execMAdd c f s
  | .mSub c f => Sys2Proof.Machine.execMSub c f s
  | .mNeg c f => Sys2Proof.Machine.execMNeg c f s
  | .mConj c f => Sys2Proof.Machine.execMConj c f s
  | .mSwap c f => Sys2Proof.Machine.execMSwap c f s
  | .mMov c f => Sys2Proof.Machine.execMMov c f s
  | .mAnd c f => Sys2Proof.Machine.execMAnd c f s
  | .mOr c f => Sys2Proof.Machine.execMOr c f s
  | .mXor c f => Sys2Proof.Machine.execMXor c f s
  | .mShl c f => Sys2Proof.Machine.execMShl c f s
  | .mShr c f => Sys2Proof.Machine.execMShr c f s
  | .mExp c f => Sys2Proof.Machine.execMExp c f s
  | .mExpmin c f => Sys2Proof.Machine.execMExpmin c f s
  | .mNorm c f => Sys2Proof.Machine.execMNorm c f s
  | .mRcp c f => Sys2Proof.Machine.execMRcp c f s
  | .mRsq c f => Sys2Proof.Machine.execMRsq c f s
  | .mMin c f => Sys2Proof.Machine.execMMin c f s
  | .mMax c f => Sys2Proof.Machine.execMMax c f s
  | .mCmp c f => Sys2Proof.Machine.execMCmp c f s
  | .mTst c f => Sys2Proof.Machine.execMTst c f s
  | .mTpois c f => Sys2Proof.Machine.execMTpois c f s
  | .mMovs c f => Sys2Proof.Machine.execMMovs c f s
  | .mMovi c f => Sys2Proof.Machine.execMMovi c f s
  | .mMovih c f => Sys2Proof.Machine.execMMovih c f s
  | .xNop c f => Sys2Proof.Machine.execXNop c f s
  | .xLd c f => Sys2Proof.Machine.execXLd c f s
  | .xSt c f => Sys2Proof.Machine.execXSt c f s
  | .xLdd c f => Sys2Proof.Machine.execXLdd c f s
  | .xLdst c f => Sys2Proof.Machine.execXLdst c f s
  | .xSeta c f => Sys2Proof.Machine.execXSeta c f s
  | .xAdda c f => Sys2Proof.Machine.execXAdda c f s
  | .xMovda c f => Sys2Proof.Machine.execXMovda c f s
  | .xSetcbb c f => Sys2Proof.Machine.execXSetcbb c f s
  | .xSetcbl c f => Sys2Proof.Machine.execXSetcbl c f s
  | .xBind c f => Sys2Proof.Machine.execXBind c f s
  | .xSget c f => Sys2Proof.Machine.execXSget c f s
  | .sgetArrival c n => Sys2Proof.Machine.execSgetArrival c n s
  | .xSput c f => Sys2Proof.Machine.execXSput c f s
  | .sputLand c => Sys2Proof.Machine.execSputLand c s
  | .xSwait c f => Sys2Proof.Machine.execXSwait c f s
  | .xLoop c f => Sys2Proof.Machine.execXLoop c f s
  | .xBr c f => Sys2Proof.Machine.execXBr c f s
  | .xJmp c f => Sys2Proof.Machine.execXJmp c f s
  | .xSetrrb c f => Sys2Proof.Machine.execXSetrrb c f s
  | .xEnd c f => Sys2Proof.Machine.execXEnd c f s
  | .loadStrobe r => Sys2Proof.Machine.execLoadStrobe r s
  | .localResumeStrobe p => Sys2Proof.Machine.execLocalResumeStrobe p s
  | .forceMuteWrite p w => Sys2Proof.Machine.execForceMuteWrite p w s
  | .tddSwitch c at_ => Sys2Proof.Machine.execTddSwitch c at_ s
  | .blankExitStart p at_ => Sys2Proof.Machine.execBlankExitStart p at_ s
  | .feQw1Write r w => Sys2Proof.Machine.execFeQw1Write r w s
  | .feWriteRelease r => Sys2Proof.Machine.execFeWriteRelease r s
  | .feFrameStart r => Sys2Proof.Machine.execFeFrameStart r s
  | .feFrameEnd r rdata padOk => Sys2Proof.Machine.execFeFrameEnd r rdata padOk s
  | .feRdataRead r => Sys2Proof.Machine.execFeRdataRead r s
  | .txSet p => Sys2Proof.Machine.execTxSet p s
  | .txNco p => Sys2Proof.Machine.execTxNco p s
  | .txDac p => Sys2Proof.Machine.execTxDac p s
  | .txEnable p => Sys2Proof.Machine.execTxEnable p s
  | .txMute p => Sys2Proof.Machine.execTxMute p s
  | .feWrite p => Sys2Proof.Machine.execFeWrite p s
  | .feRead p => Sys2Proof.Machine.execFeRead p s
  | .tddSet p => Sys2Proof.Machine.execTddSet p s
  | .tddTiming p => Sys2Proof.Machine.execTddTiming p s
  | .txStatus p => Sys2Proof.Machine.execTxStatus p s
  | .orxCaptureStart r => Sys2Proof.Machine.execOrxCaptureStart r s
  | .pressCaptureDone r o delay => Sys2Proof.Machine.execPressCaptureDone r o delay s
  | .pressUpdateReady p => Sys2Proof.Machine.execPressUpdateReady p s
  | .pressHoldExpiry p => Sys2Proof.Machine.execPressHoldExpiry p s
  | .sbfdCaptureDone r o adc delay => Sys2Proof.Machine.execSbfdCaptureDone r o adc delay s
  | .canUpdateReady p => Sys2Proof.Machine.execCanUpdateReady p s
  | .canHoldExpiry p => Sys2Proof.Machine.execCanHoldExpiry p s
  | .nullCalcDone vecs vals => Sys2Proof.Machine.execNullCalcDone vecs vals s
  | .prSet p => Sys2Proof.Machine.execPrSet p s
  | .prCoefSet p => Sys2Proof.Machine.execPrCoefSet p s
  | .prAdapt p => Sys2Proof.Machine.execPrAdapt p s
  | .prLimits p => Sys2Proof.Machine.execPrLimits p s
  | .prStatus p => Sys2Proof.Machine.execPrStatus p s
  | .prSave p => Sys2Proof.Machine.execPrSave p s
  | .prRestore p => Sys2Proof.Machine.execPrRestore p s
  | .canSet p => Sys2Proof.Machine.execCanSet p s
  | .canFit p => Sys2Proof.Machine.execCanFit p s
  | .canStatus p => Sys2Proof.Machine.execCanStatus p s
  | .sbfdBand p => Sys2Proof.Machine.execSbfdBand p s
  | .sbfdNullCalc p => Sys2Proof.Machine.execSbfdNullCalc p s
  | .orxSet p => Sys2Proof.Machine.execOrxSet p s
  | .orxCapture p => Sys2Proof.Machine.execOrxCapture p s
  | .adcFgCalDone a sets => Sys2Proof.Machine.execAdcFgCalDone a sets s
  | .spareEstimate a est => Sys2Proof.Machine.execSpareEstimate a est s
  | .sliceHandover a => Sys2Proof.Machine.execSliceHandover a s
  | .spareTimeout a => Sys2Proof.Machine.execSpareTimeout a s
  | .sliceFailure a slice check => Sys2Proof.Machine.execSliceFailure a slice check s
  | .sliceRetestDone a => Sys2Proof.Machine.execSliceRetestDone a s
  | .overloadEnter p adc => Sys2Proof.Machine.execOverloadEnter p adc s
  | .overloadExit p adc => Sys2Proof.Machine.execOverloadExit p adc s
  | .detectorWindowEnd p adc => Sys2Proof.Machine.execDetectorWindowEnd p adc s
  | .agcDecision p adc => Sys2Proof.Machine.execAgcDecision p adc s
  | .agcFrameSend r => Sys2Proof.Machine.execAgcFrameSend r s
  | .agcCompApply p => Sys2Proof.Machine.execAgcCompApply p s
  | .rxFastRead p => Sys2Proof.Machine.execRxFastRead p s
  | .rxSet p => Sys2Proof.Machine.execRxSet p s
  | .rxNco p => Sys2Proof.Machine.execRxNco p s
  | .rxEnable p => Sys2Proof.Machine.execRxEnable p s
  | .rxAgcSet p => Sys2Proof.Machine.execRxAgcSet p s
  | .rxAgcTab p => Sys2Proof.Machine.execRxAgcTab p s
  | .rxDetect p => Sys2Proof.Machine.execRxDetect p s
  | .adcCal p => Sys2Proof.Machine.execAdcCal p s
  | .rxStatus p => Sys2Proof.Machine.execRxStatus p s
  | .calCycleStart => Sys2Proof.Machine.execCalCycleStart s
  | .calOccasion n l ms => Sys2Proof.Machine.execCalOccasion n l ms s
  | .calResults => Sys2Proof.Machine.execCalResults s
  | .calConfig p => Sys2Proof.Machine.execCalConfig p s
  | .calNetLoad p => Sys2Proof.Machine.execCalNetLoad p s
  | .calRun p => Sys2Proof.Machine.execCalRun p s
  | .calApply p => Sys2Proof.Machine.execCalApply p s
  | .calSave p => Sys2Proof.Machine.execCalSave p s
  | .calRestore p => Sys2Proof.Machine.execCalRestore p s
  | .calStatus p => Sys2Proof.Machine.execCalStatus p s
  | .tileStripe l tile hdr slots badLanes => Sys2Proof.Machine.execTileStripe l tile hdr slots badLanes s
  | .cascStripe k hdr payload => Sys2Proof.Machine.execCascStripe k hdr payload s
  | .cascLayerRecord k => Sys2Proof.Machine.execCascLayerRecord k s
  | .cascPartialRecord k => Sys2Proof.Machine.execCascPartialRecord k s
  | .cascEstimateRecord k => Sys2Proof.Machine.execCascEstimateRecord k s
  | .cascSliceRecord k => Sys2Proof.Machine.execCascSliceRecord k s
  | .ackMessage l n => Sys2Proof.Machine.execAckMessage l n s
  | .regReq l write o w => Sys2Proof.Machine.execRegReq l write o w s
  | .regRsp l w => Sys2Proof.Machine.execRegRsp l w s
  | .captureMessage r bs => Sys2Proof.Machine.execCaptureMessage r bs s
  | .laneMessage l confirm logical spare at_ => Sys2Proof.Machine.execLaneMessage l confirm logical spare at_ s
  | .timeMessage lead m => Sys2Proof.Machine.execTimeMessage lead m s
  | .commitMessage m => Sys2Proof.Machine.execCommitMessage m s
  | .wakeMessage pkgs tiles => Sys2Proof.Machine.execWakeMessage pkgs tiles s
  | .mboxMessage k ws => Sys2Proof.Machine.execMboxMessage k ws s
  | .ctrlMessage k m => Sys2Proof.Machine.execCtrlMessage k m s
  | .alignMessage l m => Sys2Proof.Machine.execAlignMessage l m s
  | .msgResendTimeout l => Sys2Proof.Machine.execMsgResendTimeout l s
  | .linkTrain l attempts lat nearer => Sys2Proof.Machine.execLinkTrain l attempts lat nearer s
  | .laneFailure l lane markers tile => Sys2Proof.Machine.execLaneFailure l lane markers tile s
  | .laneSwap l => Sys2Proof.Machine.execLaneSwap l s
  | .fomMeasure l foms => Sys2Proof.Machine.execFomMeasure l foms s
  | .laneRetrain l lane fom => Sys2Proof.Machine.execLaneRetrain l lane fom s
  | .linkFail l tile => Sys2Proof.Machine.execLinkFail l tile s
  | .axRetrainWrite l w => Sys2Proof.Machine.execAxRetrainWrite l w s
  | .cxCfgWrite w => Sys2Proof.Machine.execCxCfgWrite w s
  | .axStatus p => Sys2Proof.Machine.execAxStatus p s
  | .axRetrain p => Sys2Proof.Machine.execAxRetrain p s
  | .axSwap p => Sys2Proof.Machine.execAxSwap p s
  | .cxRole p => Sys2Proof.Machine.execCxRole p s
  | .axEye p => Sys2Proof.Machine.execAxEye p s
  | .checkIntervalEnd seen => Sys2Proof.Machine.execCheckIntervalEnd seen s
  | .spineFault q => Sys2Proof.Machine.execSpineFault q s
  | .selfTestDone kind unit pass => Sys2Proof.Machine.execSelfTestDone kind unit pass s
  | .svInjectGo w => Sys2Proof.Machine.execSvInjectGo w s
  | .injectionDone => Sys2Proof.Machine.execInjectionDone s
  | .svStatus p => Sys2Proof.Machine.execSvStatus p s
  | .svRepair p => Sys2Proof.Machine.execSvRepair p s
  | .svDeclare p => Sys2Proof.Machine.execSvDeclare p s
  | .svInject p => Sys2Proof.Machine.execSvInject p s
  | .svClear p => Sys2Proof.Machine.execSvClear p s
  | .mbH2dDataWrite m w => Sys2Proof.Machine.execMbH2dDataWrite m w s
  | .mbDbWrite m w => Sys2Proof.Machine.execMbDbWrite m w s
  | .packetTimeout m => Sys2Proof.Machine.execPacketTimeout m s
  | .mbD2hDataRead m => Sys2Proof.Machine.execMbD2hDataRead m s
  | .d2hRstWrite m => Sys2Proof.Machine.execD2hRstWrite m s
  | .mbLostRead m => Sys2Proof.Machine.execMbLostRead m s
  | .noticePush m => Sys2Proof.Machine.execNoticePush m s
  | .spiWriteWords ws => Sys2Proof.Machine.execSpiWriteWords ws s
  | .spiReadWords n => Sys2Proof.Machine.execSpiReadWords n s
  | .spiReadStatus => Sys2Proof.Machine.execSpiReadStatus s
  | .spiWriteLoadBytes ws => Sys2Proof.Machine.execSpiWriteLoadBytes ws s
  | .undefinedOpcode op p => Sys2Proof.Machine.execUndefinedOpcode op p s
  | .testDebugCmd op p => Sys2Proof.Machine.execTestDebugCmd op p s
  | .sysNop p => Sys2Proof.Machine.execSysNop p s
  | .sysInfo p => Sys2Proof.Machine.execSysInfo p s
  | .sysStateGet p => Sys2Proof.Machine.execSysStateGet p s
  | .sysStateSet p => Sys2Proof.Machine.execSysStateSet p s
  | .sysCommit p => Sys2Proof.Machine.execSysCommit p s
  | .sysCommitCancel p => Sys2Proof.Machine.execSysCommitCancel p s
  | .sysDiscard p => Sys2Proof.Machine.execSysDiscard p s
  | .sysRestart p => Sys2Proof.Machine.execSysRestart p s
  | .sysEventCfg p => Sys2Proof.Machine.execSysEventCfg p s
  | .glCmtNowWrite w => Sys2Proof.Machine.execGlCmtNowWrite w s
  | .ringEnable n w => Sys2Proof.Machine.execRingEnable n w s
  | .ringDisable n w => Sys2Proof.Machine.execRingDisable n w s
  | .ringDrain n => Sys2Proof.Machine.execRingDrain n s
  | .ringDbWrite n => Sys2Proof.Machine.execRingDbWrite n s
  | .descFetch n words err => Sys2Proof.Machine.execDescFetch n words err s
  | .descFinish n data err => Sys2Proof.Machine.execDescFinish n data err s
  | .readCompletionTimeout n => Sys2Proof.Machine.execReadCompletionTimeout n s
  | .dmaShCommitWrite n w => Sys2Proof.Machine.execDmaShCommitWrite n w s
  | .directHandover n data err => Sys2Proof.Machine.execDirectHandover n data err s
  | .directHalfPoint n => Sys2Proof.Machine.execDirectHalfPoint n s
  | .dmaStopWrite n => Sys2Proof.Machine.execDmaStopWrite n s
  | .monitorSequence => Sys2Proof.Machine.execMonitorSequence s
  | .monitorConversionDone q input dev => Sys2Proof.Machine.execMonitorConversionDone q input dev s
  | .monitorCalDone q dur => Sys2Proof.Machine.execMonitorCalDone q dur s
  | .monitorCalPeriod q => Sys2Proof.Machine.execMonitorCalPeriod q s
  | .monitorPowerDown q => Sys2Proof.Machine.execMonitorPowerDown q s
  | .maInjWrite q w => Sys2Proof.Machine.execMaInjWrite q w s
  | .maCalWrite q w => Sys2Proof.Machine.execMaCalWrite q w s
  | .maTakeWrite q w => Sys2Proof.Machine.execMaTakeWrite q w s
  | .maInjResRead q => Sys2Proof.Machine.execMaInjResRead q s
  | .snapNowWrite w => Sys2Proof.Machine.execSnapNowWrite w s
  | .snapshotFire => Sys2Proof.Machine.execSnapshotFire s
  | .snapshotLatch => Sys2Proof.Machine.execSnapshotLatch s
  | .monSnapRelWrite w => Sys2Proof.Machine.execMonSnapRelWrite w s
  | .recorderEvent rec code src late detail => Sys2Proof.Machine.execRecorderEvent rec code src late detail s
  | .recorderTrigger rec => Sys2Proof.Machine.execRecorderTrigger rec s
  | .recMarkWrite w => Sys2Proof.Machine.execRecMarkWrite w s
  | .recClear r => Sys2Proof.Machine.execRecClear r s
  | .recTest r => Sys2Proof.Machine.execRecTest r s
  | .recTestDone r bad => Sys2Proof.Machine.execRecTestDone r bad s
  | .recRearm t => Sys2Proof.Machine.execRecRearm t s
  | .recorderMemoryError r slot corrected code src detail => Sys2Proof.Machine.execRecorderMemoryError r slot corrected code src detail s
  | .snapAt p => Sys2Proof.Machine.execSnapAt p s
  | .snapRelease p => Sys2Proof.Machine.execSnapRelease p s
  | .snapInfo p => Sys2Proof.Machine.execSnapInfo p s
  | .snapDeliver p => Sys2Proof.Machine.execSnapDeliver p s
  | .recMapSet p => Sys2Proof.Machine.execRecMapSet p s
  | .recListSet p => Sys2Proof.Machine.execRecListSet p s
  | .recCtrl p => Sys2Proof.Machine.execRecCtrl p s
  | .recMark p => Sys2Proof.Machine.execRecMark p s
  | .recStatus p => Sys2Proof.Machine.execRecStatus p s
  | .maSet p => Sys2Proof.Machine.execMaSet p s
  | .maWindow p => Sys2Proof.Machine.execMaWindow p s
  | .maConvert p => Sys2Proof.Machine.execMaConvert p s
  | .maTake p => Sys2Proof.Machine.execMaTake p s
  | .maCal p => Sys2Proof.Machine.execMaCal p s
  | .maStatus p => Sys2Proof.Machine.execMaStatus p s
  | .sensorConversion rs => Sys2Proof.Machine.execSensorConversion rs s
  | .thermalShutdown cut => Sys2Proof.Machine.execThermalShutdown cut s
  | .thermalRestart => Sys2Proof.Machine.execThermalRestart s
  | .thThrWrite r w => Sys2Proof.Machine.execThThrWrite r w s
  | .thStatus p => Sys2Proof.Machine.execThStatus p s
  | .thSet p => Sys2Proof.Machine.execThSet p s
  | .thRead p => Sys2Proof.Machine.execThRead p s
  | .thSimulate p => Sys2Proof.Machine.execThSimulate p s
  | .powerEntryStart scope => Sys2Proof.Machine.execPowerEntryStart scope s
  | .entryReask scope => Sys2Proof.Machine.execEntryReask scope s
  | .entryDelayTimeout scope => Sys2Proof.Machine.execEntryDelayTimeout scope s
  | .powerEntryExec scope => Sys2Proof.Machine.execPowerEntryExec scope s
  | .blankWindow => Sys2Proof.Machine.execBlankWindow s
  | .wakeSource src tiles => Sys2Proof.Machine.execWakeSource src tiles s
  | .wakeStepTimeout scope => Sys2Proof.Machine.execWakeStepTimeout scope s
  | .wakeComplete scope => Sys2Proof.Machine.execWakeComplete scope s
  | .refclkLoss => Sys2Proof.Machine.execRefclkLoss s
  | .pwDoorbellWrite w => Sys2Proof.Machine.execPwDoorbellWrite w s
  | .pwPadRelWrite w => Sys2Proof.Machine.execPwPadRelWrite w s
  | .pwStatus p => Sys2Proof.Machine.execPwStatus p s
  | .pwTile p => Sys2Proof.Machine.execPwTile p s
  | .pwDeep p => Sys2Proof.Machine.execPwDeep p s
  | .pwWake p => Sys2Proof.Machine.execPwWake p s
  | .pwWakeRetry p => Sys2Proof.Machine.execPwWakeRetry p s
  | .pwPadRelease p => Sys2Proof.Machine.execPwPadRelease p s
  | .pwRetClear p => Sys2Proof.Machine.execPwRetClear p s
  | .pwConfig p => Sys2Proof.Machine.execPwConfig p s
  | .pwBlank p => Sys2Proof.Machine.execPwBlank p s
  | .cellarRecordWrite ok => Sys2Proof.Machine.execCellarRecordWrite ok s
  | .racking => Sys2Proof.Machine.execRacking s
  | .secureWindowWrite => Sys2Proof.Machine.execSecureWindowWrite s
  | .celStatus p => Sys2Proof.Machine.execCelStatus p s
  | .celRead p => Sys2Proof.Machine.execCelRead p s
  | .secId p => Sys2Proof.Machine.execSecId p s
  | .secAttest p => Sys2Proof.Machine.execSecAttest p s
  | .secDbgChallenge p => Sys2Proof.Machine.execSecDbgChallenge p s
  | .imgLoad p => Sys2Proof.Machine.execImgLoad p s
  | .imgActivate p => Sys2Proof.Machine.execImgActivate p s
  | .cfgApply p => Sys2Proof.Machine.execCfgApply p s
  | .celLogClear p => Sys2Proof.Machine.execCelLogClear p s
  | .secArbAdvance p => Sys2Proof.Machine.execSecArbAdvance p s
  | .celRack p => Sys2Proof.Machine.execCelRack p s
  | .secKeyFuse p => Sys2Proof.Machine.execSecKeyFuse p s
  | .secKeyRevoke p => Sys2Proof.Machine.execSecKeyRevoke p s
  | .secDbgUnlock p => Sys2Proof.Machine.execSecDbgUnlock p s
  | .secDbgLock p => Sys2Proof.Machine.execSecDbgLock p s
  | .powerOn => Sys2Proof.Machine.execPowerOn s
  | .rstNLow ns => Sys2Proof.Machine.execRstNLow ns s
  | .watchdogTimeout => Sys2Proof.Machine.execWatchdogTimeout s
  | .boot sel headers torn version hubOk badTiles sramOk => Sys2Proof.Machine.execBoot sel headers torn version hubOk badTiles sramOk s
  | .perstNAssert => Sys2Proof.Machine.execPerstNAssert s
  | .functionLevelReset => Sys2Proof.Machine.execFunctionLevelReset s
  | .registerRead bar2 o be => Sys2Proof.Machine.execRegisterRead bar2 o be s
  | .supplyRemoval => Sys2Proof.Machine.execSupplyRemoval s
  | .synceLockRegain => Sys2Proof.Machine.execSynceLockRegain s
  | .blankingWindowEnd p => Sys2Proof.Machine.execBlankingWindowEnd p s
  | .hubRestartWindowExpiry => Sys2Proof.Machine.execHubRestartWindowExpiry s
  | .sysRestartExpiry => Sys2Proof.Machine.execSysRestartExpiry s
  | .attestationDone => Sys2Proof.Machine.execAttestationDone s
  | .perstNRelease => Sys2Proof.Machine.execPerstNRelease s
  | .wakeStepDone scope bad => Sys2Proof.Machine.execWakeStepDone scope bad s

end Sys2Proof.Machine
end

