-- ==== Sys2Proof/Safety.lean ====
section
/-!
DEFINITION. The terms that statements about the block use: a run that does not stop, a command that the block admits, a register
access that reaches its block, and the canonical form of the stores.
-/
namespace Sys2Proof.Machine

/-- The block takes `k` steps from `s` without a fault or a refusal. -/
def runsFor (s : State) (k : Nat) : Prop := ∃ t, Sys2Proof.core.run k s = .next t

/-- The commands not yet taken are apart from the rest of the state. -/
def State.queued (s : State) (cs : List Instr) : State := { s with pending := cs }

/-! ### Chiast commands -/

/-- Device firmware takes the packet now and its header is in order (R427, R430-R432): the mailbox is open to it (R586), at most 14
parameter words, and a tag of 0x01-0xFF that is not in use. What is judged after that is the command's own. -/
structure State.Taken (s : State) (op : Nat) (p : Pkt) : Prop where
  takes : s.takes op p = true
  mailbox : p.mb = 6 ∨ p.mb = 7 → s.debugOpen 0 = true
  short : p.params.length ≤ 14
  tagLow : 1 ≤ p.tag
  tagHigh : p.tag ≤ 255
  tagFree : s.tagInUse p.mb p.tag = false

/-- The packet is taken and its opcode is accepted in the device state (R431, R439). -/
structure State.Admits (s : State) (op : Nat) (p : Pkt) : Prop extends s.Taken op p where
  accepted : acceptedIn op s.dev = true

/-- Fewer than 32 accepted commands of the packet's mailbox wait for their final notice (R430). -/
def State.Room (s : State) (p : Pkt) : Prop := (s.host.accepted.filter (fun r => r.mb = p.mb)).length < 32

/-- The reply ACCEPTED: the command is entered among those that owe a final notice (R430). -/
def State.accept (s : State) (op : Nat) (p : Pkt) (key : Nat) (res : List Word) : State :=
  State.reply { s with host := { s.host with accepted := s.host.accepted ++ [p.ref op key] } } p stACCEPTED res

/-! ### Register accesses -/

/-- A host access to the register at `a` reaches its block: the management domain is on, the unit is present on the part (R2), the block's domain
is powered (R540) and no tile fault has lost it (R22). -/
structure State.Reaches (s : State) (a : Nat) : Prop where
  mgmt : s.domOn 1 = true
  present : s.part.has (placeOf a).1 = true
  powered : s.domOn (domainOf a) = true
  answers : s.lostTo a = false

/-! ### Solver bundles -/

/-- Core `c` can issue the M-slot instruction `word` now (R205): it runs a work item and its bundle has not begun; the word is legal, it is
the one that program memory holds at PC where the model has the code, and no injected failure waits. -/
structure State.MIssues (s : State) (c word : Nat) : Prop where
  ready : s.mReady c = true
  legal : legalM word = true
  held : ∀ h, s.bundle (s.coreOf c).pc = some h → h % 2 ^ 32 = word
  calm : s.sv.inject = none

/-- The M slot of core `c` has issued with result `r`: its writes wait for the end of the bundle, and its saturated components are counted. -/
def State.mDone (s : State) (c : Nat) (r : MRes) : State :=
  (s.setCore c { s.coreOf c with mw := some r.w }).bumpBy Cnt.solKernel r.sats

/-- Core `c` can issue the X-slot instruction `word` now (R205): the M slot of its bundle has issued and holds the writes `mw`; the word is legal, and the
one that program memory holds at PC where the model has the code. -/
structure State.XIssues (s : State) (c word : Nat) (mw : MWrites) : Prop where
  core : c < 32
  after : (s.coreOf c).mw = some mw
  legal : legalX word = true
  held : ∀ h, s.bundle (s.coreOf c).pc = some h → h / 2 ^ 32 = word

/-! ### Residues -/

/-- A D-register word that carries the residues of its components, or is poisoned (R221, R223, R391). -/
def DWord.Tagged (w : DWord) : Prop :=
  w.poisoned = true ∨
  (w.real = true ∧ w.ri = residue w.asR.x) ∨
  (w.real = false ∧ w.ri = residue w.asC.i ∧ w.rq = residue w.asC.q)

/-- An accumulator whose components carry their residues, or are poisoned. -/
def AccW.Tagged (a : AccW) : Prop := (a.ri = 15 ∨ a.ri = residue a.i) ∧ (a.rq = 15 ∨ a.rq = residue a.q)

/-- Every register and accumulator of a core carries its residues. -/
structure CoreSt.Tagged (x : CoreSt) : Prop where
  regs : ∀ n, (x.reg n).Tagged
  accs : ∀ n, (x.accOf n).Tagged

/-- An M-slot result whose check passes, which is no program error, and whose words carry their residues. -/
structure MRes.Tagged (r : MRes) : Prop where
  noFail : r.fail = false
  noErr : r.err = none
  word : ∀ y, r.w.d = some y → y.2.Tagged
  sums : ∀ y ∈ r.w.accs, y.2.Tagged

/-! ### Canonical form -/

/-- Memory in canonical form: addresses strictly rising, and no entry equal to 0, which an unlisted address reads as. -/
def memWf (m : List Host.Cell) : Bool := Sparse.wf (fun _ => (0 : BitVec 8)) m

/-- The register stores and the BAR2 stores are in canonical form. -/
structure State.Canonical (s : State) : Prop where
  live : Sparse.wf (resetWord s.part) s.live = true
  staged : Sparse.wf (resetWord s.part) s.staged = true
  mem : memWf s.tr.mem = true

end Sys2Proof.Machine
end

