-- ==== Sys2Proof/Certificates/Slice0/Obligations.lean ====
section
/-!
DEFINITION. The statements about the block for the provers: what each command does when it is carried out, the order in which commands are
judged, what reset leaves, and what every step keeps.
-/

open Sys2Proof Sys2Proof.Machine

/-- For every command and state, a step with the command at the front of the queue is that command's meaning on the state with the queue's
rest. -/
def Obligations.StepRunsFrontCommand : Prop :=
  ∀ (s : State) (c : Instr) (rest : List Instr), step { s with pending := c :: rest } = exec c { s with pending := rest }

/-- A step on an empty queue lets one tick of the hub counter pass (the model's own, log entry 1): the counters of the transmit chains count the samples of that tick,
and the frames whose turn has come leave their ports (R90). Where no sample is on its way and no frame waits, the tick counter gains one and nothing else changes. -/
def Obligations.IdleStepIsOneTick : Prop :=
  (∀ s : State, s.pending = [] → step s = .next ((s.advanceTo (s.tick + 1)).egressRun)) ∧
  (∀ s : State, s.pending = [] → s.airQuiet = true → s.fh.egress = [] → step s = .next { s with tick := s.tick + 1 })

/-- From every state whose live and staged register stores and whose BAR2 memory are in canonical form, every step that answers a next state
answers one in which they are, on the same part. -/
def Obligations.StepKeepsCanonical : Prop :=
  ∀ s t : State, s.Canonical → step s = .next t → t.Canonical ∧ t.part = s.part

/-- Whatever a command does, the commands that wait behind it stay as they are: what a step takes from the queue is its front alone. -/
def Obligations.CommandsLeaveTheQueue : Prop :=
  (∀ (c : Instr) (s t : State), exec c s = .next t → t.pending = s.pending) ∧
  (∀ s t : State, step s = .next t → t.pending = s.pending.tail)

/-- After reset the register stores and the BAR2 memory are in canonical form, and the queue is empty. -/
def Obligations.ResetIsCanonical : Prop := State.reset.Canonical ∧ State.reset.pending = []

/-- A host access to a time base register that reaches its block answers a next state: the rate adjustment bends the rate on the lead
only (R43, R380); a read of TB_NOW_NS returns the nanoseconds of its tick and captures the second, fraction and epoch words
with it (R44); a read of TB_LATE_CNT returns the count and clears it (R75); a write to TB_CMP_CTRL, TB_TRIG_SEL, the grid origin,
TB_CTRL or TB_ALARM_CTRL acts on that register's bits; a write of 1 to TB_SW_STROBE fires the hub lines routed from source 0x0D (R61);
a read of TB_TXTS_W3 returns the fourth word of the oldest timestamp and removes it (R67); a read of TB_PPSIN_NS returns the last
edge's nanoseconds and freezes the capture (R71). -/
def Obligations.TimeRegisterAccessesComplete : Prop :=
  (∀ (s : State) (w : Word), s.Reaches Reg.TB_RATE_ADJ →
    exec (.tbRateAdjWrite w) s = .next (if s.isLead then s.adjustRate (sext w.toNat 32) else s)) ∧
  (∀ s : State, s.Reaches Reg.TB_NOW_NS → exec .tbNowNsRead s = .next (State.answer (State.wr (State.wrPair ((s.wr Reg.TB_NOW_NS
    (toW (nsOf s.now % 1000000000))).wr Reg.TB_NOW_FRAC (toW (s.now / 2 ^ 24 % 2 ^ 16))) Reg.TB_NOW_SEC_LO Reg.TB_NOW_SEC_HI
    (nsOf s.now / 1000000000 % 2 ^ 48)) Reg.TB_NOW_EPOCH (toW (s.epoch + b2n (s.rb Reg.TB_STATUS 1) * 256 + b2n (s.rb Reg.TB_STATUS 2) * 512)))
    (toW (nsOf s.now % 1000000000)))) ∧
  (∀ s : State, s.Reaches Reg.TB_LATE_CNT →
    exec .tbLateCntRead s = .next ((s.answer (s.rd Reg.TB_LATE_CNT)).wr Reg.TB_LATE_CNT 0)) ∧
  (∀ (s : State) (n : Nat) (w : Word), s.Reaches (Reg.TB_CMP_CTRL n) →
    exec (.cmpArm n w) s = .next (s.writeCmpCtrl n w) ∧ exec (.cmpCancel n w) s = .next (s.writeCmpCtrl n w)) ∧
  (∀ (s : State) (l : Nat) (w : Word), s.Reaches (Reg.TB_TRIG_SEL l) → l < 14 →
    exec (.tbTrigSelWrite l w) s = .next
      (if fld w 4 0 ≥ 0x0E ∨ (tileBound l = true ∧ (fld w 4 0 = 0x0B ∨ fld w 4 0 = 0x0D)) then s.pb Reg.TB_STATUS 8 true
       else s.wr (Reg.TB_TRIG_SEL l) (toW (b2n (bit w 8) * 256 + fld w 4 0)))) ∧
  (∀ (s : State) (w : Word), s.Reaches Reg.TB_SW_STROBE →
    exec (.tbSwStrobe w) s = .next (if bit w 0 then s.fireHubRoutes 0x0D else s)) ∧
  (∀ (s : State) (k : Nat) (w : Word), s.Reaches (Reg.TB_GRID_ORG_SEC_LO + 4 * k) →
    exec (.gridOriginWrite k w) s = .next (s.writeOrigin k w)) ∧
  (∀ (s u : State) (e : List Word) (es : List (List Word)), u = s.egressRun → u.Reaches Reg.TB_TXTS_W3 → u.tb.txts = e :: es →
    ∃ t : State, exec .txtsPop s = .next t ∧ t.host.readData = wordAt e 3 ∧ t.tb.txts = es ∧ t.live = u.live) ∧
  (∀ s u : State, u = s.egressRun → u.Reaches Reg.TB_TXTS_W3 → u.tb.txts = [] →
    ∃ t : State, exec .txtsPop s = .next t ∧ t.host.readData = 0 ∧ t.tb.txts = [] ∧ t.live = u.live) ∧
  (∀ (s : State) (w : Word), s.Reaches Reg.TB_CTRL →
    exec (.holdSet w) s = .next (s.writeTbCtrl w) ∧ exec (.holdClr w) s = .next (s.writeTbCtrl w)) ∧
  (∀ (s : State) (w : Word), s.Reaches Reg.TB_ALARM_CTRL →
    exec (.alarmArmWrite w) s = .next (s.writeAlarmCtrl w)) ∧
  (∀ s : State, s.Reaches Reg.TB_PPSIN_NS → ∃ t : State, exec .ppsinNsRead s = .next t ∧
    t.host.readData = toW (nanoOf s.tb.ppsTime) ∧ t.tb.ppsFrozen = true ∧ t.tb.ppsNew = false ∧
    t.live = (((s.wr Reg.TB_PPSIN_NS (toW (nanoOf s.tb.ppsTime))).wr Reg.TB_PPSIN_SEC_LO (toW (secOf s.tb.ppsTime))).wr Reg.TB_PPSIN_SEC_HI
      (ppsHi s.tb.ppsTime s.tb.ppsEpoch s.tb.ppsNew)).live)

/-- The events of the time base complete on every state in which they come about: an armed comparator fires (R56-R59); the Sync timeout
enters holdover at its tick (R68); loss of SyncE lock clears its status and stops SYNCE_OUT where the configuration says so, and
regaining it sets the status and lets SYNCE_OUT run as configured (R70); an edge of PPS_IN is captured with its tick, time and epoch and fires the hub lines
routed from source 0x0B, and after 1.1 s without one pps_in is cleared (R71); PPS_OUT rises at its tick and falls after its width (R72); the alarm fires
(R73); a grid boundary fires the lines routed from its source (R61); the trigger messages of a line that is bound to a tile leave 1,600 ticks before its boundary or
pulse (R31). Where the condition does not hold the block is unchanged (the model's own, log entry 9). -/
def Obligations.TimeEventsComplete : Prop :=
  (∀ (s : State) (n : Nat), n < 64 → s.armed n = true → s.domOn 2 = true → exec (.comparatorFire n) s = .next (s.fireCmp n)) ∧
  (∀ (s : State) (n : Nat), 64 ≤ n ∨ s.armed n = false ∨ s.domOn 2 = false → exec (.comparatorFire n) s = .next s) ∧
  (∀ s : State, s.rb Reg.TB_HOLD_CFG 16 = true → s.rb Reg.TB_STATUS 1 = false → s.domOn 2 = true →
    exec .syncTimeout s = .next ((s.advanceTo (s.tb.syncTick + max 1 (s.rf Reg.TB_HOLD_CFG 15 0) * 1600000)).enterHoldover)) ∧
  (∀ s : State, s.rb Reg.TB_HOLD_CFG 16 = false ∨ s.rb Reg.TB_STATUS 1 = true ∨ s.domOn 2 = false → exec .syncTimeout s = .next s) ∧
  (∀ s u : State, u = s.pb Reg.TB_STATUS 6 false → exec .synceLockLoss s =
    .next { u with tb := { u.tb with synceOut := if s.rb Reg.TB_SYNCE_CFG 9 then false else s.tb.synceOut } }) ∧
  (∀ s u : State, u = s.pb Reg.TB_STATUS 6 true → exec .synceLockRegain s =
    .next { u with tb := { u.tb with synceOut := s.rb Reg.TB_SYNCE_CFG 8 } }) ∧
  (∀ s u : State, u = State.pb { s with tb := { s.tb with ppsTick := s.tick, ppsTime := s.now, ppsEpoch := s.epoch, ppsNew := true } }
      Reg.TB_STATUS 5 true →
    (s.tb.ppsFrozen = true → exec .ppsInEdge s = .next (u.fireHubRoutes 0x0B)) ∧
    (s.tb.ppsFrozen = false → exec .ppsInEdge s = .next ((((u.wr Reg.TB_PPSIN_NS (toW (nanoOf s.now))).wr Reg.TB_PPSIN_SEC_LO
      (toW (secOf s.now))).wr Reg.TB_PPSIN_SEC_HI (ppsHi s.now s.epoch true)).fireHubRoutes 0x0B))) ∧
  (∀ s : State, s.rb Reg.TB_STATUS 5 = true →
    exec .ppsinAbsent s = .next ((s.advanceTo (s.tb.ppsTick + 1760000000)).pb Reg.TB_STATUS 5 false)) ∧
  (∀ s : State, s.rb Reg.TB_STATUS 5 = false → exec .ppsinAbsent s = .next s) ∧
  (∀ (s u : State) (k at_ : Nat), s.ppsRuns = true → s.domOn 2 = true → k = s.nextPps → at_ = s.ppsTickOf k → u = s.advanceTo at_ →
    exec (.ppsOutRise false) s = .next (((State.fireAhead { u with tb := { u.tb with ppsOut := true, ppsRise := u.tick } } 0x0C k at_).fireHubRoutes
      0x0C).markSrc 0x0C k) ∧
    (s.aheadLines 0x0C k ≠ [] → exec (.ppsOutRise true) s = .next ((s.advanceTo (at_ - 1600)).fireAhead 0x0C k at_)) ∧
    (s.aheadLines 0x0C k = [] → exec (.ppsOutRise true) s = .next s)) ∧
  (∀ (s : State) (ahead : Bool), s.ppsRuns = false ∨ s.domOn 2 = false → exec (.ppsOutRise ahead) s = .next s) ∧
  (∀ s u : State, s.tb.ppsOut = true → u = s.advanceTo (s.tickReaching (s.timeAt s.tb.ppsRise +
      clampN (s.rf Reg.TB_PPSOUT_CFG 27 8) 1 500000 * 1000 * nsU)) →
    exec .ppsOutFall s = .next { u with tb := { u.tb with ppsOut := false } }) ∧
  (∀ s : State, s.tb.ppsOut = false → exec .ppsOutFall s = .next s) ∧
  (∀ s : State, s.rb Reg.TB_ALARM_CTRL 0 = true →
    exec .alarmFire s = .next ((s.advanceTo (s.tickReaching (s.resolve s.tb.alarmTarget))).fireAlarm false)) ∧
  (∀ s : State, s.rb Reg.TB_ALARM_CTRL 0 = false → exec .alarmFire s = .next s) ∧
  (∀ (s : State) (src at_ : Nat) (b : Int), 1 ≤ src → src ≤ 10 → s.domOn 2 = true → b = s.nextBound src → at_ = s.tickReaching (s.gridTime b) →
    exec (.gridBoundary src false) s = .next ((((s.advanceTo at_).fireAhead src b at_).fireHubRoutes src).markSrc src b) ∧
    (s.aheadLines src b ≠ [] → exec (.gridBoundary src true) s = .next ((s.advanceTo (at_ - 1600)).fireAhead src b at_)) ∧
    (s.aheadLines src b = [] → exec (.gridBoundary src true) s = .next s)) ∧
  (∀ (s : State) (src : Nat) (ahead : Bool), src = 0 ∨ 10 < src ∨ s.domOn 2 = false → exec (.gridBoundary src ahead) s = .next s)

/-- A time command that is admitted with parameters in range acts and replies: TIME_READ with the time of the tick on which it is taken,
TIME_RATE_ADJ with the new rate word (outside holdover, on the lead), TIME_HOLD with the holdover seconds, TIME_SCHED with the lowest free
firmware comparator or NO_RESOURCE when none is free, TIME_CANCEL with the comparator's fire count, TIME_GRID, TIME_ALARM and TIME_PPS with
no words; TIME_STEP leaves its step pending, marks the visit as stepped and replies only when the step is applied (R50). -/
def Obligations.TimeCommandsComplete : Prop :=
  (∀ (s u : State) (p : Pkt), s.Admits 0x100 p → u = s.takeCmd 0x100 p → p.is 0 = true →
    exec (.timeRead p) s = .next (u.reply p stOK
      [toW (secOf u.now / 2 ^ 32 % 2 ^ 16), toW (secOf u.now), toW (nanoOf u.now), toW (fracOf u.now + u.epoch * 2 ^ 16)])) ∧
  (∀ (s u : State) (p : Pkt), s.Admits 0x101 p → u = s.takeCmd 0x101 p → p.is 1 = true → s.rb Reg.TB_STATUS 1 = false →
    s.isLead = true → ∃ v : State, v = u.adjustRate (sext (p.arg 0) 32) ∧
    exec (.timeRateAdj p) s = .next (v.reply p stOK [v.rd Reg.TB_RATE_LO, v.rd Reg.TB_RATE_HI])) ∧
  (∀ (s u : State) (p : Pkt), s.Admits 0x103 p → u = s.takeCmd 0x103 p → p.is 1 = true → p.arg 0 ≤ 1 → s.isLead = true →
    ∃ v : State, v = (if p.arg 0 = 1 then u.enterHoldover else u.leaveHoldover) ∧
    exec (.timeHold p) s = .next (v.reply p stOK [toW v.holdSecs])) ∧
  (∀ (s u : State) (p : Pkt), s.Admits 0x104 p → u = s.takeCmd 0x104 p → p.is 5 = true → p.arg 0 < 32 → s.ptpOk p.params 1 = true →
    (u.freeCmp = none → exec (.timeSched p) s = .next (u.reply p stRESOURCE [])) ∧
    (∀ n, u.freeCmp = some n → exec (.timeSched p) s =
      .next ((u.schedule n (p.arg 0) (shortOf (ptpParam p.params 1)) (p.arg 4) none).reply p stOK [toW n]))) ∧
  (∀ (s u : State) (p : Pkt), s.Admits 0x105 p → u = s.takeCmd 0x105 p → p.is 1 = true → p.arg 0 < 32 → s.armed (p.arg 0) = true →
    exec (.timeCancel p) s =
      .next ((u.disarm (p.arg 0)).reply p stOK [toW (u.rf (Reg.TB_CMP_CTRL (p.arg 0)) 15 8)])) ∧
  (∀ (s u : State) (p : Pkt), s.Admits 0x106 p → u = s.takeCmd 0x106 p → p.is 3 = true → p.arg 0 < 2 ^ 16 → p.arg 2 < 1000000000 →
    s.isLead = true →
    exec (.timeGrid p) s = .next ((u.setOrigin (p.arg 0 * 2 ^ 32 + p.arg 1) (p.arg 2)).reply p stOK [])) ∧
  (∀ (s u : State) (p : Pkt), s.Admits 0x107 p → u = s.takeCmd 0x107 p → p.is 3 = true → s.ptpOk p.params 0 = true →
    exec (.timeAlarm p) s = .next (State.reply
      (if p.arg 0 = 0 ∧ p.arg 1 = 0 ∧ p.arg 2 = 0 then u.pb Reg.TB_ALARM_CTRL 0 false
       else (u.wrPair Reg.TB_ALARM_TGT_LO Reg.TB_ALARM_TGT_HI (shortOf (ptpParam p.params 0))).armAlarm
         (shortOf (ptpParam p.params 0))) p stOK [])) ∧
  (∀ (s u : State) (p : Pkt), s.Admits 0x108 p → u = s.takeCmd 0x108 p → p.is 4 = true → p.arg 0 ≤ 1 → p.arg 1 ≤ 1 →
    p.arg 2 < 2 ^ 20 → exec (.timePps p) s = .next (State.reply ((((u.wr Reg.TB_PPSOUT_CFG (putFld (putFld (putFld 0 0 0 (p.arg 0)) 1 1 (p.arg 1))
      27 8 (p.arg 2))).wr Reg.TB_PPSOUT_OFS (wordAt p.params 3)).retime u).ppsFollow) p stOK [])) ∧
  (∀ (s : State) (p : Pkt), s.Admits 0x102 p → s.stepOk p = true → s.isLead = true → s.rb Reg.TB_STEP_INFO 8 = false →
    ((List.range (s.reach - 1)).all (fun k => s.tb.peers.any (fun (x : Nat × Nat) => x.1 == k + 1 && acceptedIn 0x102 x.2))) = true →
    ∃ t : State, exec (.timeStep p) s = .next t ∧
      t.tb.pendStep = some { ref := p.ref 0x102 0, quiet := p.quiet, relative := (stepOf p).1, ns := (stepOf p).2 } ∧
      t.tick = s.tick) ∧
  (∀ (s u v : State) (st : PendStep) (at_ : Nat), s.tb.pendStep = some st → u = (if s.reach = 1 then s else s.advanceTo (s.tick + 6400)) →
    at_ = ((if st.relative then (u.now : Int) else 0) + st.ns * (nsU : Int)).toNat →
    v = (State.stepTime { u with tb := { u.tb with pendStep := none } } at_).relayTime 1 (timeWords at_) →
    exec .timeStepApply s = .next (v.reply { mb := st.ref.mb, tag := st.ref.tag, quiet := st.quiet, flags := 0, params := [] } stOK
      [toW v.epoch, toW u.tick, toW (u.tick / 2 ^ 32)])) ∧
  (∀ s : State, s.tb.pendStep = none → exec .timeStepApply s = .next s)

/-- While the PCIe function is up, a write with byte enables to TB_HOLD_CFG (RW) changes the enabled bytes of its fields; a write
to FH_WIN_CLOSE (staged) changes its staged value alone at either offset, and a read gives the live value at the live offset and the
staged value in the staged view; a write of TX_NCO_LO is kept until its _HI is written, which stages both; a read of
TB_COUNT_LO captures TB_COUNT_HI, which the next read of it returns; an access in the region of an absent unit reads 0 and writes nothing; an access to a block whose domain is off reads 0, writes nothing, and
sets and counts off_acc; while the function is down no access does anything. -/
def Obligations.RegisterAccessesComplete : Prop :=
  (∀ (s : State) (w : Word) (be : Nat), s.pcieUp = true → s.domOn 2 = true → s.part.has .hub = true →
    exec (.registerWrite Reg.TB_HOLD_CFG w be) s = .next ((s.wr Reg.TB_HOLD_CFG
      (maskW (s.rd Reg.TB_HOLD_CFG) (0xFFFFFFFF - 0x1FFFF) |||
        maskW (mergeW (maskW (s.rd Reg.TB_HOLD_CFG) 0x1FFFF) w (enableMask be)) 0x1FFFF)).restartSync.forwardLocks)) ∧
  (∀ (s : State) (c : Nat) (w : Word), s.pcieUp = true → s.domOn 3 = true → c < 4 → s.Canonical → ∃ t : State,
    exec (.registerWrite (Reg.FH_WIN_CLOSE c) w 15) s = .next t.forwardLocks ∧ t.srd (Reg.FH_WIN_CLOSE c) = maskW w 0xFFFFF ∧
    (∀ a, t.rd a = s.rd a) ∧ (∀ a, a ≠ Reg.FH_WIN_CLOSE c → t.srd a = s.srd a)) ∧
  (∀ (s : State) (c : Nat) (w : Word), s.pcieUp = true → s.domOn 3 = true → c < 4 →
    exec (.registerWrite (Reg.FH_WIN_CLOSE c + 0x100000) w 15) s = .next (s.swr (Reg.FH_WIN_CLOSE c) (maskW w 0xFFFFF)).forwardLocks) ∧
  (∀ (s u : State) (c : Nat), u = s.egressRun → u.pcieUp = true → u.domOn 3 = true → c < 4 → u.tb.hiCap = [] →
    exec (.registerRead false (Reg.FH_WIN_CLOSE c) 15) s = .next (u.answer (u.rd (Reg.FH_WIN_CLOSE c))) ∧
    exec (.registerRead false (Reg.FH_WIN_CLOSE c + 0x100000) 15) s =
      .next (u.answer (maskW (u.srd (Reg.FH_WIN_CLOSE c)) 0xFFFFF ||| maskW (u.rd (Reg.FH_WIN_CLOSE c)) (0xFFFFFFFF - 0xFFFFF)))) ∧
  (∀ (s : State) (w : Word), s.pcieUp = true → s.domOn 8 = true → s.lostTo (Reg.TX_NCO_LO 0) = false →
    exec (.registerWrite (Reg.TX_NCO_LO 0) w 15) s = .next (s.latchLo (Reg.TX_NCO_LO 0) w).forwardLocks) ∧
  (∀ (s : State) (w : Word), s.pcieUp = true → s.domOn 8 = true → s.lostTo (Reg.TX_NCO_LO 0) = false → ∃ u : State,
    exec (.registerWrite (Reg.TX_NCO_HI 0) w 15) s = .next u.forwardLocks ∧
    u.staged = ((s.stage (Reg.TX_NCO_LO 0) (s.lastLo (Reg.TX_NCO_LO 0) (s.srd (Reg.TX_NCO_LO 0)))).stage (Reg.TX_NCO_HI 0) w).staged) ∧
  (∀ s x : State, x = s.egressRun → x.pcieUp = true → x.domOn 2 = true → x.tb.hiCap = [] → ∃ t : State,
    exec (.registerRead false Reg.TB_COUNT_LO 15) s = .next t ∧ t.host.readData = toW x.tick ∧
    t.tb.hiCap = [(Reg.TB_COUNT_HI, toW (x.tick / 2 ^ 32))]) ∧
  (∀ (s x : State) (w : Word), x = s.egressRun → x.pcieUp = true → x.domOn 2 = true → x.tb.hiCap = [(Reg.TB_COUNT_HI, w)] → ∃ t : State,
    exec (.registerRead false Reg.TB_COUNT_HI 15) s = .next t ∧ t.host.readData = w ∧ t.tb.hiCap = []) ∧
  (∀ (s u : State) (a be : Nat) (w : Word), u = s.egressRun → a < 0x10000000 → stagedToLive (a / 4 * 4) = none →
    s.part.has (placeOf (a / 4 * 4)).1 = false → u.part.has (placeOf (a / 4 * 4)).1 = false → ¬ (0x09000000 ≤ a ∧ a < 0x0A000000) →
    (s.pcieUp = true → exec (.registerWrite a w be) s = .next s.forwardLocks) ∧
    (u.pcieUp = true → exec (.registerRead false a be) s = .next (u.answer 0))) ∧
  (∀ (s : State) (a be : Nat) (w : Word), s.pcieUp = true → a < 0x09000000 → stagedToLive (a / 4 * 4) = none →
    s.part.has (placeOf (a / 4 * 4)).1 = true → s.domOn (domainOf (a / 4 * 4)) = false →
    exec (.registerWrite a w be) s = .next s.offAccess.forwardLocks) ∧
  (∀ (s u : State) (a be : Nat), u = s.egressRun → u.pcieUp = true → a < 0x09000000 → stagedToLive (a / 4 * 4) = none →
    u.part.has (placeOf (a / 4 * 4)).1 = true → u.domOn (domainOf (a / 4 * 4)) = false →
    exec (.registerRead false a be) s = .next (u.answer 0).offAccess) ∧
  (∀ (s : State) (a be : Nat) (w : Word) (b : Bool), s.pcieUp = false → exec (.registerWrite a w be) s = .next s ∧
    exec (.storeSlotWrite a w be) s = .next s ∧ (s.egressRun.pcieUp = false → exec (.registerRead b a be) s = .next s.egressRun))

/-- While the function is up and domain CORE is on: a write of the low half of a slot of the channel store's noise area is kept; a write of
the high half writes the slot's 48 bits with the tag of their value; a write to a window of a live store changes no memory,
is counted and sets wr_live; a write to an idle window while it is frozen changes no memory, is counted and sets wr_pend; a read returns the 32 bits that the windows
place there; while the domain is off, a write is discarded, a read returns 0, and each sets off_acc. -/
def Obligations.StoreAccessesComplete : Prop :=
  (∀ (s : State) (k : Nat) (w : Word), s.pcieUp = true → s.domOn 7 = true → k < 0x2000 →
    exec (.storeSlotWrite (0x10000 + 8 * k) w 15) s = .next { s with tr := { s.tr with
      lows := Sparse.set (fun _ => none) s.tr.lows (0x10000 + 8 * k) (some w) } }) ∧
  (∀ (s : State) (k : Nat) (w lo : Word), s.pcieUp = true → s.domOn 7 = true → k < 0x2000 →
    Sparse.get (fun _ => none) s.tr.lows (0x10000 + 8 * k) = some lo → ∃ t : State,
    exec (.storeSlotWrite (0x10004 + 8 * k) w 15) s = .next t ∧
    t.tr.mem = (s.writeSlot (0x10000 + 8 * k) (w.toNat % 2 ^ 16 * 2 ^ 32 + lo.toNat)).tr.mem ∧ t.live = s.live ∧ t.staged = s.staged) ∧
  (∀ (s : State) (k : Nat) (w : Word), s.pcieUp = true → s.domOn 7 = true → k < 0xA000 →
    exec (.storeSlotWrite (0x08000000 + 4 * k) w 15) s = .next ((s.bump (Cnt.trCommit 4)).pb Reg.TR_STATUS 8 true)) ∧
  (∀ (s : State) (k : Nat) (w : Word), s.pcieUp = true → s.domOn 7 = true → k < 0xA000 → s.rb Reg.TR_STATUS 1 = true →
    exec (.storeSlotWrite (0x04000000 + 4 * k) w 15) s = .next ((s.bump (Cnt.trCommit 3)).pb Reg.TR_STATUS 9 true)) ∧
  (∀ (s u : State) (k : Nat), u = s.egressRun → u.pcieUp = true → u.domOn 7 = true → k < 0x4000 →
    exec (.registerRead true (0x08000000 + 4 * k) 15) s = .next (u.answer (toW (u.memNat (wsBase u.liveStore + 4 * k) 4))) ∧
    exec (.registerRead true (0x04000000 + 4 * k) 15) s = .next (u.answer (toW (u.memNat (wsBase (1 - u.liveStore) + 4 * k) 4)))) ∧
  (∀ (s u : State) (o be : Nat) (w : Word), u = s.egressRun →
    (s.pcieUp = true → s.domOn 7 = false → exec (.storeSlotWrite o w be) s = .next s.offAccess) ∧
    (u.pcieUp = true → u.domOn 7 = false → exec (.registerRead true o be) s = .next (u.answer 0).offAccess))

/-- A register request of a tile link is answered over the link: a read returns the value that a host's read of it gives, a write
writes the register and returns status 1. The last byte of a running direct transfer hands over: what it moves to BAR0 is written word by word, the hand-over is counted and may
interrupt, and the channel takes a valid shadow, starts again when it is cyclic, or goes IDLE; a refused write or an error ends it with its code. CFG_APPLY with a stored set that passes every check
writes its entries in order and replies with the numbers written and discarded; a set that fails is DENIED and its code is in SEC_STAT. -/
def Obligations.IndirectAccessesComplete : Prop :=
  (∀ (s : State) (l o : Nat) (w : Word), s.linkUp l = true → l < 4 → o < 0x10000000 → o / 0x01000000 = l + 1 →
    exec (.regReq l false o w) s = .next (((((s.popMsg l 3).readBar0 o 0xFFFFFFFF).answer s.host.readData).sendMsg l 4 0
      [((s.popMsg l 3).readBar0 o 0xFFFFFFFF).host.readData])) ∧
    exec (.regReq l true o w) s = .next ((((s.popMsg l 3).writeBar0 o w 15).answer s.host.readData).sendMsg l 4 1 [0])) ∧
  (∀ (s : State) (n err : Nat) (data : List Byte), n < 32 → s.rf (Reg.DMA_STAT n) 31 28 = 1 → s.pcieUp = true → err ≠ 0 →
    exec (.directHandover n data err) s = .next (s.directFail n (err % 256)).forwardLocks) ∧
  (∀ (s u v w : State) (n : Nat) (data : List Byte) (refused : Bool), n < 32 → s.rf (Reg.DMA_STAT n) 31 28 = 1 → s.pcieUp = true →
    (s.takeBeats n).directMove n data = (u, refused) →
    v = State.addMoved (((u.pf (Reg.DMA_HO n) 15 0 (u.rf (Reg.DMA_HO n) 15 0 + 1)).pf (Reg.DMA_HO n) 31 24 0).bump (Cnt.dma n 7)) n
      (s.rd (Reg.DMA_LEN n)).toNat →
    w = (if v.rb (Reg.DMA_MODE n) 28 then (v.pb (Reg.DMA_STAT n) 1 true).irq (8 + n) else v) →
    (refused = true → exec (.directHandover n data 0) s = .next (u.directFail n 3).forwardLocks) ∧
    (refused = false → exec (.directHandover n data 0) s = .next (w.directNext n).forwardLocks)) ∧
  (∀ (s : State) (n : Nat) (data : List Byte), fld (s.rd (Reg.DMA_MODE n)) 27 26 ≠ 0 → bit (s.rd (Reg.DMA_MODE n)) 31 = false →
    s.directMove n data = (s.writeWords0 (s.rd (Reg.DMA_DADDR n)).toNat data ((s.rd (Reg.DMA_LEN n)).toNat / 4), false)) ∧
  (∀ (u : State) (n : Nat), (u.rb (Reg.DMA_SH_STAT n) 31 = true → u.directNext n = (u.loadShadow n).startDirect n) ∧
    (u.rb (Reg.DMA_SH_STAT n) 31 = false → u.rb (Reg.DMA_MODE n) 30 = true → u.directNext n = u.startDirect n) ∧
    (u.rb (Reg.DMA_SH_STAT n) 31 = false → u.rb (Reg.DMA_MODE n) 30 = false → u.directNext n = u.pf (Reg.DMA_STAT n) 31 28 0)) ∧
  (∀ (s u : State) (p : Pkt) (img : List Byte), s.Admits 0xA42 p → u = s.takeCmd 0xA42 p → p.is 1 = true → p.arg 0 < 8 →
    (s.celSet 0x14 (p.arg 0)).map wordBytes = some img →
    (cfgEntries (imgPayload img) = [] → exec (.cfgApply p) s = .next (if u.verify img 4 none = 0 then (u.lastVer 0).reply p stOK [0, 0]
      else (u.lastVer (u.verify img 4 none)).reply p stDENIED [])) ∧
    (∀ a v, cfgEntries (imgPayload img) = [(a, v)] → exec (.cfgApply p) s = .next (if u.verify img 4 none = 0 then
        ((u.lastVer 0).writeBits a 0xFFFFFFFF v).1.reply p stOK
          [toW (b2n ((u.lastVer 0).writeBits a 0xFFFFFFFF v).2), toW (b2n (!((u.lastVer 0).writeBits a 0xFFFFFFFF v).2))]
      else (u.lastVer (u.verify img 4 none)).reply p stDENIED [])))

/-- CAR_SET with a transform size, frequency and advances in range, and a block count of at most 4, stages the carrier's five words and replies
with its block count; CAR_SRS_SET stages its two words; CAR_QUERY replies with the load words of the staged carriers; SE_LINK_RATE sets the
link rate; CAR_STATUS replies with CAR_STAT; a write of SE_CTRL is taken in STANDBY and READY and elsewhere sets its error flag. At the time of
its switch, the captured configuration becomes live and counted, and a valid carrier reads reconf until the next slot boundary. -/
def Obligations.CarrierCommandsComplete : Prop :=
  (∀ (s u : State) (p : Pkt), s.Admits 0x210 p → u = s.takeCmd 0x210 p → p.is 6 = true → p.arg 0 < 4 →
    8 ≤ cfgFft (wordAt p.params 1) → cfgFft (wordAt p.params 1) ≤ 13 →
    (fld (wordAt p.params 5) 21 0 = 0 ∨ (80000 ≤ fld (wordAt p.params 5) 21 0 ∧ fld (wordAt p.params 5) 21 0 ≤ 2800000)) →
    fld (wordAt p.params 3) 15 0 ≤ 50000 → fld (wordAt p.params 3) 26 16 ≤ 2000 → carBlocks (wordAt p.params 1) ≤ 4 →
    exec (.carSet p) s = .next (State.reply (((((u.stage (Reg.CAR_CFG (p.arg 0)) (wordAt p.params 1)).stage (Reg.CAR_OFS (p.arg 0))
      (wordAt p.params 2)).stage (Reg.CAR_ADV (p.arg 0)) (wordAt p.params 3)).stage (Reg.CAR_PROC (p.arg 0)) (wordAt p.params 4)).stage
      (Reg.CAR_F0 (p.arg 0)) (wordAt p.params 5)) p stOK [toW (carBlocks (wordAt p.params 1))])) ∧
  (∀ (s u : State) (p : Pkt), s.Admits 0x211 p → u = s.takeCmd 0x211 p → p.is 3 = true → (p.arg 0) < 4 → fld (wordAt p.params 1) 11 0 ≤ 2560 →
    exec (.carSrsSet p) s = .next (
    State.reply ((u.stage (Reg.CAR_SRS_PER (p.arg 0)) (wordAt p.params 1)).stage (Reg.CAR_SRS_SYM (p.arg 0)) (wordAt p.params 2)) p stOK [])) ∧
  (∀ (s u : State) (p : Pkt), s.Admits 0x212 p → u = s.takeCmd 0x212 p → p.is 0 = true →
    exec (.carQuery p) s = .next (
    let vs := (List.range 4).map u.carStaged
    State.reply u p stOK [loadWord vs true, loadWord vs false])) ∧
  (∀ (s u : State) (p : Pkt), s.Admits 0x213 p → u = s.takeCmd 0x213 p → p.is 1 = true → p.arg 0 < 3 →
    exec (.seLinkRate p) s = .next (State.reply (u.pf Reg.SE_CTRL 1 0 (p.arg 0)) p stOK [])) ∧
  (∀ (s u : State) (p : Pkt), s.Admits 0x214 p → u = s.takeCmd 0x214 p → p.is 1 = true → p.arg 0 < 4 →
    exec (.carStatus p) s = .next (State.reply u p stOK [u.peek (Reg.CAR_STAT (p.arg 0))])) ∧
  (∀ (s : State) (w : Word), s.Reaches Reg.SE_CTRL →
    exec (.seCtrlWrite w) s = .next (if s.dev = 2 ∨ s.dev = 3 then s.poke Reg.SE_CTRL w
    else s.pb Reg.SE_STATUS 0 true)) ∧
  (∀ (s u : State) (c t : Nat) (w : CarSwitch) (rest : List CarSwitch), c < 4 → s.carNextEvent c = some (0, t) →
    (s.car c).switches = w :: rest → u = s.advanceTo (s.tickReaching t) → ∃ v : State,
    exec (.carrierSwitch c) s =
      .next ((v.when (!(u.car c).old.any (fun o => o.time == w.time)) (fun x => x.bump (Cnt.seCarrier c 2))).showCar c true) ∧
    v.live = ((((u.wr (Reg.CAR_CFG c) w.vals.cfg).wr (Reg.CAR_OFS c) w.vals.ofs).wr (Reg.CAR_ADV c) w.vals.adv).wr (Reg.CAR_F0 c)
      w.vals.f0).live ∧ v.tick = u.tick ∧ (v.car c).switches = rest ∧ (v.car c).reconfEnd = some (State.slotBoundaryFrom
        ((((u.wr (Reg.CAR_CFG c) w.vals.cfg).wr (Reg.CAR_OFS c) w.vals.ofs).wr (Reg.CAR_ADV c) w.vals.adv).wr (Reg.CAR_F0 c) w.vals.f0)
        (cfgMu w.vals.cfg) (cfgExt w.vals.cfg) (w.time + 1))) ∧
  (∀ (s u : State) (c t : Nat) (p : Nat × Word) (rest : List (Nat × Word)), c < 4 → s.carNextEvent c = some (2, t) →
    u = s.advanceTo (s.tickReaching t) → (u.car c).proc = p :: rest → exec (.carrierSwitch c) s =
      .next ((u.wr (Reg.CAR_PROC c) p.2).setCar c { u.car c with proc := rest, procOld := some (t, u.rd (Reg.CAR_PROC c)) })) ∧
  (∀ (s u : State) (c t : Nat) (p : Nat × Word × Word) (rest : List (Nat × Word × Word)), c < 4 → s.carNextEvent c = some (3, t) →
    u = s.advanceTo (s.tickReaching t) → (u.car c).srs = p :: rest → exec (.carrierSwitch c) s =
      .next (((u.wr (Reg.CAR_SRS_PER c) p.2.1).wr (Reg.CAR_SRS_SYM c) p.2.2).setCar c { u.car c with
        srs := rest, srsOld := some (t, u.rd (Reg.CAR_SRS_PER c), u.rd (Reg.CAR_SRS_SYM c)) })) ∧
  (∀ (s u : State) (c t : Nat), c < 4 → s.carNextEvent c = some (1, t) → u = s.advanceTo (s.tickReaching t) →
    exec (.carrierSwitch c) s = .next ((u.setCar c { u.car c with reconfEnd := none }).showCar c false))

/-- On the lead, CAL_CONFIG writes the three calibration registers and copies the command to the members; CAL_NET_LOAD begins the load of the
network table from a free ring; CAL_RUN aborts, or starts a cycle when none runs and is BUSY when one does; CAL_APPLY with results stages
them and replies with how many were staged and held, and fails without results; CAL_SAVE orders the set to be stored; CAL_RESTORE stages the paths that
match and replies with the set and their number, OK for all paths of the part and PARTIAL otherwise; CAL_STATUS replies with a path's five words on every package. -/
def Obligations.CalibrationCommandsComplete : Prop :=
  (∀ (s u : State) (p : Pkt), let same := fld (wordAt p.params 0) 15 9 == s.rf Reg.CAL_CFG 15 9
    s.Admits 0x700 p → u = s.takeCmd 0x700 p → p.is 3 = true → fld (wordAt p.params 0) 15 9 < s.part.paths → fld (wordAt p.params 0) 8 0 < 384 → s.antAbsent (fld (wordAt p.params 0) 8 0) = false → (same || s.dev == 2 || s.dev == 3 || s.dev == 5) = true → s.isLead = true →
    exec (.calConfig p) s = .next (
    State.reply ((((u.writeCalCfg (wordAt p.params 0)).poke Reg.CAL_SCHED (wordAt p.params 1)).poke Reg.CAL_TRK (wordAt p.params 2)).copyDown 0x700 p.params) p stOK [])) ∧
  (∀ (s u : State) (p : Pkt), s.Admits 0x701 p → s.Room p → u = s.takeCmd 0x701 p → p.is 3 = true → p.arg 0 + p.arg 1 ≤ 384 → 0 < p.arg 1 → (List.range (p.arg 1)).all (fun k => !s.antAbsent (p.arg 0 + k)) = true → s.loadRing (p.arg 2) = true → s.isLead = true →
    exec (.calNetLoad p) s = .next (
    if u.loadBusy (p.arg 2) then State.reply u p stBUSY []
    else State.accept (u.startLoad (p.arg 2) (p.ref 0x701 (p.arg 2)) (8 * p.arg 1) [p.arg 0]) 0x701 p (p.arg 2) [])) ∧
  (∀ (s u : State) (p : Pkt), s.Admits 0x702 p → u = s.takeCmd 0x702 p → p.is 1 = true → p.arg 0 < 2 → s.isLead = true →
    exec (.calRun p) s = .next (
    let running := decide (1 ≤ u.calState ∧ u.calState ≤ 3)
    if p.arg 0 = 1 ∧ running then State.reply u p stBUSY []
    else if p.arg 0 = 1 ∧ !u.pathAvail u.refPath then State.reply u p stITEM []
    else
      let u1 := if p.arg 0 = 1 then u.beginCycle else if running then u.setCalState 0 else u
      State.reply u1 p stOK [u1.rd Reg.CAL_STAT])) ∧
  (∀ (s u : State) (p : Pkt), s.Admits 0x703 p → u = s.takeCmd 0x703 p → p.is 0 = true → s.isLead = true →
    exec (.calApply p) s = .next (
    if u.cal.results = [] then State.reply u p stITEM []
    else
      let (u1, n, h) := u.applyResults
      State.reply u1 p stOK [toW n, toW h])) ∧
  (∀ (s u : State) (p : Pkt), s.Admits 0x704 p → s.Room p → u = s.takeCmd 0x704 p → p.is 1 = true → (p.arg 0) < 4 → s.isLead = true →
    exec (.calSave p) s = .next (
    let ws := (List.range 96).flatMap (fun q => if q < u.part.paths then u.calPathWords q else List.replicate 9 0) ++
      (List.range 384).flatMap (fun a => [u.rd (Reg.CAL_NET_W0 a), u.rd (Reg.CAL_NET_W1 a)])
    if u.celWriting 0x10 (p.arg 0) then State.reply u p stBUSY []
    else match u.celRefuse 0x10 [(p.arg 0)] (setBytes ws.length) with
      | some st => State.reply (u.celFull st) p st []
      | none => State.accept (u.orderSet 0x10 (p.arg 0) ws (some (p.ref 0x704 0))) 0x704 p 0 [])) ∧
  (∀ (s u : State) (p : Pkt) (j : Nat) (ws : List Word), s.Admits 0x705 p → u = s.takeCmd 0x705 p → p.is 1 = true →
    (p.arg 0 < 4 ∨ p.arg 0 = 0xFF) → s.isLead = true →
    (if p.arg 0 = 0xFF then u.calBest u.paths else (u.celSet 0x10 (p.arg 0)).map (fun ws => (p.arg 0, ws))) = some (j, ws) →
    exec (.calRestore p) s = .next ((u.calStage ws (u.calMatch ws)).reply p
      (if (u.calMatch ws).length = u.part.paths then stOK else stPARTIAL) [toW j, toW (u.calMatch ws).length])) ∧
  (∀ (s u : State) (p : Pkt), s.Admits 0x706 p → u = s.takeCmd 0x706 p → p.is 1 = true → (p.arg 0) < s.part.paths →
    exec (.calStatus p) s = .next (
    State.reply u p stOK [u.peek (Reg.CAL_TXM0 (p.arg 0)), u.peek (Reg.CAL_TXM1 (p.arg 0)), u.peek (Reg.CAL_RXM0 (p.arg 0)), u.peek (Reg.CAL_RXM1 (p.arg 0)), u.peek (Reg.CAL_PSTAT (p.arg 0))]))

/-- On the lead, with no power change under way, a requested cycle starts; without a request an enabled schedule of period 0 starts the next
cycle at once, and one with a period starts it at the next multiple of the period from the grid origin, or counts a cycle missed while one runs. In a cycle the
first eligible symbol of a slot is an occasion: it takes one measurement for each antenna of its group, counts it, and goes on to the next group, to the
repeats, or to the calculation; with no reference path available it fails the cycle. The results then go to the path registers with the next generation,
are counted, and the cycle is idle. -/
def Obligations.CalibrationEventsComplete : Prop :=
  (∀ s : State, s.isLead = true → s.pw.entries = [] → s.cal.request = true → ¬ (1 ≤ s.calState ∧ s.calState ≤ 3) →
    exec .calCycleStart s = .next s.beginCycle) ∧
  (∀ s : State, s.isLead = true → s.pw.entries = [] → s.cal.request = false → s.rb Reg.CAL_CFG 31 = true → s.rf Reg.CAL_SCHED 31 16 = 0 →
    ¬ (1 ≤ s.calState ∧ s.calState ≤ 3) → exec .calCycleStart s = .next s.beginCycle) ∧
  (∀ (s v w : State) (ms unit : Nat) (n : Int), s.isLead = true → s.pw.entries = [] → s.rb Reg.CAL_CFG 31 = true → ms = s.rf Reg.CAL_SCHED 31 16 →
    ms ≠ 0 → unit = ms * 1000000 * nsU →
    n = max ((((s.now - s.gridOrigin) + unit - 1) / unit : Nat) : Int) (s.cal.lastStart + 1) →
    v = s.advanceTo (s.tickReaching (s.gridOrigin + n.toNat * unit)) → w = { v with cal := { v.cal with lastStart := n } } →
    (1 ≤ s.calState ∧ s.calState ≤ 3 → exec .calCycleStart s = .next (w.bump (Cnt.cal 1))) ∧
    (¬ (1 ≤ s.calState ∧ s.calState ≤ 3) → s.cal.request = false → exec .calCycleStart s = .next w.beginCycle)) ∧
  (∀ s : State, s.calState = 4 → s.beginCycle.calState = s.calState ∧ s.beginCycle.cal = { s.cal with request := false }) ∧
  (∀ (s : State) (n : Int) (l : Nat) (ms : List CalIn), l < symsPerSlot (cfgExt (s.carCfg (s.rf Reg.CAL_CFG 25 24))) →
    s.calSymbol n l = true → s.pathAvail s.refPath = false →
    exec (.calOccasion n l ms) s = .next ((s.pb Reg.CAL_STAT 18 true).setCalState 4)) ∧
  (∀ (s u : State) (n : Int) (l : Nat) (ms : List CalIn) (cfg : Word) (t0 : Nat), cfg = s.carCfg (s.rf Reg.CAL_CFG 25 24) →
    l < symsPerSlot (cfgExt cfg) → s.calSymbol n l = true → s.pathAvail s.refPath = true →
    t0 = s.tickReaching (s.gridTime (symStart (cfgMu cfg) (cfgExt cfg) n l)) →
    u = (s.calBegin n l).advanceTo (s.tickReaching (s.gridTime (symEnd (cfgMu cfg) (cfgExt cfg) n l))) →
    exec (.calOccasion n l ms) s =
      .next ((u.calMeasure n t0 ms).calEnd n l t0 s.calNext (decide (s.rf Reg.CAL_STAT 27 22 < s.calAnts / 12)))) ∧
  (∀ (s : State) (n : Int) (l : Nat), s.calSymbol n l = true → s.calState = 1 ∧ s.calEligible n l = true ∧
    (∀ k, s.cal.lastSlot = some k → k < n) ∧ (∀ k, k < l → s.calEligible n k = false)) ∧
  (∀ (s : State) (n : Int) (t0 : Nat) (ms : List CalIn), (s.calMeasure n t0 ms).cal.lastSlot = some n) ∧
  (∀ s : State, s.calState = 3 → exec .calResults s =
    .next (if s.calFinish.rb Reg.CAL_CFG 29 then s.calFinish.applyResults.1 else s.calFinish))

/-- A downlink symbol of a carrier on the air, not yet formed, is formed when its C-plane-judged window closes: each path of a running tile gets the words of
every PRB, in PRB order; the symbol is counted and its sections are used up. An uplink symbol of an active carrier is received at the end of
its air time and the carrier's uplink compensation, and is counted. Words that wait for a cascade partial are passed up with the missing PRBs poisoned after 10 us. A PRACH occasion
latches its beam at its start and ends with its repetitions passed to egress and counted. A sounding occasion serves every valid entry of the
carrier in ascending order. -/
def Obligations.SymbolEventsComplete : Prop :=
  (∀ (s : State) (c l air : Nat) (n : Int) (v : CarVals), c < 4 → v = s.carNamed c n l → cfgDl v.cfg = true → l < symsPerSlot (cfgExt v.cfg) →
    s.domOn 5 = true → s.domOn 7 = true → air = s.airOf v.cfg n l → Sparse.get (fun _ => 0) s.fh.lastDl c ≤ air →
    ∃ u w : State, exec (.dlSymbol c n l) s = .next (((w.dropUsed c true n l).showBuf).bump (Cnt.seCarrier c 0)) ∧
      w = (if u.inReconf c air then u else u.formDl c n l air v) ∧ u.fh.lastDl = Sparse.set (fun _ => 0) s.fh.lastDl c (air + 1) ∧
      u.tick = max s.tick (s.tickReaching ((s.window c air true false).2.toNat))) ∧
  (∀ (s u : State) (c l air fin : Nat) (n : Int) (adc : List (List Int)) (v : CarVals), c < 4 → v = s.carNamed c n l → cfgUl v.cfg = true →
    l < symsPerSlot (cfgExt v.cfg) → s.domOn 5 = true → s.domOn 7 = true → air = s.airOf v.cfg n l →
    Sparse.get (fun _ => 0) s.fh.lastUl c ≤ air → fin = s.gridTime (symEnd (cfgMu v.cfg) (cfgExt v.cfg) n l) →
    u = (s.advanceTo (s.tickReaching (fin + min 2000 (fld v.adv 26 16) * nsU) + ulLatency)).feedAll adc →
    exec (.ulSymbol c n l adc) s = .next (((State.formUl { u with fh := { u.fh with lastUl := Sparse.set (fun _ => 0) u.fh.lastUl c (air + 1) } }
      c n l air fin v).dropUsed c false n l).bump (Cnt.seCarrier c 1))) ∧
  (∀ (s u : State) (w : Held) (rest : List Held), s.fh.held = w :: rest →
    u = s.advanceTo (s.tickReaching (w.from_ + 10000 * nsU)) →
    exec .cascPartialTimeout s = .next (State.passUp (((({ u with fh := { u.fh with held := rest } } : State).bumpBy Cnt.trCascade
      w.missing.length).pb Reg.TR_STATUS 12 true)) { w.ul with data := w.ul.data.map (fun (d : Nat × List Cx) =>
        (if d.1 ∈ w.missing then (d.1, d.2.map (fun x => { x with bad := true })) else d)) })) ∧
  (∀ (s u : State) (k : Nat) (o : PrachOcc) (rest : List PrachOcc) (ws : List Cx) (adc : List (List Int)),
    Sparse.get (fun _ => []) s.fh.prach k = o :: rest → s.domOn 5 = true → s.domOn 7 = true → o.latched = none →
    u = (s.advanceTo (s.tickReaching o.start)).feedAll adc → u.sv.inject = none →
    ws = ((u.resolveVec (u.storeFor o.start).1 (u.storeFor o.start).2 (u.trVals o.start).fb o.sec (o.sec.prbs.headD 0)).addr.map
      u.weights).getD [] → ∃ t : State, exec (.prachOccasion k adc) s = .next t ∧ t.tick = u.tick ∧
      t.fh.ul = u.fh.ul ∧ t.fh.prach = Sparse.set (fun _ => []) u.fh.prach k ({ o with latched := some ws } :: rest)) ∧
  (∀ (s u : State) (k : Nat) (o : PrachOcc) (rest : List PrachOcc) (ws : List Cx) (adc : List (List Int)),
    Sparse.get (fun _ => []) s.fh.prach k = o :: rest → s.domOn 5 = true → s.domOn 7 = true → o.latched = some ws →
    u = (s.advanceTo (s.tickReaching (o.stop + s.ulCompAt o.sec.car o.start * nsU) + ulLatency)).feedAll adc →
    ∃ t : State, exec (.prachOccasion k adc) s = .next (t.bump (Cnt.sePrach k 0)) ∧ t.tick = u.tick ∧
      t.fh.prach = Sparse.set (fun _ => []) u.fh.prach k rest ∧ t.fh.ul.length = u.fh.ul.length + o.reps) ∧
  (∀ (s u : State) (c : Nat) (n : Int), c < 4 → s.domOn 5 = true → s.domOn 7 = true → cfgUl (s.carCfg c) = true → s.srsSlotOn c n = true →
    u = s.forEach ((List.range 256).filter (fun e => s.srsUsed e && fld (s.srsW e 0) 28 27 == c))
      (fun v e => v.serveSrs c e n (carSlotStart (cfgMu (s.carCfg c)) (cfgExt (s.carCfg c)) n)) →
    exec (.srsEstimate c n) s =
      .next { u with air := { u.air with srs := u.air.srs.filter (fun x => !(x.1 == c && decide (x.2.1 ≤ n))) } })

/-- SYS_COMMIT for now fires the commit line 1,600 ticks ahead and holds slot 0xF; at a time it takes the lowest free comparator and the lowest free slot, or is
refused when either is lacking; SYS_COMMIT_CANCEL frees a slot whose comparator is armed and ends its command; SYS_DISCARD copies the live
values of the groups it names to their staged values; a write of GL_CMT_NOW fires the line in the states that accept SYS_COMMIT and elsewhere
sets its error flag. A fired line captures the staged view; the capture is evaluated at its tick: the applied groups take effect,
the generation rises, the results are kept, each waiting command ends with them, and a refusal sends the event. -/
def Obligations.CommitsComplete : Prop :=
  (∀ (s u : State) (p : Pkt), s.Admits 0x004 p → s.Room p → u = s.takeCmd 0x004 p → p.flags = 1 → p.params = [] →
    exec (.sysCommit p) s = .next (State.accept (u.fireLine 0 (u.tick + 1600) false [p.ref 0x004 0xF] false) 0x004 p 0xF [0xF])) ∧
  (∀ (s u : State) (p : Pkt) (n i : Nat), s.Admits 0x004 p → s.Room p → u = s.takeCmd 0x004 p → p.is 3 = true → s.ptpOk p.params 0 = true →
    u.freeCmp = some n → (List.range 8).find? (fun i => !u.host.slots.any (fun (x : Nat × CmdRef) => x.1 == i)) = some i →
    exec (.sysCommit p) s = .next (State.accept
      ((({ u with host := { u.host with slots := u.host.slots ++ [(i, p.ref 0x004 i)] } } : State).showSlots).schedule n 0
        (shortOf (ptpParam p.params 0)) 0 (some (p.ref 0x004 i))) 0x004 p i [toW i])) ∧
  (∀ (s u : State) (p : Pkt) (n : Nat) (x : Nat × CmdRef), s.Admits 0x005 p → u = s.takeCmd 0x005 p → p.is 1 = true → p.arg 0 < 8 →
    u.host.slots.find? (fun (y : Nat × CmdRef) => y.1 == p.arg 0) = some x →
    (List.range 32).find? (fun n => (u.cmpOf n).ref == some x.2 && u.armed n) = some n →
    exec (.sysCommitCancel p) s = .next (State.reply (State.finish (State.showSlots ({ u.disarm n with host := { (u.disarm n).host with slots := (u.disarm n).host.slots.filter (· ≠ x) } } : State)) x.2 stITEM [0, 0, 0]) p stOK [])) ∧
  (∀ (s u : State) (p : Pkt), s.Admits 0x006 p → u = s.takeCmd 0x006 p → p.is 1 = true → p.arg 0 < 256 →
    exec (.sysDiscard p) s = .next (
    let as := ((u.staged.map Prod.fst ++ u.live.map Prod.fst).eraseDups).filter fun a =>
      match groupAt a with
      | some (g, _) => bitN (p.arg 0) g
      | none => false
    State.reply (u.forEach as fun v a =>
      match groupAt a with
      | some (_, m) => v.swr a (maskW (v.rd a) m)
      | none => v) p stOK [toW (p.arg 0)])) ∧
  (∀ (s : State) (w : Word), s.Reaches Reg.GL_CMT_NOW →
    exec (.glCmtNowWrite w) s = .next (if !bit w 0 then s
    else if acceptedIn 0x004 s.dev then s.fireLine 0 (s.tick + 1600) false [] false
    else s.pb Reg.GL_CMT_STAT 16 true)) ∧
  (∀ (s u v : State) (d : Due), s.takeDue 0 = some (d, u) → v = u.pb Reg.GL_CMT_STAT 31 true → exec .configCapture s = .next { v with
    host := { v.host with
      captures := v.host.captures ++ [{ staged := u.staged, target := d.target, late := d.late, refs := d.refs, ents := u.fh.rewrote }] }
    cal := { v.cal with touched := [] }, fh := { v.fh with rewrote := [] } }) ∧
  (∀ (s u v : State) (c : Capture) (rest : List Capture) (k : Nat × Nat × Nat), s.host.captures = c :: rest →
    u = s.advanceTo c.target → v = (State.evalGroups { u with host := { u.host with captures := rest, slots := u.host.slots.filter (fun (x : Nat × CmdRef) => !c.refs.contains x.2) } } c.staged).1 →
    k = (State.evalGroups { u with host := { u.host with captures := rest, slots := u.host.slots.filter (fun (x : Nat × CmdRef) => !c.refs.contains x.2) } } c.staged).2 → ∃ w : State,
    exec .configCommit s = .next (State.forEach (State.when (w.wrPair Reg.GL_CMT_T_LO Reg.GL_CMT_T_HI w.tick) (k.2.1 != 0)
      (fun x => x.eventNotice 3 0x04 k.2.1)) c.refs fun x r => x.finish r k.2.2
        [toW k.1, toW k.2.1, toW ((v.rf Reg.GL_CMT_STAT 15 0 + 1) % 2 ^ 16)]) ∧
    w = ((((v.returnEgress c.ents k.2.1).showSlots.pf Reg.GL_CMT_STAT 15 0 ((v.rf Reg.GL_CMT_STAT 15 0 + 1) % 2 ^ 16)).pb Reg.GL_CMT_STAT 31 (rest != [])).wr
      Reg.GL_CMT_RES (toW (k.1 * 2 ^ 16 + k.2.1))))

/-- Every 64 us all sensors are converted: their readings are taken, the paths, dies and parcels respond, and the summary follows. A write of a
threshold register is judged and taken or discarded. TH_STATUS and TH_READ reply with the status words and the sensors' readings, TH_SET with thresholds in
order writes the four registers, and TH_SIMULATE replaces a sensor's reading in TEST, or ends that with 0x8000. -/
def Obligations.ThermalComplete : Prop :=
  (∀ (s v u : State) (rs : List (Int × Bool)) (at_ : Nat), rs.length = 46 → s.dev ≠ 0 →
    at_ = (if s.tick % 102400 = 0 ∧ s.th.last ≠ s.tick + 1 then s.tick else (s.tick / 102400 + 1) * 102400) →
    v = s.advanceTo at_ → u = { v with th := { v.th with last := at_ + 1 } } →
    exec (.sensorConversion rs) s = .next (State.restartRule (State.thSummary (State.forEach (State.forEach (State.forEach
      (State.forEach u (List.range 46) fun v n => v.senConvert n (rs.getD n (0, true)))
      ((List.range 46).filter (fun n => s.senPresent n && isShutdown n)) fun v n => v.pathSees n (rs.getD n (0, true)))
      (s.tiles ++ [4]) fun v d => v.dieSees d rs) (List.range 8) State.throttle)))) ∧
  (∀ (s : State) (r : Nat) (w : Word), r ≤ 2 → s.dev ≠ 0 →
    exec (.thThrWrite r w) s = .next (s.writeThr r w)) ∧
  (∀ (s u : State) (p : Pkt), s.Admits 0x940 p → u = s.takeCmd 0x940 p → p.is 0 = true →
    exec (.thStatus p) s = .next (
    State.reply u p stOK ([u.rd Reg.TH_STAT, u.rd Reg.TH_SHDN] ++ (List.range 8).map (fun q => u.rd (Reg.TH_PARCEL q))))) ∧
  (∀ (s u : State) (p : Pkt), let w := fun (i : Nat) => wordAt p.params i
    let boff := maskW (w 2) 0x3F0F
    let rst := maskW (w 3) 0xFFFF
    s.Admits 0x941 p → u = s.takeCmd 0x941 p → p.is 4 = true → thresholdsOk (w 1) boff rst = true →
    exec (.thSet p) s = .next (
    State.reply ((((u.wr Reg.TH_CTRL (maskW (w 0) 0xC0000003)).wr Reg.TH_THR (w 1)).wr Reg.TH_BOFF boff).wr Reg.TH_RESTART rst) p stOK [])) ∧
  (∀ (s u : State) (p : Pkt), s.Admits 0x942 p → u = s.takeCmd 0x942 p → p.is 2 = true → 1 ≤ p.arg 1 → p.arg 1 ≤ 14 → p.arg 0 + p.arg 1 ≤ 46 →
    exec (.thRead p) s = .next (
    State.reply u p stOK ((List.range (p.arg 1)).map (fun i => u.rd (Reg.TH_SENSE (p.arg 0 + i)))))) ∧
  (∀ (s u : State) (p : Pkt), s.Admits 0x943 p → u = s.takeCmd 0x943 p → p.is 2 = true → s.senPresent (p.arg 0) = true → s.dev = 5 →
    exec (.thSimulate p) s = .next (
    let v := p.arg 1 % 2 ^ 16
    State.reply (u.setSen (p.arg 0) { u.senOf (p.arg 0) with sim := if v = 0x8000 then none else some (sext v 16) }) p stOK []))

/-- With the management domain on, a ring is enabled or disabled by its configuration register, and a doorbell makes it look for descriptors; a draining ring
aborts its descriptor. A fetch while the ring may fetch takes the descriptor at its position into work and moves the position on by one within the ring's size;
a fetch in error stops the ring. A descriptor in progress whose completion comes moves its data, one that reads the host and gets none ends with
status 5, a direct transfer too. A direct transfer's shadow is committed by its register, its halfway point is noted once with its interrupt, and it is
stopped by its register. -/
def Obligations.DmaComplete : Prop :=
  (∀ (s : State) (n : Nat) (w : Word), n < 32 → s.domOn 1 = true →
    exec (.ringEnable n w) s = .next ((s.writeRingCfg n (putFld w 31 31 1)).forwardLocks)) ∧
  (∀ (s : State) (n : Nat) (w : Word), n < 32 → s.domOn 1 = true →
    exec (.ringDisable n w) s = .next ((s.writeRingCfg n (putFld w 31 31 0)).forwardLocks)) ∧
  (∀ (s : State) (n : Nat), s.ringState n = 4 → n < 32 →
    exec (.ringDrain n) s = .next ((s.abortDesc n).forwardLocks)) ∧
  (∀ (s : State) (n : Nat), n < 32 → s.domOn 1 = true →
    exec (.ringDbWrite n) s = .next (s.doorbell n)) ∧
  (∀ (s : State) (n : Nat) (ws : List Word), s.mayFetch n = true → (s.ringOf n).reread = false →
    exec (.descFetch n ws false) s = .next ((((s.clearBeats n).setRing n { s.ringOf n with desc := some { idx := (s.rd (Reg.RING_POS n)).toNat, words := ws, func := s.rf (Reg.RING_CFG n) 27 24, addr := s.rdPair (Reg.RING_BASE_LO n) (Reg.RING_BASE_HI n) + 32 * (s.rd (Reg.RING_POS n)).toNat } }).wr (Reg.RING_POS n)
        (toW (((s.rd (Reg.RING_POS n)).toNat + 1) % s.ringSize n))).forwardLocks)) ∧
  (∀ (s : State) (n : Nat) (ws : List Word), s.mayFetch n = true → exec (.descFetch n ws true) s = .next (s.fetchError n)) ∧
  (∀ (s u v : State) (n : Nat) (data : List Byte) (err : Bool) (d d0 : Desc), (s.ringOf n).desc = some d0 → n < 32 → s.pcieUp = true →
    (s.ringState n = 1 ∨ s.ringState n = 4) → u = s.takeBeats n → (u.ringOf n).desc = some d →
    v = (if d.func = 8 ∨ d.func = 9 then u.hostBound n d err else (u.moveDesc n d data err).forwardLocks) →
    exec (.descFinish n data err) s = .next (if (v.ringOf n).desc = some d then v else v.clearBeats n)) ∧
  (∀ (s : State) (n : Nat) (d : Desc), (s.ringOf n).desc = some d → d.func < 8 → n < 32 →
    exec (.readCompletionTimeout n) s = .next (s.finishDesc n d 5 d.moved).forwardLocks) ∧
  (∀ (s : State) (n : Nat), (s.ringOf n).desc = none → s.mayFetch n = false → n < 32 → s.rf (Reg.DMA_STAT n) 31 28 = 1 →
    s.rb (Reg.DMA_MODE n) 31 = false → exec (.readCompletionTimeout n) s = .next (s.directFail n 5).forwardLocks) ∧
  (∀ (s : State) (n : Nat) (w : Word), n < 32 → s.domOn 1 = true →
    exec (.dmaShCommitWrite n w) s = .next ((s.directCommit n w).forwardLocks)) ∧
  (∀ (s u : State) (n : Nat), n < 32 → s.rf (Reg.DMA_STAT n) 31 28 = 1 → n ∉ s.dma.half →
    u = { s with dma := { s.dma with half := n :: s.dma.half } } →
    exec (.directHalfPoint n) s = .next (if s.rb (Reg.DMA_MODE n) 29 then (u.pb (Reg.DMA_STAT n) 0 true).irq (8 + n) else u)) ∧
  (∀ (s : State) (n : Nat), n < 32 → s.domOn 1 = true →
    exec (.dmaStopWrite n) s = .next ((s.directStop n).forwardLocks))

/-- Power-on of an unpowered block is a cold reset. RST_N low for at least 1 us and less than 100 ms is a warm reset outside OFF and BOOT and
without a latched shutdown, and for 100 ms or more a cold one. A watchdog timeout restarts the hub from a running state; the window of 60 s
clears the restart count; removal of the supply leaves OFF with no domain powered. PERST_N going low resets the PCIe function and keeps it
down until it is released; a function-level reset also resets the queues of mailboxes 0 to 3. A fired shutdown sensor outside a latched
shutdown mutes every path, takes every domain down, records itself and latches; once all shutdown sensors have been cool for the restart
time a warm reset ends it. Boot mounts the Cellar, and ends in RECOVERY with no image to run, in FAULT after the third restart in a row or a hub
failure, and else in STANDBY. -/
def Obligations.ResetsComplete : Prop :=
  (∀ (s : State), s.dev = 0 →
    exec .powerOn s = .next (s.coldReset 0)) ∧
  (∀ (s : State) (ns : Nat), s.dev ≠ 0 → 1000 ≤ ns →
    exec (.rstNLow ns) s = .next (
      if 100000000 ≤ ns then s.coldReset 1
      else if s.dev = 1 ∨ s.th.latched then s
      else s.warmReset 0x02 2)) ∧
  (∀ (s : State), 2 ≤ s.dev → s.domOn 1 = true →
    exec .watchdogTimeout s = .next (s.hubRestart 4)) ∧
  (∀ (s : State),
    exec .hubRestartWindowExpiry s = .next (s.pf Reg.GL_BOOT 11 8 0)) ∧
  (∀ (s : State),
    exec .supplyRemoval s = .next (((s.coldReset 0).wr Reg.GL_STATE 0).wr Reg.PW_STAT 0)) ∧
  (∀ (s : State),
    exec .perstNAssert s = .next ({ s.pcieReset with host := { s.pcieReset.host with perst := true } })) ∧
  (∀ (s : State),
    exec .perstNRelease s = .next { s with host := { s.host with perst := false } }) ∧
  (∀ (s : State), s.pcieUp = true →
    exec .functionLevelReset s = .next (s.pcieReset.forEach (List.range 4) fun u m => (u.d2hReset m).h2dReset m)) ∧
  (∀ (s : State) (cut : Bool) n t emerg, s.th.fire = some (n, t, emerg) → s.dev ≠ 0 → s.th.latched = false → let before := s.rf Reg.PW_PAD_STAT 23 0
    let s1 := (s.forEach s.paths fun u p => (u.muteForce p).setTx p { (u.muteForce p).txOf p with txen := false, rxen := false }).forEach s.rows State.latchRow
    let s2 := { s1 with pw := { shdnLatch := Nat.lor s1.pw.shdnLatch (s1.rf Reg.PW_PAD_STAT 23 0 - before), pen := 0, ppg := 0 } }
    let busy := !s.celOrders.isEmpty && s.domOn 1 && s.celMode == 1
    let w := 2 ^ 31 + b2n emerg * 2 ^ 29 + b2n busy * 2 ^ 28 + (s.rf Reg.TH_SHDN 23 16 + 1) % 256 * 2 ^ 16 + n * 2 ^ 8 + degC t
    let s3 := (s2.wr Reg.TH_SHDN (toW w)).wrPair Reg.TH_SHDN_T_LO Reg.TH_SHDN_T_HI s.tick
    let s4 := ((s3.pb Reg.TH_STAT 2 true).bump (Cnt.thPackage 0)).bumpBy (Cnt.thPackage 1) (b2n emerg)
    let s5 := (s4.forEach s4.tiles fun u k => (u.setTileState k 2).setLinkState k 0).forEach [8, 9, 10, 11, 5, 6, 3, 4, 7, 2] fun u d => u.setDom d false
    exec (.thermalShutdown cut) s = .next (
      let s6 :=
        if cut ∨ !(s.domOn 1 && s.celMode == 1) then s5
        else
          let u := if busy then s5.cellarWrite true else s5
          let o : CelOrder := { kind := 0x31, payload := u.shutdownRecord false }
          ({ u with celOrders := o :: u.celOrders } : State).cellarWrite true
      let s7 := { s6 with
        host := { s6.host with
          aborted := s6.inFlight, accepted := [], busy := none, plans := [], slots := [], captures := [], restart := none
          spiStream := [], spiJob := none }
        tb := { s6.tb with pendStep := none }
        boot := { s6.boot with torn := s6.boot.torn ++ s6.tornFaults }
        celOrders := []
        th := { s6.th with fire := none, latched := true, okSince := none } }
      (s7.forEach (List.range 8) State.h2dReset).setDom 1 false)) ∧
  (∀ (s : State) t, s.th.okSince = some t → s.th.latched = true → let s1 := s.advanceTo (t + max 1 (s.rf Reg.TH_RESTART 15 8) * 1600000000)
    let s2 := s1.warmReset 0x05 6
    exec .thermalRestart s = .next ((({ s2 with th := { s2.th with latched := false, okSince := none } } : State).thEvt 5).bump (Cnt.thPackage 2))) ∧
  (∀ (s : State) (sel : Nat) (headers : Bool) (torn : Nat) (version : Word) (hubOk : Bool) (badTiles : Nat) (sramOk : Bool), s.dev = 1 → let s1 := (s.pf Reg.GL_BOOT 1 0 sel).mount headers torn
    exec (.boot sel headers torn version hubOk badTiles sramOk) s = .next (
      if s1.celMode = 3 then s1.recovery sramOk 8 0x08
      else
        let (s2, image) := s1.findImage
        match image with
        | none => s2.recovery sramOk 6 0x07
        | some (bs, bank) =>
          let s3 := (({ s2 with cel := { s2.cel with running := bs } } : State).pf Reg.SEC_STAT 31 31 bank).firmwareStart version sramOk
          if 3 ≤ s.rf Reg.GL_BOOT 11 8 ∧ s.rf Reg.GL_STATE 23 16 = 3 then s3.hubOff.bootEnd 8 0x08
          else if !hubOk then s3.hubOff.bootEnd 6 0x07
          else (s3.bringUp badTiles).bootEnd 2 0x06))

/-- At the end of a check interval the check points count what they saw, and every unit whose check failed often enough is declared, the
hub's own through a restart. A spine fault declares its parcel; a self-test that passes unspoiled repairs its unit and ends its command with OK, and
one that fails with ITEM_FAILED. SV_INJECT starts an injection and ends with it. SV_STATUS, SV_REPAIR, SV_DECLARE, SV_INJECT and SV_CLEAR judge their unit and
reply as their table says. The loss of a package is dealt with on the lead and, upstream, on a member. A crossing's overflow is recorded, and the words that it
lost are poisoned where they pass. -/
def Obligations.SelvedgeComplete : Prop :=
  (∀ (s : State) (seen : List CheckSeen), 2 ≤ s.dev → s.domOn 1 = true → let cur := nsOf s.now / 1000
    let begins := decide (s.tickReaching (cur * 1000 * nsU) = s.tick)
    let iv := if begins ∧ 0 < cur ∧ s.sv.interval + 1 ≠ cur ∧ s.sv.interval ≠ cur then cur - 1
      else if cur = s.sv.interval then cur + 1 else cur
    let s0 := s.advanceTo (s.tickReaching ((iv + 1) * 1000 * nsU))
    let mine := (seen.filter (fun x => s.chkAt x.chk x.unit)).map (fun x => (256 * x.chk + (if x.chk ≤ 8 then 0 else x.unit), x.fails, x.poisoned))
    let all := mine.foldl addSeen s.sv.acc
    let s1 := s0.forEach mine fun u (x : Nat × Nat × Nat) => u.countCheck (x.1 / 256) (x.1 % 256) x.2.1 x.2.2
    let old := fun (k : Nat) => if iv = s.sv.interval + 1 then Sparse.get (fun _ => 0) s.sv.runs k else 0
    let failed := all.filter (fun (x : Nat × Nat × Nat) => decide (0 < x.2.1) && decide (chkOwner (x.1 / 256) ≠ 0))
    let runs := failed.map (fun (x : Nat × Nat × Nat) => (x.1, old x.1 + 1))
    let recent := s.sv.recent.filter (fun (x : Nat × Nat × Nat) => decide (s0.tick < x.1 + tickS)) ++ failed.map (fun (x : Nat × Nat × Nat) => (s0.tick, x.1, x.2.1))
    let within := fun (k : Nat) => ((recent.filter (fun (x : Nat × Nat × Nat) => x.2.1 = k)).map (fun (x : Nat × Nat × Nat) => x.2.2)).sum
    let burst := s.rf Reg.SV_CTRL 31 16
    let due := (runs.filter (fun (x : Nat × Nat) => decide (s.faultN ≤ x.2) || (burst != 0 && decide (burst ≤ within x.1)))).map Prod.fst
    let s2 := { s1 with sv := { s1.sv with acc := [], runs := runs, recent := recent, interval := iv } }
    let s3 := s2.forEach due State.declareChk
    exec (.checkIntervalEnd seen) s = .next (
      match due.find? (fun k => chkOwner (k / 256) == 3) with
      | some k => s3.hubFault 0x09 (k / 256) 0
      | none => s3)) ∧
  (∀ (s : State) (q : Nat), s.domOn 1 = true → 2 ≤ s.dev →
    exec (.spineFault q) s = .next (s.declareFault 2 q 0x07 0 (q / 2))) ∧
  (∀ (s : State) (kind unit : Nat) (pass : Bool) t, s.sv.tests.find? (fun t => t.kind = kind ∧ t.unit = unit) = some t → let s1 := { s with sv := { s.sv with tests := s.sv.tests.filter (· ≠ t) } }
    exec (.selfTestDone kind unit pass) s = .next (
      if pass && !t.spoiled && !s.parentFaulted kind unit && !s.causeHolds kind unit then
        let s2 := (s1.when (kind == 0 && s1.rf (causeReg 0 unit) 23 16 == 0x05) (fun u => u.mendBus (unit / 4))).repairUnit kind unit
        s2.finish t.ref stOK [s2.rd (causeReg kind unit)]
      else s1.finish t.ref stITEM [s1.rd (causeReg kind unit)])) ∧
  (∀ (s : State) (w : Word), s.Reaches Reg.SV_INJECT →
    exec (.svInjectGo w) s = .next (s.writeSvInject w)) ∧
  (∀ (s : State) i, s.sv.inject = some i →
    exec .injectionDone s = .next (s.injectCount i i.left)) ∧
  (∀ (s u : State) (p : Pkt), s.Admits 0x040 p → u = s.takeCmd 0x040 p → p.is 2 = true → s.unitPresent (p.arg 0) (p.arg 1) = true →
    exec (.svStatus p) s = .next (
    State.reply u p stOK [u.rd (causeReg (p.arg 0) (p.arg 1)), u.peek Reg.SV_FAULT_SUM, u.rd Reg.SV_LAST])) ∧
  (∀ (s u : State) (p : Pkt), let key := (p.arg 0) * 256 + (p.arg 1)
    s.Admits 0x041 p → s.Room p → u = s.takeCmd 0x041 p → p.is 2 = true → s.unitPresent (p.arg 0) (p.arg 1) = true → s.faulted (p.arg 0) (p.arg 1) = true →
    exec (.svRepair p) s = .next (
    if u.sv.tests.any (fun t => (t.kind, t.unit) = ((p.arg 0), (p.arg 1)) ∨ (t.kind, t.unit) ∈ parents (p.arg 0) (p.arg 1)) then State.reply u p stBUSY []
    else if u.parentFaulted (p.arg 0) (p.arg 1) then State.reply u p stITEM [u.rd (causeReg (p.arg 0) (p.arg 1))]
    else
      let t : SelfTest := { kind := (p.arg 0), unit := (p.arg 1), ref := p.ref 0x041 key, start := u.tick }
      State.accept ({ u with sv := { u.sv with tests := u.sv.tests ++ [t] } } : State) 0x041 p key [])) ∧
  (∀ (s u : State) (p : Pkt), s.Admits 0x042 p → u = s.takeCmd 0x042 p → p.is 2 = true → s.unitPresent (p.arg 0) (p.arg 1) = true → s.faulted (p.arg 0) (p.arg 1) = false →
    exec (.svDeclare p) s = .next (
    let u1 := u.declareFault (p.arg 0) (p.arg 1) 0x0A 0 4
    State.reply u1 p stOK [u1.rd (causeReg (p.arg 0) (p.arg 1))])) ∧
  (∀ (s u : State) (p : Pkt), s.Admits 0x043 p → s.Room p → u = s.takeCmd 0x043 p → p.is 4 = true → s.chkAt (p.arg 0) (p.arg 1) = true → (p.arg 1) < 256 → p.arg 2 < 256 → p.arg 3 < 2 →
    exec (.svInject p) s = .next (
    if u.sv.inject.isSome then State.reply u p stBUSY []
    else
      let u1 := u.wr Reg.SV_INJECT (toW (p.arg 3 * 2 ^ 27 + (p.arg 0) * 2 ^ 16 + (p.arg 1) * 2 ^ 8 + p.arg 2))
      State.accept (u1.startInject (some (p.ref 0x043 0))) 0x043 p 0 [])) ∧
  (∀ (s u : State) (p : Pkt), s.Admits 0x044 p → u = s.takeCmd 0x044 p → p.is 1 = true → p.arg 0 < 512 →
    exec (.svClear p) s = .next (
    let u1 := u.clearSum (p.arg 0)
    State.reply u1 p stOK [u1.peek Reg.SV_FAULT_SUM])) ∧
  (∀ (s : State) (k : Nat), 2 ≤ s.dev → s.domOn 1 = true →
    exec (.packageLoss k) s = .next (
      if s.isLead then (if 1 ≤ k ∧ k < s.reach then s.losePackage k else s)
      else if k < s.pkgNum then s.upstreamLost
      else s)) ∧
  (∀ (s : State) (row die unit n : Nat), row < 8 → die < s.part.tiles ∨ die = 4 → ∃ u v : State,
    exec (.crossingOverflow row die unit n) s = .next (v.event die 0x0C die false row) ∧
    ((row = 4 ∨ row = 5) ∧ unit < 6 → u = (s.bump (Cnt.axLink unit 8)).bumpBy (Cnt.axLink unit 2) n) ∧
    (¬ ((row = 4 ∨ row = 5) ∧ unit < 6) → u = s) ∧
    (row = 0 ∨ row = 1 ∨ row = 5 → v = { u with
      lost := Sparse.set (fun _ => 0) u.lost (256 * row + unit) (Sparse.get (fun _ => 0) u.lost (256 * row + unit) + n) }) ∧
    (row = 4 ∧ unit < 4 → v = u.loseWords unit (die == 4) (u.streamNow unit) n) ∧
    (row = 2 ∨ row = 3 ∨ 6 ≤ row ∨ (row = 4 ∧ 4 ≤ unit) → v = u))

/-- A job's go bit submits it; its release line releases the waiting jobs that name it and counts a periodic one still active as an overrun; the
head job's next item starts on a free available core with its parameter block; an item that runs 2 ms fails its core; a deadline not met is
counted and ends the job where it says so; a slice that misses the lead's time fails. The solver commands stage an SRS entry, submit, cancel and read
a job, load a kernel, take a core out of service or test it back in, set the cascade mode, and clear directory entries, each with its reply, and copy to the members
what the rules copy. -/
def Obligations.SolverJobsComplete : Prop :=
  (∀ (s : State) (j : Nat) (v : Word), s.Reaches (Reg.SOL_JOB_W0 j) →
    exec (.jobGoWrite j v) s = .next (if j < 64 then s.writeJob j 0 v else s)) ∧
  (∀ (s : State) d s1, s.takeDue 12 = some (d, s1) →
    exec .jobRelease s = .next (
      if s.commitFirst d.target then s else
      ((s1.advanceTo d.target).forEach (List.range 64) fun u j =>
        if !u.jobRel j then u
        else if u.jobState j = 1 then u.releaseJob j
        else if u.jobPeriodic j ∧ u.jobActive j then (u.pb Reg.SOL_STATUS 1 true).bump (Cnt.solJob j 3)
        else u))) ∧
  (∀ (s : State) (c : Nat) j i rest, let able := decide (c < 32) && s.domOn 6 && s.rb Reg.SOL_CTRL 31 && s.rb Reg.SOL_CORE_AVAIL c && (s.coreOf c).item.isNone && !s.quiet 4
    s.jobHead = some j → able = true → let s1 := s.startJob j
    let x := s1.jobOf j
    x.todo = i :: rest → let again := x.second.contains i
    let s2 := s1.setJob j { x with todo := rest }
    exec (.workItemStart c) s = .next (
      let (entry, s3) := s2.kernelEntry (s2.jobKernel j)
      let old := s3.coreOf c
      let mem := (s3.paramBlock c j i again).foldl (fun m (e : Nat × Nat) =>
        Sparse.set (fun _ => {}) m e.1 (mkCtl false (sext e.2 48))) old.mem
      let s4 := s3.setCore c {
        item := some { job := j, sub := i, reissued := again, start := s3.tick, els := s3.elements }
        pc := entry, mem := mem, puts := old.puts, busy := old.busy }
      ((s4.pf (Reg.SOL_CORE_STAT c) 31 28 1).bump (Cnt.solCore c 0)))) ∧
  (∀ (s : State) (c : Nat) i, (s.coreOf c).item = some i → c < 32 →
    exec (.workItemTimeout c) s = .next ((s.advanceTo (i.start + 3200000)).coreFail c 2)) ∧
  (∀ (s : State) (j : Nat), j < 64 → s.jobActive j = true → s.rb (Reg.SOL_JOB_W7 j) 27 = false → let target := (s.jobW j 4).toNat + fld (s.jobW j 5) 15 0 * 2 ^ 32
    let s1 := s.advanceTo (s.tickReaching (s.resolve target))
    exec (.jobDeadline j) s = .next (
      if s.commitFirst s1.tick then s else
      let s2 := ((s1.pb (Reg.SOL_JOB_W7 j) 27 true).pb Reg.SOL_STATUS 2 true).bump (Cnt.solJob j 2)
      (if bit (s2.jobW j 0) 27 then s2.stopJob j 7 else s2))) ∧
  (∀ (s : State) (j i : Nat), let x := s.jobOf j
    j < 64 → s.reach ≠ 1 → s.jobActive j = true →
    exec (.cascSliceTimeout j i) s = .next (
      match x.remote.find? (fun (r : Nat × List (Nat × Nat)) => r.1 == i) with
        | some r =>
          let missing := (List.range (s.jobInputs j)).filter (fun k => !r.2.any (fun (e : Nat × Nat) => e.1 == k))
          let s1 := s.setJob j { x with remote := x.remote.filter (fun (y : Nat × List (Nat × Nat)) => y.1 ≠ i) }
          ((s1.forEach missing fun u k => u.failItem j k 8).tryComplete j)
        | none =>
          if i ∈ x.todo then (((s.setJob j { x with todo := x.todo.filter (· ≠ i) }).failAll j 8).subDone j i) else s)) ∧
  (∀ (s u : State) (p : Pkt), let ok := p.is 5 && decide ((p.arg 0) < 256) && srsOk (wordAt p.params 1) (wordAt p.params 2) (wordAt p.params 3)
    s.Admits 0x400 p → u = s.takeCmd 0x400 p → ok = true → s.isLead = true →
    exec (.solSrsSet p) s = .next (
    State.reply ((u.forEach (List.range 4) fun v w => v.stage (Reg.SOL_SRS_W0 (p.arg 0) + 4 * w) (wordAt p.params (1 + w))).copyDown 0x400 p.params) p stOK [])) ∧
  (∀ (s u : State) (p : Pkt), let ok := p.is 8 && decide (p.arg 0 < 64 ∨ p.arg 0 = 0xFF) && s.jobOk (wordAt p.params 1) (wordAt p.params 3) (wordAt p.params 4)
    s.Admits 0x401 p → s.Room p → u = s.takeCmd 0x401 p → ok = true → s.isLead = true →
    exec (.solJobSubmit p) s = .next (
    let slot := if p.arg 0 = 0xFF then (List.range 64).find? (fun j => u.jobState j == 0) else some (p.arg 0)
    match slot with
    | none => State.reply u p stRESOURCE []
    | some j =>
      if u.jobActive j then State.reply u p stBUSY []
      else
        let u1 := u.forEach (List.range 7) fun v w => v.poke (Reg.SOL_JOB_W0 j + 4 * w) (wordAt p.params (1 + w))
        State.accept ((u1.submitJob j (some (p.ref 0x401 j))).copyDown 0x401 (toW j :: p.params.drop 1)) 0x401 p j [])) ∧
  (∀ (s u : State) (p : Pkt), s.Admits 0x402 p → u = s.takeCmd 0x402 p → p.is 1 = true → (p.arg 0) < 64 → s.isLead = true →
    exec (.solJobCancel p) s = .next (
    let u1 := u.cancelJob (p.arg 0)
    State.reply (u1.copyDown 0x402 p.params) p stOK [toW (u1.jobState (p.arg 0))])) ∧
  (∀ (s u : State) (p : Pkt), s.Admits 0x403 p → u = s.takeCmd 0x403 p → p.is 1 = true → (p.arg 0) < 64 →
    exec (.solJobStatus p) s = .next (State.reply u p stOK [u.jobW (p.arg 0) 7, u.jobW (p.arg 0) 8])) ∧
  (∀ (s u : State) (p : Pkt), let ok := p.is 3 && decide (8 ≤ (p.arg 0) ∧ (p.arg 0) ≤ 15 ∧ 0 < p.arg 2) && s.loadRing (p.arg 1)
    s.Admits 0x404 p → s.Room p → u = s.takeCmd 0x404 p → ok = true →
    exec (.solKernelLoad p) s = .next (
    if u.loadBusy (p.arg 1) || u.host.accepted.any (fun r => r.op == 0xA40 || r.op == 0x404) || (List.range 64).any (fun j => u.jobActive j && u.jobKernel j == (p.arg 0)) then State.reply u p stBUSY []
    else State.accept (u.startLoad (p.arg 1) (p.ref 0x404 (p.arg 0)) (p.arg 2) [(p.arg 0)]) 0x404 p (p.arg 0) [])) ∧
  (∀ (s u : State) (p : Pkt) (pass : Bool), s.Admits 0x405 p → u = s.takeCmd 0x405 p → p.is 2 = true → (p.arg 0) < 32 → p.arg 1 < 2 →
    exec (.solCoreCtrl p pass) s = .next (
    let u1 := u.takeOut (p.arg 0)
    if p.arg 1 = 0 then State.reply u1 p stOK [u1.rd Reg.SOL_CORE_AVAIL]
    else if pass then
      let u2 := (u1.setCore (p.arg 0) { u1.coreOf (p.arg 0) with mem := [] }).pb Reg.SOL_CORE_AVAIL (p.arg 0) true
      let u3 := u2.pf (Reg.SOL_CORE_STAT (p.arg 0)) 31 28 0
      State.reply u3 p stOK [u3.rd Reg.SOL_CORE_AVAIL]
    else State.reply u1 p stITEM [u1.rd Reg.SOL_CORE_AVAIL])) ∧
  (∀ (s u : State) (p : Pkt), s.Admits 0x406 p → u = s.takeCmd 0x406 p → p.is 1 = true → p.arg 0 < 2 → s.isLead = true →
    exec (.solCascMode p) s = .next (
    State.reply ((u.pb Reg.SOL_CTRL 8 (p.arg 0 == 1)).copyDown 0x406 p.params) p stOK [])) ∧
  (∀ (s u : State) (p : Pkt), s.Admits 0x407 p → u = s.takeCmd 0x407 p → p.is 2 = true → p.arg 0 + p.arg 1 ≤ 2048 →
    exec (.solChClear p) s = .next (
    State.reply (u.forEach (List.range (32 * p.arg 1)) fun v k => v.setByte (32 * p.arg 0 + k) 0) p stOK []))

/-- TR_WC_NOW orders a commit on the lead; the fired line is evaluated, and evaluated again at the next slot boundary while deferred; at B the
stores switch, at R the old ones come free, the generation rises and waiting jobs resume; the carry-forward copy then brings over what
was not written meanwhile; a configuration takes effect at its time. BF_COMMIT, BF_LOCK, BF_LOAD, BF_SCALE, BF_FALLBACK, BF_MODE, BF_NULL_SET,
BF_STATUS and SBFD_NULL_CALC act on their registers and stores and reply; a null calculation that is done writes its vectors to the staged beam table. -/
def Obligations.TrellisComplete : Prop :=
  (∀ (s : State) (w : Word), s.Reaches Reg.TR_WC_NOW →
    exec (.trWcNowWrite w) s = .next (if !bit w 0 then s
    else if !s.isLead then s.pb Reg.TR_STATUS 11 true
    else { s with tb := { s.tb with dues := addDue s.tb.dues { line := 1, target := s.tick, late := false } } })) ∧
  (∀ (s : State) d s1, s.takeDue 1 = some (d, s1) →
    exec .weightCommitEval s = .next ((s1.advanceTo d.target).requestCommit d.refs)) ∧
  (∀ (s : State) d, s.tr.defer = some d → let t := s.slotBoundaryFrom (s.rf Reg.TR_WC_CFG 25 24) false (s.timeAt d.at_ + 1)
    exec .weightCommitReeval s = .next ((s.advanceTo (s.tickReaching t)).evalCommit d.refs d.defers)) ∧
  (∀ (s : State) e, s.tr.exec = some e → e.switched = false → let s1 := s.advanceTo (s.tickReaching e.b)
    let s2 := (s1.pf Reg.TR_STATUS 0 0 (1 - s1.liveStore)).pb Reg.TR_STATUS 3 e.mode
    exec .weightSwitch s = .next { s2 with tr := { s2.tr with exec := some { e with switched := true } } }) ∧
  (∀ (s : State) e, s.tr.exec = some e → e.switched = true → let s1 := (s.advanceTo (s.tickReaching e.r)).pb Reg.TR_STATUS 1 false
    let s2 := s1.pf Reg.TR_WS_GEN 15 0 (s1.rf Reg.TR_WS_GEN 15 0 + 1)
    let s3 := s2.pb Reg.TR_STATUS 2 (s2.rb Reg.TR_CTRL 1)
    exec .weightRetire s = .next ({ s3 with tr := { s3.tr with exec := none, dirty := [] } }).resumeJobs) ∧
  (∀ (s : State), s.rb Reg.TR_STATUS 2 = true → let live := s.liveStore
    let idle := 1 - live
    let isIn := fun k a => (decide (wsBase k ≤ a ∧ a < wsBase k + 0x04000000 ∨ btBase k ≤ a ∧ a < btBase k + 0x00400000))
    let kept := Sparse.keep (fun a => !isIn idle a || s.tr.dirty.contains (granule a)) s.tr.mem
    let shift := fun a => if a < btBase 0 then a - wsBase live + wsBase idle else a - btBase live + btBase idle
    let new := (s.tr.mem.filter (fun (e : Host.Cell) => isIn live e.1)).foldl (fun m (e : Host.Cell) =>
      if s.tr.dirty.contains (granule (shift e.1)) then m else Sparse.set (fun _ => 0) m (shift e.1) e.2) kept
    exec .carryFwdDone s = .next { (s.pb Reg.TR_STATUS 2 false) with tr := { s.tr with mem := new, dirty := [] } }) ∧
  (∀ (s : State) x, s.tr.vers.find? (fun (x : Nat × TrVals) => decide (s.tr.appliedAt < x.1)) = some x → let keep := s.tr.vers.filter (fun (y : Nat × TrVals) => decide (s.tr.appliedAt ≤ y.1))
    let s1 := s.advanceTo (s.tickReaching x.1)
    exec .trellisCfgApply s = .next { s1 with tr := { s1.tr with appliedAt := x.1, vers := keep } }) ∧
  (∀ (s u : State) (p : Pkt), let now := p.flags == 1
    let ok := (now && p.params.length == 0) || (p.is 3 && s.ptpOk p.params 0)
    s.Admits 0x300 p → s.Room p → u = s.takeCmd 0x300 p → ok = true → s.isLead = true →
    exec (.bfCommit p) s = .next (
    if now then
      State.accept ({ u with tb := { u.tb with dues := addDue u.tb.dues { line := 1, target := u.tick, late := false, refs := [p.ref 0x300 0] } } } : State) 0x300 p 0 []
    else match u.freeCmp with
      | none => State.reply u p stRESOURCE []
      | some n => State.accept (u.schedule n 1 (shortOf (ptpParam p.params 0)) 0 (some (p.ref 0x300 0))) 0x300 p 0 [])) ∧
  (∀ (s u : State) (p : Pkt), s.Admits 0x301 p → u = s.takeCmd 0x301 p → p.is 1 = true → p.arg 0 < 2 →
    exec (.bfLock p) s = .next (
    let u1 := (u.pb Reg.TR_WS_LOCK 0 (p.arg 0 == 1)).forwardLocks
    State.reply u1 p stOK [toW u1.trLocks])) ∧
  (∀ (s u : State) (p : Pkt), s.Admits 0x302 p → s.Room p → u = s.takeCmd 0x302 p → p.is 4 = true → p.arg 0 < 4 → 1 ≤ p.arg 2 →
    p.arg 1 + p.arg 2 ≤ (bfTarget (p.arg 0)).2.2 → s.loadRing (p.arg 3) = true → u.loadBusy (p.arg 3) = false →
    exec (.bfLoad p) s = .next (State.accept (u.startLoad (p.arg 3) (p.ref 0x302 0) ((bfTarget (p.arg 0)).2.1 * p.arg 2)
      [(bfTarget (p.arg 0)).1 + (bfTarget (p.arg 0)).2.1 * p.arg 1, (bfTarget (p.arg 0)).2.1, p.arg 2]) 0x302 p 0 [])) ∧
  (∀ (s u : State) (p : Pkt), s.Admits 0x303 p → u = s.takeCmd 0x303 p → p.is 2 = true → p.arg 0 < 16 → p.arg 1 < 16 →
    exec (.bfScale p) s = .next (
    State.reply (u.stage Reg.TR_SCALE (toW (p.arg 1 * 2 ^ 8 + p.arg 0))) p stOK [])) ∧
  (∀ (s u : State) (p : Pkt), s.Admits 0x304 p → u = s.takeCmd 0x304 p → p.is 2 = true → p.arg 0 < 2 → p.arg 1 < 4096 →
    exec (.bfFallback p) s = .next (
    State.reply (u.stage Reg.TR_FB_BEAM (toW (p.arg 0 * 2 ^ 31 + p.arg 1))) p stOK [])) ∧
  (∀ (s u : State) (p : Pkt), s.Admits 0x305 p → u = s.takeCmd 0x305 p → p.is 2 = true → p.arg 0 < 2 → p.arg 1 < 2 →
    exec (.bfMode p) s = .next (
    State.reply (u.wr Reg.TR_CTRL (toW (p.arg 1 * 2 + p.arg 0))) p stOK [])) ∧
  (∀ (s u : State) (p : Pkt), let fits := decide (fld (wordAt p.params 2) 11 0 ≤ 2048 ∧
    fld (wordAt p.params 2) 26 16 + fld (wordAt p.params 2) 11 0 ≤ cfgNprb (s.srd (Reg.CAR_CFG (p.arg 0))))
    s.Admits 0x306 p → u = s.takeCmd 0x306 p → p.is 5 = true → (p.arg 0) < 4 → fits = true →
    exec (.bfNullSet p) s = .next (
    State.reply ((((u.stage (Reg.TR_NULL_CFG (p.arg 0)) (wordAt p.params 1)).stage (Reg.TR_NULL_RNG (p.arg 0)) (wordAt p.params 2)).stage (Reg.TR_NULL_VEC (p.arg 0))
      (wordAt p.params 3)).stage (Reg.TR_NULL_VEC2 (p.arg 0)) (wordAt p.params 4)) p stOK [])) ∧
  (∀ (s u : State) (p : Pkt), s.Admits 0x307 p → u = s.takeCmd 0x307 p → p.is 0 = true →
    exec (.bfStatus p) s = .next (
    State.reply u p stOK [u.peek Reg.TR_STATUS, u.peek Reg.TR_WS_GEN, u.peek Reg.TR_WC_REC])) ∧
  (∀ (s u : State) (p : Pkt), let ok := p.is 3 && decide ((p.arg 0) < 4 ∧ 1 ≤ p.arg 1 ∧ p.arg 1 ≤ 4 ∧ p.arg 2 + p.arg 1 ≤ 4096) && s.rb (Reg.SBFD_BAND (p.arg 0)) 31
    s.Admits 0x60B p → s.Room p → u = s.takeCmd 0x60B p → ok = true →
    exec (.sbfdNullCalc p) s = .next (
    if (u.paths.filter (fun v => u.canState v = 3)).length < 4 then State.reply u p stRESOURCE []
    else State.accept u 0x60B p ((p.arg 0) + 4 * p.arg 1 + 64 * p.arg 2) [])) ∧
  (∀ (s : State) (vecs : List (List (Int × Int))) (vals : List Nat) r w_, s.refsOp 0x60B = r :: w_ → s.rb Reg.TR_STATUS 1 = false → let nvec := r.key / 4 % 16
    let first := r.key / 64
    let table := btBase (1 - s.liveStore)
    let s1 := s.forEach (List.range nvec) fun u k =>
      let e := first + k
      let u1 := u.forEach (List.range 96) fun u p =>
        let (i, q) := (vecs.getD k []).getD p (0, 0)
        u.writeSlot (table + e * 0x300 + 8 * p) (packCx i q)
      let m := table + 0x300000 + e / 32 * 4
      ((u1.setBytes m 4 (setBitN (u1.memNat m 4) (e % 32))).markDirty m).markDirty (table + e * 0x300)
    exec (.nullCalcDone vecs vals) s = .next (s1.finish r stOK ((List.range nvec).map (fun k => toW (vals.getD k 0)))))

/-- The record at the front of the Cellar's work is written when its write is done; racking copies the live records of the oldest of
two or more segments and removes it while more than 24 are filled or racking runs, going on while more than 20 are; a write of the secure window is
discarded and sets its flag. CEL_STATUS, CEL_READ and CEL_RACK reply as their table says, CEL_LOG_CLEAR orders its state record and replies when
that is written. -/
def Obligations.CellarComplete : Prop :=
  (∀ (s : State) (ok : Bool),
    exec (.cellarRecordWrite ok) s = .next (s.cellarWrite ok)) ∧
  (∀ (s u : State) (g n : Nat) (x : Nat × Nat) (rest : List (Nat × Nat)), s.cel.segs = (g, n) :: x :: rest → s.celMode = 1 →
    24 < s.cel.segs.length → s.cel.rackRef = none → u = s.rackCopy g → 20 < (u.cel.segs.filter (fun (y : Nat × Nat) => y.1 ≠ g)).length →
    exec .racking s = .next (State.showCel (State.pb { u with cel := { u.cel with segs := u.cel.segs.filter (fun (y : Nat × Nat) => y.1 ≠ g), recs := u.cel.recs.filter (fun r => r.seg ≠ g), rack := some 0 } } Reg.CEL_STAT 29 true))) ∧
  (∀ (s : State), s.Reaches Reg.CEL_STAT →
    exec .secureWindowWrite s = .next (s.pb Reg.CEL_STAT 0 true)) ∧
  (∀ (s u : State) (p : Pkt), s.Admits 0xA00 p → u = s.takeCmd 0xA00 p → p.is 0 = true →
    exec (.celStatus p) s = .next (
    State.reply u p stOK [u.rd Reg.CEL_STAT, u.rd Reg.CEL_FILL, u.rd Reg.CEL_SEQ_LO, u.rd Reg.CEL_SEQ_HI, u.rd Reg.CEL_LOGS])) ∧
  (∀ (s u : State) (p : Pkt), let log := p.flags == 1
    let valid := decide (p.flags < 2) && p.params.length == (if log then 5 else 2) && (!log || decide (1 ≤ p.arg 4 ∧ p.arg 4 ≤ 32))
    s.Admits 0xA01 p → u = s.takeCmd 0xA01 p → valid = true → p.arg 0 ≠ 0x02 →
    exec (.celRead p) s = .next (
    if log then
      let rs := (u.logRecs.filter (fun r => r.kind == p.arg 0 && decide (p.arg 2 + p.arg 3 * 2 ^ 32 ≤ r.seq))).take (p.arg 4)
      if rs = [] then State.reply u p stPARAM []
      else
        let u1 := u.fillBuf (rs.flatMap (fun r => r.bytes ++ List.replicate (256 - 16 * r.n) 0))
        State.reply u1 p stOK [u1.rd Reg.SEC_BUF_GEN]
    else match u.celContent (p.arg 0) (p.arg 1) with
      | none => State.reply u p stPARAM []
      | some bs =>
        let u1 := u.fillBuf bs
        State.reply u1 p stOK [u1.rd Reg.SEC_BUF_GEN])) ∧
  (∀ (s u : State) (p : Pkt), let ref := p.ref 0xA43 0
    s.Admits 0xA43 p → u = s.takeCmd 0xA43 p → p.is 2 = true →
    exec (.celLogClear p) s = .next (
    match u.celRefuse 0x04 [0] 32 with
    | some st => State.reply (u.celFull st) p st []
    | none => ((u.orderState 0x04 0 p.params ref).celLater ref p.quiet []))) ∧
  (∀ (s u : State) (p : Pkt), s.Admits 0xA45 p → s.Room p → u = s.takeCmd 0xA45 p → p.is 0 = true →
    exec (.celRack p) s = .next (
    if u.cel.rack.isSome ∨ 24 < u.cel.segs.length then State.reply u p stBUSY []
    else if u.celMode ≠ 1 then State.reply u p stITEM []
    else
      State.accept (({ u with cel := { u.cel with rack := some 0, rackRef := some (p.ref 0xA45 0) } } : State).pb Reg.CEL_STAT 29 true) 0xA45 p 0 []))

/-- SEC_ID and SEC_ATTEST put the identity and, when it is done, the signed report into the secure buffer; SEC_DBG_CHALLENGE replies with eight fresh words; IMG_LOAD and
SEC_DBG_UNLOCK begin to read their stream; IMG_ACTIVATE verifies the image of a bank, is DENIED with its code where it fails, and else orders its state
record; SEC_ARB_ADVANCE orders the two records of the counters; SEC_KEY_FUSE writes a key slot's hash, SEC_KEY_REVOKE revokes a slot that is not the last of the
first two; SEC_DBG_LOCK locks debug. -/
def Obligations.SecurityCommandsComplete : Prop :=
  (∀ (s u : State) (p : Pkt), s.Admits 0xA02 p → u = s.takeCmd 0xA02 p → p.is 0 = true →
    exec (.secId p) s = .next (
    if (u.celSet 0x02 0).isNone then State.reply u p stITEM []
    else
      let u1 := u.fillBuf ((List.range 5357).map Config.identity)
      State.reply u1 p stOK [5357, u1.rd Reg.SEC_BUF_GEN])) ∧
  (∀ (s u : State) (p : Pkt), s.Admits 0xA03 p → s.Room p → u = s.takeCmd 0xA03 p → p.is 8 = true →
    exec (.secAttest p) s = .next (
    if u.cel.attest.isSome then State.reply u p stBUSY []
    else
      let u1 := u.pf Reg.SEC_BUF_GEN 15 0 (u.rf Reg.SEC_BUF_GEN 15 0 + 1)
      State.accept ({ u1 with cel := { u1.cel with attest := some (p.ref 0xA03 0, p.params) } } : State) 0xA03 p 0 [])) ∧
  (∀ (s : State) r nonce, s.cel.attest = some (r, nonce) → let body := s.report nonce
    let s1 := { s with cel := { s.cel with attest := none, buf := body ++ (List.range 3373).map (Config.identitySign body) } }
    let s2 := s1.pf Reg.SEC_BUF_GEN 15 0 (s1.rf Reg.SEC_BUF_GEN 15 0 + 1)
    exec .attestationDone s = .next (s2.finish r stOK [4333, s2.rd Reg.SEC_BUF_GEN])) ∧
  (∀ (s u : State) (p : Pkt), s.Admits 0xA04 p → u = s.takeCmd 0xA04 p → p.is 0 = true →
    exec (.secDbgChallenge p) s = .next (
    let ws := (List.range 8).map (fun i => Config.freeWord (u.fresh + i))
    State.reply ({ u with fresh := u.fresh + 8, cel := { u.cel with challenge := some ws } } : State) p stOK ws)) ∧
  (∀ (s u : State) (p : Pkt), s.Admits 0xA40 p → s.Room p → u = s.takeCmd 0xA40 p → p.is 3 = true → 1 ≤ p.arg 0 → p.arg 0 ≤ 4 → 0 < p.arg 2 →
    s.secRing (p.arg 1) = true → u.host.accepted.any (fun r => r.op == 0xA40 || r.op == 0x404) = false → u.secBusy (p.arg 1) = false →
    exec (.imgLoad p) s = .next (State.spiLoad (State.accept (u.startSec (p.arg 1) (p.ref 0xA40 0) (p.arg 2) [p.arg 0]) 0xA40 p 0 []))) ∧
  (∀ (s u : State) (p : Pkt), let ref := p.ref 0xA41 0
    s.Admits 0xA41 p → u = s.takeCmd 0xA41 p → p.is 1 = true → p.arg 0 < 2 →
    exec (.imgActivate p) s = .next (
    let code := u.verify (u.flashOf (p.arg 0)) 1 none
    let u1 := u.lastVer code
    if code ≠ 0 then State.reply u1 p stDENIED []
    else match u1.celRefuse 0x03 [0] 32 with
      | some st => State.reply (u1.celFull st) p st []
      | none => ((u1.orderState 0x03 0 [toW (p.arg 0)] ref).celLater ref p.quiet []))) ∧
  (∀ (s u : State) (p : Pkt), let ref := p.ref 0xA44 0
    let cur := (s.rd (Reg.SEC_ARB ((p.arg 0) - 1))).toNat
    let ok := p.is 2 && decide (1 ≤ (p.arg 0) ∧ (p.arg 0) ≤ 4 ∧ cur ≤ (p.arg 1) ∧ (p.arg 1) ≤ (s.usedVer (p.arg 0)).getD cur)
    s.Admits 0xA44 p → u = s.takeCmd 0xA44 p → ok = true →
    exec (.secArbAdvance p) s = .next (
    if u.celMode ≠ 1 then State.reply u p stITEM []
    else
      let ws := (List.range 4).map (fun i => if i + 1 = (p.arg 0) then toW (p.arg 1) else u.rd (Reg.SEC_ARB i))
      (((u.orderState 0x01 0 ws ref).orderState 0x01 1 ws ref).celLater ref p.quiet [toW (p.arg 1)]))) ∧
  (∀ (s u : State) (p : Pkt), s.Admits 0xA80 p → u = s.takeCmd 0xA80 p → p.is 9 = true → ((p.arg 0) = 2 ∨ (p.arg 0) = 3) → s.rb Reg.SEC_REVOKE (4 + (p.arg 0)) = false →
    exec (.secKeyFuse p) s = .next (
    let u1 := u.forEach (List.range 8) fun v w => v.wr (Reg.SEC_KEYHASH (p.arg 0) w) (wordAt p.params (1 + w))
    State.reply (u1.pb Reg.SEC_REVOKE (4 + (p.arg 0)) true) p stOK [])) ∧
  (∀ (s u : State) (p : Pkt), let last := decide ((p.arg 0) < 2) && s.rb Reg.SEC_REVOKE (1 - (p.arg 0))
    s.Admits 0xA81 p → u = s.takeCmd 0xA81 p → p.is 1 = true → (p.arg 0) < 4 → last = false →
    exec (.secKeyRevoke p) s = .next (
    let u1 := u.pb Reg.SEC_REVOKE (p.arg 0) true
    State.reply u1 p stOK [u1.rd Reg.SEC_REVOKE])) ∧
  (∀ (s u : State) (p : Pkt), s.Admits 0xA82 p → s.Room p → u = s.takeCmd 0xA82 p → p.is 2 = true → 0 < p.arg 1 → s.secRing (p.arg 0) = true →
    u.secBusy (p.arg 0) = false →
    exec (.secDbgUnlock p) s = .next (State.spiLoad (State.accept (u.startSec (p.arg 0) (p.ref 0xA82 0) (p.arg 1) []) 0xA82 p 0 []))) ∧
  (∀ (s u : State) (p : Pkt), s.Admits 0xA83 p → u = s.takeCmd 0xA83 p → p.is 0 = true →
    exec (.secDbgLock p) s = .next (State.reply (u.wr Reg.SEC_DBG 0) p stOK [0]))

/-- A word written to a mailbox the host reaches is queued, and a doorbell publishes what is queued. A broken packet is acknowledged with BAD_PARAM and answered
with its tag. A read of a mailbox returns and removes the next word; a reset of the device-to-host queue empties it and lets the waiting reply go on; a read
of MB_LOST returns and clears it. What waits is sent when it fits: the reply first, then the oldest notice, then the event of what was lost. Words of a cascade
mailbox arrive and are published; over SPI in peripheral mode words are written and published, read, the status words returned, and the load stream
written. -/
def Obligations.MailboxesComplete : Prop :=
  (∀ (s : State) (m : Nat) (w : Word), s.hostMbox m = true →
    exec (.mbH2dDataWrite m w) s = .next (s.pushWord m w)) ∧
  (∀ (s : State) (m : Nat) (w : Word), s.hostMbox m = true → bit w 0 = true →
    exec (.mbDbWrite m w) s = .next (s.publish m)) ∧
  (∀ (s : State) (m : Nat), let b := s.mbox m
    (decide (m < 8) && s.domOn 1 && decide (2 ≤ s.dev) && b.broken && b.reply == none) = true → let h := wordAt b.h2d 0
    let s1 := if 14 < fld h 19 14 then s else s.advanceTo (b.dbTick + 1600000)
    exec (.packetTimeout m) s = .next (((s1.ackWords m b.h2d.length stPARAM).mbEvt m 4).reply (barePkt m (fld h 13 6)) stPARAM [])) ∧
  (∀ (s : State) (m : Nat),
    exec (.mbD2hDataRead m) s = .next (if s.hostMbox m ∧ !s.mboxLocked m then ((s.popWord m).1).answer (s.popWord m).2 else s.answer 0)) ∧
  (∀ (s : State) (m : Nat), s.hostMbox m = true → s.mboxLocked m = false →
    exec (.d2hRstWrite m) s = .next ((s.d2hReset m).pushReply m)) ∧
  (∀ (s : State) (m : Nat),
    exec (.mbLostRead m) s = .next (if s.hostMbox m then (s.answer (s.rd (Reg.MB_LOST m))).wr (Reg.MB_LOST m) 0 else s.answer 0)) ∧
  (∀ (s : State) (m : Nat), m < 8 → s.domOn 1 = true → let s1 := (if m = 4 ∨ m = 5 then s.sendMbox m else s).pushReply m
    let b := s1.mbox m
    exec (.noticePush m) s = .next (
      if b.reply ≠ none then s1
      else match b.waiting with
        | p :: rest => if b.fits p then (s1.setMbox m { b with waiting := rest }).pushPkt m p else s1
        | [] =>
          let p := eventPkt 0x08 b.lostNew
          if 0 < b.lostNew ∧ b.fits p then (s1.setMbox m { b with lostNew := 0 }).pushPkt m p else s1)) ∧
  (∀ (s : State) (k : Nat) (ws : List Word), k < 2 → s.part.hasLink (4 + k) = true → s.linkState (4 + k) = 2 →
    exec (.mboxMessage k ws) s = .next (((s.popMsg (4 + k) 0xA).forEach ws fun u w => u.pushWord (4 + k) w).publish (4 + k))) ∧
  (∀ (s : State) (ws : List Word), s.spiOn = true →
    exec (.spiWriteWords ws) s = .next ((s.forEach ws fun u w => u.pushWord 0 w).publish 0)) ∧
  (∀ (s : State) (n : Nat), s.spiOn = true → let r := (List.range n).foldl (fun (a : State × List Word) _ => ((a.1.popWord 0).1, a.2 ++ [(a.1.popWord 0).2])) (s, [])
    exec (.spiReadWords n) s = .next ({ r.1 with host := { r.1.host with spiOut := r.2 } })) ∧
  (∀ s : State, s.spiOn = true → exec .spiReadStatus s = .next
    { s with host := { s.host with spiOut := [s.peek (Reg.MB_ACK 0), s.peek (Reg.MB_H2D_STAT 0), s.peek (Reg.MB_D2H_STAT 0)] } }) ∧
  (∀ (s : State) (ws : List Word), s.spiOn = true → let all := s.host.spiStream ++ ws.flatMap (fun w => (leBytes w).reverse)
    let s1 := { s with host := { s.host with spiStream := all.take 65536 } }
    exec (.spiWriteLoadBytes ws) s = .next ((if 65536 < all.length then s1.mbEvt 0 4 else s1).spiLoad))

/-- An opcode that no table defines is answered UNKNOWN_OPCODE, and one of the debug range is judged by tag, state and unlock first. SYS_NOP returns its
parameters; SYS_INFO and SYS_STATE_GET reply with their registers; SYS_STATE_SET to the same state changes nothing, fails with the unmet
conditions, and else enters the state; SYS_RESTART replies and notes the restart, which comes 10 ms later as a warm reset; SYS_EVENT_CFG sets a mailbox's
event mask and replies with the old one. -/
def Obligations.SystemCommandsComplete : Prop :=
  (∀ (s : State) (p : Pkt) (op : Nat), opDefined op = false → op < 0xF00 →
    exec (.undefinedOpcode op p) s = .next (s.refuseOp op p stOPCODE [])) ∧
  (∀ (s : State) (p : Pkt) (op : Nat), 0xF00 ≤ op → op ≤ 0xFFF →
    exec (.testDebugCmd op p) s = .next (
      if p.tag = 0 ∨ 255 < p.tag ∨ s.tagInUse p.mb p.tag then s.refuseOp op p stPARAM []
      else if !acceptedIn op s.dev then s.refuseOp op p stSTATE [s.stateWord]
      else if !s.debugOpen 2 then s.refuseOp op p stDENIED []
      else s.refuseOp op p stOPCODE [])) ∧
  (∀ (s u : State) (p : Pkt), s.Admits 0x000 p → u = s.takeCmd 0x000 p → p.flags = 0 →
    exec (.sysNop p) s = .next (State.reply u p stOK p.params)) ∧
  (∀ (s u : State) (p : Pkt), s.Admits 0x001 p → u = s.takeCmd 0x001 p → p.is 0 = true →
    exec (.sysInfo p) s = .next (
    State.reply u p stOK [u.rd Reg.ID_DEVICE, u.rd Reg.GL_FW_VER, u.rd Reg.GL_CHIAST, u.rd Reg.GL_STATE, u.rd Reg.GL_PKG_POS])) ∧
  (∀ (s u : State) (p : Pkt), s.Admits 0x002 p → u = s.takeCmd 0x002 p → p.is 0 = true →
    exec (.sysStateGet p) s = .next (State.reply u p stOK [u.rd Reg.GL_STATE])) ∧
  (∀ (s u : State) (p : Pkt), s.Admits 0x003 p → u = s.takeCmd 0x003 p → p.is 1 = true → (p.arg 0) ≤ 8 → ((p.arg 0) == s.dev || stateMove s.dev (p.arg 0)) = true →
    exec (.sysStateSet p) s = .next (
    if (p.arg 0) = u.dev then State.reply u p stOK [u.rd Reg.GL_STATE]
    else
      let bad := Nat.land u.unmet (moveNeeds u.dev (p.arg 0))
      if bad ≠ 0 then State.reply u p stITEM [toW bad]
      else
        let u1 := u.enterState (p.arg 0) 0x10
        State.reply u1 p stOK [u1.rd Reg.GL_STATE])) ∧
  (∀ (s u : State) (p : Pkt), s.Admits 0x007 p → u = s.takeCmd 0x007 p → p.is 0 = true →
    exec (.sysRestart p) s = .next (
    State.reply ({ u with host := { u.host with restart := some (p.ref 0x007 0, u.tick) } } : State) p stOK [])) ∧
  (∀ (s : State) t w_, s.host.restart = some (w_, t) →
    exec .sysRestartExpiry s = .next ((s.advanceTo (t + 16000000)).warmReset 0x04 5)) ∧
  (∀ (s u : State) (p : Pkt), s.Admits 0x008 p → u = s.takeCmd 0x008 p → p.is 2 = true → (p.arg 0) < 4 → p.arg 1 < 64 →
    exec (.sysEventCfg p) s = .next (
    let b := u.mbox (p.arg 0)
    State.reply (u.setMbox (p.arg 0) { b with evMask := p.arg 1 }) p stOK [toW b.evMask]))

/-- A port's link comes up and goes down with its event and the streams moved; a frame received on a port that is up is counted, and dropped for its check
sequence, its length, flow control, its class's share or rate, or goes to the host ring of its class; an eCPRI message has each of its sections taken, or
all rejected where the message is in error; the C-plane window's close judges what has come for it; the oldest uplink words go to egress in pieces that fit
a frame, or are rejected where no port is up; a failure record waiting goes to its ring. -/
def Obligations.FronthaulEventsComplete : Prop :=
  (∀ (s : State) (n : Nat), n < 8 → s.domOn 3 = true → s.portPresent n = true → s.rb (Reg.FH_PORT_CFG n) 31 = true →
    exec (.portLinkUp n) s = .next (s.pb Reg.FH_STATUS n true)) ∧
  (∀ (s : State) (n : Nat), (decide (n < 8) && s.rb Reg.FH_STATUS n) = true → let s0 := s.egressRun
    let s1 := (s0.pb Reg.FH_STATUS n false).hubEvent 0x06 n
    let es := (List.range 256).filter fun e => s1.rb (Reg.FH_EAXC_KEY e) 31 && s1.egrPort e == n && s1.rb (Reg.FH_EAXC_ENT e) 1 && Sparse.get (fun _ => 0) s1.fh.moved e == 0
    let mv := es.foldl (fun m e => Sparse.set (fun _ => 0) m e (s1.rf (Reg.FH_EAXC_ENT e) 4 2 + 1)) s1.fh.moved
    let lost := s1.fh.egress.filter (fun f => f.port == n)
    let s2 := { s1 with fh := { s1.fh with moved := mv, egress := s1.fh.egress.filter (fun f => f.port != n) } }
    let s3 := s2.forEach lost fun u f => match f.sec, f.bound with
      | some (e, h), some _ => u.rejectSec (some e) h 0x0D false false 0
      | _, _ => u
    exec (.portLinkDown n) s = .next (s3.when (es != []) (fun u => u.spared 0 n 4))) ∧
  (∀ (s : State) (n : Nat) (bs : List Byte), s.portUp n = true → let s1 := (s.bump (Cnt.fhPortRx n 0)).bumpBy (Cnt.fhPortRx n 1) bs.length
    exec (.frameReceive n bs) s = .next (
      if !fcsRight bs then (s1.bump (Cnt.fhPortRx n 2))
      else if bs.length < 64 then s1
      else if s1.maxFrame n < bs.length then (s1.bump (Cnt.fhPortRx n 3))
      else
        let f := s1.viewFrame n bs
        if f.etype = 0x8808 then (s1.bump (Cnt.fhPortRx n 4))
        else
          let wake := s1.isWake f bs
          let cls := if wake then 2 else s1.classify f bs
          let s2 := (s1.when wake (fun u => u.wakeFrame f bs)).when (s1.isSync n f bs) State.restartSync
          if cls = 0 then
            let s3 := s2.bump (Cnt.fhClass n 0 0)
            (match f.ecpri with
              | some (o, true) => s3.takeFrame n o bs
              | _ => s3)
          else
            let (ok, s3) := s2.policed n cls bs.length
            if !ok ∨ shareSize cls < s3.shareUse cls + bs.length then (s3.bump (Cnt.fhClass n cls 1))
            else ((s3.bump (Cnt.fhClass n cls 0)).frameToHost n cls bs))) ∧
  (∀ (s : State) (m : EcpriMsg), s.portUp m.port = true →
    exec (.ecpriMessage m) s = .next (
      let (arr, index, s0) := s.takeInbox m
      let e? := s0.entryOf m.eaxc m.downlink
      if !headOk m index then (s0.forEach m.sections fun u x => u.rejectSec e? (secHdr m x) 5 m.downlink m.cplane 0)
      else ((s0.seqCheck e? m).forEach m.sections fun u x => u.takeSec arr m x))) ∧
  (∀ (s : State) (c : Nat) u0 w_, let us := s.fh.data.filter (fun u => u.car == c && !u.judged)
    us = u0 :: w_ → let close := fun (u : USec) => (s.window c u.air true true).2.toNat
    let t := us.foldl (fun m u => min m (close u)) (close u0)
    exec (.cplaneWindowClose c) s = .next ((s.advanceTo (s.tickReaching t)).judgeCplane (fun u => u.car == c && close u == t))) ∧
  (∀ (s : State) x w_, s.fh.ul = x :: w_ → let mine := fun (y : UlSec) => y.sec.entry == x.sec.entry && y.sym == x.sym && y.endAir == x.endAir
    let now := (s.fh.ul.filter mine).foldl (fun l y => insertUl y l) []
    exec .ulEgress s = .next (({ s with fh := { s.fh with ul := s.fh.ul.filter (fun y => !mine y) } } : State).forEach now State.sendUl)) ∧
  (∀ (s : State) (ws : List Word) (rest : List (List Word)), s.fh.waiting = ws :: rest → s.ringFunc (16 + s.rf Reg.FH_FAIL_CFG 3 0) = some 9 →
    s.ringState (16 + s.rf Reg.FH_FAIL_CFG 3 0) = 1 → (s.ringOf (16 + s.rf Reg.FH_FAIL_CFG 3 0)).items = [] →
    exec .failRecordPost s = .next (State.deliver { s with fh := { s.fh with waiting := rest } } (16 + s.rf Reg.FH_FAIL_CFG 3 0)
      { code := 1, detail := fld (wordAt ws 0) 31 16, len := 16, data := ws.flatMap leBytes }))

/-- A write of FH_PORT_MODE is taken in STANDBY and READY with a mode that exists, and a write of FH_EAXC_FMT with widths of 16 bits in all, and else each
sets its error flag; reads of FH_FAIL_LOST and FH_BUF_STAT return the value and clear what they clear. The FH commands with parameters in range write or
stage their registers and reply as their table says. -/
def Obligations.FronthaulCommandsComplete : Prop :=
  (∀ (s : State) (w : Word), s.Reaches Reg.FH_PORT_MODE →
    exec (.fhPortModeWrite w) s = .next (if fld w 1 0 = 3 ∨ !(s.dev = 2 ∨ s.dev = 3) then s.pb Reg.FH_STATUS 9 true
    else s.setPortMode (fld w 1 0))) ∧
  (∀ (s : State) (w : Word), s.Reaches Reg.FH_EAXC_FMT →
    exec (.fhEaxcFmtWrite w) s = .next (if fld w 15 12 + fld w 11 8 + fld w 7 4 + fld w 3 0 = 16 ∧ fld w 7 4 ≤ 4 then s.poke Reg.FH_EAXC_FMT w
    else s.pb Reg.FH_STATUS 8 true)) ∧
  (∀ (s : State), s.Reaches Reg.FH_FAIL_LOST →
    exec .fhFailLostRead s = .next ((s.answer (s.rd Reg.FH_FAIL_LOST)).wr Reg.FH_FAIL_LOST 0)) ∧
  (∀ (s : State), s.Reaches Reg.FH_BUF_STAT →
    exec .fhBufPeakRead s = .next ((s.answer (s.rd Reg.FH_BUF_STAT)).pf Reg.FH_BUF_STAT 31 16 0)) ∧
  (∀ (s u : State) (p : Pkt), s.Admits 0x200 p → u = s.takeCmd 0x200 p → p.is 1 = true → p.arg 0 < 3 →
    exec (.fhPortMode p) s = .next (State.reply (u.setPortMode (p.arg 0)) p stOK [])) ∧
  (∀ (s u : State) (p : Pkt), let n := fld (wordAt p.params 0) 2 0
    let first := fld (wordAt p.params 0) 11 8
    let count := fld (wordAt p.params 0) 19 16
    let ok := p.flags == 0 && decide (p.params.length = 2 + count ∧ count ≤ 12 ∧ first + count ≤ 16) && s.portPresent n
    s.Admits 0x201 p → u = s.takeCmd 0x201 p → ok = true →
    exec (.fhPortCfg p) s = .next (
    let u1 := u.poke (Reg.FH_PORT_CFG n) (wordAt p.params 1)
    State.reply (u1.forEach (List.range count) fun v k => v.poke (Reg.FH_HDR_TPL n (first + k)) (wordAt p.params (2 + k))) p stOK [])) ∧
  (∀ (s u : State) (p : Pkt), let ok := p.is 3 && decide (p.arg 0 < 256 ∧ fld (wordAt p.params 2) 31 30 ≠ 3 ∧ ¬(fld (wordAt p.params 2) 31 30 = 1 ∧ 7 < fld (wordAt p.params 2) 29 25))
    s.Admits 0x202 p → u = s.takeCmd 0x202 p → ok = true →
    exec (.fhEaxcSet p) s = .next (
    State.reply ((u.stage (Reg.FH_EAXC_KEY (p.arg 0)) (wordAt p.params 1)).stage (Reg.FH_EAXC_ENT (p.arg 0)) (wordAt p.params 2)) p stOK [])) ∧
  (∀ (s u : State) (p : Pkt), let ok := p.is 5 && decide ((p.arg 0) < 4) && (p.params.drop 1).all (fun w => decide (w.toNat ≤ 0xFFFFF))
    s.Admits 0x203 p → u = s.takeCmd 0x203 p → ok = true →
    exec (.fhWindowSet p) s = .next (
    State.reply ((((u.stage (Reg.FH_WIN_CLOSE (p.arg 0)) (wordAt p.params 1)).stage (Reg.FH_WIN_DEPTH (p.arg 0)) (wordAt p.params 2)).stage (Reg.FH_WIN_CPLEAD (p.arg 0))
      (wordAt p.params 3)).stage (Reg.FH_WIN_ULCP (p.arg 0)) (wordAt p.params 4)) p stOK [])) ∧
  (∀ (s u : State) (p : Pkt), s.Admits 0x204 p → u = s.takeCmd 0x204 p → p.flags < 2 → p.params.length = 2 → (p.arg 0) < 16 →
    exec (.fhClassSet p) s = .next (
    State.reply (u.stage (if p.flags = 0 then Reg.FH_VID (p.arg 0) else Reg.FH_CC_MAP (p.arg 0)) (wordAt p.params 1)) p stOK [])) ∧
  (∀ (s u : State) (p : Pkt), s.Admits 0x205 p → u = s.takeCmd 0x205 p → p.is 0 = true →
    exec (.fhWinQuery p) s = .next (
    let cars := (List.range 4).map u.carStaged
    let ls := u.stagedLayers
    let depth := (List.range 4).map (fun c => u.srf (Reg.FH_WIN_DEPTH c) 19 0)
    State.reply u p stOK [toW (winMax cars ls), toW (needOf cars ls depth / 1000000)])) ∧
  (∀ (s u : State) (p : Pkt), s.Admits 0x206 p → u = s.takeCmd 0x206 p → p.is 2 = true → p.arg 0 < 2 → 16 ≤ p.arg 1 → p.arg 1 < 32 →
    exec (.fhFailCfg p) s = .next (
    State.reply (u.wr Reg.FH_FAIL_CFG (toW (p.arg 0 * 2 ^ 31 + (p.arg 1 - 16)))) p stOK [toW (u.rf Reg.FH_FAIL_SEQ 15 0)])) ∧
  (∀ (s u : State) (p : Pkt), s.Admits 0x207 p → u = s.takeCmd 0x207 p → p.is 3 = true → p.arg 0 < 2 → p.arg 1 < 2 ^ 16 →
    exec (.fhWakeCfg p) s = .next (
    State.reply ((u.wr Reg.FH_WAKE_CFG (toW (p.arg 0 * 2 ^ 31 + p.arg 1))).wr Reg.FH_WAKE_KEY (wordAt p.params 2)) p stOK []))

/-- An observation slot starts the host capture that waits for its row when its ring is ready and no calibration is in the way. A linearisation capture that is
discarded is counted as such; one that counts updates the loop's delay, state and NMSE, is judged, and collected in TRACK. An update that is ready makes
coefficients pending, or is dropped where they leave their range or raise the peak; a hold that ends restarts the loop with one more halving. A cancellation
capture is counted, kept out where its delay is beyond reach, and makes the next set; the taps are updated by the set; a hold that ends tracks again. -/
def Obligations.ObservationComplete : Prop :=
  (∀ (s : State) (r : Nat) (h : HostCap), r < s.part.rows → s.tileRuns (r / 6) = true → s.quiet (r / 6) = false → s.rowAvail r = true →
    (s.orxOf r).cap = none → bit (s.rd (Reg.ORX_CFG r)) 31 = true → (s.orxOf r).host = some h → s.hostReady h = true →
    s.calClash r s.tick (s.tick + 320 + 2 ^ h.log2 / 2) = false →
    exec (.orxCaptureStart r) s = .next (s.startHost r h)) ∧
  (∀ (s : State) (r : Nat) (o : List (Int × Int)) (delay : Nat) c, (s.orxOf r).cap = some c → c.kind = 0 → let p := c.path
    let clip := (List.range c.len).any (fun i => nearFull (orxSig o (i : Int)))
    let s1 := s.captureOver r c clip
    let xs := (p :: neighbours p).map (fun q => c.record (if q = p then s1.xAt q else s1.sourceAt (s1.prOf p).zeroed q))
    let x := xs.headD []
    let d := c.discard || clip || quietRms x || x.any Cx.bad || !s1.txUp p || decide (c.start < (s1.txOf p).broken)
    let st := s1.prState p
    exec (.pressCaptureDone r o delay) s = .next (
      if d then s1.countDiscard c
      else if st = 2 ∧ s1.rb (Reg.PR_LOOP p) 31 ∧ (128 < delay - s1.rf (Reg.PR_LOOP p) 17 0 ∨ 128 < s1.rf (Reg.PR_LOOP p) 17 0 - delay) then
        (s1.countDiscard c).restartPress p
      else if st ≠ 1 ∧ st ≠ 2 then s1
      else
        let s2 := (s1.bump (Cnt.prPath p 5)).wr (Reg.PR_LOOP p) (toW (2 ^ 31 + delay % 2 ^ 18))
        let l := alignedPairs c.len delay (orxSig o) x
        let ratio := meanRatio l
        let g := s2.rdPair (Reg.PR_GREF_LO p) (Reg.PR_GREF_HI p) % 2 ^ 48
        let s3 := if st = 1 then
            (s2.setPr p { s2.prOf p with gref := if g = 0 then ratio else (sext (g / 2 ^ 24) 24, sext g 24) }).setPrState p 2
          else s2
        let s3a := s3.setPr p { s3.prOf p with resp := some ratio }
        let nmse := nmseOf (s3a.prOf p).gref l
        let s4 := (s3a.pf (Reg.PR_STAT p) 15 0 (wrapN nmse 16)).pressJudge p nmse
        let s5 := if st = 2 then s4.pressCollect p xs l else s4
        s5.calDrift p)) ∧
  (∀ (s : State) (p : Nat), let x := s.prOf p
    x.ready = true → s.prState p = 2 → s.pathAvail p = true → let s1 := s.setPr p { x with ready := false, fit := {} }
    let cs := s.newCoefs p
    let ws := (cs.map (fun c => [pairLo c.1 c.2, pairHi c.1])).flatten
    let pk := pressPeaks x.cfg ws x.cap
    exec (.pressUpdateReady p) s = .next (
      if cs.any (fun c => !in24 c.1 || !in24 c.2) ∨ peakOver pk.1 pk.2 (min 12 (s.rf (Reg.PR_LIMIT p) 27 24)) then
        s1.bump (Cnt.prPath p 1)
      else s1.pendCoefs p ws)) ∧
  (∀ (s u : State) (p t : Nat), (s.prOf p).holdEnd = some t → s.prState p = 3 → u = s.advanceTo t →
    exec (.pressHoldExpiry p) s = .next ((u.setPr p { u.prOf p with halvings := (u.prOf p).halvings + 1 }).restartPress p)) ∧
  (∀ (s : State) (r : Nat) (o : List (Int × Int)) (adc : List Int) (delay : Nat) c0, (s.orxOf r).cap = some c0 → c0.kind = 1 → let v := c0.path
    let s0 := (s.advanceTo (c0.closesAt + 8)).feed v adc
    let c := ((s0.orxOf r).cap).getD c0
    let codes := (List.range (5 * c.len / 2)).map (fun i => (s0.adcAt v (5 * (c.start : Int) + (i : Int))).1)
    let clip := (List.range c.len).any (fun i => nearFull (orxSig o (i : Int)))
    let s1 := s0.captureOver r c clip
    let x := c.record (s1.xAt c.obs)
    let d := c.discard || clip || codes.any codeNearFull || quietRms x || x.any Cx.bad || !s1.txUp c.obs ||
      decide (c.start < (s1.txOf c.obs).broken) || !(s1.txOf v).rxen || decide (c.start < (s1.txOf v).rxFall) ||
      s1.rb (Reg.RX_STATUS v) 7 || decide (c.start < (s1.adcOf v).ovlTick)
    let st := s1.canState v
    exec (.sbfdCaptureDone r o adc delay) s = .next (
      if d then s1.countDiscard c
      else if (st ≠ 1 ∧ st ≠ 2) ∨ !s1.pathAvail v then s1
      else
        let pre := c.record (fun n => (s1.resampleAt v n).1)
        let post := c.record (fun n => (s1.subtractAt v n).1)
        let canc := if s1.powerOutside post = 0 then 0x7FFF else satN (logRound 40 (s1.powerOutside pre) (s1.powerOutside post)) 16
        let s2 := (s1.bump (Cnt.canPath v 3)).pf (Reg.CAN_STAT v) 15 0 (wrapN canc 16)
        let far := st = 1 ∧ s2.rb (Reg.CAN_CFG v) 19 ∧ 511 * 64 < delay
        let s3 := if st = 1 ∧ s2.rb (Reg.CAN_CFG v) 19 then s2.wr (Reg.CAN_DLY v) (toW (2 ^ 31 + delay % 2 ^ 15)) else s2
        let fits := (s1.sourceNmse c o).any (fun (n : Int) => decide ((s3.rf (Reg.PR_LIMIT v) 23 16 : Int) ≤ n))
        if far then s3.pb (Reg.CAN_STAT v) 25 true
        else
          let a := s3.rd (Reg.CAN_ADAPT v)
          let y := s3.canOf v
          let s4 := if !fits ∨ y.adapted.isSome ∨ y.ready then s3
            else
              let fit := addFit (if y.caps = 0 then {} else y.fit) (s3.canFit v c pre)
              if adaptNcap a ≤ y.caps + 1 ∧ (y.lastSet = 0 ∨ y.lastSet + adaptPeriod a ≤ s3.tick) then
                s3.setCan v { y with caps := 0, ready := true, lastSet := s3.tick, fit := fit }
              else s3.setCan v { y with caps := y.caps + 1, fit := fit }
          if st = 2 then s4.canJudge v canc else s4)) ∧
  (∀ (s : State) (p : Nat), let x := s.canOf p
    x.ready = true → (s.canState p = 1 ∨ s.canState p = 2) → s.pathAvail p = true → let mu := adaptMu (s.rd (Reg.CAN_ADAPT p)) 0
    let h := x.fit.solution (fld (s.rd (Reg.CAN_ADAPT p)) 19 16)
    let ts := (List.range 128).map fun n =>
      let c := slotCx x.taps n
      match h[n]? with
      | some d =>
        let one := fun (v : Int) => divRound (v * 2 ^ 22) (max 1 d.2 * 2 ^ fld x.cfg 18 16)
        let i' := satN (c.i + divRound ((mu : Int) * (one d.1.i - c.i)) 256) 24
        let q' := satN (c.q + divRound ((mu : Int) * (one d.1.q - c.q)) 256) 24
        [pairLo i' q', pairHi i']
      | none => [wordAt x.taps (2 * n), wordAt x.taps (2 * n + 1)]
    exec (.canUpdateReady p) s = .next ((s.setCan p { x with ready := false, fit := {} }).pendTaps p ts.flatten)) ∧
  (∀ (s : State) (p : Nat) t, (s.canOf p).holdEnd = some t → s.canState p = 3 →
    exec (.canHoldExpiry p) s = .next (((s.advanceTo t).setCan p { s.canOf p with holdEnd := none }).setCanState p 2))

/-- On paths whose tile is on, PR_SET, PR_COEF_SET, PR_LIMITS and CAN_SET stage or write their registers, PR_ADAPT and CAN_FIT carry out their action, PR_STATUS and CAN_STATUS
reply with two words, PR_SAVE orders the sets of the paths that have one, PR_RESTORE stages what was stored and tells which; SBFD_BAND stages a band that
fits its carrier; ORX_SET writes the rows' configuration and ORX_CAPTURE notes a host capture, at once or at a time. -/
def Obligations.PressCommandsComplete : Prop :=
  (∀ (s u : State) (p : Pkt), s.Admits 0x600 p → u = s.takeCmd 0x600 p → p.is 2 = true → p.arg 0 < s.part.paths → [p.arg 0].all u.pathOn = true →
    exec (.prSet p) s = .next (
     State.reply (u.stage (Reg.PR_CFG (p.arg 0)) (wordAt p.params 1)) p stOK [])) ∧
  (∀ (s u : State) (p : Pkt), let path := fld (wordAt p.params 0) 22 16
    let first := fld (wordAt p.params 0) 5 0
    s.Admits 0x601 p → u = s.takeCmd 0x601 p → p.flags = 0 → 1 ≤ (p.arg 1) → (p.arg 1) ≤ 6 → p.params.length = 2 + 2 * (p.arg 1) → first + (p.arg 1) ≤ 64 → path < s.part.paths → [path].all u.pathOn = true →
    exec (.prCoefSet p) s = .next (
  State.reply (u.forEach (List.range (p.arg 1)) fun v i =>
      (v.stage (Reg.PR_COEF_LO path (first + i)) (wordAt p.params (2 + 2 * i))).stage (Reg.PR_COEF_HI path (first + i))
        (wordAt p.params (3 + 2 * i))) p stOK [])) ∧
  (∀ (s u : State) (p : Pkt), s.Admits 0x602 p → u = s.takeCmd 0x602 p → p.is 4 = true → s.maskOk p = true → p.arg 3 < 4 → (maskPaths p).all u.pathOn = true →
    exec (.prAdapt p) s = .next (
    if u.anyFaulted (maskPaths p) then State.reply u p stITEM []
    else  State.reply (u.forEach (maskPaths p) fun v q => v.prAction (p.arg 3) q) p stOK [])) ∧
  (∀ (s u : State) (p : Pkt), s.Admits 0x603 p → u = s.takeCmd 0x603 p → p.is 3 = true → s.pathArgOk (p.arg 0) = true → (u.pathArgs (p.arg 0)).all u.pathOn = true →
    exec (.prLimits p) s = .next (
     State.reply (u.forEach (u.pathArgs (p.arg 0)) fun v q =>
      (v.writePrAdapt q (wordAt p.params 1)).poke (Reg.PR_LIMIT q) (wordAt p.params 2)) p stOK [])) ∧
  (∀ (s u : State) (p : Pkt), s.Admits 0x604 p → u = s.takeCmd 0x604 p → p.is 1 = true → p.arg 0 < s.part.paths →
    exec (.prStatus p) s = .next (
    let w := fun a => if u.pathOn (p.arg 0) then u.peek a else 0
    State.reply u p stOK [w (Reg.PR_STAT (p.arg 0)), w (Reg.PR_LOOP (p.arg 0))])) ∧
  (∀ (s u : State) (p : Pkt), s.Admits 0x605 p → s.Room p → u = s.takeCmd 0x605 p → p.is 3 = true → s.maskOk p = true →
    exec (.prSave p) s = .next (
    let ref := p.ref 0x605 0
    let ps := (maskPaths p).filter (fun q => u.pathOn q && (u.prState q == 2 || u.prState q == 4))
    if ps.any (fun q => u.celWriting 0x11 q) then State.reply u p stBUSY []
    else if ps = [] then State.reply u p stPARTIAL (maskWords [])
    else match u.celRefuse 0x11 ps (ps.length * setBytes 384) with
      | some st => State.reply (u.celFull st) p st []
      | none =>
        let st := if ps.length = (maskPaths p).length then stOK else stPARTIAL
        let u1 := u.forEach ps fun v q =>
          v.orderSet 0x11 q ((v.prOf q).coefs ++ (List.range 256).map (wordAt (v.canOf q).taps)) (some ref)
        State.accept ({ u1 with host := { u1.host with plans := u1.host.plans ++ [(ref, st, maskWords ps)] } } : State) 0x605 p 0 [])) ∧
  (∀ (s u : State) (p : Pkt), s.Admits 0x606 p → u = s.takeCmd 0x606 p → p.is 3 = true → s.maskOk p = true → (maskPaths p).all u.pathOn = true →
    exec (.prRestore p) s = .next (
      let ps := (maskPaths p).filter (fun q => (u.celSet 0x11 q).isSome)
      let u1 := u.forEach ps fun v q =>
        let ws := ((v.celSet 0x11 q).getD []).take 128
        v.forEach (List.range 128) fun x i => x.stage (Reg.PR_COEF_LO q 0 + 4 * i) (wordAt ws i)
      State.reply u1 p (if ps.length = (maskPaths p).length then stOK else stPARTIAL) (maskWords ps))) ∧
  (∀ (s u : State) (p : Pkt), s.Admits 0x607 p → u = s.takeCmd 0x607 p → p.is 3 = true → p.arg 0 < s.part.paths → [p.arg 0].all u.pathOn = true →
    exec (.canSet p) s = .next (
      State.reply ((u.stage (Reg.CAN_CFG (p.arg 0)) (wordAt p.params 1)).writeCanAdapt (p.arg 0) (wordAt p.params 2)) p stOK [])) ∧
  (∀ (s u : State) (p : Pkt), s.Admits 0x608 p → u = s.takeCmd 0x608 p → p.is 4 = true → s.maskOk p = true → p.arg 3 < 4 → (maskPaths p).all u.pathOn = true →
    exec (.canFit p) s = .next (
    if u.anyFaulted (maskPaths p) then State.reply u p stITEM []
    else  State.reply (u.forEach (maskPaths p) fun v q => v.canAction (p.arg 3) q) p stOK [])) ∧
  (∀ (s u : State) (p : Pkt), s.Admits 0x609 p → u = s.takeCmd 0x609 p → p.is 1 = true → p.arg 0 < s.part.paths →
    exec (.canStatus p) s = .next (
    let w := fun a => if u.pathOn (p.arg 0) then u.peek a else 0
    State.reply u p stOK [w (Reg.CAN_STAT (p.arg 0)), w (Reg.CAN_DLY (p.arg 0))])) ∧
  (∀ (s u : State) (p : Pkt), s.Admits 0x60A p → u = s.takeCmd 0x60A p → p.is 3 = true → p.arg 0 < 4 → bandFits (wordAt p.params 1) (s.srd (Reg.CAR_CFG (p.arg 0))) = true →
    exec (.sbfdBand p) s = .next (
    State.reply ((u.stage (Reg.SBFD_BAND (p.arg 0)) (wordAt p.params 1)).stage (Reg.SBFD_GUARD (p.arg 0)) (wordAt p.params 2)) p stOK [])) ∧
  (∀ (s u : State) (p : Pkt), s.Admits 0x60C p → u = s.takeCmd 0x60C p → p.is 2 = true → s.rowArgOk (p.arg 0) = true → (u.rowArgs (p.arg 0)).all u.rowOn = true →
    exec (.orxSet p) s = .next (
     State.reply (u.forEach (u.rowArgs (p.arg 0)) fun v r => v.poke (Reg.ORX_CFG r) (wordAt p.params 1)) p stOK [])) ∧
  (∀ (s u : State) (p : Pkt), let now := p.arg 2 == 0 && p.arg 3 == 0 && p.arg 4 == 0
    s.Admits 0x60D p → s.Room p → u = s.takeCmd 0x60D p → p.is 7 = true → (p.arg 0) < s.part.rows → p.arg 1 < 4 → 10 ≤ p.arg 5 → p.arg 5 ≤ 14 → 16 ≤ p.arg 6 → p.arg 6 < 32 → (now || s.ptpOk p.params 2) = true → s.ringFunc (p.arg 6) = some 9 →
    exec (.orxCapture p) s = .next (
    if !u.rowAvail (p.arg 0) ∨ !u.rowOn (p.arg 0) then State.reply u p stITEM []
    else if u.refsOf 0x60D (p.arg 0) ≠ [] then State.reply u p stBUSY []
    else
      let ref := p.ref 0x60D (p.arg 0)
      let h : HostCap := { ref := ref, pos := p.arg 1, log2 := p.arg 5, ring := p.arg 6, time := none }
      if now then State.accept (u.setOrx (p.arg 0) { u.orxOf (p.arg 0) with host := some h }) 0x60D p (p.arg 0) []
      else match u.freeCmp with
        | none => State.reply u p stRESOURCE []
        | some n =>
          let t := shortOf (ptpParam p.params 2)
          State.accept ((u.setOrx (p.arg 0) { u.orxOf (p.arg 0) with host := some { h with time := some t } }).schedule n 31 t 0 (some ref)) 0x60D p (p.arg 0) []))

/-- A foreground calibration that is done takes its sets, brings the converter up and ends its command. A spare's estimate is kept and judged; a converged spare takes over
a position where the hand-over is quiet or forced, one that does not converge in time is marked, a failed slice is replaced by the spare or
faults its unit, and a retest that is done returns the slice or fails. -/
def Obligations.ConvertersComplete : Prop :=
  (∀ (s : State) (a : Nat) (sets : List (List Int)) ref w_, let x := s.adcOf a
    x.foreground = some (w_, ref) → s.adcPresent a = true → let st := (List.range (min 20 sets.length)).foldl (fun m k => Sparse.set (fun _ => []) m k (sets.getD k [])) x.sets
    let s1 := s.setAdc a { x with foreground := none, sets := st }
    let s2 := ((s1.beginShadow a (s1.adcShadow a)).adcRun a).bump (adcCnt a 6)
    let s3 := (if a < 96 then (s2.pb (Reg.RX_STATUS a) 4 true).rxUpdate a else s2).calReloaded (adcTile a)
    exec (.adcFgCalDone a sets) s = .next (
      match ref with
      | some r => s3.finish r stOK [s3.rd (adcStat a)]
      | none => s3)) ∧
  (∀ (s : State) (a : Nat) (est : List Int), let x := s.adcOf a
    let slice := match x.retest with | some (k, _) => k | none => s.adcSpare a
    s.adcPresent a = true → slice ≠ 7 → (s.adcState a = 1 ∨ s.adcState a = 5) → let s1 := s.advanceTo (x.shadow + (x.estimates + 1) * 1600000)
    let conv := if x.converged.isSome then x.converged else if estimatesAgree x.last est then some s1.tick else none
    exec (.spareEstimate a est) s = .next (
      s1.setAdc a { x with
        estimates := x.estimates + 1, last := est, converged := conv
        sets := Sparse.set (fun _ => []) x.sets (4 * slice + s.adcShadow a) est })) ∧
  (∀ (s : State) (a : Nat) tc, let x := s.adcOf a
    x.converged = some tc → let cfg := s.rd (adcCfg a)
    let s1 := s.advanceTo (x.shadow + s.calTicks a)
    let quiet := !bit cfg 30 || x.handNow || s1.adcQuiet a
    let forced := !quiet && decide (tc + max 1 (fld cfg 23 16) * 1600000 ≤ s1.tick)
    let ovl := decide (a < 96) && (s1.rb (Reg.RX_STATUS a) 7 || (s1.txOf a).setTick == s1.tick || (s1.rxOf a).setTick == s1.tick)
    s.adcPresent a = true → s.adcState a = 1 → ovl = false → (quiet || forced) = true → s.adcAvail a = true → s.adcSpare a ≠ 7 → let j := s1.adcShadow a
    let old := s1.adcPos a j
    let s2 := (s1.pf (adcStat a) (3 * j + 2) (3 * j) (s1.adcSpare a)).pf (adcStat a) 23 21 old
    let s3 := (s2.beginShadow a ((j + 1) % 4)).bump (adcCnt a 0)
    let s4 := if forced then (s3.bump (adcCnt a 1)).pb (adcEvt a) 0 true else s3
    exec (.sliceHandover a) s = .next (s4.adcTouch a)) ∧
  (∀ (s : State) (a : Nat), let x := s.adcOf a
    let sp := s.adcSpare a
    let held := decide (a < 96) && s.rb (Reg.RX_STATUS a) 7 && decide (x.ovlTick ≤ x.timeoutFrom)
    s.adcPresent a = true → s.adcState a = 1 → sp ≠ 7 → x.converged.isSome = false → held = false → let s1 := s.advanceTo (x.timeoutFrom + 4 * s.calTicks a)
    exec (.spareTimeout a) s = .next ((((s1.bump (adcCnt a 3)).markSlice a sp).pf (adcStat a) 23 21 7).adcRun a)) ∧
  (∀ (s : State) (a slice check : Nat), s.adcPresent a = true → slice < 5 → bitN (s.adcFailed a) slice = false → s.adcState a ≠ 0 → let s1 := s.markSlice a slice
    let unit := if a < 96 then a else a - 96
    exec (.sliceFailure a slice check) s = .next (
      match (List.range 4).find? (fun j => s.adcPos a j == slice) with
      | none => (s1.pf (adcStat a) 23 21 7).adcRun a
      | some j =>
        if s.adcSpare a ≠ 7 then
          let s2 := (s1.pf (adcStat a) (3 * j + 2) (3 * j) (s.adcSpare a)).pf (adcStat a) 23 21 7
          let s3 := { s2 with air := { s2.air with bad := s2.air.bad ++ [(a, j, s2.tick - sliceWindow check, s2.tick)] } }
          ((s3.adcRun a).adcTouch a).spared 0 unit (adcTile a)
        else
          let s2 := (s1.adcRun a).pb (adcEvt a) 2 true
          if a < 96 then s2.declareFault 0 a 0x04 0 (a / 24) else s2.declareFault 1 (a - 96) 0x06 0 (adcTile a))) ∧
  (∀ (s : State) (a : Nat) k ref, let x := s.adcOf a
    x.retest = some (k, ref) → let s0 := if x.converged.isSome then s else s.advanceTo (x.shadow + 4 * s.calTicks a)
    let s1 := s0.setAdc a { x with retest := none }
    exec (.sliceRetestDone a) s = .next (
      if x.converged.isSome then
        let s2 := s1.pf (adcStat a) 28 24 (clrBitN (s1.adcFailed a) k)
        let s3 := match (List.range 4).find? (fun j => bitN (s2.adcFailed a) (s2.adcPos a j)) with
          | some j => s2.pf (adcStat a) (3 * j + 2) (3 * j) k
          | none => if (List.range 4).any (fun j => s2.adcPos a j == k) then s2 else s2.pf (adcStat a) 23 21 k
        let s4 := ((s3.beginShadow a (s3.adcShadow a)).adcRun a).bump (adcCnt a 4)
        s4.finish ref stOK [s4.rd (adcStat a)]
      else
        let s2 := (s1.adcRun a).bump (adcCnt a 5)
        s2.finish ref stITEM [s2.rd (adcStat a)])) ∧
  (∀ (s u : State) (p : Pkt), let a := adcTarget (p.arg 0)
    s.Admits 0x526 p → s.Room p → u = s.takeCmd 0x526 p → p.is (if (p.arg 1) = 4 then 3 else 2) = true → s.adcTargetOk (p.arg 0) = true → (p.arg 1) ≤ 4 → ((p.arg 1) != 4 || (decide (p.arg 2 < 5) && bitN (s.adcFailed a) (p.arg 2))) = true →
    exec (.adcCal p) s = .next (
    let ref := p.ref 0x526 a
    if !u.adcPresent a then State.reply u p stITEM []
    else if (p.arg 1) = 0 then State.reply (u.writeAdcCfg a (putFld (u.rd (adcCfg a)) 31 31 0)) p stOK []
    else if (p.arg 1) = 1 then State.reply (u.writeAdcCfg a (putFld (u.rd (adcCfg a)) 31 31 1)) p stOK []
    else if (p.arg 1) = 2 then State.reply (u.setAdc a { u.adcOf a with handNow := true }) p stOK []
    else if (p.arg 1) = 3 then
      let busy := if a < 96 then u.rb (Reg.RX_STATUS a) 3 || !u.pathAvail a
        else u.rf (Reg.ORX_STAT (a - 96)) 29 28 != 0 || !u.rowAvail (a - 96)
      if busy then State.reply u p stITEM []
      else if (u.adcOf a).foreground.isSome then State.reply u p stBUSY []
      else
        let u1 := (u.setAdc a { u.adcOf a with foreground := some (u.tick, some ref) }).pf (adcStat a) 31 29 0
        let u2 := if a < 96 then (u1.pb (Reg.RX_STATUS a) 4 false).rxUpdate a else u1
        State.accept u2 0x526 p a []
    else if (u.adcOf a).retest.isSome ∨ (u.adcOf a).foreground.isSome then State.reply u p stBUSY []
    else
      let u1 := u.setAdc a { u.adcOf a with retest := some (p.arg 2, ref), shadow := u.tick, estimates := 0, last := [], converged := none }
      State.accept (u1.pf (adcStat a) 31 29 5) 0x526 p a []))

/-- An overload of a running path is flagged, counted and recorded where its configuration asks, and ends when the samples are back in range. A detector window that ends gives the
peak and level of its samples. A gain decision measures the power, chooses the attenuation by its mode and table, and queues the frame that carries a change; the queued frame
of the lowest path goes out when the bus is free; the compensation is applied with it. RX_FAST returns its value and clears it. -/
def Obligations.ReceiveEventsComplete : Prop :=
  (∀ (s : State) (p : Nat) (adc : List Int),
    exec (.overloadEnter p adc) s = .next (s.feed p adc)) ∧
  (∀ (s : State) (p : Nat) (adc : List Int), let s1 := s.feed p adc
    exec (.overloadExit p adc) s = .next (if s1.rb (Reg.RX_STATUS p) 7 ∧ (s1.feedOf p).lastClip + 1600 ≤ s1.tick then s1.leaveOverload p else s1)) ∧
  (∀ (s : State) (p : Nat) (adc : List Int), p < s.part.paths → s.pathOn p = true → let s1 := (s.advanceTo ((s.agcOf p).window + max 1 (s.rf (Reg.RX_DET_CFG p) 31 16) * 1600)).feed p adc
    let f := s1.feedOf p
    let s2 := (s1.setAgc p { s1.agcOf p with window := s1.tick }).when (decide (0 < f.n)) (fun u => u.setFeed p { f with peak := 0, sq := 0, n := 0 })
    let db := fun (sum n : Nat) => if sum = 0 then 0xFFFF else clampN (logRound 40 (n * 2 ^ 46) sum).toNat 0 0xFFFF
    exec (.detectorWindowEnd p adc) s = .next (
      if f.n = 0 then s2.wr (Reg.RX_DET_RES p) 0xFFFFFFFF
      else s2.wr (Reg.RX_DET_RES p) (toW (db f.sq f.n * 2 ^ 16 + db f.peak 1)))) ∧
  (∀ (s : State) (p : Nat) (adc : List Int), p < s.part.paths → s.pathOn p = true →
    exec (.agcDecision p adc) s = .next (
      let (d, f) := s.agcNext p
      let s0 := (s.advanceTo (d + 8)).feed p adc
      let sum := (s0.feedOf p).pwr
      let n := (s0.feedOf p).pwrN
      let s1 := s0.when (decide (0 < n)) (fun u => u.setFeed p { u.feedOf p with pwr := 0, pwrN := 0 })
      let s2 := (s1.wrPair (Reg.RX_PWR_LO p) (Reg.RX_PWR_HI p) (sum / 2 ^ 16)).wr (Reg.RX_PWR_N p) (toW n)
      let cfg := s2.rd (Reg.RX_AGC_CFG p)
      let m := if fld cfg 31 30 = 3 then 0 else fld cfg 31 30
      let pw := if n = 0 ∨ sum = 0 then 255 else (clampN (logRound 40 (n * 2 ^ 46) sum).toNat 0 255)
      let frozen := !s2.pathAvail p || s2.rb (Reg.ROW_TX_STAT (p / 4)) 16
      let g := s2.agcOf p
      let s3 := s2.setAgc p { g with mode := m, overload := s2.rb (Reg.RX_STATUS p) 7, start := s2.tick }
      let st := (s3.pf (Reg.RX_AGC_STAT p) 7 0 pw).pf (Reg.RX_AGC_STAT p) 31 30 (if frozen then 3 else m)
      let man := min (fld cfg 4 0) (s2.attMax p)
      let b := f + ticksNs (min 10000 (s.rf (Reg.FE_TIME (p / 4)) 15 0))
      let manual := fun (u : State) => u.setAgc p { u.agcOf p with comp := (u.agcOf p).comp ++ [(b, man)] }
      if frozen then st
      else if m = 0 then (manual st).pf (Reg.RX_AGC_STAT p) 12 8 man
      else
        let cur := s2.rf (Reg.RX_AGC_STAT p) 12 8
        let att := s2.agcDecide p cur sum n
        let s4 := (st.pf (Reg.RX_AGC_STAT p) 12 8 att).bumpBy (Cnt.rxAgc p 4) (b2n (n == 0))
        if m = 2 then manual s4
        else if att = cur then s4
        else
          let e : FeEntry := {
            frame := s4.agcFrame p att, trig := 0, read := false, verify := false, trigTick := some f, agc := some (p, att) }
          let x := s4.rowOf (p / 4)
          (s4.bump (Cnt.rxAgc p (if cur < att then 0 else 1))).setRow (p / 4) { x with agcWait := x.agcWait ++ [(p, e)] })) ∧
  (∀ (s : State) (r : Nat) (w : Nat × FeEntry), (s.rowOf r).active = none → s.rowHolds r = false → (s.rowOf r).agcWait = [w] →
    ∃ u : State, u = (s.setRow r { s.rowOf r with agcWait := [] }).startFrame r w.2 (w.2.trigTick.getD s.tick) ∧
    exec (.agcFrameSend r) s = .next ((u.bump (Cnt.rxAgc w.1 2)).bumpBy (Cnt.rxAgc w.1 3)
      (b2n (decide (w.2.trigTick.getD s.tick + 1600 < u.tick))))) ∧
  (∀ (s : State) (p : Nat) t att rest, let g := s.agcOf p
    g.comp = (t, att) :: rest →
    exec (.agcCompApply p) s = .next (((s.advanceTo t).setAgc p { g with comp := rest }).pf (Reg.RX_AGC_STAT p) 20 16 att)) ∧
  (∀ (s : State) (p : Nat), s.Reaches (Reg.RX_FAST p) →
    exec (.rxFastRead p) s = .next ((s.answer (s.rd (Reg.RX_FAST p))).wr (Reg.RX_FAST p) 0xFF00))

/-- On paths whose tile is on, RX_SET and RX_NCO stage their words, RX_ENABLE, RX_AGC_SET, RX_AGC_TAB and RX_DETECT write theirs, and RX_STATUS replies with three
words of a path, which read 0 where its tile is off. -/
def Obligations.ReceiveCommandsComplete : Prop :=
  (∀ (s u : State) (p : Pkt), s.Admits 0x520 p → u = s.takeCmd 0x520 p → p.is 4 = true → p.arg 0 < s.part.paths → [p.arg 0].all u.pathOn = true →
    exec (.rxSet p) s = .next (
     State.reply (((u.stage (Reg.RX_GAIN (p.arg 0)) (wordAt p.params 1)).stage (Reg.RX_DELAY (p.arg 0))
      (wordAt p.params 2)).stage (Reg.RX_SHIFT (p.arg 0)) (wordAt p.params 3)) p stOK [])) ∧
  (∀ (s u : State) (p : Pkt), s.Admits 0x521 p → u = s.takeCmd 0x521 p → p.is 4 = true → s.pathArgOk (p.arg 0) = true → p.arg 1 + p.arg 2 * 2 ^ 32 ≤ 0xE00000000000 → (u.pathArgs (p.arg 0)).all u.pathOn = true →
    exec (.rxNco p) s = .next (
     State.reply (u.forEach (u.pathArgs (p.arg 0)) fun v q =>
      ((v.stage (Reg.RX_NCO_LO q) (wordAt p.params 1)).stage (Reg.RX_NCO_HI q) (wordAt p.params 2)).stage (Reg.RX_NCO_PH q)
        (wordAt p.params 3)) p stOK [])) ∧
  (∀ (s u : State) (p : Pkt), s.Admits 0x522 p → u = s.takeCmd 0x522 p → p.is 5 = true → s.maskOk p = true → p.arg 3 < 2 → p.arg 4 < 2 → (maskPaths p).all u.pathOn = true →
    exec (.rxEnable p) s = .next (
     State.reply (u.forEach (maskPaths p) fun v q =>
      v.poke (Reg.RX_CTRL q) (putFld (putFld (v.rd (Reg.RX_CTRL q)) 1 1 (p.arg 4)) 0 0 (p.arg 3))) p stOK [])) ∧
  (∀ (s u : State) (p : Pkt), s.Admits 0x523 p → u = s.takeCmd 0x523 p → p.is 4 = true → s.pathArgOk (p.arg 0) = true → (u.pathArgs (p.arg 0)).all u.pathOn = true →
    exec (.rxAgcSet p) s = .next (
     State.reply (u.forEach (u.pathArgs (p.arg 0)) fun v q =>
      ((v.poke (Reg.RX_AGC_CFG q) (wordAt p.params 1)).poke (Reg.RX_AGC_FE q) (wordAt p.params 2)).poke (Reg.RX_AGC_FRM q)
        (wordAt p.params 3)) p stOK [])) ∧
  (∀ (s u : State) (p : Pkt), let path := fld (wordAt p.params 0) 22 16
    let first := fld (wordAt p.params 0) 4 0
    s.Admits 0x524 p → u = s.takeCmd 0x524 p → p.flags = 0 → 1 ≤ (p.arg 1) → (p.arg 1) ≤ 12 → p.params.length = 2 + (p.arg 1) → first + (p.arg 1) ≤ 32 → path < s.part.paths → [path].all u.pathOn = true →
    exec (.rxAgcTab p) s = .next (
  State.reply (u.forEach (List.range (p.arg 1)) fun v i =>
      v.poke (Reg.RX_AGC_TAB path (first + i)) (wordAt p.params (2 + i))) p stOK [])) ∧
  (∀ (s u : State) (p : Pkt), s.Admits 0x525 p → u = s.takeCmd 0x525 p → p.is 4 = true → p.arg 0 < s.part.paths → p.arg 2 < 8 → p.arg 3 < 2 → [p.arg 0].all u.pathOn = true →
    exec (.rxDetect p) s = .next (
      State.reply (((u.poke (Reg.RX_DET_CFG (p.arg 0)) (wordAt p.params 1)).pf (Reg.RX_CTRL (p.arg 0)) 6 4 (p.arg 2)).pf (Reg.RX_CTRL (p.arg 0)) 3 3
        (p.arg 3)) p stOK [])) ∧
  (∀ (s u : State) (p : Pkt), s.Admits 0x527 p → u = s.takeCmd 0x527 p → p.is 1 = true → p.arg 0 < s.part.paths →
    exec (.rxStatus p) s = .next (
    let w := fun a => if u.pathOn (p.arg 0) then u.peek a else 0
    State.reply u p stOK [w (Reg.RX_STATUS (p.arg 0)), w (Reg.ADC_STAT (p.arg 0)), w (Reg.RX_AGC_STAT (p.arg 0))]))

/-- A trigger message reaches its tile and marks what its line does there, counting one that is late; a due strobe is carried out; a range-muted path
resumes; a force-mute write acts on its path; a TDD switch makes every running path follow its demands; a blanked path begins to leave its
blanking 3,200 ticks ahead of its demand. A front-end frame enters its row's queue, is released, starts when the bus is free and its trigger has come,
and ends with its checks, its read data or its compensation; FE_RDATA returns the data and clears it. -/
def Obligations.TransmitEventsComplete : Prop :=
  (∀ (s : State) (tile line target : Nat) m, s.tb.msgs.find? (fun m => m.tile == tile && m.line == line && m.target == target) = some m → let s0 := { s with tb := { s.tb with msgs := s.tb.msgs.erase m } }
    let awake := s.tileRuns tile
    let late := decide (target < s.tick)
    let at_ := max target s.tick
    let s1 := if target < s.tick then s0.tileEvent tile 0x0D tile true (toW line) else s0
    let rows := (List.range 6).map (6 * tile + ·)
    exec (.triggerMessage tile line target) s = .next (
      if line = 7 ∧ awake then
        s1.forEach rows fun u r => u.setRow r {
          u.rowOf r with releases := (insertDue (at_, false) ((u.rowOf r).releases.map (fun t => (t, false)))).map Prod.fst }
      else if line = 8 ∧ awake then
        s1.forEach (rows.filter (fun r => s1.rb (Reg.ROW_TX_CFG r) 0)) fun u r => u.setRow r {
          u.rowOf r with strobes := insertDue (at_, late) (u.rowOf r).strobes }
      else if (line = 2 ∨ line = 9 ∨ line = 10 ∨ line = 11) ∧ tile ∉ s1.sv.dead then
        { s1 with tb := { s1.tb with tileDues := s1.tb.tileDues ++ [(line, tile, if line = 10 then target else at_, late)] } }
      else s1)) ∧
  (∀ (s : State) (r : Nat) t late rest, (s.rowOf r).strobes = (t, late) :: rest → s.rowOn r = true → s.commitFirst t = false →
    exec (.loadStrobe r) s = .next (((s.advanceTo t).setRow r { s.rowOf r with strobes := rest }).strobeRow r late)) ∧
  (∀ (s : State) (p : Nat), (s.txOf p).mRange = true → s.pathOn p = true →
    exec (.localResumeStrobe p) s = .next ((s.advanceTo ((s.txOf p).rangeTick + 3200)).resumePath p)) ∧
  (∀ (s : State) (p : Nat) (w : Word), s.Reaches (Reg.TX_CTRL p) →
    exec (.forceMuteWrite p w) s = .next (if p < s.part.paths then s.writeTxCtrl p w else s)) ∧
  (∀ (s : State) (c at_ : Nat), let edge := decide (c < 4) && s.rows.any (fun r => s.txDemandC r c at_ != s.txDemandC r c (at_ - 1) || s.rxDemandC r c at_ != s.rxDemandC r c (at_ - 1))
    let wait := s.paths.any (fun p => (s.txOf p).rxHold == at_)
    ¬ (at_ < s.tick ∧ at_ ≤ Sparse.get (fun _ => 0) s.tb.tddLast c) → (edge || wait) = true → let s0 := { s with tb := { s.tb with tddLast := Sparse.set (fun _ => 0) s.tb.tddLast c at_ } }
    let s1 := (s0.advanceTo at_).bumpBy (Cnt.tddCarrier c 0) (b2n edge)
    let on := s1.tiles.filter s1.tileRuns
    let s2 := if at_ < s.tick then s1.forEach on (fun u t => u.tileEvent t 0x0D t true (toW (3 + c))) else s1
    exec (.tddSwitch c at_) s = .next (s2.forEach (s2.paths.filter (fun p => s2.tileRuns (p / 24))) fun u p => u.followDemands p)) ∧
  (∀ (s : State) (p t : Nat), s.tick ≤ t → s.rb (Reg.TX_STATUS p) 4 = true → (s.txOf p).blankEnd = none → s.txDemand (p / 4) (t + 3200) = true →
    s.txDemand (p / 4) (t + 3199) = false → exec (.blankExitStart p t) s = .next ((s.advanceTo t).blankLeave p)) ∧
  (∀ (s : State) (r : Nat) (w : Word), s.Reaches (Reg.FE_QW1 r) →
    exec (.feQw1Write r w) s = .next (if r < s.part.rows then s.fePush r w (s.rd (Reg.FE_QW0 r)) none else s)) ∧
  (∀ (s : State) (r : Nat) t rest, (s.rowOf r).releases = t :: rest → let s1 := s.advanceTo t
    let x := s1.rowOf r
    exec (.feWriteRelease r) s = .next (
      s1.setRow r { x with
        releases := rest
        queue := x.queue.map (fun e => if e.trig = 1 ∧ e.trigTick = none then { e with trigTick := some t } else e) })) ∧
  (∀ (s : State) (r t : Nat) (e : FeEntry) (rest : List FeEntry), s.rowHolds r = false → (s.rowOf r).queue = e :: rest →
    (s.rowOf r).active = none → (s.rowOf r).agcWait = [] → s.entryTrigger r e = some t → ∃ u : State,
    u = (s.setRow r { s.rowOf r with queue := rest }).startFrame r e t ∧
    exec (.feFrameStart r) s = .next (u.bumpBy (Cnt.txRow r 1) (b2n (decide (t + 1600 < u.tick))))) ∧
  (∀ (s : State) (r : Nat) (rdata : Word) (padOk : Bool) e, let x := s.rowOf r
    x.active = some e → let n := s.frameBits r
    let a := min n (s.rf (Reg.FE_CFG r) 12 8)
    let data := rdata.toNat % 2 ^ (n - a)
    let bad := e.verify && !e.read && data != s.frameData r e.frame
    let s1 := (s.advanceTo (x.actStart + s.frameTicks r e)).bump (Cnt.txRow r 0)
    let vr := if bad then x.verifyRun + 1 else if e.verify ∧ !e.read then 0 else x.verifyRun
    let pr := if padOk then 0 else x.padRun + 1
    let s2 := s1.setRow r { x with active := none, idleFrom := s1.tick + 32, csN := true, verifyRun := vr, padRun := pr }
    let s3 := (s2.bumpBy (Cnt.txRow r 2) (b2n bad)).bumpBy (Cnt.txRow r 3) (b2n !padOk)
    let s4 := if e.read then s3.latchRead r e data else s3
    let s5 := match e.agc with
      | some (p, att) =>
        let g := s4.agcOf p
        let dly := ticksNs (min 10000 (s4.rf (Reg.RX_AGC_FE p) 15 0))
        s4.setAgc p { g with comp := g.comp ++ [(s4.tick + dly, att)] }
      | none => s4
    exec (.feFrameEnd r rdata padOk) s = .next (if (3 ≤ vr ∨ 3 ≤ pr) ∧ !s5.rb (Reg.ROW_TX_STAT r) 16 then s5.failBus r else s5)) ∧
  (∀ (s : State) (r : Nat), s.Reaches (Reg.FE_RDATA r) →
    exec (.feRdataRead r) s = .next (((s.answer (s.rd (Reg.FE_RDATA r))).wr (Reg.FE_RDATA r) 0).setRow r { s.rowOf r with rdValid := false }))

/-- On paths and rows whose tile is on, TX_SET, TX_NCO, TX_DAC and TDD_TIMING stage their words, TX_ENABLE and TX_MUTE write TX_CTRL, FE_WRITE and FE_READ queue a frame unless
the bus is down or its queue is full, TDD_SET stages a carrier's pattern, and TX_STATUS replies with a path's and its row's status. -/
def Obligations.TransmitCommandsComplete : Prop :=
  (∀ (s u : State) (p : Pkt), s.Admits 0x500 p → u = s.takeCmd 0x500 p → p.is 4 = true → p.arg 0 < s.part.paths → [p.arg 0].all u.pathOn = true →
    exec (.txSet p) s = .next (
     State.reply (((u.stage (Reg.TX_GAIN (p.arg 0)) (wordAt p.params 1)).stage (Reg.TX_DELAY (p.arg 0))
      (wordAt p.params 2)).stage (Reg.TX_CFR (p.arg 0)) (wordAt p.params 3)) p stOK [])) ∧
  (∀ (s u : State) (p : Pkt), s.Admits 0x501 p → u = s.takeCmd 0x501 p → p.is 4 = true → s.pathArgOk (p.arg 0) = true → p.arg 2 < 2 ^ 15 → (u.pathArgs (p.arg 0)).all u.pathOn = true →
    exec (.txNco p) s = .next (
     State.reply (u.forEach (u.pathArgs (p.arg 0)) fun v q =>
      ((v.stage (Reg.TX_NCO_LO q) (wordAt p.params 1)).stage (Reg.TX_NCO_HI q) (wordAt p.params 2)).stage (Reg.TX_NCO_PH q)
        (wordAt p.params 3)) p stOK [])) ∧
  (∀ (s u : State) (p : Pkt), s.Admits 0x502 p → u = s.takeCmd 0x502 p → p.is 3 = true → p.arg 0 < s.part.paths → p.arg 1 < 4 → p.arg 2 < 2 → [p.arg 0].all u.pathOn = true →
    exec (.txDac p) s = .next (
     State.reply (u.stage (Reg.TX_DAC (p.arg 0)) (toW (p.arg 2 * 16 + p.arg 1))) p stOK [])) ∧
  (∀ (s u : State) (p : Pkt), s.Admits 0x503 p → u = s.takeCmd 0x503 p → p.is 5 = true → s.maskOk p = true → p.arg 3 < 2 → p.arg 4 < 2 → (maskPaths p).all u.pathOn = true →
    exec (.txEnable p) s = .next (
     State.reply (u.forEach (maskPaths p) fun v q =>
      v.writeTxCtrl q (putFld (putFld (v.rd (Reg.TX_CTRL q)) 1 1 (p.arg 4)) 0 0 (p.arg 3))) p stOK [])) ∧
  (∀ (s u : State) (p : Pkt), s.Admits 0x504 p → u = s.takeCmd 0x504 p → p.is 2 = true → p.arg 0 < s.part.paths → p.arg 1 < 2 → [p.arg 0].all u.pathOn = true →
    exec (.txMute p) s = .next (
      let u1 := u.pf (Reg.TX_CTRL (p.arg 0)) 3 3 (p.arg 1)
      let u2 := if p.arg 1 = 1 then u1.muteForce (p.arg 0) else u1
      State.reply u2 p stOK [u2.rd (Reg.TX_STATUS (p.arg 0))])) ∧
  (∀ (s u : State) (p : Pkt), s.Admits 0x505 p → u = s.takeCmd 0x505 p → p.is 3 = true → p.arg 0 < s.part.rows →
    exec (.feWrite p) s = .next (
    let r := p.arg 0
    if u.busDown r then State.reply u p stITEM []
    else if 64 ≤ (u.rowOf r).queue.length then State.reply u p stRESOURCE []
    else
      let u1 := u.fePush r (wordAt p.params 2) (wordAt p.params 1) none
      State.reply u1 p stOK [toW (u1.rowOf r).queue.length])) ∧
  (∀ (s u : State) (p : Pkt), s.Admits 0x506 p → s.Room p → u = s.takeCmd 0x506 p → p.is 2 = true → p.arg 0 < s.part.rows →
    exec (.feRead p) s = .next (
    let r := p.arg 0
    if u.busDown r then State.reply u p stITEM []
    else if 64 ≤ (u.rowOf r).queue.length then State.reply u p stRESOURCE []
    else State.accept (u.fePush r (wordAt p.params 1) (toW (2 ^ 29)) (some (p.ref 0x506 r))) 0x506 p r [])) ∧
  (∀ (s u : State) (p : Pkt), let n := (p.params.length - 4) / 2
    s.Admits 0x507 p → u = s.takeCmd 0x507 p → p.flags = 0 → 4 ≤ p.params.length → p.params.length = 4 + 2 * n → n ≤ 5 → p.arg 0 < 4 → p.arg 1 < 2 → p.arg 2 < 80 → p.arg 3 + n ≤ 80 →
    exec (.tddSet p) s = .next (
    let u1 := u.stage (Reg.TDD_CFG (p.arg 0)) (toW (p.arg 1 * 2 ^ 31 + p.arg 2))
    State.reply (u1.forEach (List.range n) fun v i =>
      (v.stage (Reg.TDD_DL (p.arg 0) (p.arg 3 + i)) (wordAt p.params (4 + 2 * i))).stage (Reg.TDD_UL (p.arg 0) (p.arg 3 + i))
        (wordAt p.params (5 + 2 * i))) p stOK [])) ∧
  (∀ (s u : State) (p : Pkt), s.Admits 0x508 p → u = s.takeCmd 0x508 p → p.is 5 = true → s.rowArgOk (p.arg 0) = true → p.arg 3 < 2 → p.arg 4 < 2 ^ 16 → (u.rowArgs (p.arg 0)).all u.rowOn = true →
    exec (.tddTiming p) s = .next (
     State.reply (u.forEach (u.rowArgs (p.arg 0)) fun v r =>
      (((v.stage (Reg.TDD_TXT r) (wordAt p.params 1)).stage (Reg.TDD_RXT r) (wordAt p.params 2)).stage (Reg.ROW_TX_CFG r)
        (toW (p.arg 3 * 2))).pf (Reg.ROW_TX_CFG r) 31 16 (p.arg 4)) p stOK [])) ∧
  (∀ (s u : State) (p : Pkt), s.Admits 0x509 p → u = s.takeCmd 0x509 p → p.is 1 = true → p.arg 0 < s.part.paths →
    exec (.txStatus p) s = .next (
    let w := fun a => if u.pathOn (p.arg 0) then u.peek a else 0
    State.reply u p stOK [w (Reg.TX_STATUS (p.arg 0)), w (Reg.ROW_TX_STAT (p.arg 0 / 4))]))

/-- On a core that can issue it, each of M_NOP, CMAC, DMAC, MULW, CMPY and RDQ issues: its writes wait for the end of the bundle with exactly the
products, sums, residues and rounding of its operands, and its saturated components are counted; a requantisation that fails its check is not this case. -/
def Obligations.MultipliesIssue : Prop :=
  (∀ (s : State) (c : Nat) (f : FmtMR) (r : MRes), s.MIssues c (f.word 0) → f.fits = true → r = ({}) →
    exec (.mNop c f) s = .next (s.mDone c r)) ∧
  (∀ (s : State) (c : Nat) (f : FmtMA) (x : CoreSt) (r : MRes), s.MIssues c (f.word 1) → f.fits = true → x = s.coreOf c → r = (
      let a := (x.reg f.x).asC
      let b := (x.reg f.y).asC
      let ((i, ri), (q, rq)) := cmul a b f.cj
      { w := { accs := [(f.acc, macC (x.accOf f.acc) f.clr f.ng (a.bad || b.bad) i ri q rq)] } }) →
    exec (.mCmac c f) s = .next (s.mDone c r)) ∧
  (∀ (s : State) (c : Nat) (f : FmtMA) (x : CoreSt) (r : MRes), s.MIssues c (f.word 2) → f.fits = true → x = s.coreOf c → r = (
      let a := (x.reg f.x).asC
      let b := (x.reg f.y).asC
      let z := (x.reg f.z).asC
      let r1 := macC (x.accOf f.acc) f.clr f.ng (a.bad || b.bad) (a.i * b.i) (rMul a.ri b.ri) (a.q * b.q) (rMul a.rq b.rq)
      let same := f.acc2 == f.acc
      let r2 := macC (if same then r1 else x.accOf f.acc2) (f.clr && !same) f.ng (a.bad || z.bad) (a.i * z.i) (rMul a.ri z.ri)
        (a.q * z.q) (rMul a.rq z.rq)
      { w := { accs := [(f.acc, r1), (f.acc2, r2)] } }) →
    exec (.mDmac c f) s = .next (s.mDone c r)) ∧
  (∀ (s : State) (c : Nat) (f : FmtMA) (x : CoreSt) (r : MRes), s.MIssues c (f.word 3) → f.fits = true → x = s.coreOf c → r = (
      let a := (x.reg f.x).asR
      let b := (x.reg f.y).asR
      let old := x.accOf f.acc
      let (v, r) := accAdd f.clr f.ng old.i old.ri (a.x * b.x) (rMul a.r b.r)
      let bad := a.bad || b.bad || (!f.clr && old.poisoned)
      let q := if f.clr then 0 else old.q
      let rq := if f.clr then 0 else old.rq
      { w := { accs := [(f.acc, { i := v, q := q, ri := if bad then 15 else r, rq := if bad then 15 else rq })] } }) →
    exec (.mMulw c f) s = .next (s.mDone c r)) ∧
  (∀ (s : State) (c : Nat) (f : FmtMP) (x : CoreSt) (r : MRes), s.MIssues c (f.word 4) → f.fits = true → x = s.coreOf c → r = (
      let a := (x.reg f.x).asC
      let b := (x.reg f.y).asC
      let ((i, ri), (q, rq)) := cmul a b f.cj
      x.quantC f.dst (x.shift f.k) f.rnd (a.bad || b.bad) i ri q rq) → r.fail = false →
    exec (.mCmpy c f) s = .next (s.mDone c r)) ∧
  (∀ (s : State) (c : Nat) (f : FmtMQ) (x : CoreSt) (r : MRes), s.MIssues c (f.word 5) → f.fits = true → x = s.coreOf c → r = (
      let a := x.accOf f.acc
      let k := x.shift f.k
      let r :=
        if f.real then
          let bad := a.ri == 15
          let (v, xr, pass) := requant a.i a.ri k f.rnd
          let (w, y, n) := satR v xr 48
          { x.toD f.dst (mkR bad w y) n with checked := !bad, fail := !bad && !pass }
        else x.quantC f.dst k f.rnd a.poisoned a.i a.ri a.q a.rq
      { r with w := { r.w with accs := if f.clr then [(f.acc, {})] else [] } }) → r.fail = false →
    exec (.mRdq c f) s = .next (s.mDone c r))

/-- On a core that can issue it, each of CPLX, REAL, ADD, SUB, NEG, CONJ, SWAP, MOV, AND, OR, XOR, SHL and SHR issues with the result that its rule gives
for its operands in the view it names. -/
def Obligations.ConversionsIssue : Prop :=
  (∀ (s : State) (c : Nat) (f : FmtMR) (x : CoreSt) (r : MRes), s.MIssues c (f.word 6) → f.fits = true → x = s.coreOf c → r = (
      let a := (x.reg f.a).asR
      let (v, r, n) := satR a.x a.r 24
      x.toD f.dst (mkC a.bad v 0 r 0) n) →
    exec (.mCplx c f) s = .next (s.mDone c r)) ∧
  (∀ (s : State) (c : Nat) (f : FmtMR) (x : CoreSt) (r : MRes), s.MIssues c (f.word 7) → f.fits = true → x = s.coreOf c → r = (
      let a := (x.reg f.a).asC
      x.toD f.dst (mkR a.bad a.i a.ri) 0) →
    exec (.mReal c f) s = .next (s.mDone c r)) ∧
  (∀ (s : State) (c : Nat) (f : FmtMR) (x : CoreSt) (r : MRes), s.MIssues c (f.word 8) → f.fits = true → x = s.coreOf c → r = (x.addSub f false) →
    exec (.mAdd c f) s = .next (s.mDone c r)) ∧
  (∀ (s : State) (c : Nat) (f : FmtMR) (x : CoreSt) (r : MRes), s.MIssues c (f.word 9) → f.fits = true → x = s.coreOf c → r = (x.addSub f true) →
    exec (.mSub c f) s = .next (s.mDone c r)) ∧
  (∀ (s : State) (c : Nat) (f : FmtMR) (x : CoreSt) (r : MRes), s.MIssues c (f.word 0x0A) → f.fits = true → x = s.coreOf c → r = (
      if f.real then
        let a := (x.reg f.a).asR
        let (v, r, n) := satR (-a.x) (rNeg a.r) 48
        x.toD f.dst (mkR a.bad v r) n
      else
        let a := (x.reg f.a).asC
        let (vi, ri, ni) := satR (-a.i) (rNeg a.ri) 24
        let (vq, rq, nq) := satR (-a.q) (rNeg a.rq) 24
        x.toD f.dst (mkC a.bad vi vq ri rq) (ni + nq)) →
    exec (.mNeg c f) s = .next (s.mDone c r)) ∧
  (∀ (s : State) (c : Nat) (f : FmtMR) (x : CoreSt) (r : MRes), s.MIssues c (f.word 0x0B) → f.fits = true → x = s.coreOf c → r = (
      let a := (x.reg f.a).asC
      let (vq, rq, nq) := satR (-a.q) (rNeg a.rq) 24
      x.toD f.dst (mkC a.bad a.i vq a.ri rq) nq) →
    exec (.mConj c f) s = .next (s.mDone c r)) ∧
  (∀ (s : State) (c : Nat) (f : FmtMR) (x : CoreSt) (r : MRes), s.MIssues c (f.word 0x0C) → f.fits = true → x = s.coreOf c → r = (
      let a := (x.reg f.a).asC
      x.toD f.dst (mkC a.bad a.q a.i a.rq a.ri) 0) →
    exec (.mSwap c f) s = .next (s.mDone c r)) ∧
  (∀ (s : State) (c : Nat) (f : FmtMR) (x : CoreSt) (r : MRes), s.MIssues c (f.word 0x0D) → f.fits = true → x = s.coreOf c → r = (x.toD f.dst (x.reg f.a) 0) →
    exec (.mMov c f) s = .next (s.mDone c r)) ∧
  (∀ (s : State) (c : Nat) (f : FmtMR) (x : CoreSt) (r : MRes), s.MIssues c (f.word 0x0E) → f.fits = true → x = s.coreOf c → r = (x.bitwise f (· &&& ·)) →
    exec (.mAnd c f) s = .next (s.mDone c r)) ∧
  (∀ (s : State) (c : Nat) (f : FmtMR) (x : CoreSt) (r : MRes), s.MIssues c (f.word 0x0F) → f.fits = true → x = s.coreOf c → r = (x.bitwise f (· ||| ·)) →
    exec (.mOr c f) s = .next (s.mDone c r)) ∧
  (∀ (s : State) (c : Nat) (f : FmtMR) (x : CoreSt) (r : MRes), s.MIssues c (f.word 0x10) → f.fits = true → x = s.coreOf c → r = (x.bitwise f (· ^^^ ·)) →
    exec (.mXor c f) s = .next (s.mDone c r)) ∧
  (∀ (s : State) (c : Nat) (f : FmtMR) (x : CoreSt) (r : MRes), s.MIssues c (f.word 0x11) → f.fits = true → x = s.coreOf c → r = (x.shl f.dst (x.reg f.a) f.real false f.imm6) →
    exec (.mShl c f) s = .next (s.mDone c r)) ∧
  (∀ (s : State) (c : Nat) (f : FmtMR) (x : CoreSt) (r : MRes), s.MIssues c (f.word 0x12) → f.fits = true → x = s.coreOf c → r = (
      if f.real then
        let a := (x.reg f.a).asR
        let (v, r, pass) := requant a.x a.r f.imm6 true
        { x.toD f.dst (mkR a.bad v r) 0 with checked := !a.bad, fail := !a.bad && !pass }
      else
        let a := (x.reg f.a).asC
        x.quantC f.dst f.imm6 true a.bad a.i a.ri a.q a.rq) → r.fail = false →
    exec (.mShr c f) s = .next (s.mDone c r))

/-- On a core that can issue it, each of EXP, EXPMIN, NORM, RCP, RSQ, MIN, MAX, CMP, TST in a form the rules give, TPOIS, MOVS, MOVI and, where its result fits, MOVIH issues with
the result that its rule gives for its operands. -/
def Obligations.ComparisonsIssue : Prop :=
  (∀ (s : State) (c : Nat) (f : FmtMR) (x : CoreSt) (r : MRes), s.MIssues c (f.word 0x13) → f.fits = true → x = s.coreOf c → r = (
      let (n, bad) := (x.reg f.a).expIn f.real
      x.toD f.dst (mkCtl bad n) 0) →
    exec (.mExp c f) s = .next (s.mDone c r)) ∧
  (∀ (s : State) (c : Nat) (f : FmtMR) (x : CoreSt) (r : MRes), s.MIssues c (f.word 0x14) → f.fits = true → x = s.coreOf c → r = (
      let (n, bad) := (x.reg f.a).expIn f.real
      let d := (x.reg f.dst).asR
      x.toD f.dst (mkCtl (bad || d.bad) (min d.x n)) 0) →
    exec (.mExpmin c f) s = .next (s.mDone c r)) ∧
  (∀ (s : State) (c : Nat) (f : FmtMR) (x : CoreSt) (r : MRes), s.MIssues c (f.word 0x15) → f.fits = true → x = s.coreOf c → r = (
      let b := (x.reg f.b).asR
      let n := clampN b.x.toNat 0 (if f.real then 47 else 23)
      x.shl f.dst (x.reg f.a) f.real b.bad n) →
    exec (.mNorm c f) s = .next (s.mDone c r)) ∧
  (∀ (s : State) (c : Nat) (f : FmtMR) (x : CoreSt) (r : MRes), s.MIssues c (f.word 0x16) → f.fits = true → x = s.coreOf c → r = (
      let a := (x.reg f.a).asR
      x.toD f.dst (mkCtl a.bad (rcpOf a.x).1) (b2n (rcpOf a.x).2)) →
    exec (.mRcp c f) s = .next (s.mDone c r)) ∧
  (∀ (s : State) (c : Nat) (f : FmtMR) (x : CoreSt) (r : MRes), s.MIssues c (f.word 0x17) → f.fits = true → x = s.coreOf c → r = (
      let a := (x.reg f.a).asR
      x.toD f.dst (mkCtl a.bad (rsqOf a.x).1) (b2n (rsqOf a.x).2)) →
    exec (.mRsq c f) s = .next (s.mDone c r)) ∧
  (∀ (s : State) (c : Nat) (f : FmtMR) (x : CoreSt) (r : MRes), s.MIssues c (f.word 0x18) → f.fits = true → x = s.coreOf c → r = (
      let a := (x.reg f.a).asR
      let b := (x.reg f.b).asR
      x.toD f.dst (if b.x < a.x then mkR (a.bad || b.bad) b.x b.r else mkR (a.bad || b.bad) a.x a.r) 0) →
    exec (.mMin c f) s = .next (s.mDone c r)) ∧
  (∀ (s : State) (c : Nat) (f : FmtMR) (x : CoreSt) (r : MRes), s.MIssues c (f.word 0x19) → f.fits = true → x = s.coreOf c → r = (
      let a := (x.reg f.a).asR
      let b := (x.reg f.b).asR
      x.toD f.dst (if a.x < b.x then mkR (a.bad || b.bad) b.x b.r else mkR (a.bad || b.bad) a.x a.r) 0) →
    exec (.mMax c f) s = .next (s.mDone c r)) ∧
  (∀ (s : State) (c : Nat) (f : FmtMR) (x : CoreSt) (r : MRes), s.MIssues c (f.word 0x1A) → f.fits = true → x = s.coreOf c → r = (
      { w := { flag := some (f.flag, condOf f.imm6 (x.reg f.a).asR.x (x.reg f.b).asR.x) } }) →
    exec (.mCmp c f) s = .next (s.mDone c r)) ∧
  (∀ (s : State) (c : Nat) (f : FmtMR) (x : CoreSt), s.MIssues c (f.word 0x1B) → f.fits = true → x = s.coreOf c →
    (f.real = true → exec (.mTst c f) s = .next (s.mDone c { w := { flag := some (f.flag, condOf f.imm6 (x.reg f.a).asR.x 0) } })) ∧
    (f.real = false → f.imm6 = 0 → exec (.mTst c f) s = .next (s.mDone c
      { w := { flag := some (f.flag, (x.reg f.a).asC.i == 0 && (x.reg f.a).asC.q == 0) } })) ∧
    (f.real = false → f.imm6 = 1 → exec (.mTst c f) s = .next (s.mDone c
      { w := { flag := some (f.flag, !((x.reg f.a).asC.i == 0 && (x.reg f.a).asC.q == 0)) } }))) ∧
  (∀ (s : State) (c : Nat) (f : FmtMR) (x : CoreSt) (r : MRes), s.MIssues c (f.word 0x1C) → f.fits = true → x = s.coreOf c → r = ({ w := { flag := some (f.flag, (x.reg f.a).poisoned) } }) →
    exec (.mTpois c f) s = .next (s.mDone c r)) ∧
  (∀ (s : State) (c : Nat) (f : FmtMR) (x : CoreSt) (r : MRes), s.MIssues c (f.word 0x1D) → f.fits = true → x = s.coreOf c → r = ({ w := { sr := some (clampN (x.reg f.a).asR.x.toNat 0 62) } }) →
    exec (.mMovs c f) s = .next (s.mDone c r)) ∧
  (∀ (s : State) (c : Nat) (f : FmtMI) (x : CoreSt) (r : MRes), s.MIssues c (f.word 0x1E) → f.fits = true → x = s.coreOf c → r = (x.toD f.dst (mkCtl false (sext f.imm20 20)) 0) →
    exec (.mMovi c f) s = .next (s.mDone c r)) ∧
  (∀ (s : State) (c : Nat) (f : FmtMI) (x : CoreSt) (r : MRes), s.MIssues c (f.word 0x1F) → f.fits = true → x = s.coreOf c → r = (
      let d := (x.reg f.dst).asR
      if d.bad then x.toD f.dst (mkCtl true d.x) 0
      else if d.x < -(2 ^ 27) ∨ 2 ^ 27 ≤ d.x then { err := some 7 }
      else x.toD f.dst (mkCtl false (d.x * 2 ^ 20 + f.imm20)) 0) → r.err = none →
    exec (.mMovih c f) s = .next (s.mDone c r))

/-- On a core whose bundle's M slot has issued, each of X_NOP, LD, ST, LDD, LDST, SETA, ADDA, MOVDA, SETCBB, SETCBL, BIND and SETRRB ends the bundle with
what it loads, stores and sets, beside the writes of the M slot. -/
def Obligations.LoadsAndAddressesIssue : Prop :=
  (∀ (s : State) (c : Nat) (f : FmtXL) (x : CoreSt) (r : XRes) (mw : MWrites), s.XIssues c (f.word 0) mw → f.fits = true → x = s.coreOf c → r = ({ core := x }) →
    exec (.xNop c f) s = .next (s.endBundle c mw r)) ∧
  (∀ (s : State) (c : Nat) (f : FmtXL) (x : CoreSt) (r : XRes) (mw : MWrites), s.XIssues c (f.word 0x20) mw → f.fits = true → x = s.coreOf c → r = (
      { core := x.postMod f.a (sext f.step 10), ds := [(x.phys f.d, x.load (x.a.getD f.a 0))] }) →
    exec (.xLd c f) s = .next (s.endBundle c mw r)) ∧
  (∀ (s : State) (c : Nat) (f : FmtXL) (x : CoreSt) (r : XRes) (mw : MWrites), s.XIssues c (f.word 0x21) mw → f.fits = true → x = s.coreOf c → r = (
      { core := (x.store (x.a.getD f.a 0) (x.reg f.d)).postMod f.a (sext f.step 10) }) →
    exec (.xSt c f) s = .next (s.endBundle c mw r)) ∧
  (∀ (s : State) (c : Nat) (f : FmtXD) (x : CoreSt) (r : XRes) (mw : MWrites), s.XIssues c (f.word 0x22) mw → f.fits = true → x = s.coreOf c → r = (
      { core := (x.postMod f.a1 (sext f.step1 5)).postMod f.a2 (sext f.step2 5)
        ds := [(x.phys f.d1, x.load (x.a.getD f.a1 0)), (x.phys f.d2, x.load (x.a.getD f.a2 0))] }) →
    exec (.xLdd c f) s = .next (s.endBundle c mw r)) ∧
  (∀ (s : State) (c : Nat) (f : FmtXD) (x : CoreSt) (r : XRes) (mw : MWrites), s.XIssues c (f.word 0x23) mw → f.fits = true → x = s.coreOf c → r = (
      { core := ((x.store (x.a.getD f.a2 0) (x.reg f.d2)).postMod f.a1 (sext f.step1 5)).postMod f.a2 (sext f.step2 5)
        ds := [(x.phys f.d1, x.load (x.a.getD f.a1 0))] }) →
    exec (.xLdst c f) s = .next (s.endBundle c mw r)) ∧
  (∀ (s : State) (c : Nat) (f : FmtXA) (x : CoreSt) (r : XRes) (mw : MWrites), s.XIssues c (f.word 0x28) mw → f.fits = true → x = s.coreOf c → r = ({ core := { x with a := setAt x.a f.idx (x.xaValue f) } }) →
    exec (.xSeta c f) s = .next (s.endBundle c mw r)) ∧
  (∀ (s : State) (c : Nat) (f : FmtXA) (x : CoreSt) (r : XRes) (mw : MWrites), s.XIssues c (f.word 0x29) mw → f.fits = true → x = s.coreOf c → r = ({ core := x.postMod f.idx (sext f.imm17 17) }) →
    exec (.xAdda c f) s = .next (s.endBundle c mw r)) ∧
  (∀ (s : State) (c : Nat) (f : FmtXA) (x : CoreSt) (r : XRes) (mw : MWrites), s.XIssues c (f.word 0x2A) mw → f.fits = true → x = s.coreOf c → r = ({ core := x, ds := [(x.phys f.d, mkCtl false (x.a.getD f.idx 0))] }) →
    exec (.xMovda c f) s = .next (s.endBundle c mw r)) ∧
  (∀ (s : State) (c : Nat) (f : FmtXA) (x : CoreSt) (r : XRes) (mw : MWrites), s.XIssues c (f.word 0x2C) mw → f.fits = true → x = s.coreOf c → r = ({ core := { x with cbBase := setAt x.cbBase f.idx (x.xaValue f) } }) →
    exec (.xSetcbb c f) s = .next (s.endBundle c mw r)) ∧
  (∀ (s : State) (c : Nat) (f : FmtXA) (x : CoreSt) (r : XRes) (mw : MWrites), s.XIssues c (f.word 0x2D) mw → f.fits = true → x = s.coreOf c → r = (
      let len := x.xaValue f
      let base := x.cbBase.getD f.idx 0
      let fold := fun (v b : Nat) => if b = f.idx + 1 ∧ len ≠ 0 then (base + (v + 2 ^ 15 - base) % 2 ^ 15 % len) % 2 ^ 15 else v
      { core := { x with cbLen := setAt x.cbLen f.idx len, a := List.zipWith fold x.a x.binds } }) →
    exec (.xSetcbl c f) s = .next (s.endBundle c mw r)) ∧
  (∀ (s : State) (c : Nat) (f : FmtXA) (x : CoreSt) (r : XRes) (mw : MWrites), s.XIssues c (f.word 0x2E) mw → f.fits = true → x = s.coreOf c → r = ({ core := { x with binds := setAt x.binds f.idx f.imm17 } }) →
    exec (.xBind c f) s = .next (s.endBundle c mw r)) ∧
  (∀ (s : State) (c : Nat) (f : FmtXE) (x : CoreSt) (r : XRes) (mw : MWrites), s.XIssues c (f.word 0x3B) mw → f.fits = true → x = s.coreOf c → r = ({ core := { x with rrb := f.imm4 } }) →
    exec (.xSetrrb c f) s = .next (s.endBundle c mw r))

/-- On a core whose bundle's M slot has issued, SGET queues its transfer, SPUT its checked words, SWAIT waits for transfers, LOOP, BR, JMP and END lead on as
they say; a queued SGET lands its words with their tags, and a queued SPUT lands while the idle store is not frozen. -/
def Obligations.StreamsAndBranchesIssue : Prop :=
  (∀ (s : State) (c : Nat) (f : FmtXS) (x : CoreSt) (r : XRes) (mw : MWrites), s.XIssues c (f.word 0x30) mw → f.fits = true → x = s.coreOf c → r = (
      let src := (x.reg f.d).v % 2 ^ 22
      let isOver := streamRange f.store ≤ src ∨ (f.store = 1 ∧ streamRange 1 < src + f.count)
      if isOver then { core := x, next := .err 5 }
      else if x.portFull then { core := x, next := .stall }
      else
        let b := x.binds.getD f.a 0
        let g : SGetD := {
          store := f.store, src := src, count := f.count, tag := f.tag, addr := x.a.getD f.a 0
          base := x.cbBase.getD (b - 1) 0, len := if b = 0 then 0 else x.cbLen.getD (b - 1) 0 }
        { core := { x with gets := x.gets ++ [g] } }) →
    exec (.xSget c f) s = .next (s.endBundle c mw r)) ∧
  (∀ (s : State) (c n : Nat) g, let x := s.coreOf c
    x.gets[n]? = some g →
    exec (.sgetArrival c n) s = .next (
      let (s, read) := s.crossWords 1 c ((List.range g.count).map (fun k => (s.readSlot (s.streamSrc g k)).1))
      let fail := (List.range g.count).map (fun k => (s.readSlot (s.streamSrc g k)).2)
      let (s, read) := s.injectWords 0x02 0 read
      let ws := ((read.zip fail).zipIdx).map (fun (w : (Cx × Bool) × Nat) => s.masked x g w.2 w.1)
      let taint := g.store ≤ 1 && ws.any (fun (w : Cx × Bool) => w.1.bad)
      let x1 := (ws.zipIdx).foldl (fun (y : CoreSt) (w : (Cx × Bool) × Nat) =>
        let v := w.1.1
        y.store (g.at w.2) (mkC v.bad v.i v.q (residue v.i) (residue v.q))) { x with gets := x.gets.eraseIdx n, item := x.item.map (fun i => { i with tainted := i.tainted || taint }) }
      let fails := (ws.filter (fun (w : Cx × Bool) => w.2)).length
      ((s.setCore c x1).hubCheck 2 fails 0))) ∧
  (∀ (s u : State) (c slot b mask : Nat) (f : FmtXS) (mw : MWrites) (x : CoreSt) (g : SGetD) (ws : List (Nat × Nat)) (k : List (Nat × Nat) × Nat),
    s.XIssues c (f.word 0x31) mw → f.fits = true → s.sv.inject = none → c < 32 → x = s.coreOf c → x.portFull = false → slot = (x.reg f.d).v % 2 ^ 22 →
    slot < 28672 → b = x.binds.getD f.a 0 →
    g = { store := 0, src := 0, count := (x.item.map WorkItem.els).getD 96, tag := f.tag, addr := x.a.getD f.a 0, base := x.cbBase.getD (b - 1) 0, len := if b = 0 then 0 else x.cbLen.getD (b - 1) 0 } →
    ws = (List.range g.count).map (fun k => (x.load (g.at k)).sent) → (∀ w ∈ ws, w.2 = 255 ∨ w.2 = tag48 w.1) →
    mask = (s.jobOf ((x.item.map WorkItem.job).getD 0)).mask → (∀ i, x.item = some i → s.kernelFault i = none) →
    k = ((x.item.map (fun i => s.kernelWords i slot ws)).getD (ws, 0)) → u = s.bumpBy Cnt.solKernel k.2 → u.XIssues c (f.word 0x31) mw →
    exec (.xSput c f) s = .next (u.endBundle c mw { core := { u.coreOf c with puts := (u.coreOf c).puts ++ [{
      job := (x.item.map WorkItem.job).getD 0, sub := (x.item.map WorkItem.sub).getD 0, slot := slot
      words := k.1.zipIdx.map (fun (w : (Nat × Nat) × Nat) => if bitN mask w.2 then w.1 else (0, 0)) }] } })) ∧
  (∀ (s : State) (c : Nat) (f : FmtXS) (mw : MWrites), s.XIssues c (f.word 0x31) mw → f.fits = true → s.sv.inject = none →
    (s.coreOf c).portFull = true → ((s.coreOf c).reg f.d).v % 2 ^ 22 < 28672 →
    exec (.xSput c f) s = .next (s.endBundle c mw { core := s.coreOf c, next := .stall })) ∧
  (∀ (s : State) (c : Nat), s.rb Reg.TR_STATUS 1 = false →
    exec (.sputLand c) s = .next (s.landBurst c)) ∧
  (∀ (s : State) (c : Nat) (f : FmtXS) (x : CoreSt) (r : XRes) (mw : MWrites), s.XIssues c (f.word 0x32) mw → f.fits = true → x = s.coreOf c → r = (
      if x.gets.any (fun g => f.all || g.tag == f.tag) then { core := x, next := .stall } else { core := x }) →
    exec (.xSwait c f) s = .next (s.endBundle c mw r)) ∧
  (∀ (s : State) (c : Nat) (f : FmtXC) (x : CoreSt) (r : XRes) (mw : MWrites), s.XIssues c (f.word 0x38) mw → f.fits = true → x = s.coreOf c → r = (
      let r := x.reg (f.count % 32)
      let n := if f.src then (if sext r.v 48 < 0 then 0 else r.v % 2 ^ 16) else f.count
      { core := x, next := if 2 ≤ x.loops.length then .err 4 else .loop n f.last f.rot }) →
    exec (.xLoop c f) s = .next (s.endBundle c mw r)) ∧
  (∀ (s : State) (c : Nat) (f : FmtXB) (x : CoreSt) (r : XRes) (mw : MWrites), s.XIssues c (f.word 0x39) mw → f.fits = true → x = s.coreOf c → r = (
      { core := x, next := if x.flags.getD f.flag false = f.sense then .jump f.target else .seq }) →
    exec (.xBr c f) s = .next (s.endBundle c mw r)) ∧
  (∀ (s : State) (c : Nat) (f : FmtXB) (x : CoreSt) (r : XRes) (mw : MWrites), s.XIssues c (f.word 0x3A) mw → f.fits = true → x = s.coreOf c → r = ({ core := x, next := .jump f.target }) →
    exec (.xJmp c f) s = .next (s.endBundle c mw r)) ∧
  (∀ (s : State) (c : Nat) (f : FmtXE) (x : CoreSt) (r : XRes) (mw : MWrites), s.XIssues c (f.word 0x3F) mw → f.fits = true → x = s.coreOf c → r = (
      if !x.puts.isEmpty && !s.rb Reg.TR_STATUS 1 then { core := x, next := .stall }
      else { core := x, next := .fin ((x.reg f.d1).v % 2 ^ 32) ((x.reg f.d2).v % 2 ^ 8) }) →
    exec (.xEnd c f) s = .next (s.endBundle c mw r))

/-- A stripe on a link that is up is counted; one whose header check fails drops what was in hand; a good tile stripe gives its samples, with gaps poisoned, and its
messages, and a good cascade stripe its bytes, from which whole records are taken. A record that has come is joined to this package's data: layer data waits for its symbol and goes
on, partials are added to what waits for them, estimates and slices are written here or passed toward their package. -/
def Obligations.StripesAndRecordsComplete : Prop :=
  (∀ (s : State) (l : Nat) (tile : Bool) (hdr : Nat) (slots : List Nat) (badLanes : List Nat), (decide (l < 4) && s.linkUp l) = true → let x := s.lnk l
    let e := b2n tile
    let nsamp := min 152 (bitsN hdr 39 32)
    let idx := bitsN hdr 31 8
    let hit := fun (j : Nat) => badLanes.any (fun n => laneTouches n j)
    let s0 := s.bump (Cnt.axLink l 0)
    exec (.tileStripe l tile hdr slots badLanes) s = .next (
      if bitsN hdr 7 0 ≠ crc8 (bitsN hdr 39 8) 32 then
        ((s0.bump (Cnt.axLink l 1)).setLnk l { x with samples := [] })
      else
        let want := Sparse.get (fun _ => 0) x.next e
        let gap := if want = 0 then 0 else (idx + 2 ^ 24 - (want - 1) % 2 ^ 24) % 2 ^ 24
        let ws := (slots.take nsamp).zipIdx.map (fun (w : Nat × Nat) =>
          let c := sampleCheck w.1
          (w.1, c.1 || hit w.2, c.2))
        let got := ws.map (fun (w : Nat × Bool × Bool) => (w.1, w.2.1))
        let poisoned := gap + (got.filter (fun (w : Nat × Bool) => w.2)).length
        let x1 := { x with samples := got, next := Sparse.set (fun _ => 0) x.next e ((idx + nsamp) % 2 ^ 24 + 1) }
        let s0b := ((s0.setLnk l x1).bumpBy (Cnt.axLink l 2) poisoned).bumpBy (Cnt.axLink l 3) (ws.filter (fun (w : Nat × Bool × Bool) => w.2.2)).length
        let at_ := s0b.streamWord l idx
        let s1 := (s0b.loseWords l (!tile) (at_ - (gap : Int)) gap).forEach (got.zipIdx.filter (fun (w : (Nat × Bool) × Nat) => w.1.2)) fun u w =>
          u.loseWords l (!tile) (at_ + (w.2 : Int)) 1
        let words := ((slots.drop nsamp).take (152 - nsamp)).map (fun w => toW w)
        let ms := parseMsgs 152 nsamp words
        (s1.forEach ms fun u (m : Nat × List Word) =>
          if (List.range m.2.length).any (fun i => hit (m.1 + i)) then u else u.takeMsg l m.2))) ∧
  (∀ (s : State) (k : Nat) (hdr : Nat) (payload : List Byte), let l := 4 + k
    (decide (k < 2) && s.linkUp l) = true → let x := s.lnk l
    let s0 := s.bump (Cnt.axLink l 0)
    exec (.cascStripe k hdr payload) s = .next (
      if bitsN hdr 7 0 ≠ crc8 (bitsN hdr 63 8) 56 then
        (((s0.bump (Cnt.axLink l 1)).bumpBy (Cnt.axRecords k 3) (b2n (x.bytes != []))).setLnk l {
          x with bytes := [], inStep := false, lossTick := s.tick + 1 })
      else
        let at_ := bitsN hdr 63 48
        let ofs := bitsN hdr 47 39
        let idx := (at_ + payload.length) % 2 ^ 16
        let goes := x.inStep && at_ == x.byteIdx
        let x1 :=
          if goes then { x with bytes := x.bytes ++ payload, byteIdx := idx }
          else if ofs < 504 then { x with bytes := payload.drop ofs, inStep := true, byteIdx := idx }
          else { x with bytes := [], inStep := false, byteIdx := idx }
        let x2 := if goes then x1 else { x1 with lossTick := if x.bytes = [] ∧ !x.inStep then x.lossTick else s.tick + 1 }
        (((s0.setLnk l x2).bumpBy (Cnt.axRecords k 3) (b2n (!goes && x.bytes != []))).parseRecs l (payload.length + 64)))) ∧
  (∀ (s : State) (k : Nat) r s1, s.takeRec (4 + k) 1 = some (r, s1) → let h := recHdr r.hdr
    let c := bitsN r.hdr 52 51
    exec (.cascLayerRecord k) s = .next (
      let (cfg, slot) := s1.readUnder c h.frameId h.subframeId h.slotId
      let u : USec := {
        hdr := h, entry := 256 + bitsN r.hdr 26 22, car := c, slot := slot, sym := h.symbolId, air := s1.airOf cfg slot h.symbolId
        data := r.blocks.zipIdx.map (fun (b : CascBlock × Nat) => (h.startPrb + b.2, blockWords b.1))
        judged := true, mu := cfgMu cfg, ext := cfgExt cfg }
      let s2 := ({ s1 with fh := { s1.fh with data := s1.fh.data ++ [u] } } : State).showBuf
      (s2.sendRec (s2.port 2) r))) ∧
  (∀ (s : State) (k : Nat) r s1, s.takeRec (4 + k) 2 = some (r, s1) → let got := r.blocks.zipIdx.map (fun (b : CascBlock × Nat) => (bitsN r.hdr 21 11 + b.2, blockWords b.1))
    let key := partialKey r.hdr
    let wanted := fun (g : Nat × List Cx) => s1.fh.held.any (fun x => x.ul.key == key && x.missing.contains g.1)
    let held := s1.fh.held.map (fun x => if x.ul.key = key then x.take got else x)
    let soon := got.filter (fun g => !wanted g)
    let s2 := { s1 with fh := { s1.fh with
      held := held.filter (fun x => x.missing != [])
      early := if soon = [] then s1.fh.early else s1.fh.early ++ [(key, soon, s1.now)] } }
    exec (.cascPartialRecord k) s = .next (s2.forEach (held.filter (fun x => x.missing == [])) fun u x => u.passUp x.ul)) ∧
  (∀ (s : State) (k : Nat) r s1, s.takeRec (4 + k) 3 = some (r, s1) → let dst := bitsN r.hdr 35 34
    let slot := bitsN r.hdr 52 38
    exec (.cascEstimateRecord k) s = .next (
      (if dst ≠ s1.pkgNum then s1.sendRec (s1.toward dst) r
        else if slot < 21674 then s1.putEls (0x20000 + slot * 0x300) (bitsN r.hdr 33 25) r.blocks
        else s1))) ∧
  (∀ (s : State) (k : Nat) r s1, s.takeRec (4 + k) 4 = some (r, s1) → let dst := bitsN r.hdr 35 34
    let slot := bitsN r.hdr 52 38
    exec (.cascSliceRecord k) s = .next (
      if dst ≠ s1.pkgNum then (s1.sendRec (s1.toward dst) r)
      else if s.rb Reg.TR_STATUS 1 then s
      else
        let base := wsBase (1 - s1.liveStore) + 0x100000 + slot * 0x300
        let s2 := if slot < 28672 then (s1.putEls base (bitsN r.hdr 33 25) r.blocks).markDirty base else s1
        (match s2.sliceOf slot with
          | none => s2
          | some (j, i, sub) =>
            let x := s2.jobOf j
            let src := bitsN r.hdr 37 36
            let remote := x.remote.map (fun (y : Nat × List (Nat × Nat)) => if y.1 = sub ∧ (i, src) ∉ y.2 then (y.1, (i, src) :: y.2) else y)
            let left := remote.filter (fun (y : Nat × List (Nat × Nat)) => !(List.range (s2.jobInputs j)).all (fun n => y.2.any (fun e => e.1 == n)))
            (s2.setJob j { x with remote := left }).tryComplete j))) ∧
  (∀ (s : State) (r : Nat) (bs : List Byte), (decide (r < s.part.rows) && s.linkUp (r / 6)) = true → let s1 := s.popMsg (r / 6) 5
    let rings := (List.range 32).filter (fun n => (s1.ringOf n).items.any (fun i => i.code == 2 && i.detail / 256 == r && decide (i.data.length < i.len)))
    exec (.captureMessage r bs) s = .next (
      match rings with
      | [] => s1
      | n :: _ =>
        let x := s1.ringOf n
        let one := fun (i : DevItem) (k : Nat) =>
          if x.items.findIdx (fun y => y.code == 2 && y.detail / 256 == r && decide (y.data.length < y.len)) = k then
            { i with data := (i.data ++ bs).take i.len } else i
        (s1.setRing n { x with items := x.items.zipIdx.map (fun (y : DevItem × Nat) => one y.1 y.2) })))

/-- An acknowledgement frees the messages up to its number, and a resend timeout sends them again, or fails the link after 16 sends; a register response
answers the read. Wake, time, commit and alignment messages take effect on the package they are for and go on down the chain; a control message from the lead takes
effect on a member and goes on. -/
def Obligations.LinkMessagesComplete : Prop :=
  (∀ (s : State) (l n : Nat), s.linkUp l = true → (s.lnk l).unacked.any (fun m => m.seq == n) = true →
    exec (.ackMessage l n) s = .next ((s.popMsg l 1).setLnk l { (s.popMsg l 1).lnk l with
      unacked := (((s.lnk l).unacked.dropWhile (fun m => m.seq != n)).drop 1) })) ∧
  (∀ (s : State) (l : Nat) m w_, let x := s.lnk l
    x.unacked = m :: w_ → s.linkUp l = true → let s0 := s.advanceTo (m.sent + (if l < 4 then 320 else 1600))
    exec (.msgResendTimeout l) s = .next (
      if 16 ≤ m.sends then ((s0.pb (Reg.AX_STATUS l) 10 true).failLink l 4)
      else
        let again := x.unacked.map (fun y => { y with sends := y.sends + 1, sent := s0.tick })
        ((s0.setLnk l { x with unacked := again }).bumpBy (Cnt.axLink l 4) again.length))) ∧
  (∀ (s : State) (l : Nat) (w : Word), s.linkUp l = true →
    exec (.regRsp l w) s = .next ((s.popMsg l 4).answer w)) ∧
  (∀ (s : State) (pkgs tiles : Nat), s.isLead = false → s.domOn 4 = true → let s1 := match s.port 1 with
      | some l => s.popMsg l 9
      | none => s
    let s2 := match s1.port 2 with
      | some l => s1.sendMsg l 9 (pkgs * 16 + tiles) []
      | none => s1
    exec (.wakeMessage pkgs tiles) s = .next (if bitN pkgs s2.pkgNum then s2.wakeArrive 5 ((List.range 4).filter (bitN tiles)) else s2)) ∧
  (∀ (s : State) (lead : Nat) (m : TimeMsg), s.isLead = false → s.rb Reg.CX_TSTAT 31 = true → let s0 := match s.port 1 with
      | some l => s.popMsg l 7
      | none => s
    let t := s0.ownTick lead
    let s1 := match s0.port 2 with
      | some l => s0.sendMsg l 7 (timeMsgWords m).1 (toW lead :: toW (lead / 2 ^ 32) :: (timeMsgWords m).2)
      | none => s0
    let s2 := s1.advanceTo t
    exec (.timeMessage lead m) s = .next (
      (match m with
        | .rate w => s2.setRateAt t (clampN w rateMin rateMax)
        | .step sec ns => s2.stepTime (ptpTime sec ns + (s2.tick - t) * s2.rate)
        | .hold on => if on then s2.enterHoldover else s2.leaveHoldover
        | .origin sec ns => s2.setOrigin sec ns))) ∧
  (∀ (s : State) (m : CommitMsg),
    exec (.commitMessage m) s = .next (
      match m with
      | .locks pkg bits =>
        (if s.isLead ∧ 0 < pkg ∧ pkg < 4 then
          { s with tr := { s.tr with peerLocks := s.tr.peerLocks.filter (fun (x : Nat × Nat) => x.1 ≠ pkg) ++ [(pkg, bits)] } }
        else match s.port 1 with
          | some l => if s.isLead then s else s.sendMsg l 8 0 [toW pkg, toW bits]
          | none => s)
      | .relay t sec ns =>
        if s.isLead ∨ s.rb Reg.TR_STATUS 1 then s
        else
          let s0 := match s.port 2 with
            | some l => s.sendMsg l 8 1 [toW t, toW (t / 2 ^ 32), toW (sec / 2 ^ 32), toW sec, toW ns]
            | none => s
          ((s0.advanceTo (s0.ownTick t)).landAll.startCommit (ptpTime sec ns) 0))) ∧
  (∀ (s : State) (l : Nat) (m : AlignMsg), (decide (l < 6) && s.part.hasLink l) = true → let s0 := s.popMsg l 0xC
    exec (.alignMessage l m) s = .next (
      match m with
      | .tile => (if l < 4 ∧ l ∉ s0.tb.aligned then { s0 with tb := { s0.tb with aligned := s0.tb.aligned ++ [l] } } else s0)
      | .number pkg fromLead =>
        if l < 4 then s
        else if s0.rf Reg.CX_CFG 1 0 = 1 then (if fromLead then s0.pb (Reg.AX_STATUS l) 11 true else s0)
        else if s0.rf Reg.CX_CFG 1 0 = 2 then
          ((s0.pf (Reg.CX_PORT l) 1 0 1).setLnk l { s0.lnk l with number := some (pkg + 1) })
        else s
      | .follow sec ns rate offset delay =>
        if l < 4 ∨ s0.rf Reg.CX_CFG 1 0 ≠ 2 ∨ !acceptedIn 0x102 s0.dev then s
        else
          let s1 := ((s0.pf (Reg.CX_PORT l) 31 16 delay).wrPair Reg.CX_CNT_OFS_LO Reg.CX_CNT_OFS_HI (wrapN offset 64)).pb Reg.CX_TSTAT 31 true
          (((s1.wrPair Reg.TB_RATE_LO Reg.TB_RATE_HI (clampN rate rateMin rateMax)).stepTime (ptpTime sec ns)).pb Reg.CX_TSTAT 30 false)
      | .chain len small =>
        let s1 := match s0.port 2 with
          | some d => if d = l then s0 else s0.sendMsg d 0xC (2 * len + b2n small) []
          | none => s0
        let s2 := match [4, 5].findSome? (fun k => (s1.lnk k).number) with
          | some n => (s1.pf Reg.GL_PKG_POS 1 0 n).pb Reg.GL_PKG_POS 4 false
          | none => s1
        let s3 := { s2 with tb := { s2.tb with lastSmall := small } }
        (if l < 4 ∨ 3 < len then s else (s3.pf Reg.GL_PKG_POS 3 2 len).pf Reg.GL_PKG_POS 11 8 (len + 1)))) ∧
  (∀ (s u : State) (k op : Nat) (ws : List Word), k < 2 → s.linkUp (4 + k) = true → s.domOn 4 = true → u = s.popMsg (4 + k) 0xB →
    u.rf (Reg.CX_PORT (4 + k)) 1 0 = 1 → u.isLead = false → op = 0x400 ∨ op = 0x401 ∨ op = 0x402 ∨ op = 0x406 ∨ op = 0x700 ∨ op = 0x800 ∨ op = 0x902 →
    exec (.ctrlMessage k (.word op ws)) s = .next ((u.passOn 2 op ws).ctrlCopy op ws)) ∧
  (∀ (s u : State) (k pkg dev avail : Nat), k < 2 → s.linkUp (4 + k) = true → s.domOn 4 = true → u = s.popMsg (4 + k) 0xB →
    u.rf (Reg.CX_PORT (4 + k)) 1 0 ≠ 1 → 0 < pkg → pkg < 4 → exec (.ctrlMessage k (.state pkg dev avail)) s =
      .next (State.passState { u with tb := { u.tb with
        peers := u.tb.peers.filter (fun (x : Nat × Nat) => x.1 ≠ pkg) ++ [(pkg, dev)]
        peerAvail := u.tb.peerAvail.filter (fun (x : Nat × Nat) => x.1 ≠ pkg) ++ [(pkg, avail)] } } 1 pkg dev avail))

/-- A link in training comes up with the best lanes of the first attempt that has enough, or fails after three; a lane failure, a swap request, its confirmation, the swap itself, the periodic
measurement and a lane's retraining act on the lanes and the map; a link that fails says so. AX_CTRL, CX_CFG and the commands AX_STATUS, AX_RETRAIN, AX_SWAP, CX_ROLE and
AX_EYE act and reply as their table says. -/
def Obligations.LinksComplete : Prop :=
  (∀ (s : State) (l : Nat) (attempts : List (List LaneTry)) (lat : Nat) (nearer : Bool), (decide (l < 6) && s.part.hasLink l && s.linkState l == 1 && attempts != []) = true → let fomMin := s.rf (Reg.AX_CTRL l) 23 16
    let tried := (attempts.take 3).map (fun f => (f, pickLanes l fomMin f))
    let k := tried.findIdx (fun t => t.2.isSome)
    let dir := if l < 4 then some 0 else s.portDir l nearer
    exec (.linkTrain l attempts lat nearer) s = .next (
      match tried.find? (fun t => t.2.isSome), dir with
      | some (f, some (data, sp)), some d =>
        let ref := (s.lnk l).trainRef
        let s1 := s.activateLink l f data sp (k + 1) lat
        let s2 := if l < 4 then s1.setWakeStep l 8 else s1.pf (Reg.CX_PORT l) 1 0 d
        (match ref with
          | some r => s2.finish r stOK [s2.rd (Reg.AX_STATUS l)]
          | none => s2)
      | some _, none =>
        if s.rf Reg.CX_CFG 1 0 = 1 then
          (((s.pb (Reg.AX_STATUS l) 11 true).pb (Reg.AX_STATUS (9 - l)) 11 true).setLinkState (9 - l) 1)
        else s
      | _, _ =>
        if attempts.length < 3 then (s.pf (Reg.AX_STATUS l) 3 0 attempts.length)
        else ((s.pf (Reg.AX_STATUS l) 3 0 3).failLink l 4))) ∧
  (∀ (s : State) (l : Nat) (tile : Bool), s.part.hasLink l = true → l < 6 → 1 ≤ s.linkState l → s.linkState l ≤ 3 →
    exec (.linkFail l tile) s = .next (s.failLink l (if tile ∧ l < 4 then l else 4))) ∧
  (∀ (s : State) (l lane : Nat) (markers tile : Bool), (s.linkUp l && decide (lane < dataLanes l + spareLanes l ∧ s.laneRole l lane < 0xFE) && s.rf (Reg.AX_LANE l lane) 15 12 == 2) = true → let s1 := if markers then s.bumpBy (Cnt.axLane l lane 1) 2 else s.bumpBy (Cnt.axLane l lane 0) 16
    exec (.laneFailure l lane markers tile) s = .next (s1.failLane l lane (if tile ∧ l < 4 then l else 4))) ∧
  (∀ (s : State) (l : Nat) (confirm : Bool) (logical spare at_ : Nat), s.linkUp l = true → let s0 := s.popMsg l 6
    let x := s0.lnk l
    exec (.laneMessage l confirm logical spare at_) s = .next (
      if confirm then (s0.setLnk l { x with swaps := x.swaps.map (fun w => if w.logical = logical then { w with acked := true } else w) })
      else
        match (List.range (dataLanes l + spareLanes l)).find? (fun n => s0.laneRole l n == logical) with
        | some lane =>
          if (s0.spares l).contains spare ∧ logical < 0xFE then
            let w : LaneSwap := {
              logical := logical, lane := lane, spare := spare, at_ := x.trained + at_ * (13 * nsU / 4), failed := true, acked := true }
            ((s0.setLnk l { x with swaps := x.swaps ++ [w] }).sendMsg l 6 2 [toW logical, toW spare])
          else s0
        | none => s0)) ∧
  (∀ (s : State) (l : Nat) w rest, let x := s.lnk l
    x.swaps = w :: rest → s.linkUp l = true → let s0 := s.advanceTo (s.tickReaching w.at_)
    exec (.laneSwap l) s = .next (
      if !w.acked then
        ((s0.setLnk l { x with swaps := rest ++ [{ w with at_ := s0.switchTime l }] }).sendMsg l 6 1 [toW w.logical, toW w.spare])
      else
        let again := decide ((x.failures.filter (· == w.lane)).length < 2)
        let due := if !w.failed then [(w.lane, w.at_ + 1000000 * nsU)] else if again then [(w.lane, w.at_ + 10000000 * nsU)] else []
        let s1 := s0.setLnk l { x with swaps := rest, retrain := x.retrain ++ due }
        let s2 := (s1.setLane l w.spare w.logical 2).setLane l w.lane 0xFF (if w.failed then 5 else 4)
        let s3 := (s2.setSpares l ((s2.spares l).filter (· ≠ w.spare))).pb (Reg.AX_STATUS l) 9 true
        let s4 := (s3.pf (Reg.AX_MAP l) 7 0 (s3.rf (Reg.AX_MAP l) 7 0 + b2n w.failed)).bump (Cnt.axLink l (if w.failed then 5 else 6))
        (match w.ref with
          | some r => s4.finish r stOK [s4.rd (Reg.AX_MAP l)]
          | none => s4))) ∧
  (∀ (s : State) (l : Nat) (foms : List Nat), s.linkUp l = true → let x := s.lnk l
    let s0 := (s.advanceTo (x.fomTick + 160000)).setLnk l { x with fomTick := max s.tick (x.fomTick + 160000) }
    let ctrl := s0.rd (Reg.AX_CTRL l)
    exec (.fomMeasure l foms) s = .next (
      (s0.forEach (List.range (dataLanes l + spareLanes l)) fun u n =>
        let st := u.rf (Reg.AX_LANE l n) 15 12
        if (st ≠ 2 ∧ st ≠ 3) ∨ u.linkState l ≠ 2 then u
        else
          let f := min 255 (foms.getD n 255)
          let low := decide (f < fld ctrl 15 8)
          let run := if low then Sparse.get (fun _ => 0) (u.lnk l).low n + 1 else 0
          let u1 := u.pf (Reg.AX_LANE l n) 31 24 f
          let u2 := u1.setLnk l { u1.lnk l with low := Sparse.set (fun _ => 0) (u1.lnk l).low n run }
          let u3 := u2.when low (fun v => (v.pb (Reg.AX_STATUS l) 8 true).bump (Cnt.axLane l n 2))
          let swapping := (u3.lnk l).swaps.any (fun w => w.lane == n)
          if st ≠ 2 ∨ swapping then u3
          else if f < fld ctrl 7 0 then u3.failLane l n 4
          else if 8 ≤ run ∧ bit ctrl 30 then
            (u3.setLnk l { u3.lnk l with low := Sparse.set (fun _ => 0) (u3.lnk l).low n 0 }).requestSwap l n false none
          else u3))) ∧
  (∀ (s : State) (l lane fom : Nat) r, let x := s.lnk l
    x.retrain.find? (fun (r : Nat × Nat) => r.1 == lane) = some r → s.linkUp l = true → let s0 := s.advanceTo (s.tickReaching r.2)
    let was := s0.rf (Reg.AX_LANE l lane) 15 12
    let s1 := s0.setLnk l { x with retrain := x.retrain.filter (fun y => y.1 ≠ lane), failures := if fom < s0.rf (Reg.AX_CTRL l) 23 16 then x.failures ++ [lane] else x.failures }
    let n := s1.rf (Reg.AX_MAP l) 7 0
    exec (.laneRetrain l lane fom) s = .next (
      (if s1.rf (Reg.AX_CTRL l) 23 16 ≤ fom then
        (((s1.setLane l lane 0xFE 3).pf (Reg.AX_LANE l lane) 31 24 (min 255 fom)).setSpares l (s1.spares l ++ [lane])).pf (Reg.AX_MAP l) 7 0
          (if was = 5 then n - 1 else n)
      else (s1.setLane l lane 0xFF 5).pf (Reg.AX_MAP l) 7 0 (if was = 5 then n else n + 1)))) ∧
  (∀ (s : State) (l : Nat) (w : Word), s.Reaches (Reg.AX_CTRL l) →
    exec (.axRetrainWrite l w) s = .next (if l < 6 ∧ s.part.hasLink l then s.writeAxCtrl l w else s)) ∧
  (∀ (s : State) (w : Word), s.Reaches Reg.CX_CFG →
    exec (.cxCfgWrite w) s = .next (s.writeCxCfg w)) ∧
  (∀ (s u : State) (p : Pkt), s.Admits 0x030 p → u = s.takeCmd 0x030 p → p.is 1 = true → s.linkOk (p.arg 0) = true →
    exec (.axStatus p) s = .next (
    State.reply u p stOK [u.peek (Reg.AX_STATUS (p.arg 0)), u.peek (Reg.AX_MAP (p.arg 0)), u.peek (Reg.AX_LAT (p.arg 0))])) ∧
  (∀ (s u : State) (p : Pkt), s.Admits 0x031 p → s.Room p → u = s.takeCmd 0x031 p → p.is 1 = true → s.linkOk (p.arg 0) = true →
    exec (.axRetrain p) s = .next (
    if 4 ≤ (p.arg 0) ∧ (u.rf Reg.CX_CFG 1 0 = 0 ∨ u.rf Reg.CX_CFG 1 0 = 3) then State.reply u p stITEM [u.rd (Reg.AX_STATUS (p.arg 0))]
    else State.accept (u.startTrain (p.arg 0) (some (p.ref 0x031 (p.arg 0)))) 0x031 p (p.arg 0) [])) ∧
  (∀ (s u : State) (p : Pkt), s.Admits 0x032 p → s.Room p → u = s.takeCmd 0x032 p → p.is 2 = true → s.linkOk (p.arg 0) = true → (p.arg 1) < dataLanes (p.arg 0) + spareLanes (p.arg 0) → s.laneRole (p.arg 0) (p.arg 1) < 0xFE →
    exec (.axSwap p) s = .next (
    if (u.lnk (p.arg 0)).swaps ≠ [] then State.reply u p stBUSY []
    else if u.spares (p.arg 0) = [] then State.reply u p stRESOURCE []
    else State.accept (u.requestSwap (p.arg 0) (p.arg 1) false (some (p.ref 0x032 (p.arg 0)))) 0x032 p (p.arg 0) [])) ∧
  (∀ (s u : State) (p : Pkt), s.Admits 0x033 p → u = s.takeCmd 0x033 p → p.is 1 = true → p.arg 0 < 3 → (p.arg 0 == 0 || decide (0 < s.part.casc)) = true →
    exec (.cxRole p) s = .next (
    State.reply (u.writeCxCfg (toW (p.arg 0))) p stOK [])) ∧
  (∀ (s u : State) (p : Pkt), s.Admits 0x034 p → u = s.takeCmd 0x034 p → p.is 2 = true → s.linkOk (p.arg 0) = true → p.arg 1 ≤ dataLanes (p.arg 0) + spareLanes (p.arg 0) →
    exec (.axEye p) s = .next (
    State.reply u p stOK [u.peek (Reg.AX_LANE (p.arg 0) (p.arg 1))]))

/-- A sequence begins on the ADCs whose configuration asks for the line's pulse; a conversion that ends adds its code to its channel's accumulators, or
completes an injected conversion; a calibration ends; an idle ADC powers down and a calibration falls due when its period is over. The registers and the MA commands inject, calibrate, take
results and set an ADC up. -/
def Obligations.MonitorAdcComplete : Prop :=
  (∀ (s : State) d, s.tb.tileDues.find? (fun (d : Nat × Nat × Nat × Bool) => d.1 == 10) = some d → let s0 := ({ s with tb := { s.tb with tileDues := s.tb.tileDues.erase d } } : State).advanceTo d.2.2.1
    let t := d.2.1
    let arrived := if d.2.2.2 then s0.tick else d.2.2.1 - 1600
    exec .monitorSequence s = .next (
      (s0.forEach ([2 * t, 2 * t + 1].filter (fun q => s0.rf (Reg.MA_CFG q) 31 31 == 1 && s0.rb (Reg.MA_CFG q) 27)) fun u q =>
        let x := u.maOf q
        if !u.maUp q then (u.pb (Reg.MA_STAT q) 0 true).bump (Cnt.monAdc q 2)
        else if x.seq.isSome then (u.pb (Reg.MA_STAT q) 1 true).bump (Cnt.monAdc q 1)
        else
          let up := if u.rb (Reg.MA_CFG q) 29 then 640 else 6400
          let x1 := if x.pdown then { x with pdown := false, awakeAt := arrived + up } else x
          ((u.setMa q { x1 with seq := some (0, edge50 (d.2.2.1 + 160), 0, 0) }).bump (Cnt.monAdc q 0)).maStart q))) ∧
  (∀ (s s0 s1 s2 : State) (q c nominal t v : Nat) (input dev : Int), (s.maOf q).run = some (.entry c nominal, t) →
    v = maCode (s.rb (Reg.MA_CFG q) 29) c input dev →
    s0 = (s.advanceTo (t + 800)).setMa q { s.maOf q with run := none, idleFrom := max s.tick (t + 800) } →
    s1 = s0.bumpBy (Cnt.monAdc q 3) (b2n (decide (nominal < t))) →
    s2 = (if nominal < t ∧ s1.rb (Reg.MA_CFG q) 28 = true then s1.bump (Cnt.monAdc q 4)
      else (s1.maAccumulate q c v (decide (nominal < t))).maAlarm q c v) →
    exec (.monitorConversionDone q input dev) s = .next ((s2.setMa q { s2.maOf q with
      seq := (s2.maOf q).seq.bind (fun x => if s2.rf (Reg.MA_CFG q) 3 0 ≤ x.1 then none else some (x.1 + 1, x.2.1, 0, 0)) }).maStart q)) ∧
  (∀ (s s0 s1 : State) (q c t a req v : Nat) (input dev : Int) (b : Bool) (ref : Option CmdRef) (res : Word),
    (s.maOf q).run = some (.inject c, t) → (s.maOf q).inj = some (a, req, b, ref) → v = maCode (s.rb (Reg.MA_CFG q) 29) c input dev →
    s0 = (s.advanceTo (t + 800)).setMa q { (s.maOf q).ran 1 0 with run := none, inj := none, idleFrom := max s.tick (t + 800) } →
    res = toW (2 ^ 31 + b2n (decide (req + 96 < t)) * 2 ^ 30 + c * 2 ^ 12 + v) →
    s1 = ((s0.wr (Reg.MA_INJ_RES q) res).bump (Cnt.monAdc q 5)).maAlarm q c v →
    (∀ r, ref = some r → exec (.monitorConversionDone q input dev) s = .next ((s1.finish r stOK [res]).maStart q)) ∧
    (ref = none → exec (.monitorConversionDone q input dev) s = .next (s1.maStart q))) ∧
  (∀ (s u : State) (q dur t : Nat), (s.maOf q).run = some (.cal, t) →
    u = ((s.advanceTo (t + min dur 64000)).setMa q { (s.maOf q).ran 0 1 with
      run := none, cal := none, needCal := false, lastCal := max s.tick (t + min dur 64000), idleFrom := max s.tick (t + min dur 64000) }).bump
        (Cnt.monAdc q 7) →
    (∀ r, (s.maOf q).cal = some (some r) → exec (.monitorCalDone q dur) s = .next ((u.finish r stOK []).maStart q)) ∧
    ((∀ r, (s.maOf q).cal ≠ some (some r)) → exec (.monitorCalDone q dur) s = .next (u.maStart q))) ∧
  (∀ (s : State) (q : Nat), let p := s.rf (Reg.MA_CFG q) 15 8
    p ≠ 0 → s.maUp q = true → s.rb (Reg.MA_CFG q) 31 = true →
    exec (.monitorCalPeriod q) s = .next (
      (  let s0 := s.advanceTo ((s.maOf q).lastCal + p * 1600000000)
        (s0.setMa q { s0.maOf q with lastCal := s0.tick }).maOrderCal q none))) ∧
  (∀ (s : State) (q : Nat), s.maUp q = true → s.rb (Reg.MA_CFG q) 31 = true → s.rb (Reg.MA_CFG q) 30 = true → (s.maOf q).run = none →
    (s.maOf q).inj = none → (s.maOf q).cal = none → (s.maOf q).seq = none → (s.maOf q).pdown = false →
    exec (.monitorPowerDown q) s = .next ((s.advanceTo ((s.maOf q).idleFrom + max 1 (s.rf (Reg.MA_CFG q) 23 16) * 1600)).setMa q
      { s.maOf q with pdown := true })) ∧
  (∀ (s : State) (q : Nat) (w : Word), s.Reaches (Reg.MA_INJ q) →
    exec (.maInjWrite q w) s = .next (if bit w 31 ∧ s.maUp q then s.maInject q (fld w 3 0) none else s)) ∧
  (∀ (s : State) (q : Nat) (w : Word), s.Reaches (Reg.MA_CAL q) →
    exec (.maCalWrite q w) s = .next (if bit w 0 ∧ s.maUp q then s.maOrderCal q none else s)) ∧
  (∀ (s : State) (q : Nat) (w : Word), s.Reaches (Reg.MA_TAKE q) →
    exec (.maTakeWrite q w) s = .next (if s.maUp q then s.maTake q (fld w 15 0) else s)) ∧
  (∀ (s : State) (q : Nat), s.Reaches (Reg.MA_INJ_RES q) →
    exec (.maInjResRead q) s = .next ((s.answer (s.rd (Reg.MA_INJ_RES q))).pb (Reg.MA_INJ_RES q) 31 false)) ∧
  (∀ (s u : State) (p : Pkt) (q : Nat), s.Admits 0x880 p → u = s.takeCmd 0x880 p → p.is 4 = true → p.arg 0 = q → q < s.part.parcels → q ≠ 0xFF →
    u.domOn (8 + q / 2) = true →
    exec (.maSet p) s = .next (State.reply (((u.wr (Reg.MA_SEQ_LO q) (wordAt p.params 2)).wr (Reg.MA_SEQ_HI q) (wordAt p.params 3)).writeMaCfg q
      (wordAt p.params 1)) p stOK [])) ∧
  (∀ (s u : State) (p : Pkt), s.Admits 0x881 p → u = s.takeCmd 0x881 p → p.is 3 = true → p.arg 0 < s.part.parcels → p.arg 1 < 16 →
    u.domOn (8 + p.arg 0 / 2) = true →
    exec (.maWindow p) s = .next (State.reply (u.poke (Reg.MA_WIN (p.arg 0) (p.arg 1)) (wordAt p.params 2)) p stOK [])) ∧
  (∀ (s u : State) (p : Pkt), s.Admits 0x882 p → s.Room p → u = s.takeCmd 0x882 p → p.is 2 = true → p.arg 0 < s.part.parcels → p.arg 1 < 16 →
    u.maUp (p.arg 0) = true → (u.maOf (p.arg 0)).inj = none →
    exec (.maConvert p) s = .next (State.accept (u.maInject (p.arg 0) (p.arg 1) (some (p.ref 0x882 (p.arg 0)))) 0x882 p (p.arg 0) [])) ∧
  (∀ (s u : State) (p : Pkt) (q c : Nat), s.Admits 0x883 p → p.is 2 = true → p.arg 0 = q → p.arg 1 = c →
    q < s.part.parcels → c < 16 → (s.takeCmd 0x883 p).maUp q = true → u = (s.takeCmd 0x883 p).maTake q (2 ^ c) →
    exec (.maTake p) s = .next (State.reply u p stOK [u.rd (Reg.MA_RES_SUM q c), u.rd (Reg.MA_RES_CNT q c), u.rd (Reg.MA_RES_MM q c)])) ∧
  (∀ (s u : State) (p : Pkt), s.Admits 0x884 p → s.Room p → u = s.takeCmd 0x884 p → p.is 1 = true → p.arg 0 < s.part.parcels →
    u.maUp (p.arg 0) = true → (u.maOf (p.arg 0)).cal = none →
    exec (.maCal p) s = .next (State.accept (u.maOrderCal (p.arg 0) (some (p.ref 0x884 (p.arg 0)))) 0x884 p (p.arg 0) [])) ∧
  (∀ (s u : State) (p : Pkt), s.Admits 0x885 p → u = s.takeCmd 0x885 p → p.is 1 = true → (p.arg 0) < s.part.parcels →
    exec (.maStatus p) s = .next (
    if !u.domOn (8 + (p.arg 0) / 2) then State.reply u p stOK [0, 0] else State.reply u p stOK [u.peek (Reg.MA_STAT (p.arg 0)), u.rd (Reg.MA_ALARM (p.arg 0))]))

/-- SNAP_AT and MON_SNAP_CTRL order a snapshot; when its line fires a free bank is taken, and when its tick is reached the counters are latched into it. SNAP_RELEASE and the
register give banks back, SNAP_INFO tells of one, and SNAP_DELIVER picks the ring that banks go to. -/
def Obligations.SnapshotsComplete : Prop :=
  (∀ (s : State) (w : Word), s.Reaches Reg.MON_SNAP_CTRL →
    exec (.snapNowWrite w) s = .next (s.writeSnapCtrl w)) ∧
  (∀ (s : State) d s1, s.takeDue 2 = some (d, s1) → let seq := (s1.rd Reg.MON_SNAP_SEQ).toNat
    let s2 := s1.wr Reg.MON_SNAP_SEQ (toW (seq + 1))
    let last := s2.rf Reg.MON_SNAP_STAT 4 4
    let pick := if s2.bankState (1 - last) = 0 then some (1 - last) else if s2.bankState last = 0 then some last else none
    exec .snapshotFire s = .next (
      match pick with
      | some b =>
        let s3 := ((s2.setBankState b 1).pf Reg.MON_SNAP_STAT 4 4 b).bump (Cnt.monSnap 0)
        (s3.setBank b { refs := d.refs, target := d.target, seq := seq, sys := d.sys })
      | none =>
        let s3 := (((s2.pb Reg.MON_SNAP_STAT 9 true).monEvt 1).bump (Cnt.monSnap 1)).hubEvent 0x22 (seq % 2 ^ 24)
        (s3.forEach d.refs fun u r => u.finish r stITEM []))) ∧
  (∀ (s : State) b0, (List.range 2).find? (fun b => s.bankState b == 1) = some b0 → let b := if s.bankState 1 = 1 ∧ b0 = 0 ∧ (s.bankOf 1).target < (s.bankOf 0).target then 1 else b0
    let x := s.bankOf b
    let s0 := s.advanceTo x.target
    exec .snapshotLatch s = .next (
      if s.commitFirst x.target then s else
      let s1 :=
        if x.hub then s0
        else
          let reach := s0.tiles.filter (fun t => decide (s0.tileState t = 0 ∨ s0.tileState t = 1 ∨ s0.tileState t = 4) && !s0.sv.dead.contains t)
          let due := reach.filter (fun t => s0.tb.tileDues.any (fun (d : Nat × Nat × Nat × Bool) => d.1 == 2 && d.2.1 == t) ||
            s0.tb.msgs.any (fun m => m.tile == t && m.line == 2))
          let u := s0.setBank b { x with hub := true, vals := s0.hubCounters, waiting := due }
          let w := toW (s0.epoch * 2 ^ 24 + b2n x.sys * 2 ^ 20)
          (((u.wr (Reg.SNAP_B_SEQ b) (toW x.seq)).wr (Reg.SNAP_B_INFO b) w).wrPair (Reg.SNAP_B_TICK_LO b) (Reg.SNAP_B_TICK_HI b) x.target).bumpBy
            (Cnt.monSnap 2) (s0.part.tiles - due.length)
      let s2 := s1.forEach (s1.bankOf b).waiting fun u t =>
        match u.tb.tileDues.find? (fun (d : Nat × Nat × Nat × Bool) => d.1 == 2 && d.2.1 == t) with
        | some d => (({ u with tb := { u.tb with tileDues := u.tb.tileDues.erase d } } : State).latchTile b t (d.2.2.2 || decide (x.target < d.2.2.1)))
        | none => u
      (if (s2.bankOf b).waiting = [] then s2.bankReady b else s2))) ∧
  (∀ (s : State) (w : Word), s.Reaches Reg.MON_SNAP_REL →
    exec (.monSnapRelWrite w) s = .next (s.releaseBanks (fld w 1 0))) ∧
  (∀ (s u : State) (p : Pkt), let sys := bitN p.flags 1
    let now := bitN p.flags 0
    let ok := decide (p.flags < 4) && (if now then p.params.length == 0 else p.params.length == 3 && s.ptpOk p.params 0)
    s.Admits 0x800 p → s.Room p → u = s.takeCmd 0x800 p → ok = true → (!sys || s.isLead) = true →
    exec (.snapAt p) s = .next (
    let key := b2n sys * 2
    let at_ := u.tick + 1600
    let u1 := if sys then u.copyDown 0x800 (toW p.flags :: (if now then [toW at_, toW (at_ / 2 ^ 32)] else p.params)) else u
    if now then State.accept (u1.snapNow [p.ref 0x800 key] sys) 0x800 p key []
    else
      match u.freeCmp with
      | none => State.reply u p stRESOURCE []
      | some n => State.accept (u1.schedule n 2 (shortOf (ptpParam p.params 0)) 0 (some (p.ref 0x800 key))) 0x800 p key [])) ∧
  (∀ (s u : State) (p : Pkt), s.Admits 0x801 p → u = s.takeCmd 0x801 p → p.is 1 = true → p.arg 0 < 4 →
    exec (.snapRelease p) s = .next (
    let u1 := u.releaseBanks (p.arg 0)
    State.reply u1 p stOK [u1.rd Reg.MON_SNAP_STAT])) ∧
  (∀ (s u : State) (p : Pkt), s.Admits 0x802 p → u = s.takeCmd 0x802 p → p.is 1 = true → p.arg 0 < 2 →
    exec (.snapInfo p) s = .next (
    let b := p.arg 0
    State.reply u p stOK [u.rd (Reg.SNAP_B_SEQ b), u.rd (Reg.SNAP_B_INFO b), u.rd (Reg.SNAP_B_TICK_LO b), u.rd (Reg.SNAP_B_TICK_HI b)])) ∧
  (∀ (s u : State) (p : Pkt), s.Admits 0x803 p → u = s.takeCmd 0x803 p → p.is 2 = true → p.arg 0 < 2 → 16 ≤ (p.arg 1) → (p.arg 1) < 32 → s.ringFunc (p.arg 1) = some 9 →
    exec (.snapDeliver p) s = .next (
    State.reply ((u.pf Reg.MON_SNAP_CTRL 3 0 ((p.arg 1) - 16)).pb Reg.MON_SNAP_CTRL 8 (p.arg 0 == 1)) p stOK []))

/-- An event is recorded with its code, source and detail; a trigger line, a mark and a memory error are recorded as their rules say; a recorder is cleared, tested, rearmed and
set up by register and by command. -/
def Obligations.RecordersComplete : Prop :=
  (∀ (s : State) (rec code src : Nat) (late : Bool) (detail : Word), s.recPresent rec = true → code < 256 → src ≤ 4 →
    exec (.recorderEvent rec code src late detail) s = .next (s.event rec code src late detail.toNat)) ∧
  (∀ (s s1 : State) d, s.takeDue 11 = some (d, s1) → exec (.recorderTrigger 4) s = .next ((s1.advanceTo d.target).pkgEvent 0x20 4 false 0)) ∧
  (∀ (s : State) (t at_ : Nat) (late : Bool), t < 4 → s.tb.tileDues.find? (fun d => d.1 == 11 && d.2.1 == t) = some (11, t, at_, late) →
    exec (.recorderTrigger t) s = .next ((State.advanceTo { s with tb := { s.tb with tileDues := s.tb.tileDues.erase (11, t, at_, late) } } at_).tileEvent
      t 0x20 t late 0)) ∧
  (∀ (s : State) (w : Word), s.Reaches Reg.REC_MARK →
    exec (.recMarkWrite w) s = .next (s.hubEvent 0x21 w.toNat)) ∧
  (∀ (s : State) (r : Nat), s.Reaches (recCtrlReg r) →
    exec (.recClear r) s = .next (if s.recPresent r then s.recClear r else s)) ∧
  (∀ (s : State) (r : Nat), s.Reaches (recCtrlReg r) →
    exec (.recTest r) s = .next (if s.recPresent r then s.recTest r else s)) ∧
  (∀ (s : State) (r : Nat) (bad : List Nat), let x := s.recOf r
    x.testing = true →
    exec (.recTestDone r bad) s = .next (
      let s1 :=
        if r = 4 then
          let u := s.setRec 4 { x with testing := false }
          if bad = [] ∧ u.rf Reg.REC_PKG_STAT 31 30 = 2 then
            ((u.setRec 4 { x with testing := false, slots := [] }).pf Reg.REC_PKG_STAT 14 0 0).pf Reg.REC_PKG_STAT 31 30 0
          else u
        else
          let still := x.retired.filter (bad.contains ·)
          let u := s.setRec r { x with testing := false, retired := still }
          (u.pf (Reg.REC_T_STAT r) 24 16 still.length).pb (Reg.REC_T_STAT r) 29 (still != [])
      let mine := s1.host.busy.any (fun (b : CmdRef × Bool) => b.1.op == 0x842 && b.1.key == r)
      (if mine then s1.busyReply (if bad = [] then stOK else stITEM) [s1.rd (recStatReg r)] else s1))) ∧
  (∀ (s : State) (t : Nat), s.Reaches (Reg.REC_T_CTRL t) →
    exec (.recRearm t) s = .next (if t < s.part.tiles then s.recRearm t else s)) ∧
  (∀ (s : State) (r slot : Nat) (corrected : Bool) (code src : Nat) (detail : Word), s.recPresent r = true → s.recEnabled r = true →
    exec (.recorderMemoryError r slot corrected code src detail) s = .next (
      (if corrected then s.bump (if r = 4 then Cnt.monPkgRec 3 else Cnt.monTileRec r 4)
      else if r = 4 then
        if s.rf Reg.REC_PKG_STAT 31 30 = 2 then s
        else
          let seq := s.rf Reg.REC_PKG_NEXT 30 0
          let s1 := (s.pf Reg.REC_PKG_STAT 31 30 2).wr Reg.REC_PKG_NEXT (toW ((seq + 1) % 2 ^ 31))
          ((s1.faultRecord 1 (s1.recWords 4 seq code src false detail)).monEvt 3).faultSum 7
      else
        let x := s.recOf r
        let k := slot % 512
        if k ∈ x.retired then s
        else
          let s1 := s.setRec r { x with retired := k :: x.retired, slots := Sparse.set (fun _ => []) x.slots k [] }
          let had := b2n (Sparse.get (fun _ => []) x.slots k != [])
          let s2 := ((s1.pf (Reg.REC_T_STAT r) 24 16 (x.retired.length + 1)).pb (Reg.REC_T_STAT r) 29 true).pb (Reg.REC_T_STAT r) 28 true
          let s3 := (s2.pf (Reg.REC_T_STAT r) 9 0 (s2.rf (Reg.REC_T_STAT r) 9 0 - had)).bump (Cnt.monTileRec r 5)
          (s3.monEvt 4).hubEvent 0x13 (k * 2 ^ 16 + r)))) ∧
  (∀ (s u : State) (p : Pkt), s.Admits 0x840 p → u = s.takeCmd 0x840 p → p.is 3 = true → s.recPresent (p.arg 0) = true → p.arg 1 < 256 →
    p.arg 2 < 16 → u.recEnabled (p.arg 0) = true →
    exec (.recMapSet p) s = .next (State.reply (u.pf (recMapReg (p.arg 0) (p.arg 1 / 8)) (4 * (p.arg 1 % 8) + 3) (4 * (p.arg 1 % 8)) (p.arg 2)) p stOK [])) ∧
  (∀ (s u : State) (p : Pkt), let r := fld (wordAt p.params 0) 10 8
    let l := fld (wordAt p.params 0) 3 0
    let offs := p.params.drop 2
    let ok := p.flags == 0 && decide (1 ≤ (p.arg 1) ∧ (p.arg 1) ≤ 12) && p.params.length == 2 + (p.arg 1) && s.recPresent r &&
    offs.all (fun w => listOk r w && decide (w.toNat < 2 ^ 28 ∧ w.toNat % 4 = 0))
    s.Admits 0x841 p → u = s.takeCmd 0x841 p → ok = true →
    exec (.recListSet p) s = .next (
    if !u.recEnabled r then State.reply u p stITEM []
    else State.reply (u.forEach (List.range 12) fun v i =>
      v.wr (recListReg r l i) (if i < (p.arg 1) then toW (2 ^ 31 + (wordAt offs i).toNat) else 0)) p stOK [])) ∧
  (∀ (s u : State) (p : Pkt), s.Admits 0x842 p → u = s.takeCmd 0x842 p → p.is 2 = true → s.recPresent (p.arg 0) = true →
    exec (.recCtrl p) s = .next (
    if !u.recEnabled (p.arg 0) then State.reply u p stITEM []
    else
      let u1 := u.writeRecCtrl (p.arg 0) (wordAt p.params 1)
      if bit (wordAt p.params 1) 30 then ({ u1 with host := { u1.host with busy := some (p.ref 0x842 (p.arg 0), p.quiet) } } : State)
      else State.reply u1 p stOK [u1.rd (recStatReg (p.arg 0))])) ∧
  (∀ (s u : State) (p : Pkt), s.Admits 0x843 p → u = s.takeCmd 0x843 p → p.is 1 = true →
    exec (.recMark p) s = .next (State.reply (u.hubEvent 0x21 (p.arg 0)) p stOK [u.rd Reg.REC_PKG_NEXT])) ∧
  (∀ (s u : State) (p : Pkt), s.Admits 0x844 p → u = s.takeCmd 0x844 p → p.is 1 = true → s.recPresent (p.arg 0) = true →
    exec (.recStatus p) s = .next (
    if !u.recEnabled (p.arg 0) then State.reply u p stOK [0, 0] else State.reply u p stOK [u.rd (recStatReg (p.arg 0)), u.rd (recNextReg (p.arg 0))]))

/-- An ordered entry begins and is asked of what must be idle; while something delays it is asked again, until the limit abandons it; one that nothing
delays is executed. A wake source wakes what it may wake, a wake goes from step to step as its hardware answers, is retried once after a step's time limit and fails the second time, and completes. -/
def Obligations.PowerChangesComplete : Prop :=
  (∀ (s : State) (e : PwEntry), s.pw.orders.find? (fun x => x.scope == 4) = some e →
    exec (.powerEntryStart 4) s = .next (s.startEntry e)) ∧
  (∀ (s : State) (t : Nat) (e : PwEntry), t < 4 → s.pw.orders.find? (fun x => x.scope == t) = some e →
    exec (.powerEntryStart t) s = .next (s.beginChange e none)) ∧
  (∀ (s : State) (scope : Nat) e, s.pw.entries.find? (fun e => e.scope == scope && e.delayFrom.isSome) = some e →
    exec (.entryReask scope) s = .next ((s.advanceTo (s.tick + 1600)).askEntry e)) ∧
  (∀ (s : State) (scope d n at_ : Nat) (e : PwEntry), s.pw.entries.find? (fun e => e.scope == scope) = some e → e.delayFrom = some d →
    s.askBlocks e = .delay n at_ →
    exec (.entryDelayTimeout scope) s = .next ((s.advanceTo (d + (s.rf Reg.PW_CFG 31 16 * 1600 + 1))).abandonEntry e 0x0E 0)) ∧
  (∀ (s : State) (scope : Nat) e, s.pw.entries.find? (fun e => e.scope == scope && e.delayFrom.isNone) = some e →
    exec (.powerEntryExec scope) s = .next (
      if scope < 4 then s.enterTile e
      else if !e.sys then s.enterDeep e
      else if s.isLead then (if s.unreported = [] then (s.copyDown opGo []).enterDeep e else s)
      else if s.pw.sysGo then s.enterDeep e
      else s)) ∧
  (∀ (s : State) (src : Nat) (tiles : List Nat), 3 ≤ src → src ≤ 5 →
    exec (.wakeSource src tiles) s = .next (s.wakeArrive src tiles)) ∧
  (∀ (s : State) (scope bad : Nat) w, s.pw.wakes.find? (fun w => w.scope == scope) = some w →
    exec (.wakeStepDone scope bad) s = .next (
      if scope = 4 then
        if w.step = 1 then (s.powerGood 0).setWakeStep 4 2
        else if w.step = 2 then (s.wakeClk bad).setWakeStep 4 3
        else if w.step = 3 then
          (((s.forEach [7, 3, 4] fun u d => u.setDom d true).pf Reg.FH_STATUS 7 0 0).checkBanks [1, 2, 5, 6, 7] bad).setWakeStep 4 4
        else if w.step = 4 then
          let s1 := ((s.forEach [5, 6] fun u d => u.setDom d true).checkBanks [3, 4] bad).setWakeStep 4 5
          s1.forEach s1.deepWakes fun u t => u.wakeDeepTile t w.source
        else if w.step = 5 ∧ !s.pw.wakes.any (fun x => decide (x.scope < 4 ∧ x.step < 8)) then
          (s.setWakeStep 4 8).forEach ([4, 5].filter s.part.hasLink) fun u l => u.startTrain l none
        else s
      else if w.step = 5 then ((s.powerGood (1 + scope)).setDom (8 + scope) true).setWakeStep scope 6
      else if w.step = 6 then s.setWakeStep scope 7
      else if w.step = 7 ∧ s.linkState scope ≠ 1 then
        (s.checkBanks [8 + scope, 12 + scope, 16 + scope] bad).startTrain scope none
      else s)) ∧
  (∀ (s : State) (scope : Nat) w, s.pw.wakes.find? (fun w => w.scope == scope) = some w → let pg := w.step = 1 ∨ w.step = 5
    let lim := if pg then max 1 (s.rf Reg.PW_CFG 15 8) * 1600000 else max 1 (s.rf Reg.PW_CFG 7 0) * 16000
    (w.step == 1 || w.step == 2 || w.step == 5 || w.step == 6) = true → ¬ (scope = 4 ∧ 5 ≤ w.step) → let s1 := s.advanceTo (w.stepStart + lim)
    exec (.wakeStepTimeout scope) s = .next (
      if w.retried then (if scope = 4 then s1.failPkgWake w else s1.failTileWake scope)
      else
        let s2 := (s1.hubEvent 0x73 ((if scope = 4 then 0xF else scope) * 256 + w.step)).bump (Cnt.pwPackage 3)
        let s3 := s2.advanceTo (s2.tick + 1600000)
        { s3 with pw := { s3.pw with wakes := s3.pw.wakes.map (fun x =>
            if x = w then { w with retried := true, stepStart := s3.tick } else x) } })) ∧
  (∀ (s : State) (scope : Nat) w, s.pw.wakes.find? (fun w => w.scope == scope && w.step == 8) = some w →
    exec (.wakeComplete scope) s = .next (
      if scope < 4 then
        if s.pkgState = 3 then s
        else
          let late := w.late || w.dueBy.any (fun t => decide (s.shortDiff t < 0))
          let s1 := (({ s with pw := { s.pw with wakes := s.pw.wakes.erase w } } : State).recordWake w).tileRunning scope
          let s2 := s1.bumpBy (Cnt.pwTile scope 4) (b2n late)
          match w.ref with
          | some r => if r.op = 0x904 then s2.retryNotice r else s2.tileNotice (some r) stOK late
          | none => s2
      else
        let ts := s.tiles.filter (fun t => s.pw.wakes.any (fun x => x.scope == t))
        let gone := s.rf Reg.PW_WAKE_REC 27 24
        let s1 := (({ s with pw := { s.pw with wakes := [] } } : State).recordWake w).forEach ts State.tileBack
        let s2 := { s1 with pw := { s1.pw with deepTiles := [] } }
        let s3 := ((s2.setPkg 0).powerEvent 4 0).enterState (s.rf Reg.GL_STATE 15 12) 0x12
        let s4 := (s3.hubEvent 0x72 (w.source * 2 ^ 16 + s3.rf Reg.PW_LAST_WAKE 15 0)).pwEvt 0
        let s5 := s4.eventNotice 5 0x06 (w.source + gone * 256)
        match w.ref with
        | some r => s5.finish r stOK [s5.rd Reg.PW_WAKE_REC]
        | none => s5)) ∧
  (∀ s : State, (s.pkgState = 2 ∨ s.pkgState = 3 ∨ s.pkgState = 4) → s.domOn 2 = false → s.pw.refclkLost = false →
    exec .refclkLoss s = .next (((State.pwEvt { s with pw := { s.pw with refclkLost := true } } 5).hubEvent 0x77 0).bump (Cnt.pwPackage 7)))

/-- PW_STATUS reads the power registers; PW_TILE with now orders its tiles' changes, which begin at once; PW_DEEP orders package sleep; PW_WAKE and the doorbell are wake
source 2; PW_WAKE_RETRY tries a failed wake again; PW_PAD_RELEASE, PW_RET_CLEAR, PW_CONFIG and PW_BLANK act on their registers; a blanking window blanks its
paths and ends. -/
def Obligations.PowerCommandsComplete : Prop :=
  (∀ (s : State) d, s.tb.tileDues.find? (fun (d : Nat × Nat × Nat × Bool) => d.1 == 9) = some d → let at_ := d.2.2.1
    let same := s.tb.tileDues.filter (fun (x : Nat × Nat × Nat × Bool) => x.1 = 9 ∧ x.2.2.1 = at_)
    let s0 := ({ s with tb := { s.tb with tileDues := s.tb.tileDues.filter (fun (x : Nat × Nat × Nat × Bool) => !same.contains x) } } : State).advanceTo at_
    let ns := s.rf Reg.PW_BLK_LEN 19 0
    exec .blankWindow s = .next (
      if ns < 4000 then (s0.pwEvt 6).bump (Cnt.pwBlank 1)
      else
        let stop := at_ + ticksNs ns
        let ps := same.flatMap (fun (x : Nat × Nat × Nat × Bool) => s.blankPaths x.2.1)
        let s1 := s0.forEach ps fun u p =>
          let x := u.txOf p
          ((u.setTx p { x with blankEnd := some (max stop (x.blankEnd.getD 0)) }).blankEnter p).followDemands p
        s1.bump (Cnt.pwBlank 0))) ∧
  (∀ (s : State) (p : Nat) t, (s.txOf p).blankEnd = some t → let s1 := s.advanceTo t
    let s2 := s1.setTx p { s1.txOf p with blankEnd := none }
    exec (.blankingWindowEnd p) s = .next ((if s2.mayBlank p 6400 ∧ !s2.txDemand (p / 4) s2.tick then s2 else s2.blankLeave p).followDemands p)) ∧
  (∀ (s : State) (w : Word), s.Reaches Reg.PW_DOORBELL →
    exec (.pwDoorbellWrite w) s = .next (if bit w 0 then s.wakeArrive 2 [] else s)) ∧
  (∀ (s : State) (w : Word), s.Reaches Reg.PW_PAD_REL →
    exec (.pwPadRelWrite w) s = .next (s.releasePads (maskOf (s.runRows (fld w 23 0))))) ∧
  (∀ (s u : State) (p : Pkt), s.Admits 0x900 p → u = s.takeCmd 0x900 p → p.is 0 = true →
    exec (.pwStatus p) s = .next (
    State.reply u p stOK [u.rd Reg.PW_STAT, u.rd Reg.PW_WAKE_REC, u.rd Reg.PW_LAST_WAKE, u.rd Reg.PW_RET_FAIL])) ∧
  (∀ (s u u1 : State) (p : Pkt), s.Admits 0x901 p → s.Room p → u = s.takeCmd 0x901 p → p.flags = 1 → p.params.length = 2 → 0 < p.arg 0 →
    p.arg 0 < 2 ^ s.part.tiles → p.arg 1 ≤ 2 → (bitsSet (p.arg 0) 4).any (fun t => u.scopeBusy t || u.pw.pends.any (fun x => x.tile == t)) = false →
    p.ref 0x901 0 ∉ s.host.accepted → u1 = State.accept (u.orderTiles ((bitsSet (p.arg 0) 4).map (fun t => (t, p.arg 1))) (p.ref 0x901 0)) 0x901 p 0 [] →
    exec (.pwTile p) s = .next (u1.forEach (u1.pw.orders.filter (fun e => e.ref == some (p.ref 0x901 0) &&
      !((e.target == 1 && u1.tileState e.scope == 0) || (e.target == 2 && decide (u1.tileState e.scope ≤ 1))))) fun v e =>
        if e ∈ v.pw.orders then v.beginChange e none else v)) ∧
  (∀ (s u : State) (p : Pkt), s.Admits 0x902 p → s.Room p → u = s.takeCmd 0x902 p → p.flags = 0 → p.params.length = 0 → s.dev = 2 ∨ s.dev = 3 →
    u.scopeBusy 4 = false →
    exec (.pwDeep p) s = .next (State.accept (u.orderDeep (some (p.ref 0x902 0)) false none) 0x902 p 0 [])) ∧
  (∀ (s u : State) (p : Pkt), s.Admits 0x903 p → u = s.takeCmd 0x903 p → p.is 0 = true →
    exec (.pwWake p) s = .next (State.reply (u.wakeArrive 2 []) p stOK [])) ∧
  (∀ (s u : State) (p : Pkt), let ts := (bitsSet (p.arg 0) 4).filter (fun t => s.tileState t == 6)
    let failed := if (p.arg 0) = 0 then s.pkgState == 4 else ts != []
    let ref := p.ref 0x904 (p.arg 0)
    s.Admits 0x904 p → s.Room p → u = s.takeCmd 0x904 p → p.is 1 = true → (p.arg 0) < 2 ^ s.part.tiles → failed = true → ((p.arg 0) == 0 || s.dev != 7) = true →
    exec (.pwWakeRetry p) s = .next (
    if (p.arg 0) = 0 then
      let w : PwWake := { scope := 4, step := 1, stepStart := u.tick, start := u.tick, source := 0, seen := 0, ref := some ref }
      let u1 := (u.setPkg 3).bump (Cnt.pwPackage 2)
      State.accept ({ u1 with pw := { u1.pw with wakes := u1.pw.wakes ++ [w], pen := setBitN u1.pw.pen 0 } } : State) 0x904 p (p.arg 0) []
    else if ts.any u.scopeBusy then State.reply u p stBUSY []
    else
      let u1 := u.forEach ts fun v t =>
        let w : PwWake := { scope := t, step := 5, stepStart := v.tick, start := v.tick, source := 0, seen := 0, ref := some ref }
        let v1 := v.setTileState t 5
        { v1 with pw := { v1.pw with wakes := v1.pw.wakes ++ [w], pen := setBitN v1.pw.pen (1 + t) } }
      State.accept u1 0x904 p (p.arg 0) [])) ∧
  (∀ (s u : State) (p : Pkt), s.Admits 0x905 p → u = s.takeCmd 0x905 p → p.is 1 = true → p.arg 0 < 2 ^ s.part.rows →
    exec (.pwPadRelease p) s = .next (
    let rows := bitsSet (p.arg 0) 24
    if u.runRows (p.arg 0) ≠ rows then State.reply u p stITEM []
    else State.reply (u.releasePads (p.arg 0)) p stOK [toW (Nat.land (p.arg 0) (u.rf Reg.PW_PAD_STAT 23 0))])) ∧
  (∀ (s u : State) (p : Pkt), s.Admits 0x906 p → u = s.takeCmd 0x906 p → p.is 1 = true → p.arg 0 < 2 ^ 20 →
    exec (.pwRetClear p) s = .next (
    let m := Nat.land (p.arg 0) reportedBanks
    let u1 := u.wr Reg.PW_RET_FAIL (maskW (u.rd Reg.PW_RET_FAIL) (0xFFFFFFFF - m))
    State.reply u1 p stOK [u1.rd Reg.PW_RET_FAIL])) ∧
  (∀ (s u : State) (p : Pkt), s.Admits 0x907 p → u = s.takeCmd 0x907 p → p.is 6 = true →
    exec (.pwConfig p) s = .next (
    let u1 := (u.poke Reg.PW_CFG (wordAt p.params 0)).poke Reg.PW_WAKE_EN (wordAt p.params 1)
    State.reply (u1.forEach (List.range 4) fun v t => v.poke (Reg.PW_PAD_CFG t) (wordAt p.params (2 + t))) p stOK [])) ∧
  (∀ (s u : State) (p : Pkt), let ok := (List.range 96).all (fun q => !bit (wordAt p.params (q / 32)) (q % 32) || decide (q < s.part.paths))
    s.Admits 0x908 p → u = s.takeCmd 0x908 p → p.is 4 = true → ok = true →
    exec (.pwBlank p) s = .next (
    let u1 := u.forEach (List.range 3) fun v n => v.poke (Reg.PW_BLK_PATH n) (wordAt p.params n)
    State.reply (u1.poke Reg.PW_BLK_LEN (wordAt p.params 3)) p stOK []))

/-- The reset value of the register at BAR0 offset 0 is the part's, its fields are the part code, one bit per tile present, the number of cascade
ports, temperature grade 1 and stepping B0; and a host's read of the register, while its reset value stands, returns it. -/
def Obligations.IdDeviceIdentifiesThePart : Prop :=
  resetWord .el9600 0 = 0x9600F9B0 ∧ resetWord .el9672 0 = 0x967275B0 ∧ resetWord .el9648 0 = 0x964831B0 ∧
  (∀ p : Part, fld (resetWord p 0) 15 12 = 2 ^ p.tiles - 1 ∧ fld (resetWord p 0) 11 10 = p.casc ∧ fld (resetWord p 0) 9 8 = 1 ∧
    fld (resetWord p 0) 7 4 = 0xB ∧ fld (resetWord p 0) 3 0 = 0) ∧
  fld (resetWord .el9600 0) 31 16 = 0x9600 ∧ fld (resetWord .el9672 0) 31 16 = 0x9672 ∧ fld (resetWord .el9648 0) 31 16 = 0x9648 ∧
  (∀ s u : State, u = s.egressRun → u.pcieUp = true → u.tb.hiCap = [] → u.rd 0 = resetWord u.part 0 →
    exec (.registerRead false 0 15) s = .next (u.answer (resetWord u.part 0)))

/-- After power-on the device is in BOOT, the tick counter is 0, the rate word is 0x00A0_0000_0000, the grid origin is the GPS epoch, the comparators
0-31 and 32-63, the position, boot, self-check and mask registers hold the values of their tables, and every counter area sampled is 0. -/
def Obligations.ResetHoldsTheStatedValues : Prop :=
  State.reset.dev = 1 ∧ State.reset.tick = 0 ∧ State.reset.epoch = 0 ∧
  State.reset.rd Reg.GL_STATE = 1 ∧ State.reset.rd Reg.GL_PKG_POS = 0x110 ∧ State.reset.rd Reg.GL_CHIAST = 0x100 ∧
  State.reset.rd Reg.GL_BOOT = 0xFF0000 ∧ State.reset.rd Reg.SV_CTRL = 0x4000004 ∧ State.reset.rd Reg.SV_FAULT_MASK = 0x1BF ∧
  State.reset.rd Reg.TB_RATE_LO = 0 ∧ State.reset.rd Reg.TB_RATE_HI = 0xA0 ∧
  State.reset.rd Reg.TB_GRID_ORG_SEC_LO = 315964819 ∧ State.reset.rd Reg.TB_GRID_ORG_SEC_HI = 0 ∧ State.reset.rd Reg.TB_GRID_ORG_NS = 0 ∧
  (∀ n < 32, State.reset.rd (Reg.TB_CMP_CTRL n) = 0x001F0020) ∧ (∀ n < 64, 32 ≤ n → State.reset.rd (Reg.TB_CMP_CTRL n) = 0x001F0000) ∧
  (∀ i < 64, State.reset.rd (0xD04000 + 4 * i) = 0) ∧ (∀ i < 64, State.reset.rd (0x804000 + 4 * i) = 0)

/-- On a lead out of SERVICE, a TIME_GRID that is accepted there sets the three origin registers to its values, a write of the origin's ns register
sets it, and a write of the origin's high seconds sets both seconds registers, the low one to the last value written to it. In SERVICE a TIME_GRID with good
parameters is answered STATE_CONFLICT with the state word, and a write to any register of the origin, on a lead or a member, sets
grid_wr_err and changes no other register, no staged value and no value kept for a pair. -/
def Obligations.GridOriginIsNotWrittenInService : Prop :=
  (∀ (s u : State) (p : Pkt), s.Canonical → s.Admits 0x106 p → s.isLead = true → p.is 3 = true → p.arg 0 < 2 ^ 16 → p.arg 2 < 1000000000 →
    u = (s.takeCmd 0x106 p).setOrigin (p.arg 0 * 2 ^ 32 + p.arg 1) (p.arg 2) →
    exec (.timeGrid p) s = .next (u.reply p stOK []) ∧ u.rd Reg.TB_GRID_ORG_SEC_LO = toW (p.arg 1) ∧
    u.rd Reg.TB_GRID_ORG_SEC_HI = toW (p.arg 0) ∧ u.rd Reg.TB_GRID_ORG_NS = toW (p.arg 2)) ∧
  (∀ (s : State) (w : Word), s.Canonical → s.pcieUp = true → s.domOn 2 = true → s.isLead = true → s.dev ≠ 4 →
    (∃ t, exec (.registerWrite Reg.TB_GRID_ORG_NS w 15) s = .next t ∧ t.rd Reg.TB_GRID_ORG_NS = w) ∧
    (∃ t, exec (.registerWrite Reg.TB_GRID_ORG_SEC_HI w 15) s = .next t ∧ t.rd Reg.TB_GRID_ORG_SEC_HI = toW (fld w 15 0) ∧
      t.rd Reg.TB_GRID_ORG_SEC_LO = s.lastLo Reg.TB_GRID_ORG_SEC_LO (s.rd Reg.TB_GRID_ORG_SEC_LO)) ∧
    (∃ t, exec (.registerWrite Reg.TB_GRID_ORG_SEC_LO w 15) s = .next t ∧ t.lastLo Reg.TB_GRID_ORG_SEC_LO 0 = w)) ∧
  (∀ (s : State) (p : Pkt), s.Taken 0x106 p → s.dev = 4 → p.is 3 = true → p.arg 0 < 2 ^ 16 → p.arg 2 < 1000000000 →
    exec (.timeGrid p) s = .next ((s.takeCmd 0x106 p).reply p stSTATE [s.stateWord])) ∧
  (∀ (s : State) (a be : Nat) (w : Word), s.Canonical → s.pcieUp = true → s.domOn 2 = true → s.dev = 4 →
    a = Reg.TB_GRID_ORG_SEC_LO ∨ a = Reg.TB_GRID_ORG_SEC_HI ∨ a = Reg.TB_GRID_ORG_NS →
    ∃ t, exec (.registerWrite a w be) s = .next t ∧ t.rb Reg.TB_STATUS 9 = true ∧ (∀ b, b ≠ Reg.TB_STATUS → t.rd b = s.rd b) ∧
      t.staged = s.staged ∧ t.tb = s.tb)

/-- Of the rows named, a packet that is taken with a wrong parameter is answered BAD_PARAM whatever the state; with good parameters, in a state that does not accept
the opcode, STATE_CONFLICT with one word, the state in force in [3:0] and the previous one in [7:4]; and on a member, where the command is the lead's,
DENIED. Taking a packet and answering it writes no register outside the mailbox block and changes nothing of the block but its mailboxes, its interrupts and the order in
which mailboxes are served. -/
def Obligations.RejectedCommandsHaveNoSideEffect : Prop :=
  (∀ (s : State) (p : Pkt), s.Taken 0x103 p → p.is 1 = false ∨ 1 < p.arg 0 → exec (.timeHold p) s = .next ((s.takeCmd 0x103 p).reply p stPARAM [])) ∧
  (∀ (s : State) (p : Pkt), s.Taken 0x200 p → p.is 1 = false ∨ 3 ≤ p.arg 0 → exec (.fhPortMode p) s = .next ((s.takeCmd 0x200 p).reply p stPARAM [])) ∧
  (∀ (s : State) (p : Pkt), s.Taken 0x305 p → p.is 2 = false ∨ 2 ≤ p.arg 0 ∨ 2 ≤ p.arg 1 →
    exec (.bfMode p) s = .next ((s.takeCmd 0x305 p).reply p stPARAM [])) ∧
  (∀ (s : State) (p : Pkt), s.Taken 0x504 p → p.is 2 = false ∨ s.part.paths ≤ p.arg 0 → exec (.txMute p) s = .next ((s.takeCmd 0x504 p).reply p stPARAM [])) ∧
  (∀ (s : State) (p : Pkt), s.Taken 0x882 p → p.is 2 = false ∨ s.part.parcels ≤ p.arg 0 ∨ 16 ≤ p.arg 1 →
    exec (.maConvert p) s = .next ((s.takeCmd 0x882 p).reply p stPARAM [])) ∧
  (∀ (s : State) (p : Pkt), s.Taken 0x102 p → s.stepOk p = true → s.dev = 4 ∨ s.dev = 7 ∨ s.dev = 8 →
    exec (.timeStep p) s = .next ((s.takeCmd 0x102 p).reply p stSTATE [s.stateWord])) ∧
  (∀ (s : State) (p : Pkt), s.Taken 0x200 p → p.is 1 = true → p.arg 0 < 3 → s.dev ≠ 2 → s.dev ≠ 3 →
    exec (.fhPortMode p) s = .next ((s.takeCmd 0x200 p).reply p stSTATE [s.stateWord])) ∧
  (∀ (s : State) (p : Pkt), s.Taken 0x043 p → p.is 4 = true → s.chkAt (p.arg 0) (p.arg 1) = true → p.arg 1 < 256 → p.arg 2 < 256 → p.arg 3 < 2 → s.dev ≠ 5 →
    exec (.svInject p) s = .next ((s.takeCmd 0x043 p).reply p stSTATE [s.stateWord])) ∧
  (∀ s : State, fld s.stateWord 3 0 = s.dev ∧ fld s.stateWord 7 4 = s.rf Reg.GL_STATE 11 8 ∧ fld s.stateWord 31 8 = 0) ∧
  (∀ (s : State) (p : Pkt), s.Admits 0x103 p → p.is 1 = true → p.arg 0 ≤ 1 → s.isLead = false →
    exec (.timeHold p) s = .next ((s.takeCmd 0x103 p).reply p stDENIED [])) ∧
  (∀ (s : State) (p : Pkt), s.Admits 0x402 p → p.is 1 = true → p.arg 0 < 64 → s.isLead = false →
    exec (.solJobCancel p) s = .next ((s.takeCmd 0x402 p).reply p stDENIED [])) ∧
  (∀ (s : State) (p : Pkt), s.Admits 0x702 p → p.is 1 = true → p.arg 0 < 2 → s.isLead = false →
    exec (.calRun p) s = .next ((s.takeCmd 0x702 p).reply p stDENIED [])) ∧
  (∀ (s t : State) (p : Pkt) (op code : Nat) (ws : List Word), s.Canonical → p.mb < 8 → t = (s.takeCmd op p).reply p code ws →
    (∀ a, a < 0xD00000 ∨ 0xD10000 ≤ a → t.rd a = s.rd a) ∧ t.staged = s.staged ∧ t.tick = s.tick ∧ t.tb = s.tb ∧ t.tr = s.tr ∧ t.sol = s.sol ∧
    t.fh = s.fh ∧ t.links = s.links ∧ t.dma = s.dma ∧ t.mon = s.mon ∧ t.pw = s.pw ∧ t.th = s.th ∧ t.cel = s.cel ∧ t.celOrders = s.celOrders ∧
    t.recs = s.recs ∧ t.sv = s.sv ∧ t.cal = s.cal ∧ t.host.accepted = s.host.accepted ∧ t.host.busy = s.host.busy ∧ t.host.slots = s.host.slots)

/-- Writing a word to a slot of the stores leaves the word's 48 bits in the slot's first six bytes and its tag in the seventh, and changes no other byte, the
reserved eighth included; the slot then reads as the word's two components, not poisoned. Through a window the same holds: after a write of the high half
of a slot of the channel store, or of an idle weight store that is not frozen, a read of the low half gives the word's bits 31:0, and a read of the high half gives its bits
47:32 with the tag above them in bits 23:16. -/
def Obligations.SlotsHoldTheWordAndItsTag : Prop :=
  (∀ (s t : State) (a v : Nat), s.Canonical → v < 2 ^ 48 → t = s.writeSlot a v →
    t.memNat a 6 = v ∧ (t.memByte (a + 6)).toNat = tag48 v ∧ (∀ b, b < a ∨ a + 7 ≤ b → t.memByte b = s.memByte b) ∧
    t.readSlot a = ({ i := sext (v / 2 ^ 24) 24, q := sext v 24, bad := false }, false)) ∧
  (∀ (s : State) (o : Nat) (w lo : Word), s.Canonical → s.pcieUp = true → s.domOn 7 = true → o % 8 = 0 →
    (0x10000 ≤ o ∧ o < 0x20000) ∨ (0x4100000 ≤ o ∧ o < 0x4100000 + 28672 * 0x300 ∧ s.rb Reg.TR_STATUS 1 = false) →
    Sparse.get (fun _ => none) s.tr.lows (s.barPhys (barWindow o).1 (barWindow o).2) = some lo → ∃ t : State,
    exec (.storeSlotWrite (o + 4) w 15) s = .next t ∧ t.pcieUp = true ∧ t.domOn 7 = true ∧
    ∀ u : State, u = t.egressRun → u.pcieUp = true → u.domOn 7 = true → u.tr = t.tr → u.liveStore = t.liveStore →
      exec (.registerRead true o 15) t = .next (u.answer lo) ∧
      ∃ x : Word, exec (.registerRead true (o + 4) 15) t = .next (u.answer x) ∧ fld x 15 0 = fld w 15 0 ∧
        fld x 23 16 = tag48 (fld w 15 0 * 2 ^ 32 + lo.toNat))

/-- The check of a requantisation passes exactly when the residue carried is the residue of kept times 2^k plus that of dropped, modulo 15; with k = 0, when it is
the residue of the whole value. In RDQ of an accumulator, in SHR of a register and in CMPY of a product, in both views where there are two, a core whose
operands are not poisoned goes on when the check of each component passes, and fails with cause 1 when one does not. -/
def Obligations.RequantisationChecksTheResidue : Prop :=
  (∀ (v : Int) (r k : Nat) (fl : Bool), (requant v r k fl).2.2 = true ↔
    r % 15 = (residue (v / ((2 ^ k : Nat) : Int)) * 2 ^ k + residue (v - v / ((2 ^ k : Nat) : Int) * ((2 ^ k : Nat) : Int))) % 15) ∧
  (∀ (v : Int) (r : Nat) (fl : Bool), (requant v r 0 fl).2.2 = true ↔ r % 15 = residue v) ∧
  (∀ (s : State) (c : Nat) (f : FmtMQ) (a : AccW) (k : Nat), s.MIssues c (f.word 5) → f.fits = true → a = (s.coreOf c).accOf f.acc →
    k = (s.coreOf c).shift f.k → f.real = true → a.ri ≠ 15 →
    ((requant a.i a.ri k f.rnd).2.2 = false → exec (.mRdq c f) s = .next (s.coreFail c 1)) ∧
    ((requant a.i a.ri k f.rnd).2.2 = true → ∃ r, exec (.mRdq c f) s = .next (s.mDone c r))) ∧
  (∀ (s : State) (c : Nat) (f : FmtMQ) (a : AccW) (k : Nat), s.MIssues c (f.word 5) → f.fits = true → a = (s.coreOf c).accOf f.acc →
    k = (s.coreOf c).shift f.k → f.real = false → a.poisoned = false →
    ((requant a.i a.ri k f.rnd).2.2 = false ∨ (requant a.q a.rq k f.rnd).2.2 = false → exec (.mRdq c f) s = .next (s.coreFail c 1)) ∧
    ((requant a.i a.ri k f.rnd).2.2 = true → (requant a.q a.rq k f.rnd).2.2 = true → ∃ r, exec (.mRdq c f) s = .next (s.mDone c r))) ∧
  (∀ (s : State) (c : Nat) (f : FmtMR) (a : OpR), s.MIssues c (f.word 0x12) → f.fits = true → a = ((s.coreOf c).reg f.a).asR → f.real = true →
    a.bad = false →
    ((requant a.x a.r f.imm6 true).2.2 = false → exec (.mShr c f) s = .next (s.coreFail c 1)) ∧
    ((requant a.x a.r f.imm6 true).2.2 = true → ∃ r, exec (.mShr c f) s = .next (s.mDone c r))) ∧
  (∀ (s : State) (c : Nat) (f : FmtMR) (a : OpC), s.MIssues c (f.word 0x12) → f.fits = true → a = ((s.coreOf c).reg f.a).asC → f.real = false →
    a.bad = false →
    ((requant a.i a.ri f.imm6 true).2.2 = false ∨ (requant a.q a.rq f.imm6 true).2.2 = false → exec (.mShr c f) s = .next (s.coreFail c 1)) ∧
    ((requant a.i a.ri f.imm6 true).2.2 = true → (requant a.q a.rq f.imm6 true).2.2 = true → ∃ r, exec (.mShr c f) s = .next (s.mDone c r))) ∧
  (∀ (s : State) (c : Nat) (f : FmtMP) (a b : OpC) (k : Nat) (z : (Int × Nat) × (Int × Nat)), s.MIssues c (f.word 4) → f.fits = true →
    a = ((s.coreOf c).reg f.x).asC → b = ((s.coreOf c).reg f.y).asC → k = (s.coreOf c).shift f.k → a.bad = false → b.bad = false → z = cmul a b f.cj →
    ((requant z.1.1 z.1.2 k f.rnd).2.2 = false ∨ (requant z.2.1 z.2.2 k f.rnd).2.2 = false → exec (.mCmpy c f) s = .next (s.coreFail c 1)) ∧
    ((requant z.1.1 z.1.2 k f.rnd).2.2 = true → (requant z.2.1 z.2.2 k f.rnd).2.2 = true → ∃ r, exec (.mCmpy c f) s = .next (s.mDone c r)))

/-- When every register and accumulator of a core carries the residues of its components or is poisoned, each of the multiplications, accumulations,
requantisations, sums, negations, conversions and shifts issues without a check failure or a program error, and the word or accumulator it writes carries the
residues of its own value, through saturation and rounding, or is poisoned. -/
def Obligations.ResiduesFollowTheArithmetic : Prop :=
  (∀ (s : State) (c : Nat) (f : FmtMA), (s.coreOf c).Tagged → f.fits = true →
    (s.MIssues c (f.word 1) → ∃ r : MRes, r.Tagged ∧ exec (.mCmac c f) s = .next (s.mDone c r)) ∧
    (s.MIssues c (f.word 2) → ∃ r : MRes, r.Tagged ∧ exec (.mDmac c f) s = .next (s.mDone c r)) ∧
    (s.MIssues c (f.word 3) → ∃ r : MRes, r.Tagged ∧ exec (.mMulw c f) s = .next (s.mDone c r))) ∧
  (∀ (s : State) (c : Nat) (f : FmtMP), (s.coreOf c).Tagged → f.fits = true →
    s.MIssues c (f.word 4) → ∃ r : MRes, r.Tagged ∧ exec (.mCmpy c f) s = .next (s.mDone c r)) ∧
  (∀ (s : State) (c : Nat) (f : FmtMQ), (s.coreOf c).Tagged → f.fits = true →
    s.MIssues c (f.word 5) → ∃ r : MRes, r.Tagged ∧ exec (.mRdq c f) s = .next (s.mDone c r)) ∧
  (∀ (s : State) (c : Nat) (f : FmtMR), (s.coreOf c).Tagged → f.fits = true →
    (s.MIssues c (f.word 6) → ∃ r : MRes, r.Tagged ∧ exec (.mCplx c f) s = .next (s.mDone c r)) ∧
    (s.MIssues c (f.word 7) → ∃ r : MRes, r.Tagged ∧ exec (.mReal c f) s = .next (s.mDone c r)) ∧
    (s.MIssues c (f.word 8) → ∃ r : MRes, r.Tagged ∧ exec (.mAdd c f) s = .next (s.mDone c r)) ∧
    (s.MIssues c (f.word 9) → ∃ r : MRes, r.Tagged ∧ exec (.mSub c f) s = .next (s.mDone c r)) ∧
    (s.MIssues c (f.word 0xA) → ∃ r : MRes, r.Tagged ∧ exec (.mNeg c f) s = .next (s.mDone c r)) ∧
    (s.MIssues c (f.word 0xB) → ∃ r : MRes, r.Tagged ∧ exec (.mConj c f) s = .next (s.mDone c r)) ∧
    (s.MIssues c (f.word 0xC) → ∃ r : MRes, r.Tagged ∧ exec (.mSwap c f) s = .next (s.mDone c r)) ∧
    (s.MIssues c (f.word 0xD) → ∃ r : MRes, r.Tagged ∧ exec (.mMov c f) s = .next (s.mDone c r)) ∧
    (s.MIssues c (f.word 0x11) → ∃ r : MRes, r.Tagged ∧ exec (.mShl c f) s = .next (s.mDone c r)) ∧
    (s.MIssues c (f.word 0x12) → ∃ r : MRes, r.Tagged ∧ exec (.mShr c f) s = .next (s.mDone c r)))

/-- On a lead that is not in holdover, a write of TB_RATE_ADJ adds the signed value to the rate word, held to 68,719,477 units either side of
0x00A0_0000_0000, sets rate_clamp when the sum lay outside, and makes the local time of the next tick the base time, so that time does not jump and runs at the
new rate from there on; in holdover it changes no register but TB_STATUS, where adj_dropped is set; on a member it changes nothing. -/
def Obligations.RateStaysWithinItsLimits : Prop :=
  (∀ (s t : State) (w : Word) (r : Int), s.Canonical → s.Reaches Reg.TB_RATE_ADJ → s.isLead = true → s.rb Reg.TB_STATUS 1 = false →
    r = (s.rate : Int) + sext w.toNat 32 → exec (.tbRateAdjWrite w) s = .next t →
    0xA000000000 - 68719477 ≤ t.rate ∧ t.rate ≤ 0xA000000000 + 68719477 ∧
    (0xA000000000 - 68719477 ≤ r → r ≤ 0xA000000000 + 68719477 → (t.rate : Int) = r ∧ t.rb Reg.TB_STATUS 3 = s.rb Reg.TB_STATUS 3) ∧
    (r < 0xA000000000 - 68719477 → t.rate = 0xA000000000 - 68719477 ∧ t.rb Reg.TB_STATUS 3 = true) ∧
    (0xA000000000 + 68719477 < r → t.rate = 0xA000000000 + 68719477 ∧ t.rb Reg.TB_STATUS 3 = true) ∧
    t.tick = s.tick ∧ t.tb.baseCount = s.tick + 1 ∧ t.tb.baseTime = s.timeAt (s.tick + 1) ∧
    (∀ k, t.timeAt (s.tick + 1 + k) = s.timeAt (s.tick + 1) + k * t.rate)) ∧
  (∀ (s : State) (w : Word), s.Reaches Reg.TB_RATE_ADJ → s.isLead = true → s.rb Reg.TB_STATUS 1 = true →
    exec (.tbRateAdjWrite w) s = .next (s.pb Reg.TB_STATUS 4 true)) ∧
  (∀ (s : State) (w : Word), s.Reaches Reg.TB_RATE_ADJ → s.isLead = false → exec (.tbRateAdjWrite w) s = .next s)

/-- While its core can issue it, each of the arithmetic M-slot instructions named, in a state whose register stores and list of cores are in canonical form, changes no other core, no register but the saturation counter, no staged value, no byte of the stores and
nothing of the rest of the block; its core's registers, accumulators, data memory, address registers, loops and PC stay as they are until the bundle ends. -/
def Obligations.MSlotChangesItsCoreAlone : Prop :=
  ∀ (s t : State) (c : Nat) (g : FmtMA) (f : FmtMR), s.Canonical → Sparse.wf (fun _ => ({} : CoreSt)) s.sol.cores = true →
    (s.MIssues c (g.word 1) ∧ g.fits = true ∧ exec (.mCmac c g) s = .next t) ∨ (s.MIssues c (g.word 2) ∧ g.fits = true ∧ exec (.mDmac c g) s = .next t) ∨
    (s.MIssues c (g.word 3) ∧ g.fits = true ∧ exec (.mMulw c g) s = .next t) ∨ (s.MIssues c (f.word 0) ∧ f.fits = true ∧ exec (.mNop c f) s = .next t) ∨
    (s.MIssues c (f.word 8) ∧ f.fits = true ∧ exec (.mAdd c f) s = .next t) ∨ (s.MIssues c (f.word 9) ∧ f.fits = true ∧ exec (.mSub c f) s = .next t) ∨
    (s.MIssues c (f.word 0xA) ∧ f.fits = true ∧ exec (.mNeg c f) s = .next t) ∨ (s.MIssues c (f.word 0xB) ∧ f.fits = true ∧ exec (.mConj c f) s = .next t) →
    (∃ w : MWrites, t.coreOf c = { s.coreOf c with mw := some w }) ∧ (∀ d, d ≠ c → t.coreOf d = s.coreOf d) ∧
    (∀ a, a ≠ Cnt.solKernel → t.rd a = s.rd a) ∧ t.staged = s.staged ∧ t.tr = s.tr ∧ t.host = s.host ∧ t.tb = s.tb ∧ t.fh = s.fh ∧ t.dma = s.dma ∧
    t.mon = s.mon ∧ t.pw = s.pw ∧ t.cel = s.cel ∧ t.links = s.links ∧ t.recs = s.recs ∧ t.tick = s.tick

/-- Each command of the block, all 397 rows of the table and every event of time among them (TIME_STEP_APPLY, COMPARATOR_FIRE, GRID_BOUNDARY, SYNC_TIMEOUT, SYNCE_LOCK_LOSS,
PPS_IN_EDGE and the rest), with every operand on every state answers a next state: none faults, none is refused, and none waits. What that state holds is said by the command's own
statement; here, that the commands behind it and the part are as they were. -/
def Obligations.EveryCommandCompletes : Prop :=
  ∀ (c : Instr) (s : State), ∃ t : State, exec c s = .next t ∧ t.pending = s.pending ∧ t.part = s.part

/-- The code of a 24-bit value is the value divided by 1,024, to nearest with ties away from zero, held to the 14-bit codes, and clips exactly where it had to be held: link full scale of
+32,767 at unity gain clips and that of -32,768 does not (R234). IP is IFS x (8,192 + code) / 16,384, and IP and IN add up to IFS, which is 10, 20, 30 or 40 mA (R242).
With en = 0 Press passes its sample and counts nothing (R270); with en = 1 its output is the exact sum of its terms divided by 2^20, to nearest with ties away from zero, each
component held to 24 bits, poisoned where a term is (R268). -/
def Obligations.DacAndPressFollowTheirRules : Prop :=
  (∀ v : Int, -8192 ≤ (dacCode v).1 ∧ (dacCode v).1 ≤ 8191 ∧ ((dacCode v).2 = true ↔ 8388096 ≤ v ∨ v ≤ -8389120) ∧
    ((dacCode v).2 = false → 2 * (1024 * (dacCode v).1 - v) ≤ 1024 ∧ -1024 ≤ 2 * (1024 * (dacCode v).1 - v) ∧
      (2 * (1024 * (dacCode v).1 - v) = 1024 → 0 ≤ v) ∧ (2 * (1024 * (dacCode v).1 - v) = -1024 → v ≤ 0))) ∧
  (∀ v : Int, 8388096 ≤ v → dacCode v = (8191, true)) ∧ (∀ v : Int, v ≤ -8389120 → dacCode v = (-8192, true)) ∧
  dacCode 8388352 = (8191, true) ∧ dacCode (-8388608) = (-8192, false) ∧
  (∀ (r : Nat) (code : Int), 16384 * (dacCurrents r (64 * code)).1 = (ifsOf r : Int) * 2 ^ 20 * (8192 + code) ∧
    (dacCurrents r (64 * code)).1 + (dacCurrents r (64 * code)).2 = (ifsOf r : Int) * 2 ^ 20 ∧
    8192 * ((dacCurrents r (64 * code)).1 - (dacCurrents r (64 * code)).2) = (ifsOf r : Int) * 2 ^ 20 * code) ∧
  (ifsOf 0 = 10 ∧ ifsOf 1 = 20 ∧ ifsOf 2 = 30 ∧ ifsOf 3 = 40) ∧
  (∀ (cfg : Word) (coefs : List Word) (x : Sig) (qs : List Sig) (n : Int), bit cfg 31 = false → pressSample cfg coefs x qs n = (x n, 0)) ∧
  (∀ (cfg : Word) (coefs : List Word) (x : Sig) (qs : List Sig) (n : Int) (z y : Cx), bit cfg 31 = true →
    z = cxDot ((pressTerms cfg x qs n).map (fun (t : Nat × Cx) => (slotCx coefs t.1, t.2))) → y = (pressSample cfg coefs x qs n).1 →
    y.bad = z.bad ∧ (z.bad = false → y.i = max (-8388608) (min 8388607 (roundShift z.i 20)) ∧ y.q = max (-8388608) (min 8388607 (roundShift z.q 20))) ∧
    ((∃ t ∈ pressTerms cfg x qs n, t.2.bad = true) → y.bad = true)) ∧
  (∀ (v : Int) (n : Nat), 0 < n → 2 * (2 ^ n * roundShift v n - v) ≤ 2 ^ n ∧ -(2 ^ n) ≤ 2 * (2 ^ n * roundShift v n - v) ∧
    roundShift (-v) n = -roundShift v n ∧ (0 ≤ v → -(2 ^ n) < 2 * (2 ^ n * roundShift v n - v)))

/-- Among the channels that ask for a beat of the fabric, one that has waited through 1,024 beats of higher priorities is granted it; where there is none, one of the lowest prio value, and among
equals the first in the round after the channel granted last; a beat is granted whenever one asks; a grant adds one beat to its channel alone and one to the wait of each channel of
lower priority that asked (R473). The frame that a port sends next is one that is queued on it, it starts when the port is free and the oldest is there, and no frame
queued on the port by then is of a lower class number (R90); an empty queue sends nothing. -/
def Obligations.BeatsAndFramesGoByPriority : Prop :=
  (∀ (s : State) (cs : List Nat) (c : Nat), s.nextBeat cs = some c → c ∈ cs ∧
    ((∃ w ∈ cs, 1024 ≤ Sparse.get (fun _ => 0) s.dma.passed w) → 1024 ≤ Sparse.get (fun _ => 0) s.dma.passed c) ∧
    ((∀ w ∈ cs, Sparse.get (fun _ => 0) s.dma.passed w < 1024) → ∀ w ∈ cs, s.prioOf c ≤ s.prioOf w ∧
      (s.prioOf w = s.prioOf c → (c + 31 - s.dma.last % 32) % 32 ≤ (w + 31 - s.dma.last % 32) % 32))) ∧
  (∀ (s : State) (cs : List Nat), cs ≠ [] → ∃ c, s.nextBeat cs = some c) ∧
  (∀ (s t : State) (cs : List Nat) (c : Nat), s.Canonical → cs.Nodup → Sparse.wf (fun _ => 0) s.dma.passed = true →
    t = s.grantBeat cs c → t.dma.last = c ∧
    t.dma.granted = Sparse.set (fun _ => 0) s.dma.granted c (Sparse.get (fun _ => 0) s.dma.granted c + 1) ∧
    (∀ w ∈ cs, w ≠ c → s.prioOf c < s.prioOf w → Sparse.get (fun _ => 0) t.dma.passed w = Sparse.get (fun _ => 0) s.dma.passed w + 1) ∧
    (∀ w ∈ cs, w = c ∨ s.prioOf w ≤ s.prioOf c → Sparse.get (fun _ => 0) t.dma.passed w = 0) ∧
    (∀ w, w ∉ cs → Sparse.get (fun _ => 0) t.dma.passed w = Sparse.get (fun _ => 0) s.dma.passed w)) ∧
  (∀ (s : State) (n start : Nat) (f : EgrFrame), s.egressNext n = some (start, f) → f ∈ s.fh.egress ∧ f.port = n ∧ 500 * f.at_ ≤ start ∧
    Sparse.get (fun _ => 0) s.fh.portFree n ≤ start ∧ (∀ g ∈ s.fh.egress, g.port = n → 500 * g.at_ ≤ start → f.cls ≤ g.cls)) ∧
  (∀ (s : State) (n : Nat), (∀ g ∈ s.fh.egress, g.port ≠ n) ↔ s.egressNext n = none)
end

