-- ==== Sys2Proof/Laws/Chiast.lean ====
section
/-!
SUPPORT. What a Chiast command does, once for each way its judgement can end (R430-R433, R439): the statements about the commands
cite these lemmas and never unfold `State.command`.
-/
namespace Sys2Proof.Machine

variable {s : State} {op : Nat} {p : Pkt} {valid stateOk allowed : Bool} {body : State → State × Verdict}

/-- A packet that is not taken now changes nothing. -/
theorem command_not_taken (h : s.takes op p = false) : s.command op p valid stateOk allowed body = s := by
  simp [State.command, h]

theorem command_of_taken (h : s.Taken op p) :
    s.command op p valid stateOk allowed body =
      let s1 := s.takeCmd op p
      if !valid then s1.reply p stPARAM []
      else if !(acceptedIn op s.dev && stateOk) then s1.reply p stSTATE [s.stateWord]
      else if !allowed then s1.reply p stDENIED []
      else match body s1 with
        | (s2, .ok res) => s2.reply p stOK res
        | (s2, .status code res) => s2.reply p code res
        | (s2, .later) => s2
        | (s2, .accepted key res) =>
          if 32 ≤ (s.host.accepted.filter (fun r => r.mb = p.mb)).length then s1.reply p stRESOURCE []
          else s2.accept op p key res := by
  have h6 : ¬ ((p.mb = 6 ∨ p.mb = 7) ∧ (!s.debugOpen 0) = true) := by
    rintro ⟨a, b⟩
    simp [h.mailbox a] at b
  have hl : ¬ (14 < p.params.length) := Nat.not_lt.mpr h.short
  have h0 : p.tag ≠ 0 := Nat.one_le_iff_ne_zero.mp h.tagLow
  have h255 : ¬ (255 < p.tag) := Nat.not_lt.mpr h.tagHigh
  unfold State.command State.accept
  simp only [h.takes, Bool.not_true, Bool.false_eq_true, if_false, h6, hl, h0, h255, h.tagFree, false_or] <;> rfl

/-- The command is taken, judged in order and executed: it answers what its body answers. -/
theorem command_admitted (h : s.Admits op p) (hv : valid = true) (hs : stateOk = true) (ha : allowed = true) :
    s.command op p valid stateOk allowed body =
      match body (s.takeCmd op p) with
      | (s2, .ok res) => s2.reply p stOK res
      | (s2, .status code res) => s2.reply p code res
      | (s2, .later) => s2
      | (s2, .accepted key res) =>
        if 32 ≤ (s.host.accepted.filter (fun r => r.mb = p.mb)).length then (s.takeCmd op p).reply p stRESOURCE []
        else s2.accept op p key res := by
  rw [command_of_taken h.toTaken]
  simp [hv, hs, ha, h.accepted]

theorem command_ok {u : State} {res : List Word} (h : s.Admits op p) (hv : valid = true) (hs : stateOk = true)
    (ha : allowed = true) (hb : body (s.takeCmd op p) = (u, .ok res)) :
    s.command op p valid stateOk allowed body = u.reply p stOK res := by
  rw [command_admitted h hv hs ha, hb]

theorem command_status {u : State} {res : List Word} {code : Nat} (h : s.Admits op p) (hv : valid = true) (hs : stateOk = true)
    (ha : allowed = true) (hb : body (s.takeCmd op p) = (u, .status code res)) :
    s.command op p valid stateOk allowed body = u.reply p code res := by
  rw [command_admitted h hv hs ha, hb]

theorem command_later {u : State} (h : s.Admits op p) (hv : valid = true) (hs : stateOk = true)
    (ha : allowed = true) (hb : body (s.takeCmd op p) = (u, .later)) :
    s.command op p valid stateOk allowed body = u := by
  rw [command_admitted h hv hs ha, hb]

theorem command_accepted {u : State} {key : Nat} {res : List Word} (h : s.Admits op p) (hr : s.Room p) (hv : valid = true)
    (hs : stateOk = true) (ha : allowed = true) (hb : body (s.takeCmd op p) = (u, .accepted key res)) :
    s.command op p valid stateOk allowed body = u.accept op p key res := by
  have : ¬ (32 ≤ (s.host.accepted.filter (fun r => r.mb = p.mb)).length) := Nat.not_le.mpr hr
  rw [command_admitted h hv hs ha, hb]
  exact if_neg this

theorem command_bad_param (h : s.Taken op p) (hv : valid = false) :
    s.command op p valid stateOk allowed body = (s.takeCmd op p).reply p stPARAM [] := by
  rw [command_of_taken h]
  simp [hv]

theorem command_state_conflict (h : s.Taken op p) (hv : valid = true) (hc : (acceptedIn op s.dev && stateOk) = false) :
    s.command op p valid stateOk allowed body = (s.takeCmd op p).reply p stSTATE [s.stateWord] := by
  rw [command_of_taken h]
  simp only [hv, hc, Bool.not_true, Bool.not_false, Bool.false_eq_true, if_false, if_true]

theorem command_denied (h : s.Admits op p) (hv : valid = true) (hs : stateOk = true) (ha : allowed = false) :
    s.command op p valid stateOk allowed body = (s.takeCmd op p).reply p stDENIED [] := by
  rw [command_of_taken h.toTaken]
  simp [hv, hs, ha, h.accepted]

/-! ### Register accesses -/

theorem access_reaches {a : Nat} {f : State → State} (h : s.Reaches a) : s.access a f = f s := by
  simp [State.access, h.mgmt, h.present, h.powered, h.answers]

theorem accessRead_reaches {a : Nat} {f : State → State} (h : s.Reaches a) : s.accessRead a f = f (s.answer 0) :=
  access_reaches (s := s.answer 0) ⟨h.mgmt, h.present, h.powered, h.answers⟩

theorem access_off {a : Nat} {f : State → State} (hm : s.domOn 1 = true) (hp : s.part.has (placeOf a).1 = true)
    (hd : s.domOn (domainOf a) = false) : s.access a f = s.offAccess := by
  simp [State.access, hm, hp, hd]

theorem access_absent {a : Nat} {f : State → State} (hp : s.part.has (placeOf a).1 = false) : s.access a f = s := by
  simp [State.access, hp]

end Sys2Proof.Machine
end

