-- ==== Sys2Proof/Laws/Sparse.lean ====
section
/-!
SUPPORT. Tables in canonical form: what is read after a write, and that writing, filtering and the empty table keep the form.
-/
namespace Sys2Proof.Machine

variable {α : Type}

theorem Sparse.get_of_lt {d : Nat → α} : ∀ {m : Sparse α} {lo k : Nat}, Sparse.sorted lo m = true → k < lo → Sparse.get d m k = d k
  | [], _, _, _, _ => rfl
  | (j, v) :: t, lo, k, h, hk => by
    simp only [Sparse.sorted, Bool.and_eq_true, decide_eq_true_eq] at h
    have h1 : k ≠ j := by omega
    have h2 : k < j := by omega
    simp [Sparse.get, h1, h2]

theorem Sparse.sorted_mono : ∀ {m : Sparse α} {lo lo' : Nat}, Sparse.sorted lo m = true → lo' ≤ lo → Sparse.sorted lo' m = true
  | [], _, _, _, _ => rfl
  | (j, v) :: t, lo, lo', h, hl => by
    simp only [Sparse.sorted, Bool.and_eq_true, decide_eq_true_eq] at h ⊢
    exact ⟨by omega, h.2⟩

theorem Sparse.get_ins_same {d : Nat → α} (x : α) : ∀ (m : Sparse α) (k : Nat), Sparse.get d (Sparse.ins m k x) k = x
  | [], k => by simp [Sparse.ins, Sparse.get]
  | (j, v) :: t, k => by
    unfold Sparse.ins
    split
    · simp [Sparse.get]
    · split
      · simp [Sparse.get]
      · simp [Sparse.get, *, Sparse.get_ins_same x t k]

theorem Sparse.get_ins_ne {d : Nat → α} (x : α) :
    ∀ {m : Sparse α} {lo k k' : Nat}, Sparse.sorted lo m = true → k' ≠ k → Sparse.get d (Sparse.ins m k x) k' = Sparse.get d m k'
  | [], _, k, k', _, h => by simp [Sparse.ins, Sparse.get, h]
  | (j, v) :: t, lo, k, k', hs, h => by
    simp only [Sparse.sorted, Bool.and_eq_true, decide_eq_true_eq] at hs
    unfold Sparse.ins
    split
    · subst_vars
      simp [Sparse.get, h]
    · split
      · simp only [Sparse.get, if_neg h]
        split
        · have h1 : k' ≠ j := by omega
          have h2 : k' < j := by omega
          simp [h1, h2]
        · rfl
      · simp only [Sparse.get, Sparse.get_ins_ne x hs.2 h]

theorem Sparse.get_del_same {d : Nat → α} :
    ∀ {m : Sparse α} {lo k : Nat}, Sparse.sorted lo m = true → Sparse.get d (Sparse.del m k) k = d k
  | [], _, _, _ => rfl
  | (j, v) :: t, lo, k, hs => by
    simp only [Sparse.sorted, Bool.and_eq_true, decide_eq_true_eq] at hs
    unfold Sparse.del
    split
    · subst_vars
      exact Sparse.get_of_lt hs.2 (Nat.lt_succ_self _)
    · split
      · simp [Sparse.get, *]
      · simp [Sparse.get, *, Sparse.get_del_same hs.2]

theorem Sparse.get_del_ne {d : Nat → α} :
    ∀ {m : Sparse α} {lo k k' : Nat}, Sparse.sorted lo m = true → k' ≠ k → Sparse.get d (Sparse.del m k) k' = Sparse.get d m k'
  | [], _, _, _, _, _ => rfl
  | (j, v) :: t, lo, k, k', hs, h => by
    simp only [Sparse.sorted, Bool.and_eq_true, decide_eq_true_eq] at hs
    unfold Sparse.del
    split
    · rename_i hk
      subst hk
      simp only [Sparse.get, if_neg h]
      split
      · exact Sparse.get_of_lt hs.2 (by omega)
      · rfl
    · split
      · rfl
      · simp only [Sparse.get, Sparse.get_del_ne hs.2 h]

variable [DecidableEq α]

theorem Sparse.wf_sorted {d : Nat → α} {m : Sparse α} (h : Sparse.wf d m = true) : Sparse.sorted 0 m = true := by
  simp only [Sparse.wf, Bool.and_eq_true] at h
  exact h.1

/-- What is read at the key just written. -/
theorem Sparse.get_set_same {d : Nat → α} {m : Sparse α} (h : Sparse.wf d m = true) (k : Nat) (x : α) :
    Sparse.get d (Sparse.set d m k x) k = x := by
  unfold Sparse.set
  split
  · rename_i hx
    rw [hx]
    exact Sparse.get_del_same (Sparse.wf_sorted h)
  · exact Sparse.get_ins_same x m k

/-- A write leaves every other key alone. -/
theorem Sparse.get_set_ne {d : Nat → α} {m : Sparse α} (h : Sparse.wf d m = true) {k k' : Nat} (x : α) (hk : k' ≠ k) :
    Sparse.get d (Sparse.set d m k x) k' = Sparse.get d m k' := by
  unfold Sparse.set
  split
  · exact Sparse.get_del_ne (Sparse.wf_sorted h) hk
  · exact Sparse.get_ins_ne x (Sparse.wf_sorted h) hk

omit [DecidableEq α] in
theorem Sparse.sorted_ins (x : α) :
    ∀ {m : Sparse α} {lo k : Nat}, Sparse.sorted lo m = true → lo ≤ k → Sparse.sorted lo (Sparse.ins m k x) = true
  | [], _, _, _, hl => by simp [Sparse.ins, Sparse.sorted, hl]
  | (j, v) :: t, lo, k, hs, hl => by
    simp only [Sparse.sorted, Bool.and_eq_true, decide_eq_true_eq] at hs
    unfold Sparse.ins
    split
    · subst_vars
      simp [Sparse.sorted, hs]
    · split
      · simp only [Sparse.sorted, Bool.and_eq_true, decide_eq_true_eq]
        exact ⟨hl, by omega, hs.2⟩
      · simp only [Sparse.sorted, Bool.and_eq_true, decide_eq_true_eq]
        exact ⟨hs.1, Sparse.sorted_ins x hs.2 (by omega)⟩

omit [DecidableEq α] in
theorem Sparse.sorted_del :
    ∀ {m : Sparse α} {lo k : Nat}, Sparse.sorted lo m = true → Sparse.sorted lo (Sparse.del m k) = true
  | [], _, _, _ => rfl
  | (j, v) :: t, lo, k, hs => by
    have h0 := hs
    simp only [Sparse.sorted, Bool.and_eq_true, decide_eq_true_eq] at hs
    unfold Sparse.del
    split
    · exact Sparse.sorted_mono hs.2 (by omega)
    · split
      · exact h0
      · simp only [Sparse.sorted, Bool.and_eq_true, decide_eq_true_eq]
        exact ⟨hs.1, Sparse.sorted_del hs.2⟩

omit [DecidableEq α] in
theorem Sparse.mem_ins {e : Nat × α} {x : α} : ∀ {m : Sparse α} {k : Nat}, e ∈ Sparse.ins m k x → e = (k, x) ∨ e ∈ m
  | [], k, h => by simpa [Sparse.ins] using h
  | (j, v) :: t, k, h => by
    unfold Sparse.ins at h
    split at h
    · simp only [List.mem_cons] at h ⊢
      exact h.imp id .inr
    · split at h
      · simpa using h
      · simp only [List.mem_cons] at h ⊢
        rcases h with h | h
        · exact .inr (.inl h)
        · exact (Sparse.mem_ins h).imp id .inr

omit [DecidableEq α] in
theorem Sparse.mem_del {e : Nat × α} : ∀ {m : Sparse α} {k : Nat}, e ∈ Sparse.del m k → e ∈ m
  | [], _, h => h
  | (j, v) :: t, k, h => by
    unfold Sparse.del at h
    split at h
    · exact List.mem_cons_of_mem _ h
    · split at h
      · exact h
      · simp only [List.mem_cons] at h ⊢
        exact h.imp id Sparse.mem_del

/-- Writing keeps the canonical form. -/
theorem Sparse.wf_set {d : Nat → α} {m : Sparse α} (h : Sparse.wf d m = true) (k : Nat) (x : α) :
    Sparse.wf d (Sparse.set d m k x) = true := by
  simp only [Sparse.wf, Bool.and_eq_true, List.all_eq_true, decide_eq_true_eq] at h ⊢
  unfold Sparse.set
  split
  · exact ⟨Sparse.sorted_del h.1, fun e he => h.2 e (Sparse.mem_del he)⟩
  · rename_i hx
    refine ⟨Sparse.sorted_ins x h.1 (Nat.zero_le k), fun e he => ?_⟩
    rcases Sparse.mem_ins he with rfl | h'
    · exact hx
    · exact h.2 e h'

omit [DecidableEq α] in
theorem Sparse.sorted_filter (p : Nat × α → Bool) :
    ∀ {m : Sparse α} {lo : Nat}, Sparse.sorted lo m = true → Sparse.sorted lo (m.filter p) = true
  | [], _, _ => rfl
  | (j, v) :: t, lo, hs => by
    simp only [Sparse.sorted, Bool.and_eq_true, decide_eq_true_eq] at hs
    simp only [List.filter_cons]
    split
    · simp only [Sparse.sorted, Bool.and_eq_true, decide_eq_true_eq]
      exact ⟨hs.1, Sparse.sorted_filter p hs.2⟩
    · exact Sparse.sorted_mono (Sparse.sorted_filter p hs.2) (by omega)

/-- Filtering keeps the canonical form. -/
theorem Sparse.wf_filter {d : Nat → α} {m : Sparse α} (h : Sparse.wf d m = true) (p : Nat × α → Bool) :
    Sparse.wf d (m.filter p) = true := by
  simp only [Sparse.wf, Bool.and_eq_true, List.all_eq_true, decide_eq_true_eq] at h ⊢
  exact ⟨Sparse.sorted_filter p h.1, fun e he => h.2 e (List.mem_of_mem_filter he)⟩

theorem Sparse.wf_keep {d : Nat → α} {m : Sparse α} (h : Sparse.wf d m = true) (p : Nat → Bool) :
    Sparse.wf d (Sparse.keep p m) = true := Sparse.wf_filter h _

theorem Sparse.wf_nil {d : Nat → α} : Sparse.wf d [] = true := rfl

end Sys2Proof.Machine
end

