-- ==== Sys2Proof/Laws/Keeps.lean ====
section
/-!
SUPPORT. What every operation of the block keeps, as one relation between the state before and the state after: the part, the queue of
commands not yet taken, and the canonical form of the register stores and of the BAR2 stores.
-/
namespace Sys2Proof.Machine

/-- The relation on the parts of the state that it speaks of. -/
def KeepsOf (p : Part) (q : List Instr) (l d : Sparse Word) (m : List Host.Cell)
    (p' : Part) (q' : List Instr) (l' d' : Sparse Word) (m' : List Host.Cell) : Prop :=
  p' = p ∧ q' = q ∧
    (Sparse.wf (resetWord p) l = true ∧ Sparse.wf (resetWord p) d = true ∧ memWf m = true →
      Sparse.wf (resetWord p') l' = true ∧ Sparse.wf (resetWord p') d' = true ∧ memWf m' = true)

/-- From `r` to `s` the part and the queue stay, and the stores are still in canonical form if they were. -/
structure Keeps (r s : State) : Prop where
  of : KeepsOf r.part r.pending r.live r.staged r.tr.mem s.part s.pending s.live s.staged s.tr.mem

variable {r s : State}

theorem Keeps.refl : Keeps r r := ⟨rfl, rfl, id⟩

/-- A change of anything but the queue, the stores and the Trellis. -/
theorem Keeps.upd (h : Keeps r s) {tick_ : Nat} {tb_ : TbSt} {host_ : HostSt} {recs_ : Sparse RecSt} {cars_ : Sparse CarSt} {tx_ : Sparse TxSt} {rx_ : Sparse RxSt} {pr_ : Sparse PrSt} {can_ : Sparse CanSt} {orx_ : Sparse OrxSt} {adc_ : Sparse AdcSt} {agc_ : Sparse AgcSt} {air_ : AirSt} {rowst_ : Sparse RowSt} {tddOld_ : Sparse (Option TddOld)} {fh_ : FhSt} {links_ : Sparse LinkSt} {sol_ : SolSt} {cal_ : CalSt} {sv_ : SvSt} {dma_ : DmaSt} {mon_ : MonSt} {pw_ : PwSt} {th_ : ThSt} {celOrders_ : List CelOrder} {cel_ : CelSt} {boot_ : BootSt} {lost_ : Sparse Nat} {fresh_ : Nat} :
    Keeps r (State.mk s.part tick_ s.live s.staged tb_ host_ recs_ cars_ tx_ rx_ pr_ can_ orx_ adc_ agc_ air_ rowst_ tddOld_ fh_ links_ s.tr sol_ cal_ sv_ dma_ mon_ pw_ th_ celOrders_ cel_ boot_ lost_ s.pending fresh_) :=
  ⟨h.of.1, h.of.2.1, h.of.2.2⟩

/-- A change of the Trellis beside the memory of its stores. -/
theorem Keeps.updTr (h : Keeps r s) {tick_ : Nat} {tb_ : TbSt} {host_ : HostSt} {recs_ : Sparse RecSt} {cars_ : Sparse CarSt} {tx_ : Sparse TxSt} {rx_ : Sparse RxSt} {pr_ : Sparse PrSt} {can_ : Sparse CanSt} {orx_ : Sparse OrxSt} {adc_ : Sparse AdcSt} {agc_ : Sparse AgcSt} {air_ : AirSt} {rowst_ : Sparse RowSt} {tddOld_ : Sparse (Option TddOld)} {fh_ : FhSt} {links_ : Sparse LinkSt} {sol_ : SolSt} {cal_ : CalSt} {sv_ : SvSt} {dma_ : DmaSt} {mon_ : MonSt} {pw_ : PwSt} {th_ : ThSt} {celOrders_ : List CelOrder} {cel_ : CelSt} {boot_ : BootSt} {lost_ : Sparse Nat} {fresh_ : Nat} {tlows_ : Sparse (Option Word)} {tdefer_ : Option TrDefer} {texec_ : Option TrExec} {tlastEval_ : Option (Nat × Nat × List Word)} {tdirty_ : List Nat} {tvers_ : List (Nat × TrVals)} {tappliedAt_ : Nat} {tsolverLock_ : List Nat} {tpeerLocks_ : List (Nat × Nat)} {tsentLocks_ : Nat} :
    Keeps r (State.mk s.part tick_ s.live s.staged tb_ host_ recs_ cars_ tx_ rx_ pr_ can_ orx_ adc_ agc_ air_ rowst_ tddOld_ fh_ links_ (TrSt.mk s.tr.mem tlows_ tdefer_ texec_ tlastEval_ tdirty_ tvers_ tappliedAt_ tsolverLock_ tpeerLocks_ tsentLocks_) sol_ cal_ sv_ dma_ mon_ pw_ th_ celOrders_ cel_ boot_ lost_ s.pending fresh_) :=
  ⟨h.of.1, h.of.2.1, h.of.2.2⟩

/-- A change of the memory of the stores that keeps its canonical form. -/
theorem Keeps.updMem (h : Keeps r s) {m : List Host.Cell} (hm : memWf s.tr.mem = true → memWf m = true) {tick_ : Nat} {tb_ : TbSt} {host_ : HostSt} {recs_ : Sparse RecSt} {cars_ : Sparse CarSt} {tx_ : Sparse TxSt} {rx_ : Sparse RxSt} {pr_ : Sparse PrSt} {can_ : Sparse CanSt} {orx_ : Sparse OrxSt} {adc_ : Sparse AdcSt} {agc_ : Sparse AgcSt} {air_ : AirSt} {rowst_ : Sparse RowSt} {tddOld_ : Sparse (Option TddOld)} {fh_ : FhSt} {links_ : Sparse LinkSt} {sol_ : SolSt} {cal_ : CalSt} {sv_ : SvSt} {dma_ : DmaSt} {mon_ : MonSt} {pw_ : PwSt} {th_ : ThSt} {celOrders_ : List CelOrder} {cel_ : CelSt} {boot_ : BootSt} {lost_ : Sparse Nat} {fresh_ : Nat} {tlows_ : Sparse (Option Word)} {tdefer_ : Option TrDefer} {texec_ : Option TrExec} {tlastEval_ : Option (Nat × Nat × List Word)} {tdirty_ : List Nat} {tvers_ : List (Nat × TrVals)} {tappliedAt_ : Nat} {tsolverLock_ : List Nat} {tpeerLocks_ : List (Nat × Nat)} {tsentLocks_ : Nat} :
    Keeps r (State.mk s.part tick_ s.live s.staged tb_ host_ recs_ cars_ tx_ rx_ pr_ can_ orx_ adc_ agc_ air_ rowst_ tddOld_ fh_ links_ (TrSt.mk m tlows_ tdefer_ texec_ tlastEval_ tdirty_ tvers_ tappliedAt_ tsolverLock_ tpeerLocks_ tsentLocks_) sol_ cal_ sv_ dma_ mon_ pw_ th_ celOrders_ cel_ boot_ lost_ s.pending fresh_) :=
  ⟨h.of.1, h.of.2.1, fun c => ⟨(h.of.2.2 c).1, (h.of.2.2 c).2.1, hm (h.of.2.2 c).2.2⟩⟩

/-- A change of the register stores that keeps their canonical form. -/
theorem Keeps.updRegs (h : Keeps r s) {l d : Sparse Word}
    (hl : Sparse.wf (resetWord s.part) s.live = true → Sparse.wf (resetWord s.part) l = true)
    (hd : Sparse.wf (resetWord s.part) s.staged = true → Sparse.wf (resetWord s.part) d = true) {tick_ : Nat} {tb_ : TbSt} {host_ : HostSt} {recs_ : Sparse RecSt} {cars_ : Sparse CarSt} {tx_ : Sparse TxSt} {rx_ : Sparse RxSt} {pr_ : Sparse PrSt} {can_ : Sparse CanSt} {orx_ : Sparse OrxSt} {adc_ : Sparse AdcSt} {agc_ : Sparse AgcSt} {air_ : AirSt} {rowst_ : Sparse RowSt} {tddOld_ : Sparse (Option TddOld)} {fh_ : FhSt} {links_ : Sparse LinkSt} {sol_ : SolSt} {cal_ : CalSt} {sv_ : SvSt} {dma_ : DmaSt} {mon_ : MonSt} {pw_ : PwSt} {th_ : ThSt} {celOrders_ : List CelOrder} {cel_ : CelSt} {boot_ : BootSt} {lost_ : Sparse Nat} {fresh_ : Nat} :
    Keeps r (State.mk s.part tick_ l d tb_ host_ recs_ cars_ tx_ rx_ pr_ can_ orx_ adc_ agc_ air_ rowst_ tddOld_ fh_ links_ s.tr sol_ cal_ sv_ dma_ mon_ pw_ th_ celOrders_ cel_ boot_ lost_ s.pending fresh_) :=
  ⟨h.of.1, h.of.2.1, fun c => ⟨hl (h.of.2.2 c).1, hd (h.of.2.2 c).2.1, (h.of.2.2 c).2.2⟩⟩

theorem Keeps.wr (h : Keeps r s) (a : Nat) (w : Word) : Keeps r (s.wr a w) :=
  ⟨h.of.1, h.of.2.1, fun c => ⟨Sparse.wf_set (h.of.2.2 c).1 a w, (h.of.2.2 c).2⟩⟩

theorem Keeps.swr (h : Keeps r s) (a : Nat) (w : Word) : Keeps r (s.swr a w) :=
  ⟨h.of.1, h.of.2.1, fun c => ⟨(h.of.2.2 c).1, Sparse.wf_set (h.of.2.2 c).2.1 a w, (h.of.2.2 c).2.2⟩⟩

theorem Keeps.ite {c : Prop} [Decidable c] {a b : State} (ha : Keeps r a) (hb : Keeps r b) : Keeps r (if c then a else b) := by
  split <;> assumption

theorem Keeps.forEach {α : Type} {f : State → α → State} {l : List α} (h : Keeps r s) (hf : ∀ u x, Keeps r u → Keeps r (f u x)) :
    Keeps r (s.forEach l f) := by
  induction l generalizing s with
  | nil => exact h
  | cons x l ih => exact ih (hf s x h)

theorem Keeps.when {f : State → State} {c : Bool} (h : Keeps r s) (hf : ∀ u, Keeps r u → Keeps r (f u)) : Keeps r (s.when c f) := by
  unfold State.when
  split
  · exact hf s h
  · exact h

theorem Keeps.foldl {α : Type} {f : State → α → State} {l : List α} (h : Keeps r s) (hf : ∀ u x, Keeps r u → Keeps r (f u x)) :
    Keeps r (l.foldl f s) := Keeps.forEach h hf

theorem Keeps.foldlFst {α β : Type} {f : State × β → α → State × β} {l : List α} {x : State × β} (h : Keeps r x.1)
    (hf : ∀ y a, Keeps r y.1 → Keeps r (f y a).1) : Keeps r (l.foldl f x).1 := by
  induction l generalizing x with
  | nil => exact h
  | cons a l ih => exact ih (hf x a h)

theorem Keeps.fst {α : Type} {x : State × α} {u : State} {a : α} (e : x = (u, a)) (h : Keeps r x.1) : Keeps r u := by
  rw [e] at h
  exact h

theorem Keeps.snd {α : Type} {x : α × State} {u : State} {a : α} (e : x = (a, u)) (h : Keeps r x.2) : Keeps r u := by
  rw [e] at h
  exact h

theorem Keeps.some2 {α : Type} {x : Option (α × State)} {u : State} {a : α} (e : x = some (a, u))
    (h : ∀ y, x = some y → Keeps r y.2) : Keeps r u := h (a, u) e

/-- A meaning's answer: every next state is related. -/
def KeepsOut (r : State) (o : Out) : Prop := ∀ t, o = .next t → Keeps r t

theorem KeepsOut.next (h : Keeps r s) : KeepsOut r (.next s) := by
  intro t e
  cases e
  exact h

theorem KeepsOut.ite {c : Prop} [Decidable c] {a b : Out} (ha : KeepsOut r a) (hb : KeepsOut r b) :
    KeepsOut r (if c then a else b) := by
  split <;> assumption

end Sys2Proof.Machine
end

