-- ==== Sys2Proof/Laws/KeepsOps.lean ====
section
/-!
SUPPORT. What the operations of Sys2Proof/Machine/Ops.lean keep.
-/
set_option linter.unusedTactic false
set_option linter.unreachableTactic false

namespace Sys2Proof.Machine

variable {r₀ s : State}

theorem State.pf_keeps (a : Nat) (hi : Nat) (lo : Nat) (v : Nat) (h₀ : Keeps r₀ s) : Keeps r₀ (State.pf s a hi lo v) := by
  unfold State.pf
  with_reducible repeat' first
    | assumption | apply Keeps.wr

theorem State.pb_keeps (a : Nat) (b : Nat) (v : Bool) (h₀ : Keeps r₀ s) : Keeps r₀ (State.pb s a b v) := by
  unfold State.pb
  with_reducible repeat' first
    | assumption | apply State.pf_keeps

theorem State.spf_keeps (a : Nat) (hi : Nat) (lo : Nat) (v : Nat) (h₀ : Keeps r₀ s) : Keeps r₀ (State.spf s a hi lo v) := by
  unfold State.spf
  with_reducible repeat' first
    | assumption | apply Keeps.swr

theorem State.bumpBy_keeps (a : Nat) (n : Nat) (h₀ : Keeps r₀ s) : Keeps r₀ (State.bumpBy s a n) := by
  unfold State.bumpBy
  with_reducible repeat' first
    | assumption | apply Keeps.ite | apply Keeps.wr

theorem State.bump_keeps (a : Nat) (h₀ : Keeps r₀ s) : Keeps r₀ (State.bump s a) := by
  unfold State.bump
  with_reducible repeat' first
    | assumption | apply Keeps.wr

theorem State.bumpF_keeps (a : Nat) (hi : Nat) (lo : Nat) (h₀ : Keeps r₀ s) : Keeps r₀ (State.bumpF s a hi lo) := by
  unfold State.bumpF
  with_reducible repeat' first
    | assumption | apply State.pf_keeps

theorem State.bumpSat_keeps (a : Nat) (h₀ : Keeps r₀ s) : Keeps r₀ (State.bumpSat s a) := by
  unfold State.bumpSat
  with_reducible repeat' first
    | assumption | apply Keeps.ite | apply State.bump_keeps

theorem State.bumpSatF_keeps (a : Nat) (hi : Nat) (lo : Nat) (n : Nat) (h₀ : Keeps r₀ s) : Keeps r₀ (State.bumpSatF s a hi lo n) := by
  unfold State.bumpSatF
  with_reducible repeat' first
    | assumption | apply State.pf_keeps

theorem State.wrPair_keeps (lo : Nat) (hi : Nat) (v : Nat) (h₀ : Keeps r₀ s) : Keeps r₀ (State.wrPair s lo hi v) := by
  unfold State.wrPair
  with_reducible repeat' first
    | assumption | apply Keeps.wr

theorem State.swrPair_keeps (lo : Nat) (hi : Nat) (v : Nat) (h₀ : Keeps r₀ s) : Keeps r₀ (State.swrPair s lo hi v) := by
  unfold State.swrPair
  with_reducible repeat' first
    | assumption | apply Keeps.swr

theorem State.answer_keeps (w : Word) (h₀ : Keeps r₀ s) : Keeps r₀ (State.answer s w) := by
  unfold State.answer
  dsimp only
  with_reducible repeat' first
    | assumption | apply Keeps.upd

theorem State.draw_keeps (h₀ : Keeps r₀ s) : Keeps r₀ (State.draw s).2 := by
  unfold State.draw
  dsimp only
  with_reducible repeat' first
    | assumption | apply Keeps.upd

theorem State.drawNat_keeps (h₀ : Keeps r₀ s) : Keeps r₀ (State.drawNat s).2 := by
  unfold State.drawNat
  dsimp only
  with_reducible repeat' first
    | assumption | apply Keeps.upd

theorem State.drawBool_keeps (h₀ : Keeps r₀ s) : Keeps r₀ (State.drawBool s).2 := by
  unfold State.drawBool
  dsimp only
  with_reducible repeat' first
    | assumption | apply Keeps.upd

end Sys2Proof.Machine
end

