-- ==== Sys2Proof/Laws/KeepsPeek.lean ====
section
/-!
SUPPORT. What the operations of Sys2Proof/Machine/Peek.lean keep.
-/
set_option linter.unusedTactic false
set_option linter.unreachableTactic false

namespace Sys2Proof.Machine

variable {r₀ s : State}

theorem State.setTx_keeps (p : Nat) (x : TxSt) (h₀ : Keeps r₀ s) : Keeps r₀ (State.setTx s p x) := by
  unfold State.setTx
  with_reducible repeat' first
    | assumption | apply Keeps.upd

theorem State.setRow_keeps (r : Nat) (x : RowSt) (h₀ : Keeps r₀ s) : Keeps r₀ (State.setRow s r x) := by
  unfold State.setRow
  with_reducible repeat' first
    | assumption | apply Keeps.upd

theorem State.setPr_keeps (p : Nat) (x : PrSt) (h₀ : Keeps r₀ s) : Keeps r₀ (State.setPr s p x) := by
  unfold State.setPr
  with_reducible repeat' first
    | assumption | apply Keeps.upd

theorem State.setCan_keeps (p : Nat) (x : CanSt) (h₀ : Keeps r₀ s) : Keeps r₀ (State.setCan s p x) := by
  unfold State.setCan
  with_reducible repeat' first
    | assumption | apply Keeps.upd

theorem State.setOrx_keeps (r : Nat) (x : OrxSt) (h₀ : Keeps r₀ s) : Keeps r₀ (State.setOrx s r x) := by
  unfold State.setOrx
  with_reducible repeat' first
    | assumption | apply Keeps.upd

theorem State.setAdc_keeps (a : Nat) (x : AdcSt) (h₀ : Keeps r₀ s) : Keeps r₀ (State.setAdc s a x) := by
  unfold State.setAdc
  with_reducible repeat' first
    | assumption | apply Keeps.upd

theorem State.setAgc_keeps (p : Nat) (x : AgcSt) (h₀ : Keeps r₀ s) : Keeps r₀ (State.setAgc s p x) := by
  unfold State.setAgc
  with_reducible repeat' first
    | assumption | apply Keeps.upd

theorem State.setRx_keeps (p : Nat) (x : RxSt) (h₀ : Keeps r₀ s) : Keeps r₀ (State.setRx s p x) := by
  unfold State.setRx
  with_reducible repeat' first
    | assumption | apply Keeps.upd

theorem State.setLnk_keeps (l : Nat) (x : LinkSt) (h₀ : Keeps r₀ s) : Keeps r₀ (State.setLnk s l x) := by
  unfold State.setLnk
  with_reducible repeat' first
    | assumption | apply Keeps.upd

theorem State.setMbox_keeps (m : Nat) (b : Mbox) (h₀ : Keeps r₀ s) : Keeps r₀ (State.setMbox s m b) := by
  unfold State.setMbox
  dsimp only
  with_reducible repeat' first
    | assumption | apply Keeps.upd

theorem State.setRec_keeps (r : Nat) (x : RecSt) (h₀ : Keeps r₀ s) : Keeps r₀ (State.setRec s r x) := by
  unfold State.setRec
  with_reducible repeat' first
    | assumption | apply Keeps.upd

theorem State.setCmp_keeps (n : Nat) (x : CmpSt) (h₀ : Keeps r₀ s) : Keeps r₀ (State.setCmp s n x) := by
  unfold State.setCmp
  dsimp only
  with_reducible repeat' first
    | assumption | apply Keeps.upd

theorem State.stage_keeps (a : Nat) (w : Word) (h₀ : Keeps r₀ s) : Keeps r₀ (State.stage s a w) := by
  unfold State.stage
  dsimp only
  with_reducible repeat' first
    | assumption | apply Keeps.ite | apply Keeps.swr | split | apply Keeps.upd

theorem State.poke_keeps (a : Nat) (w : Word) (h₀ : Keeps r₀ s) : Keeps r₀ (State.poke s a w) := by
  unfold State.poke
  dsimp only
  with_reducible repeat' first
    | assumption | apply Keeps.ite | apply Keeps.wr | apply State.stage_keeps | split

end Sys2Proof.Machine
end

