-- ==== Sys2Proof/Laws/KeepsFlags.lean ====
section
/-!
SUPPORT. What the operations of Sys2Proof/Machine/Flags.lean keep.
-/
set_option linter.unusedTactic false
set_option linter.unreachableTactic false

namespace Sys2Proof.Machine

variable {r₀ s : State}

theorem State.irq_keeps (v : Nat) (h₀ : Keeps r₀ s) : Keeps r₀ (State.irq s v) := by
  unfold State.irq
  dsimp only
  with_reducible repeat' first
    | assumption | apply Keeps.upd

theorem State.raiseEvt_keeps (evt : Nat) (en : Nat) (vec : Nat) (b : Nat) (h₀ : Keeps r₀ s) : Keeps r₀ (State.raiseEvt s evt en vec b) := by
  unfold State.raiseEvt
  dsimp only
  with_reducible repeat' first
    | assumption | apply Keeps.ite | apply State.irq_keeps | apply State.pb_keeps

theorem State.monEvt_keeps (b : Nat) (h₀ : Keeps r₀ s) : Keeps r₀ (State.monEvt s b) := by
  unfold State.monEvt
  with_reducible repeat' first
    | assumption | apply State.raiseEvt_keeps

theorem State.thEvt_keeps (b : Nat) (h₀ : Keeps r₀ s) : Keeps r₀ (State.thEvt s b) := by
  unfold State.thEvt
  with_reducible repeat' first
    | assumption | apply State.raiseEvt_keeps

theorem State.pwEvt_keeps (b : Nat) (h₀ : Keeps r₀ s) : Keeps r₀ (State.pwEvt s b) := by
  unfold State.pwEvt
  with_reducible repeat' first
    | assumption | apply State.raiseEvt_keeps

theorem State.offAccess_keeps (h₀ : Keeps r₀ s) : Keeps r₀ (State.offAccess s) := by
  unfold State.offAccess
  with_reducible repeat' first
    | assumption | apply State.bump_keeps | apply State.pwEvt_keeps

theorem State.access_keeps (a : Nat) (f : State → State) (hf_f : ∀ u, Keeps r₀ u → Keeps r₀ (f u)) (h₀ : Keeps r₀ s) : Keeps r₀ (State.access s a f) := by
  unfold State.access
  with_reducible repeat' first
    | assumption | apply Keeps.ite | apply State.offAccess_keeps | apply hf_f

theorem State.accessRead_keeps (a : Nat) (f : State → State) (hf_f : ∀ u, Keeps r₀ u → Keeps r₀ (f u)) (h₀ : Keeps r₀ s) : Keeps r₀ (State.accessRead s a f) := by
  unfold State.accessRead
  with_reducible repeat' first
    | assumption | apply State.access_keeps | apply State.answer_keeps

theorem State.faultOut_keeps (h₀ : Keeps r₀ s) : Keeps r₀ (State.faultOut s) := by
  unfold State.faultOut
  with_reducible repeat' first
    | assumption | apply State.pb_keeps

theorem State.faultSum_keeps (b : Nat) (h₀ : Keeps r₀ s) : Keeps r₀ (State.faultSum s b) := by
  unfold State.faultSum
  with_reducible repeat' first
    | assumption | apply State.faultOut_keeps | apply State.irq_keeps | apply State.pb_keeps

theorem State.mbEvt_keeps (m : Nat) (b : Nat) (h₀ : Keeps r₀ s) : Keeps r₀ (State.mbEvt s m b) := by
  unfold State.mbEvt
  with_reducible repeat' first
    | assumption | apply State.pb_keeps

end Sys2Proof.Machine
end

