-- ==== Sys2Proof/Laws/KeepsEvents.lean ====
section
/-!
SUPPORT. What the operations of Sys2Proof/Machine/Events.lean keep.
-/
set_option linter.unusedTactic false
set_option linter.unreachableTactic false

namespace Sys2Proof.Machine

variable {r₀ s : State}

theorem State.orderRecord_keeps (kind : Nat) (payload : List Word) (h₀ : Keeps r₀ s) : Keeps r₀ (State.orderRecord s kind payload) := by
  unfold State.orderRecord
  with_reducible repeat' first
    | assumption | apply Keeps.upd

theorem State.faultRecord_keeps (source : Nat) (ws : List Word) (h₀ : Keeps r₀ s) : Keeps r₀ (State.faultRecord s source ws) := by
  unfold State.faultRecord
  with_reducible repeat' first
    | assumption | apply State.orderRecord_keeps

theorem State.pkgEvent_keeps (code : Nat) (src : Nat) (late : Bool) (detail : Word) (h₀ : Keeps r₀ s) : Keeps r₀ (State.pkgEvent s code src late detail) := by
  unfold State.pkgEvent
  dsimp only
  with_reducible repeat' first
    | assumption | apply Keeps.ite | apply Keeps.wr | apply State.bump_keeps | apply State.faultRecord_keeps | apply State.monEvt_keeps | apply State.pf_keeps | apply State.setRec_keeps | split

theorem State.tileEvent_keeps (t : Nat) (code : Nat) (src : Nat) (late : Bool) (detail : Word) (h₀ : Keeps r₀ s) : Keeps r₀ (State.tileEvent s t code src late detail) := by
  unfold State.tileEvent
  dsimp only
  with_reducible repeat' first
    | assumption | apply Keeps.ite | apply Keeps.wr | apply State.bump_keeps | apply State.bumpSatF_keeps | apply State.pb_keeps | apply State.setRec_keeps | split

theorem State.event_keeps (rec : Nat) (code : Nat) (src : Nat) (late : Bool) (detail : Nat) (h₀ : Keeps r₀ s) : Keeps r₀ (State.event s rec code src late detail) := by
  unfold State.event
  with_reducible repeat' first
    | assumption | apply Keeps.ite | apply State.pkgEvent_keeps | apply State.tileEvent_keeps

theorem State.hubEvent_keeps (code : Nat) (detail : Nat) (h₀ : Keeps r₀ s) : Keeps r₀ (State.hubEvent s code detail) := by
  unfold State.hubEvent
  with_reducible repeat' first
    | assumption | apply State.pkgEvent_keeps

theorem State.spared_keeps (chk : Nat) (unit : Nat) (die : Nat) (h₀ : Keeps r₀ s) : Keeps r₀ (State.spared s chk unit die) := by
  unfold State.spared
  dsimp only
  with_reducible repeat' first
    | assumption | apply Keeps.wr | apply State.bump_keeps | apply State.event_keeps | apply State.faultSum_keeps

end Sys2Proof.Machine
end

