-- ==== Sys2Proof/Laws/KeepsGrid.lean ====
section
/-!
SUPPORT. What the operations of Sys2Proof/Machine/Grid.lean keep.
-/
set_option linter.unusedTactic false
set_option linter.unreachableTactic false

namespace Sys2Proof.Machine

variable {r₀ s : State}

theorem State.setCar_keeps (c : Nat) (x : CarSt) (h₀ : Keeps r₀ s) : Keeps r₀ (State.setCar s c x) := by
  unfold State.setCar
  with_reducible repeat' first
    | assumption | apply Keeps.upd

end Sys2Proof.Machine
end

