-- ==== Sys2Proof/Laws/KeepsAir.lean ====
section
/-!
SUPPORT. What the operations of Sys2Proof/Machine/Air.lean keep.
-/
set_option linter.unusedTactic false
set_option linter.unreachableTactic false

namespace Sys2Proof.Machine

variable {r₀ s : State}

theorem State.loseWords_keeps (t : Nat) (isUp : Bool) (w : Int) (n : Nat) (h₀ : Keeps r₀ s) : Keeps r₀ (State.loseWords s t isUp w n) := by
  unfold State.loseWords
  dsimp only
  with_reducible repeat' first
    | assumption | apply Keeps.ite | apply Keeps.upd

theorem State.countTx_keeps (p : Nat) (a : Int) (b : Int) (h₀ : Keeps r₀ s) : Keeps r₀ (State.countTx s p a b) := by
  unfold State.countTx
  dsimp only
  with_reducible repeat' first
    | assumption | apply State.bumpBy_keeps

theorem State.runTx_keeps (n : Nat) (h₀ : Keeps r₀ s) : Keeps r₀ (State.runTx s n) := by
  unfold State.runTx
  dsimp only
  with_reducible repeat' first
    | assumption | apply Keeps.ite | apply State.countTx_keeps | apply Keeps.forEach | intro _ _ _

theorem State.note_keeps (h₀ : Keeps r₀ s) : Keeps r₀ (State.note s) := by
  unfold State.note
  dsimp only
  with_reducible repeat' first
    | assumption | split | apply Keeps.upd

theorem State.airDrop_keeps (n : Nat) (h₀ : Keeps r₀ s) : Keeps r₀ (State.airDrop s n) := by
  unfold State.airDrop
  dsimp only
  with_reducible repeat' first
    | assumption | split | apply Keeps.upd

theorem State.advanceTo_keeps (n : Nat) (h₀ : Keeps r₀ s) : Keeps r₀ (State.advanceTo s n) := by
  unfold State.advanceTo
  dsimp only
  with_reducible repeat' first
    | assumption | apply Keeps.ite | apply State.airDrop_keeps | apply State.note_keeps | apply State.runTx_keeps | apply Keeps.upd

end Sys2Proof.Machine
end

