-- ==== Sys2Proof/Laws/KeepsBar2.lean ====
section
/-!
SUPPORT. What the operations of Sys2Proof/Machine/Bar2.lean keep.
-/
set_option linter.unusedTactic false
set_option linter.unreachableTactic false

namespace Sys2Proof.Machine

variable {r₀ s : State}

theorem State.setByte_keeps (a : Nat) (b : Byte) (h₀ : Keeps r₀ s) : Keeps r₀ (s.setByte a b) :=
  ⟨h₀.of.1, h₀.of.2.1, fun c => ⟨(h₀.of.2.2 c).1, (h₀.of.2.2 c).2.1, Sparse.wf_set (h₀.of.2.2 c).2.2 a b⟩⟩

theorem State.setBytes_keeps (a : Nat) (n : Nat) (v : Nat) (h₀ : Keeps r₀ s) : Keeps r₀ (State.setBytes s a n v) := by
  unfold State.setBytes
  with_reducible repeat' first
    | assumption | apply State.setByte_keeps | apply Keeps.forEach | intro _ _ _

theorem State.writeSlot_keeps (a : Nat) (v : Nat) (h₀ : Keeps r₀ s) : Keeps r₀ (State.writeSlot s a v) := by
  unfold State.writeSlot
  with_reducible repeat' first
    | assumption | apply State.setByte_keeps | apply State.setBytes_keeps

theorem State.writeCx_keeps (a : Nat) (w : Cx) (h₀ : Keeps r₀ s) : Keeps r₀ (State.writeCx s a w) := by
  unfold State.writeCx
  dsimp only
  with_reducible repeat' first
    | assumption | apply Keeps.ite | apply State.setByte_keeps | apply State.writeSlot_keeps

theorem State.markDirty_keeps (a : Nat) (h₀ : Keeps r₀ s) : Keeps r₀ (State.markDirty s a) := by
  unfold State.markDirty
  dsimp only
  with_reducible repeat' first
    | assumption | apply Keeps.ite | apply Keeps.updTr

theorem State.writeBar2_keeps (o : Nat) (v : Word) (be : Nat) (h₀ : Keeps r₀ s) : Keeps r₀ (State.writeBar2 s o v be).1 := by
  unfold State.writeBar2
  dsimp only
  with_reducible repeat' first
    | assumption | apply State.bump_keeps | apply State.markDirty_keeps | apply State.pb_keeps | apply State.setBytes_keeps | apply State.writeSlot_keeps | split | dsimp only | apply Keeps.updTr

theorem State.writeBytes2_keeps (h₀ : Keeps r₀ s) (o : Nat) (bs : List Byte) : Keeps r₀ (s.writeBytes2 o bs).1 := by
  induction s, o, bs using State.writeBytes2.induct with
  | case1 s o b0 b1 b2 b3 rest v s1 r e s2 bad e2 ih =>
    have h1 : Keeps r₀ s1 := Keeps.fst e (State.writeBar2_keeps _ _ _ h₀)
    unfold State.writeBytes2
    simp only
    rw [show s.writeBar2 o _ 15 = (s1, r) from e]
    exact ih h1
  | case2 s o bs hn =>
    unfold State.writeBytes2
    split
    · exact absurd rfl (hn _ _ _ _ _ ·)
    · exact h₀

end Sys2Proof.Machine
end

