-- ==== Sys2Proof/Laws/KeepsCasc.lean ====
section
/-!
SUPPORT. What the operations of Sys2Proof/Machine/Casc.lean keep.
-/
set_option linter.unusedTactic false
set_option linter.unreachableTactic false

namespace Sys2Proof.Machine

variable {r₀ s : State}

theorem State.setLinkState_keeps (l : Nat) (v : Nat) (h₀ : Keeps r₀ s) : Keeps r₀ (State.setLinkState s l v) := by
  unfold State.setLinkState
  with_reducible repeat' first
    | assumption | apply State.pf_keeps

theorem State.sendRec_keeps (l : Option Nat) (r : CascRec) (h₀ : Keeps r₀ s) : Keeps r₀ (State.sendRec s l r) := by
  unfold State.sendRec
  dsimp only
  with_reducible repeat' first
    | assumption | apply State.setLnk_keeps | split

theorem State.sendMsg_keeps (l : Nat) (typ : Nat) (spec : Nat) (payload : List Word) (h₀ : Keeps r₀ s) : Keeps r₀ (State.sendMsg s l typ spec payload) := by
  unfold State.sendMsg
  dsimp only
  with_reducible repeat' first
    | assumption | apply Keeps.ite | apply State.setLnk_keeps

theorem State.relayTime_keeps (kind : Nat) (ws : List Word) (h₀ : Keeps r₀ s) : Keeps r₀ (State.relayTime s kind ws) := by
  unfold State.relayTime
  with_reducible repeat' first
    | assumption | apply Keeps.ite | apply State.sendMsg_keeps | split

theorem State.passState_keeps (dir : Nat) (pkg : Nat) (dev : Nat) (avail : Nat) (h₀ : Keeps r₀ s) : Keeps r₀ (State.passState s dir pkg dev avail) := by
  unfold State.passState
  with_reducible repeat' first
    | assumption | apply State.sendMsg_keeps | split

theorem State.tellState_keeps (h₀ : Keeps r₀ s) : Keeps r₀ (State.tellState s) := by
  unfold State.tellState
  with_reducible repeat' first
    | assumption | apply Keeps.ite | apply State.passState_keeps

theorem State.hearState_keeps (pkg : Nat) (dev : Nat) (avail : Nat) (h₀ : Keeps r₀ s) : Keeps r₀ (State.hearState s pkg dev avail) := by
  unfold State.hearState
  dsimp only
  with_reducible repeat' first
    | assumption | apply Keeps.upd

theorem State.copyDown_keeps (op : Nat) (params : List Word) (h₀ : Keeps r₀ s) : Keeps r₀ (State.copyDown s op params) := by
  unfold State.copyDown
  with_reducible repeat' first
    | assumption | apply Keeps.ite | apply State.sendMsg_keeps | split

end Sys2Proof.Machine
end

