-- ==== Sys2Proof/Laws/KeepsMute.lean ====
section
/-!
SUPPORT. What the operations of Sys2Proof/Machine/Mute.lean keep.
-/
set_option linter.unusedTactic false
set_option linter.unreachableTactic false

namespace Sys2Proof.Machine

variable {r₀ s : State}

theorem State.settle_keeps (p : Nat) (h₀ : Keeps r₀ s) : Keeps r₀ (State.settle s p) := by
  unfold State.settle
  dsimp only
  with_reducible repeat' first
    | assumption | apply State.bumpBy_keeps | apply State.setTx_keeps

theorem State.padTrigger_keeps (r : Nat) (kind : Nat) (h₀ : Keeps r₀ s) : Keeps r₀ (State.padTrigger s r kind) := by
  unfold State.padTrigger
  dsimp only
  with_reducible repeat' first
    | assumption | apply State.setRow_keeps

theorem State.blankEnter_keeps (p : Nat) (h₀ : Keeps r₀ s) : Keeps r₀ (State.blankEnter s p) := by
  unfold State.blankEnter
  dsimp only
  with_reducible repeat' first
    | assumption | apply Keeps.ite | apply State.pb_keeps | apply State.setTx_keeps

theorem State.blankLeave_keeps (p : Nat) (h₀ : Keeps r₀ s) : Keeps r₀ (State.blankLeave s p) := by
  unfold State.blankLeave
  with_reducible repeat' first
    | assumption | apply Keeps.ite | apply State.pb_keeps | apply State.settle_keeps

theorem State.drivePads_keeps (p : Nat) (tx : Bool) (rx : Bool) (h₀ : Keeps r₀ s) : Keeps r₀ (State.drivePads s p tx rx) := by
  unfold State.drivePads
  dsimp only
  with_reducible repeat' first
    | assumption | apply Keeps.ite | apply State.blankEnter_keeps | apply State.blankLeave_keeps | apply State.bumpBy_keeps | apply State.padTrigger_keeps | apply State.setTx_keeps | apply Keeps.when | intro _ _

theorem State.muteUpdate_keeps (p : Nat) (h₀ : Keeps r₀ s) : Keeps r₀ (State.muteUpdate s p) := by
  unfold State.muteUpdate
  dsimp only
  with_reducible repeat' first
    | assumption | apply Keeps.ite | apply State.blankEnter_keeps | apply State.drivePads_keeps | apply State.pb_keeps | apply State.pf_keeps | apply State.setTx_keeps | apply State.settle_keeps

theorem State.muteFault_keeps (p : Nat) (h₀ : Keeps r₀ s) : Keeps r₀ (State.muteFault s p) := by
  unfold State.muteFault
  dsimp only
  with_reducible repeat' first
    | assumption | apply State.muteUpdate_keeps | apply State.setTx_keeps

theorem State.muteForce_keeps (p : Nat) (h₀ : Keeps r₀ s) : Keeps r₀ (State.muteForce s p) := by
  unfold State.muteForce
  dsimp only
  with_reducible repeat' first
    | assumption | apply State.muteUpdate_keeps | apply State.setTx_keeps

theorem State.muteTile_keeps (t : Nat) (h₀ : Keeps r₀ s) : Keeps r₀ (State.muteTile s t) := by
  unfold State.muteTile
  dsimp only
  with_reducible repeat' first
    | assumption | apply State.muteUpdate_keeps | apply State.setTx_keeps | apply Keeps.forEach | intro _ _ _

theorem State.muteAllForce_keeps (h₀ : Keeps r₀ s) : Keeps r₀ (State.muteAllForce s) := by
  unfold State.muteAllForce
  with_reducible repeat' first
    | assumption | apply State.muteForce_keeps | apply Keeps.forEach

theorem State.rxUpdate_keeps (p : Nat) (h₀ : Keeps r₀ s) : Keeps r₀ (State.rxUpdate s p) := by
  unfold State.rxUpdate
  with_reducible repeat' first
    | assumption | apply State.pb_keeps

theorem State.followDemands_keeps (p : Nat) (h₀ : Keeps r₀ s) : Keeps r₀ (State.followDemands s p) := by
  unfold State.followDemands
  dsimp only
  with_reducible repeat' first
    | assumption | apply State.drivePads_keeps

end Sys2Proof.Machine
end

