-- ==== Sys2Proof/Laws/KeepsChiast.lean ====
section
/-!
SUPPORT. What the operations of Sys2Proof/Machine/Chiast.lean keep.
-/
set_option linter.unusedTactic false
set_option linter.unreachableTactic false

namespace Sys2Proof.Machine

variable {r₀ s : State}

theorem State.pushPkt_keeps (m : Nat) (p : OutPkt) (h₀ : Keeps r₀ s) : Keeps r₀ (State.pushPkt s m p) := by
  unfold State.pushPkt
  dsimp only
  with_reducible repeat' first
    | assumption | apply Keeps.ite | apply State.bump_keeps | apply State.irq_keeps | apply State.setMbox_keeps

theorem State.notify_keeps (m : Nat) (p : OutPkt) (h₀ : Keeps r₀ s) : Keeps r₀ (State.notify s m p) := by
  unfold State.notify
  dsimp only
  with_reducible repeat' first
    | assumption | apply Keeps.ite | apply State.bump_keeps | apply State.bumpSatF_keeps | apply State.pushPkt_keeps | apply State.setMbox_keeps

theorem State.eventNotice_keeps (b : Nat) (code : Nat) (detail : Nat) (h₀ : Keeps r₀ s) : Keeps r₀ (State.eventNotice s b code detail) := by
  unfold State.eventNotice
  with_reducible repeat' first
    | assumption | apply Keeps.ite | apply State.notify_keeps | apply Keeps.forEach | intro _ _ _

theorem State.noticeMore_keeps (r : CmdRef) (status : Nat) (res : List Word) (h₀ : Keeps r₀ s) : Keeps r₀ (State.noticeMore s r status res) := by
  unfold State.noticeMore
  with_reducible repeat' first
    | assumption | apply State.notify_keeps

theorem State.finish_keeps (r : CmdRef) (status : Nat) (res : List Word) (h₀ : Keeps r₀ s) : Keeps r₀ (State.finish s r status res) := by
  unfold State.finish
  dsimp only
  with_reducible repeat' first
    | assumption | apply Keeps.ite | apply State.notify_keeps | apply Keeps.upd

theorem State.finishAll_keeps (op : Nat) (key : Nat) (status : Nat) (res : List Word) (h₀ : Keeps r₀ s) : Keeps r₀ (State.finishAll s op key status res) := by
  unfold State.finishAll
  with_reducible repeat' first
    | assumption | apply State.finish_keeps | apply Keeps.forEach | intro _ _ _

theorem State.ackWords_keeps (m : Nat) (n : Nat) (code : Nat) (h₀ : Keeps r₀ s) : Keeps r₀ (State.ackWords s m n code) := by
  unfold State.ackWords
  dsimp only
  with_reducible repeat' first
    | assumption | apply Keeps.ite | apply State.irq_keeps | apply State.pf_keeps | apply State.setMbox_keeps

theorem State.takeCmd_keeps (op : Nat) (p : Pkt) (h₀ : Keeps r₀ s) : Keeps r₀ (State.takeCmd s op p) := by
  unfold State.takeCmd
  dsimp only
  with_reducible repeat' first
    | assumption | apply State.ackWords_keeps | apply State.bump_keeps | apply State.setMbox_keeps | split | apply Keeps.upd

theorem State.reply_keeps (p : Pkt) (status : Nat) (res : List Word) (h₀ : Keeps r₀ s) : Keeps r₀ (State.reply s p status res) := by
  unfold State.reply
  dsimp only
  with_reducible repeat' first
    | assumption | apply Keeps.ite | apply State.bump_keeps | apply State.pushPkt_keeps | apply State.setMbox_keeps | split

theorem State.command_keeps (op : Nat) (p : Pkt) (valid : Bool) (stateOk : Bool) (allowed : Bool) (body : State → State × Verdict) (hf_body : ∀ u, Keeps r₀ u → Keeps r₀ (body u).1) (h₀ : Keeps r₀ s) : Keeps r₀ (State.command s op p valid stateOk allowed body) := by
  unfold State.command
  dsimp only
  with_reducible repeat' first
    | assumption | apply Keeps.ite | apply State.ackWords_keeps | apply State.mbEvt_keeps | apply State.pf_keeps | apply State.reply_keeps | apply State.takeCmd_keeps | (refine Keeps.fst (by assumption) (hf_body _ ?_)) | split | apply Keeps.upd

theorem State.disarm_keeps (n : Nat) (h₀ : Keeps r₀ s) : Keeps r₀ (State.disarm s n) := by
  unfold State.disarm
  with_reducible repeat' first
    | assumption | apply State.pb_keeps | apply State.setCmp_keeps

theorem State.cancelScheduled_keeps (r : CmdRef) (h₀ : Keeps r₀ s) : Keeps r₀ (State.cancelScheduled s r) := by
  unfold State.cancelScheduled
  dsimp only
  with_reducible repeat' first
    | assumption | apply Keeps.ite | apply State.disarm_keeps | apply State.pf_keeps | apply Keeps.forEach | intro _ _ _ | apply Keeps.upd

theorem State.endSimulation_keeps (h₀ : Keeps r₀ s) : Keeps r₀ (State.endSimulation s) := by
  unfold State.endSimulation
  dsimp only
  with_reducible repeat' first
    | assumption | apply Keeps.upd

theorem State.enterState_keeps (new : Nat) (cause : Nat) (h₀ : Keeps r₀ s) : Keeps r₀ (State.enterState s new cause) := by
  unfold State.enterState
  dsimp only
  with_reducible repeat' first
    | assumption | apply Keeps.wr | apply State.cancelScheduled_keeps | apply State.endSimulation_keeps | apply State.eventNotice_keeps | apply State.finish_keeps | apply State.muteAllForce_keeps | apply State.pb_keeps | apply State.rxUpdate_keeps | apply State.tellState_keeps | apply Keeps.forEach | apply Keeps.when | intro _ _ _

end Sys2Proof.Machine
end

