-- ==== Sys2Proof/Laws/KeepsLines.lean ====
section
/-!
SUPPORT. What the operations of Sys2Proof/Machine/Lines.lean keep.
-/
set_option linter.unusedTactic false
set_option linter.unreachableTactic false

namespace Sys2Proof.Machine

variable {r₀ s : State}

theorem State.lateAction_keeps (line : Nat) (cmp : Nat) (h₀ : Keeps r₀ s) : Keeps r₀ (State.lateAction s line cmp) := by
  unfold State.lateAction
  dsimp only
  with_reducible repeat' first
    | assumption | apply Keeps.ite | apply State.bumpSat_keeps | apply State.hubEvent_keeps | apply State.irq_keeps

theorem State.sendTriggers_keeps (line : Nat) (target : Nat) (late : Bool) (h₀ : Keeps r₀ s) : Keeps r₀ (State.sendTriggers s line target late) := by
  unfold State.sendTriggers
  dsimp only
  with_reducible repeat' first
    | assumption | apply Keeps.upd

theorem State.markFire_keeps (line : Nat) (target : Nat) (h₀ : Keeps r₀ s) : Keeps r₀ (State.markFire s line target) := by
  unfold State.markFire
  dsimp only
  with_reducible repeat' first
    | assumption | apply Keeps.upd

theorem State.actLine_keeps (line : Nat) (target : Nat) (late : Bool) (refs : List CmdRef) (sys : Bool) (h₀ : Keeps r₀ s) : Keeps r₀ (State.actLine s line target late refs sys) := by
  unfold State.actLine
  dsimp only
  with_reducible repeat' first
    | assumption | apply Keeps.ite | apply State.bump_keeps | apply State.irq_keeps | apply State.pb_keeps | apply State.sendTriggers_keeps | apply Keeps.upd

theorem State.fireLine_keeps (line : Nat) (target : Nat) (late : Bool) (refs : List CmdRef) (sys : Bool) (h₀ : Keeps r₀ s) : Keeps r₀ (State.fireLine s line target late refs sys) := by
  unfold State.fireLine
  with_reducible repeat' first
    | assumption | apply Keeps.ite | apply State.actLine_keeps | apply State.markFire_keeps

theorem State.takeDue_keeps (line : Nat) (h₀ : Keeps r₀ s) : ∀ x, s.takeDue line = some x → Keeps r₀ x.2 := by
  intro x hx
  unfold State.takeDue at hx
  split at hx
  · cases hx
    exact Keeps.upd h₀
  · cases hx

theorem State.fireCmp_keeps (n : Nat) (h₀ : Keeps r₀ s) : Keeps r₀ (State.fireCmp s n) := by
  unfold State.fireCmp
  dsimp only
  with_reducible repeat' first
    | assumption | apply Keeps.ite | apply Keeps.wr | apply State.advanceTo_keeps | apply State.disarm_keeps | apply State.fireLine_keeps | apply State.lateAction_keeps | apply State.setCmp_keeps

theorem State.armCmp_keeps (n : Nat) (target : Nat) (period : Nat) (ref : Option CmdRef) (h₀ : Keeps r₀ s) : Keeps r₀ (State.armCmp s n target period ref) := by
  unfold State.armCmp
  dsimp only
  with_reducible repeat' first
    | assumption | apply Keeps.ite | apply State.fireCmp_keeps | apply State.pb_keeps | apply State.setCmp_keeps

theorem State.schedule_keeps (n : Nat) (line : Nat) (target : Nat) (period : Nat) (ref : Option CmdRef) (h₀ : Keeps r₀ s) : Keeps r₀ (State.schedule s n line target period ref) := by
  unfold State.schedule
  dsimp only
  with_reducible repeat' first
    | assumption | apply Keeps.wr | apply State.armCmp_keeps | apply State.pf_keeps

theorem State.fireHubRoutes_keeps (src : Nat) (h₀ : Keeps r₀ s) : Keeps r₀ (State.fireHubRoutes s src) := by
  unfold State.fireHubRoutes
  with_reducible repeat' first
    | assumption | apply State.fireLine_keeps | apply Keeps.forEach | intro _ _ _

theorem State.fireAhead_keeps (src : Nat) (ev : Int) (at_ : Nat) (h₀ : Keeps r₀ s) : Keeps r₀ (State.fireAhead s src ev at_) := by
  unfold State.fireAhead
  dsimp only
  with_reducible repeat' first
    | assumption | apply Keeps.ite | apply State.drawNat_keeps | apply State.fireLine_keeps | apply State.lateAction_keeps | apply Keeps.forEach | intro _ _ _ | apply Keeps.upd

theorem State.markSrc_keeps (src : Nat) (b : Int) (h₀ : Keeps r₀ s) : Keeps r₀ (State.markSrc s src b) := by
  unfold State.markSrc
  dsimp only
  with_reducible repeat' first
    | assumption | apply Keeps.upd

theorem State.ppsFollow_keeps (h₀ : Keeps r₀ s) : Keeps r₀ (State.ppsFollow s) := by
  unfold State.ppsFollow
  dsimp only
  with_reducible repeat' first
    | assumption | apply Keeps.ite | apply Keeps.upd

theorem State.restartSync_keeps (h₀ : Keeps r₀ s) : Keeps r₀ (State.restartSync s) := by
  unfold State.restartSync
  dsimp only
  with_reducible repeat' first
    | assumption | apply Keeps.upd

theorem State.resetSources_keeps (which : Nat → Bool) (h₀ : Keeps r₀ s) : Keeps r₀ (State.resetSources s which) := by
  unfold State.resetSources
  dsimp only
  with_reducible repeat' first
    | assumption | apply Keeps.upd

theorem State.retime_keeps (old : State) (h₀ : Keeps r₀ s) : Keeps r₀ (State.retime s old) := by
  unfold State.retime
  with_reducible repeat' first
    | assumption | apply State.resetSources_keeps

end Sys2Proof.Machine
end

