-- ==== Sys2Proof/Laws/KeepsCarrier.lean ====
section
/-!
SUPPORT. What the operations of Sys2Proof/Machine/Carrier.lean keep.
-/
set_option linter.unusedTactic false
set_option linter.unreachableTactic false

namespace Sys2Proof.Machine

variable {r₀ s : State}

theorem State.switchCar_keeps (c : Nat) (v : CarVals) (h₀ : Keeps r₀ s) : Keeps r₀ (State.switchCar s c v) := by
  unfold State.switchCar
  dsimp only
  with_reducible repeat' first
    | assumption | apply State.setCar_keeps

theorem State.switchProc_keeps (c : Nat) (w : Word) (h₀ : Keeps r₀ s) : Keeps r₀ (State.switchProc s c w) := by
  unfold State.switchProc
  dsimp only
  with_reducible repeat' first
    | assumption | apply State.setCar_keeps

theorem State.switchSrs_keeps (c : Nat) (per : Word) (sym : Word) (h₀ : Keeps r₀ s) : Keeps r₀ (State.switchSrs s c per sym) := by
  unfold State.switchSrs
  dsimp only
  with_reducible repeat' first
    | assumption | apply State.setCar_keeps

theorem State.showCar_keeps (c : Nat) (reconf : Bool) (h₀ : Keeps r₀ s) : Keeps r₀ (State.showCar s c reconf) := by
  unfold State.showCar
  dsimp only
  with_reducible repeat' first
    | assumption | apply Keeps.wr

theorem execCarrierSwitch_keeps (c : Nat) (h₀ : Keeps r₀ s) : KeepsOut r₀ (execCarrierSwitch c s) := by
  unfold execCarrierSwitch
  dsimp only
  with_reducible repeat' first
    | assumption | apply KeepsOut.next | apply KeepsOut.ite | apply Keeps.wr | apply State.advanceTo_keeps | apply State.bump_keeps | apply State.setCar_keeps | apply State.showCar_keeps | apply Keeps.when | intro _ _ | split

theorem execSeCtrlWrite_keeps (w : Word) (h₀ : Keeps r₀ s) : KeepsOut r₀ (execSeCtrlWrite w s) := by
  unfold execSeCtrlWrite
  with_reducible repeat' first
    | assumption | apply KeepsOut.next | apply Keeps.ite | apply State.access_keeps | apply State.pb_keeps | apply State.poke_keeps | intro _ _

theorem execCarSet_keeps (p : Pkt) (h₀ : Keeps r₀ s) : KeepsOut r₀ (execCarSet p s) := by
  unfold execCarSet
  dsimp only
  with_reducible repeat' first
    | assumption | apply KeepsOut.next | apply State.stage_keeps | apply State.command_keeps | intro _ _

theorem execCarSrsSet_keeps (p : Pkt) (h₀ : Keeps r₀ s) : KeepsOut r₀ (execCarSrsSet p s) := by
  unfold execCarSrsSet
  dsimp only
  with_reducible repeat' first
    | assumption | apply KeepsOut.next | apply State.stage_keeps | apply State.command_keeps | intro _ _

theorem execCarQuery_keeps (p : Pkt) (h₀ : Keeps r₀ s) : KeepsOut r₀ (execCarQuery p s) := by
  unfold execCarQuery
  dsimp only
  with_reducible repeat' first
    | assumption | apply KeepsOut.next | apply State.command_keeps | intro _ _

theorem execSeLinkRate_keeps (p : Pkt) (h₀ : Keeps r₀ s) : KeepsOut r₀ (execSeLinkRate p s) := by
  unfold execSeLinkRate
  with_reducible repeat' first
    | assumption | apply KeepsOut.next | apply State.pf_keeps | apply State.command_keeps | intro _ _

theorem execCarStatus_keeps (p : Pkt) (h₀ : Keeps r₀ s) : KeepsOut r₀ (execCarStatus p s) := by
  unfold execCarStatus
  with_reducible repeat' first
    | assumption | apply KeepsOut.next | apply State.command_keeps | intro _ _

end Sys2Proof.Machine
end

