-- ==== Sys2Proof/Laws/KeepsWake.lean ====
section
/-!
SUPPORT. What the operations of Sys2Proof/Machine/Wake.lean keep.
-/
set_option linter.unusedTactic false
set_option linter.unreachableTactic false

namespace Sys2Proof.Machine

variable {r₀ s : State}

theorem State.setPkg_keeps (v : Nat) (h₀ : Keeps r₀ s) : Keeps r₀ (State.setPkg s v) := by
  unfold State.setPkg
  with_reducible repeat' first
    | assumption | apply State.pf_keeps

theorem State.setTileState_keeps (t : Nat) (v : Nat) (h₀ : Keeps r₀ s) : Keeps r₀ (State.setTileState s t v) := by
  unfold State.setTileState
  with_reducible repeat' first
    | assumption | apply State.pf_keeps

theorem State.freshAdcs_keeps (t : Nat) (h₀ : Keeps r₀ s) : Keeps r₀ (State.freshAdcs s t) := by
  unfold State.freshAdcs
  dsimp only
  with_reducible repeat' first
    | assumption | apply Keeps.forEach | intro _ _ _ | apply Keeps.upd

theorem State.setDom_keeps (d : Nat) (v : Bool) (h₀ : Keeps r₀ s) : Keeps r₀ (State.setDom s d v) := by
  unfold State.setDom
  dsimp only
  with_reducible repeat' first
    | assumption | apply Keeps.ite | apply State.freshAdcs_keeps | apply State.muteTile_keeps | apply State.pb_keeps | split | apply Keeps.upd

theorem State.powerEvent_keeps (scope : Nat) (code : Nat) (h₀ : Keeps r₀ s) : Keeps r₀ (State.powerEvent s scope code) := by
  unfold State.powerEvent
  with_reducible repeat' first
    | assumption | apply State.hubEvent_keeps

theorem State.tileNotice_keeps (ref : Option CmdRef) (status : Nat) (late : Bool) (h₀ : Keeps r₀ s) : Keeps r₀ (State.tileNotice s ref status late) := by
  unfold State.tileNotice
  dsimp only
  with_reducible repeat' first
    | assumption | apply Keeps.ite | apply State.finish_keeps | apply State.noticeMore_keeps | split

theorem State.abandonHere_keeps (e : PwEntry) (reason : Nat) (dom : Nat) (pkg : Nat) (h₀ : Keeps r₀ s) : Keeps r₀ (State.abandonHere s e reason dom pkg) := by
  unfold State.abandonHere
  dsimp only
  with_reducible repeat' first
    | assumption | apply Keeps.ite | apply Keeps.wr | apply State.bump_keeps | apply State.finish_keeps | apply State.hubEvent_keeps | apply State.pwEvt_keeps | apply State.setPkg_keeps | apply State.setTileState_keeps | apply State.tileNotice_keeps | split | apply Keeps.upd

theorem State.abandonEntry_keeps (e : PwEntry) (reason : Nat) (dom : Nat) (h₀ : Keeps r₀ s) : Keeps r₀ (State.abandonEntry s e reason dom) := by
  unfold State.abandonEntry
  dsimp only
  with_reducible repeat' first
    | assumption | apply Keeps.ite | apply State.abandonHere_keeps | apply State.copyDown_keeps | apply State.sendMsg_keeps | split

theorem State.startTileWake_keeps (t : Nat) (src : Nat) (ref : Option CmdRef) (dueBy : Option Nat) (late : Bool) (h₀ : Keeps r₀ s) : Keeps r₀ (State.startTileWake s t src ref dueBy late) := by
  unfold State.startTileWake
  dsimp only
  with_reducible repeat' first
    | assumption | apply State.bump_keeps | apply State.setTileState_keeps | split | dsimp only | apply Keeps.upd

theorem State.startPkgWake_keeps (src : Nat) (h₀ : Keeps r₀ s) : Keeps r₀ (State.startPkgWake s src) := by
  unfold State.startPkgWake
  dsimp only
  with_reducible repeat' first
    | assumption | apply State.bump_keeps | apply State.setPkg_keeps | apply Keeps.upd

theorem State.seenSource_keeps (scope : Nat) (src : Nat) (h₀ : Keeps r₀ s) : Keeps r₀ (State.seenSource s scope src) := by
  unfold State.seenSource
  dsimp only
  with_reducible repeat' first
    | assumption | apply Keeps.upd

theorem State.wakePackage_keeps (src : Nat) (h₀ : Keeps r₀ s) : Keeps r₀ (State.wakePackage s src) := by
  unfold State.wakePackage
  with_reducible repeat' first
    | assumption | apply Keeps.wr | apply State.abandonEntry_keeps | apply State.irq_keeps | apply State.seenSource_keeps | apply State.startPkgWake_keeps | split

theorem State.wakeTile_keeps (t : Nat) (src : Nat) (h₀ : Keeps r₀ s) : Keeps r₀ (State.wakeTile s t src) := by
  unfold State.wakeTile
  with_reducible repeat' first
    | assumption | apply State.abandonEntry_keeps | apply State.seenSource_keeps | apply State.startTileWake_keeps | split

theorem State.wakeArrive_keeps (src : Nat) (tiles : List Nat) (h₀ : Keeps r₀ s) : Keeps r₀ (State.wakeArrive s src tiles) := by
  unfold State.wakeArrive
  dsimp only
  with_reducible repeat' first
    | assumption | apply Keeps.ite | apply State.bump_keeps | apply State.wakePackage_keeps | apply State.wakeTile_keeps | apply Keeps.forEach | apply Keeps.when | intro _ _ _ | intro _ _

theorem State.setWakeStep_keeps (scope : Nat) (step : Nat) (h₀ : Keeps r₀ s) : Keeps r₀ (State.setWakeStep s scope step) := by
  unfold State.setWakeStep
  dsimp only
  with_reducible repeat' first
    | assumption | apply Keeps.upd

theorem State.retryNotice_keeps (r : CmdRef) (h₀ : Keeps r₀ s) : Keeps r₀ (State.retryNotice s r) := by
  unfold State.retryNotice
  dsimp only
  with_reducible repeat' first
    | assumption | apply Keeps.ite | apply State.finish_keeps

theorem State.failTileWake_keeps (t : Nat) (h₀ : Keeps r₀ s) : Keeps r₀ (State.failTileWake s t) := by
  unfold State.failTileWake
  dsimp only
  with_reducible repeat' first
    | assumption | apply Keeps.ite | apply State.bump_keeps | apply State.hubEvent_keeps | apply State.pb_keeps | apply State.pf_keeps | apply State.pwEvt_keeps | apply State.retryNotice_keeps | apply State.setDom_keeps | apply State.setLinkState_keeps | apply State.setTileState_keeps | apply State.tileNotice_keeps | split | apply Keeps.upd

theorem State.latchRow_keeps (r : Nat) (h₀ : Keeps r₀ s) : Keeps r₀ (State.latchRow s r) := by
  unfold State.latchRow
  dsimp only
  with_reducible repeat' first
    | assumption | apply Keeps.ite | apply State.blankEnter_keeps | apply State.pb_keeps | apply State.setRow_keeps | apply State.setTx_keeps | apply Keeps.forEach | intro _ _ _

theorem State.releasePads_keeps (mask : Nat) (h₀ : Keeps r₀ s) : Keeps r₀ (State.releasePads s mask) := by
  unfold State.releasePads
  dsimp only
  with_reducible repeat' first
    | assumption | apply Keeps.ite | apply State.followDemands_keeps | apply State.hubEvent_keeps | apply State.pf_keeps | apply State.setRow_keeps | apply Keeps.forEach | intro _ _ _ | apply Keeps.upd

end Sys2Proof.Machine
end

