-- ==== Sys2Proof/Laws/KeepsRings.lean ====
section
/-!
SUPPORT. What the operations of Sys2Proof/Machine/Rings.lean keep.
-/
set_option linter.unusedTactic false
set_option linter.unreachableTactic false

namespace Sys2Proof.Machine

variable {r₀ s : State}

theorem State.setRing_keeps (n : Nat) (x : RingSt) (h₀ : Keeps r₀ s) : Keeps r₀ (State.setRing s n x) := by
  unfold State.setRing
  dsimp only
  with_reducible repeat' first
    | assumption | apply Keeps.upd

theorem State.setRingState_keeps (n : Nat) (v : Nat) (h₀ : Keeps r₀ s) : Keeps r₀ (State.setRingState s n v) := by
  unfold State.setRingState
  with_reducible repeat' first
    | assumption | apply State.pf_keeps

theorem State.showWaiting_keeps (n : Nat) (h₀ : Keeps r₀ s) : Keeps r₀ (State.showWaiting s n) := by
  unfold State.showWaiting
  with_reducible repeat' first
    | assumption | apply State.pf_keeps

theorem State.deliver_keeps (n : Nat) (i : DevItem) (h₀ : Keeps r₀ s) : Keeps r₀ (State.deliver s n i) := by
  unfold State.deliver
  dsimp only
  with_reducible repeat' first
    | assumption | apply State.setRing_keeps | apply State.showWaiting_keeps

theorem State.startLoad_keeps (n : Nat) (ref : CmdRef) (need : Nat) (args : List Nat) (h₀ : Keeps r₀ s) : Keeps r₀ (State.startLoad s n ref need args) := by
  unfold State.startLoad
  dsimp only
  with_reducible repeat' first
    | assumption | apply State.setRing_keeps

end Sys2Proof.Machine
end

