-- ==== Sys2Proof/Laws/KeepsInject.lean ====
section
/-!
SUPPORT. What the operations of Sys2Proof/Machine/Inject.lean keep.
-/
set_option linter.unusedTactic false
set_option linter.unreachableTactic false

namespace Sys2Proof.Machine

variable {r₀ s : State}

theorem State.injected_keeps (chk : Nat) (unit : Nat) (h₀ : Keeps r₀ s) : Keeps r₀ (State.injected s chk unit).2 := by
  unfold State.injected
  dsimp only
  with_reducible repeat' first
    | assumption | apply State.finish_keeps | apply State.pb_keeps | split | dsimp only | apply Keeps.upd

theorem State.hubCheck_keeps (code : Nat) (fails : Nat) (bad : Nat) (h₀ : Keeps r₀ s) : Keeps r₀ (State.hubCheck s code fails bad) := by
  unfold State.hubCheck
  with_reducible repeat' first
    | assumption | apply State.bumpBy_keeps

theorem State.countCheck_keeps (chk : Nat) (unit : Nat) (fails : Nat) (bad : Nat) (h₀ : Keeps r₀ s) : Keeps r₀ (State.countCheck s chk unit fails bad) := by
  unfold State.countCheck
  with_reducible repeat' first
    | assumption | apply Keeps.ite | apply State.bumpBy_keeps | apply State.hubCheck_keeps

theorem State.injectCount_keeps (i : Injection) (n : Nat) (h₀ : Keeps r₀ s) : Keeps r₀ (State.injectCount s i n) := by
  unfold State.injectCount
  dsimp only
  with_reducible repeat' first
    | assumption | apply Keeps.ite | apply State.countCheck_keeps | apply State.finish_keeps | apply State.pb_keeps | split | apply Keeps.upd

theorem State.injectWords_keeps (chk : Nat) (unit : Nat) (ws : List Cx) (h₀ : Keeps r₀ s) : Keeps r₀ (State.injectWords s chk unit ws).1 := by
  unfold State.injectWords
  dsimp only
  with_reducible repeat' first
    | assumption | apply Keeps.ite | apply State.countCheck_keeps | apply State.injectCount_keeps | split

theorem State.crossWords_keeps (row : Nat) (unit : Nat) (ws : List Cx) (h₀ : Keeps r₀ s) : Keeps r₀ (State.crossWords s row unit ws).1 := by
  unfold State.crossWords
  dsimp only
  with_reducible repeat' first
    | assumption | split | dsimp only | apply Keeps.upd

theorem State.crossPrbs_keeps (row : Nat) (unit : Nat) (l : List (Nat × List Cx)) (h₀ : Keeps r₀ s) : Keeps r₀ (State.crossPrbs s row unit l).1 := by
  unfold State.crossPrbs
  dsimp only
  with_reducible repeat' first
    | assumption | apply State.crossWords_keeps | apply Keeps.foldlFst | intro _ _ _

theorem State.injectLists_keeps (chk : Nat) (byUnit : Bool) (l : List (List Cx)) (h₀ : Keeps r₀ s) : Keeps r₀ (State.injectLists s chk byUnit l).1 := by
  unfold State.injectLists
  dsimp only
  with_reducible repeat' first
    | assumption | apply State.injectWords_keeps | apply Keeps.foldlFst | intro _ _ _

theorem State.cascBlocks_keeps (l : List (List Cx)) (h₀ : Keeps r₀ s) : Keeps r₀ (State.cascBlocks s l).1 := by
  unfold State.cascBlocks
  dsimp only
  with_reducible repeat' first
    | assumption | apply State.injectLists_keeps

theorem State.crossBlocks_keeps (l : Nat) (bs : List CascBlock) (h₀ : Keeps r₀ s) : Keeps r₀ (State.crossBlocks s l bs).1 := by
  unfold State.crossBlocks
  dsimp only
  with_reducible repeat' first
    | assumption | apply State.crossWords_keeps | apply Keeps.foldlFst | intro _ _ _

theorem State.sendSlot_keeps (kind : Nat) (slot : Nat) (dst : Nat) (first : Nat) (els : List Cx) (h₀ : Keeps r₀ s) : Keeps r₀ (State.sendSlot s kind slot dst first els) := by
  unfold State.sendSlot
  dsimp only
  with_reducible repeat' first
    | assumption | apply State.cascBlocks_keeps | apply State.sendRec_keeps

end Sys2Proof.Machine
end

