-- ==== Sys2Proof/Laws/KeepsSolBase.lean ====
section
/-!
SUPPORT. What the operations of Sys2Proof/Machine/SolBase.lean keep.
-/
set_option linter.unusedTactic false
set_option linter.unreachableTactic false

namespace Sys2Proof.Machine

variable {r₀ s : State}

theorem State.setCore_keeps (c : Nat) (x : CoreSt) (h₀ : Keeps r₀ s) : Keeps r₀ (State.setCore s c x) := by
  unfold State.setCore
  dsimp only
  with_reducible repeat' first
    | assumption | apply Keeps.upd

theorem State.setJob_keeps (j : Nat) (x : JobSt) (h₀ : Keeps r₀ s) : Keeps r₀ (State.setJob s j x) := by
  unfold State.setJob
  dsimp only
  with_reducible repeat' first
    | assumption | apply Keeps.upd

theorem State.setJobState_keeps (j : Nat) (v : Nat) (h₀ : Keeps r₀ s) : Keeps r₀ (State.setJobState s j v) := by
  unfold State.setJobState
  with_reducible repeat' first
    | assumption | apply State.pf_keeps

theorem State.failItems_keeps (j : Nat) (k : Nat) (items : Nat) (reason : Nat) (h₀ : Keeps r₀ s) : Keeps r₀ (State.failItems s j k items reason) := by
  unfold State.failItems
  dsimp only
  with_reducible repeat' first
    | assumption | apply Keeps.ite | apply State.bumpBy_keeps | apply State.pb_keeps | apply State.pf_keeps

theorem State.failItem_keeps (j : Nat) (k : Nat) (reason : Nat) (h₀ : Keeps r₀ s) : Keeps r₀ (State.failItem s j k reason) := by
  unfold State.failItem
  with_reducible repeat' first
    | assumption | apply Keeps.ite | apply State.failItems_keeps

theorem State.failAll_keeps (j : Nat) (reason : Nat) (h₀ : Keeps r₀ s) : Keeps r₀ (State.failAll s j reason) := by
  unfold State.failAll
  with_reducible repeat' first
    | assumption | apply State.failItem_keeps | apply Keeps.forEach | intro _ _ _

theorem State.writeItem_keeps (j : Nat) (k : Nat) (h₀ : Keeps r₀ s) : Keeps r₀ (State.writeItem s j k) := by
  unfold State.writeItem
  dsimp only
  with_reducible repeat' first
    | assumption | apply Keeps.ite | apply State.bump_keeps | apply State.failItems_keeps | apply State.markDirty_keeps | apply State.pf_keeps | apply State.setBytes_keeps | apply Keeps.forEach | intro _ _ _

theorem State.idleCore_keeps (c : Nat) (h₀ : Keeps r₀ s) : Keeps r₀ (State.idleCore s c) := by
  unfold State.idleCore
  dsimp only
  with_reducible repeat' first
    | assumption | apply Keeps.wr | apply State.pf_keeps | apply State.setCore_keeps

theorem State.forwardLocks_keeps (h₀ : Keeps r₀ s) : Keeps r₀ (State.forwardLocks s) := by
  unfold State.forwardLocks
  dsimp only
  with_reducible repeat' first
    | assumption | apply Keeps.ite | apply State.sendMsg_keeps | split | apply Keeps.updTr

theorem State.unlock_keeps (j : Nat) (h₀ : Keeps r₀ s) : Keeps r₀ (State.unlock s j) := by
  unfold State.unlock
  dsimp only
  with_reducible repeat' first
    | assumption | apply Keeps.ite | apply State.forwardLocks_keeps | apply Keeps.updTr

theorem State.endJob_keeps (j : Nat) (state : Nat) (h₀ : Keeps r₀ s) : Keeps r₀ (State.endJob s j state) := by
  unfold State.endJob
  dsimp only
  with_reducible repeat' first
    | assumption | apply Keeps.ite | apply State.bump_keeps | apply State.finish_keeps | apply State.noticeMore_keeps | apply State.pf_keeps | apply State.setJob_keeps | apply State.setJobState_keeps | apply State.unlock_keeps | split

theorem State.tryComplete_keeps (j : Nat) (h₀ : Keeps r₀ s) : Keeps r₀ (State.tryComplete s j) := by
  unfold State.tryComplete
  dsimp only
  with_reducible repeat' first
    | assumption | apply Keeps.ite | apply State.endJob_keeps | apply State.writeItem_keeps | apply Keeps.forEach | intro _ _ _

theorem State.subDone_keeps (j : Nat) (sub : Nat) (h₀ : Keeps r₀ s) : Keeps r₀ (State.subDone s j sub) := by
  unfold State.subDone
  dsimp only
  with_reducible repeat' first
    | assumption | apply State.setJob_keeps | apply State.tryComplete_keeps

theorem State.stopJob_keeps (j : Nat) (state : Nat) (h₀ : Keeps r₀ s) : Keeps r₀ (State.stopJob s j state) := by
  unfold State.stopJob
  dsimp only
  with_reducible repeat' first
    | assumption | apply State.endJob_keeps | apply State.failAll_keeps | apply State.idleCore_keeps | apply State.setCore_keeps | apply Keeps.forEach | intro _ _ _

theorem State.coreFault_keeps (c : Nat) (cause : Nat) (h₀ : Keeps r₀ s) : Keeps r₀ (State.coreFault s c cause) := by
  unfold State.coreFault
  dsimp only
  with_reducible repeat' first
    | assumption | apply Keeps.wr | split

theorem State.dropItem_keeps (c : Nat) (i : WorkItem) (h₀ : Keeps r₀ s) : Keeps r₀ (State.dropItem s c i) := by
  unfold State.dropItem
  dsimp only
  with_reducible repeat' first
    | assumption | apply State.idleCore_keeps | apply State.setCore_keeps

theorem State.reissue_keeps (c : Nat) (h₀ : Keeps r₀ s) : Keeps r₀ (State.reissue s c) := by
  unfold State.reissue
  dsimp only
  with_reducible repeat' first
    | assumption | apply Keeps.ite | apply State.dropItem_keeps | apply State.failAll_keeps | apply State.setJob_keeps | apply State.subDone_keeps | split

theorem State.coreFail_keeps (c : Nat) (cause : Nat) (h₀ : Keeps r₀ s) : Keeps r₀ (State.coreFail s c cause) := by
  unfold State.coreFail
  dsimp only
  with_reducible repeat' first
    | assumption | apply State.bump_keeps | apply State.coreFault_keeps | apply State.hubEvent_keeps | apply State.pb_keeps | apply State.pf_keeps | apply State.reissue_keeps | apply State.spared_keeps

theorem State.progError_keeps (c : Nat) (cause : Nat) (h₀ : Keeps r₀ s) : Keeps r₀ (State.progError s c cause) := by
  unfold State.progError
  with_reducible repeat' first
    | assumption | apply State.coreFault_keeps | apply State.failAll_keeps | apply State.idleCore_keeps | apply State.subDone_keeps | split

theorem State.writeBurst_keeps (p : SPutD) (h₀ : Keeps r₀ s) : Keeps r₀ (State.writeBurst s p) := by
  unfold State.writeBurst
  dsimp only
  with_reducible repeat' first
    | assumption | apply State.markDirty_keeps | apply State.setByte_keeps | apply State.setBytes_keeps | apply Keeps.forEach | intro _ _ _

theorem State.sendSlices_keeps (p : SPutD) (h₀ : Keeps r₀ s) : Keeps r₀ (State.sendSlices s p) := by
  unfold State.sendSlices
  dsimp only
  with_reducible repeat' first
    | assumption | apply State.sendSlot_keeps | apply Keeps.forEach | intro _ _ _

theorem State.landBurst_keeps (c : Nat) (h₀ : Keeps r₀ s) : Keeps r₀ (State.landBurst s c) := by
  unfold State.landBurst
  dsimp only
  with_reducible repeat' first
    | assumption | apply State.sendSlices_keeps | apply State.setCore_keeps | apply State.tryComplete_keeps | apply State.writeBurst_keeps | split

theorem State.landAll_keeps (h₀ : Keeps r₀ s) : Keeps r₀ (State.landAll s) := by
  unfold State.landAll
  with_reducible repeat' first
    | assumption | apply State.landBurst_keeps | apply Keeps.forEach | intro _ _ _

theorem State.releaseJob_keeps (j : Nat) (h₀ : Keeps r₀ s) : Keeps r₀ (State.releaseJob s j) := by
  unfold State.releaseJob
  dsimp only
  with_reducible repeat' first
    | assumption | apply Keeps.ite | apply Keeps.wr | apply State.forwardLocks_keeps | apply State.setJob_keeps | apply State.setJobState_keeps | apply Keeps.updTr

theorem State.pauseJobs_keeps (h₀ : Keeps r₀ s) : Keeps r₀ (State.pauseJobs s) := by
  unfold State.pauseJobs
  with_reducible repeat' first
    | assumption | apply Keeps.ite | apply State.setJobState_keeps | apply Keeps.forEach | intro _ _ _

theorem State.resumeJobs_keeps (h₀ : Keeps r₀ s) : Keeps r₀ (State.resumeJobs s) := by
  unfold State.resumeJobs
  dsimp only
  with_reducible repeat' first
    | assumption | apply Keeps.ite | apply Keeps.wr | apply State.idleCore_keeps | apply State.pf_keeps | apply State.setJob_keeps | apply State.setJobState_keeps | apply State.tryComplete_keeps | apply Keeps.forEach | intro _ _ _

end Sys2Proof.Machine
end

