-- ==== Sys2Proof/Laws/KeepsSection.lean ====
section
/-!
SUPPORT. What the operations of Sys2Proof/Machine/Section.lean keep.
-/
set_option linter.unusedTactic false
set_option linter.unreachableTactic false

namespace Sys2Proof.Machine

variable {r₀ s : State}

theorem State.countReason_keeps (entry : Option Nat) (reason : Nat) (h₀ : Keeps r₀ s) : Keeps r₀ (State.countReason s entry reason) := by
  unfold State.countReason
  with_reducible repeat' first
    | assumption | apply Keeps.ite | apply State.bump_keeps | split

theorem State.failRecord_keeps (h : SecHdr) (reason : Nat) (dl : Bool) (cplane : Bool) (start : Nat) (num : Nat) (detail : Nat) (h₀ : Keeps r₀ s) : Keeps r₀ (State.failRecord s h reason dl cplane start num detail) := by
  unfold State.failRecord
  dsimp only
  with_reducible repeat' first
    | assumption | apply Keeps.ite | apply State.bump_keeps | apply State.pb_keeps | apply State.pf_keeps | apply Keeps.upd

theorem State.rejectSec_keeps (entry : Option Nat) (h : SecHdr) (reason : Nat) (dl : Bool) (cplane : Bool) (detail : Nat) (h₀ : Keeps r₀ s) : Keeps r₀ (State.rejectSec s entry h reason dl cplane detail) := by
  unfold State.rejectSec
  with_reducible repeat' first
    | assumption | apply State.countReason_keeps | apply State.failRecord_keeps

theorem State.rejectPrbs_keeps (entry : Nat) (h : SecHdr) (reason : Nat) (dl : Bool) (cplane : Bool) (prbs : List Nat) (h₀ : Keeps r₀ s) : Keeps r₀ (State.rejectPrbs s entry h reason dl cplane prbs) := by
  unfold State.rejectPrbs
  dsimp only
  with_reducible repeat' first
    | assumption | apply State.countReason_keeps | apply State.failRecord_keeps

theorem execFailRecordPost_keeps (h₀ : Keeps r₀ s) : KeepsOut r₀ (execFailRecordPost s) := by
  unfold execFailRecordPost
  dsimp only
  with_reducible repeat' first
    | assumption | apply KeepsOut.next | apply KeepsOut.ite | apply State.deliver_keeps | split | apply Keeps.upd

theorem State.writeGroup_keeps (slot : Nat) (m : Nat) (els : List Cx) (h₀ : Keeps r₀ s) : Keeps r₀ (State.writeGroup s slot m els) := by
  unfold State.writeGroup
  with_reducible repeat' first
    | assumption | apply State.writeCx_keeps | apply Keeps.forEach | intro _ _ _

theorem State.writeDir_keeps (e : Nat) (k : Nat) (kind : Nat) (g : Nat) (snr : Nat) (h₀ : Keeps r₀ s) : Keeps r₀ (State.writeDir s e k kind g snr) := by
  unfold State.writeDir
  dsimp only
  with_reducible repeat' first
    | assumption | apply Keeps.ite | apply State.setBytes_keeps

theorem State.writeEstimate_keeps (e : Nat) (k : Nat) (kind : Nat) (g : Nat) (snr : Nat) (groups : List (List Cx)) (h₀ : Keeps r₀ s) : Keeps r₀ (State.writeEstimate s e k kind g snr groups) := by
  unfold State.writeEstimate
  dsimp only
  with_reducible repeat' first
    | assumption | apply Keeps.ite | apply State.sendSlot_keeps | apply State.writeDir_keeps | apply State.writeGroup_keeps | apply Keeps.forEach | intro _ _ _

end Sys2Proof.Machine
end

