-- ==== Sys2Proof/Laws/KeepsFrame.lean ====
section
/-!
SUPPORT. What the operations of Sys2Proof/Machine/Frame.lean keep.
-/
set_option linter.unusedTactic false
set_option linter.unreachableTactic false

namespace Sys2Proof.Machine

variable {r₀ s : State}

theorem State.setPortMode_keeps (m : Nat) (h₀ : Keeps r₀ s) : Keeps r₀ (State.setPortMode s m) := by
  unfold State.setPortMode
  with_reducible repeat' first
    | assumption | apply Keeps.ite | apply State.pf_keeps

theorem execFhPortModeWrite_keeps (w : Word) (h₀ : Keeps r₀ s) : KeepsOut r₀ (execFhPortModeWrite w s) := by
  unfold execFhPortModeWrite
  with_reducible repeat' first
    | assumption | apply KeepsOut.next | apply Keeps.ite | apply State.access_keeps | apply State.pb_keeps | apply State.setPortMode_keeps | intro _ _

theorem execFhEaxcFmtWrite_keeps (w : Word) (h₀ : Keeps r₀ s) : KeepsOut r₀ (execFhEaxcFmtWrite w s) := by
  unfold execFhEaxcFmtWrite
  with_reducible repeat' first
    | assumption | apply KeepsOut.next | apply Keeps.ite | apply State.access_keeps | apply State.pb_keeps | apply State.poke_keeps | intro _ _

theorem execFhFailLostRead_keeps (h₀ : Keeps r₀ s) : KeepsOut r₀ (execFhFailLostRead s) := by
  unfold execFhFailLostRead
  with_reducible repeat' first
    | assumption | apply KeepsOut.next | apply Keeps.wr | apply State.accessRead_keeps | apply State.answer_keeps | intro _ _

theorem execFhBufPeakRead_keeps (h₀ : Keeps r₀ s) : KeepsOut r₀ (execFhBufPeakRead s) := by
  unfold execFhBufPeakRead
  with_reducible repeat' first
    | assumption | apply KeepsOut.next | apply State.accessRead_keeps | apply State.answer_keeps | apply State.pf_keeps | intro _ _

theorem execPortLinkUp_keeps (n : Nat) (h₀ : Keeps r₀ s) : KeepsOut r₀ (execPortLinkUp n s) := by
  unfold execPortLinkUp
  with_reducible repeat' first
    | assumption | apply KeepsOut.next | apply Keeps.ite | apply State.pb_keeps

theorem State.wakeFrame_keeps (f : FrameView) (bs : List Byte) (h₀ : Keeps r₀ s) : Keeps r₀ (State.wakeFrame s f bs) := by
  unfold State.wakeFrame
  dsimp only
  with_reducible repeat' first
    | assumption | apply Keeps.ite | apply State.sendMsg_keeps | apply State.wakeArrive_keeps | split

theorem State.frameToHost_keeps (n : Nat) (cls : Nat) (bs : List Byte) (h₀ : Keeps r₀ s) : Keeps r₀ (State.frameToHost s n cls bs) := by
  unfold State.frameToHost
  dsimp only
  with_reducible repeat' first
    | assumption | apply State.bump_keeps | apply State.deliver_keeps | split

theorem State.policed_keeps (n : Nat) (cls : Nat) (len : Nat) (h₀ : Keeps r₀ s) : Keeps r₀ (State.policed s n cls len).2 := by
  unfold State.policed
  dsimp only
  with_reducible repeat' first
    | assumption | split | apply Keeps.upd

theorem State.takeFrame_keeps (n : Nat) (o : Nat) (bs : List Byte) (h₀ : Keeps r₀ s) : Keeps r₀ (State.takeFrame s n o bs) := by
  unfold State.takeFrame
  dsimp only
  with_reducible repeat' first
    | assumption | apply Keeps.upd

theorem execFrameReceive_keeps (n : Nat) (bs : List Byte) (h₀ : Keeps r₀ s) : KeepsOut r₀ (execFrameReceive n bs s) := by
  unfold execFrameReceive
  dsimp only
  with_reducible repeat' first
    | assumption | apply KeepsOut.next | apply KeepsOut.ite | apply State.bump_keeps | apply State.bumpBy_keeps | apply State.frameToHost_keeps | apply State.policed_keeps | apply State.restartSync_keeps | apply State.takeFrame_keeps | apply State.wakeFrame_keeps | apply Keeps.when | intro _ _ | split

theorem State.txStamp_keeps (port : Nat) (bs : List Byte) (t : Nat) (h₀ : Keeps r₀ s) : Keeps r₀ (State.txStamp s port bs t) := by
  unfold State.txStamp
  dsimp only
  with_reducible repeat' first
    | assumption | apply Keeps.ite | apply State.pb_keeps | split | apply Keeps.upd

theorem State.sendFrame_keeps (start : Nat) (f : EgrFrame) (h₀ : Keeps r₀ s) : Keeps r₀ (State.sendFrame s start f) := by
  unfold State.sendFrame
  dsimp only
  with_reducible repeat' first
    | assumption | apply Keeps.ite | apply State.bump_keeps | apply State.bumpBy_keeps | apply State.rejectSec_keeps | apply State.txStamp_keeps | split | apply Keeps.upd

theorem State.egressPort_keeps (n k : Nat) (h₀ : Keeps r₀ s) : Keeps r₀ (s.egressPort n k) := by
  induction k generalizing s with
  | zero => exact h₀
  | succ k ih =>
    unfold State.egressPort
    split
    · exact h₀
    · split
      · exact ih (State.sendFrame_keeps _ _ h₀)
      · exact h₀

theorem State.egressRun_keeps (h₀ : Keeps r₀ s) : Keeps r₀ (State.egressRun s) := by
  unfold State.egressRun
  with_reducible repeat' first
    | assumption | apply State.egressPort_keeps | apply Keeps.forEach | intro _ _ _

theorem State.queueFrame_keeps (f : EgrFrame) (h₀ : Keeps r₀ s) : Keeps r₀ (State.queueFrame s f) := by
  unfold State.queueFrame
  dsimp only
  with_reducible repeat' first
    | assumption | apply State.egressRun_keeps | apply Keeps.upd

theorem State.idle_keeps (h₀ : Keeps r₀ s) : Keeps r₀ (State.idle s) := by
  unfold State.idle
  with_reducible repeat' first
    | assumption | apply State.advanceTo_keeps | apply State.egressRun_keeps

theorem execPortLinkDown_keeps (n : Nat) (h₀ : Keeps r₀ s) : KeepsOut r₀ (execPortLinkDown n s) := by
  unfold execPortLinkDown
  dsimp only
  with_reducible repeat' first
    | assumption | apply KeepsOut.next | apply KeepsOut.ite | apply State.egressRun_keeps | apply State.hubEvent_keeps | apply State.pb_keeps | apply State.rejectSec_keeps | apply State.spared_keeps | apply Keeps.forEach | apply Keeps.when | intro _ _ _ | intro _ _ | split | apply Keeps.upd

end Sys2Proof.Machine
end

