-- ==== Sys2Proof/Laws/KeepsFronthaul.lean ====
section
/-!
SUPPORT. What the operations of Sys2Proof/Machine/Fronthaul.lean keep.
-/
set_option linter.unusedTactic false
set_option linter.unreachableTactic false

namespace Sys2Proof.Machine

variable {r₀ s : State}

theorem State.showBuf_keeps (h₀ : Keeps r₀ s) : Keeps r₀ (State.showBuf s) := by
  unfold State.showBuf
  dsimp only
  with_reducible repeat' first
    | assumption | apply State.pf_keeps

theorem State.judgeCplane_keeps (pick : USec → Bool) (h₀ : Keeps r₀ s) : Keeps r₀ (State.judgeCplane s pick) := by
  unfold State.judgeCplane
  dsimp only
  with_reducible repeat' first
    | assumption | apply Keeps.ite | apply State.rejectPrbs_keeps | apply State.showBuf_keeps | apply Keeps.forEach | intro _ _ _ | apply Keeps.upd

theorem State.admitC_keeps (x : Sec) (yes : State → State) (hf_yes : ∀ u, Keeps r₀ u → Keeps r₀ (yes u)) (h₀ : Keeps r₀ s) : Keeps r₀ (State.admitC s x yes) := by
  unfold State.admitC
  with_reducible repeat' first
    | assumption | apply Keeps.ite | apply State.bump_keeps | apply State.pb_keeps | apply State.rejectSec_keeps | apply hf_yes

theorem State.forwardLayer_keeps (u : USec) (data : List (Nat × List Cx)) (h₀ : Keeps r₀ s) : Keeps r₀ (State.forwardLayer s u data) := by
  unfold State.forwardLayer
  dsimp only
  with_reducible repeat' first
    | assumption | apply Keeps.ite | apply State.cascBlocks_keeps | apply State.sendRec_keeps | apply Keeps.forEach | intro _ _ _

theorem State.scaleRaw_keeps (u : USec) (h₀ : Keeps r₀ s) : Keeps r₀ (State.scaleRaw s u) := by
  unfold State.scaleRaw
  dsimp only
  with_reducible repeat' first
    | assumption | apply Keeps.ite | apply State.forwardLayer_keeps | apply Keeps.upd

theorem State.acceptC_keeps (x : Sec) (h₀ : Keeps r₀ s) : Keeps r₀ (State.acceptC s x) := by
  unfold State.acceptC
  dsimp only
  with_reducible repeat' first
    | assumption | apply State.admitC_keeps | apply State.scaleRaw_keeps | apply Keeps.forEach | intro _ _ | split | apply Keeps.upd

theorem State.takePorts_keeps (x : Sec) (group : Option (Nat × Nat)) (h₀ : Keeps r₀ s) : Keeps r₀ (State.takePorts s x group) := by
  unfold State.takePorts
  dsimp only
  with_reducible repeat' first
    | assumption | apply Keeps.ite | apply State.acceptC_keeps | apply State.rejectSec_keeps | apply Keeps.forEach | intro _ _ _ | split

theorem orReject_keeps {v : Option (Nat × Nat)} {no : Nat → Nat → State} {yes : State} (hn : ∀ r d, Keeps r₀ (no r d))
    (hy : Keeps r₀ yes) : Keeps r₀ (orReject v no yes) := by
  unfold orReject
  split
  · exact hn _ _
  · exact hy

theorem State.takeEstimate_keeps (x : Sec) (i : SecIn) (h₀ : Keeps r₀ s) : Keeps r₀ (State.takeEstimate s x i) := by
  unfold State.takeEstimate
  dsimp only
  with_reducible repeat' first
    | assumption | apply Keeps.ite | apply State.admitC_keeps | apply State.bump_keeps | apply State.drawNat_keeps | apply State.rejectSec_keeps | apply State.writeEstimate_keeps | apply Keeps.when | intro _ _ | split | apply Keeps.upd

theorem State.takePrach_keeps (x : Sec) (p : PrachIn) (air : Nat) (h₀ : Keeps r₀ s) : Keeps r₀ (State.takePrach s x p air) := by
  unfold State.takePrach
  dsimp only
  with_reducible repeat' first
    | assumption | apply Keeps.ite | apply State.admitC_keeps | apply State.bump_keeps | apply State.rejectSec_keeps | intro _ _ | apply Keeps.upd

theorem State.takeC_keeps (arr : Nat) (m : EcpriMsg) (x : SecIn) (e : Nat) (c : Nat) (cfg : Word) (slot : Int) (prbs : List Nat) (comp : Nat × Nat) (h₀ : Keeps r₀ s) : Keeps r₀ (State.takeC s arr m x e c cfg slot prbs comp) := by
  unfold State.takeC
  dsimp only
  with_reducible repeat' first
    | assumption | apply Keeps.ite | apply orReject_keeps | apply State.rejectSec_keeps | apply State.takeEstimate_keeps | apply State.takePorts_keeps | apply State.takePrach_keeps | intro _ _ | split | apply Keeps.upd

theorem State.takeU_keeps (arr : Nat) (m : EcpriMsg) (x : SecIn) (e : Nat) (c : Nat) (cfg : Word) (slot : Int) (prbs : List Nat) (comp : Nat × Nat) (h₀ : Keeps r₀ s) : Keeps r₀ (State.takeU s arr m x e c cfg slot prbs comp) := by
  unfold State.takeU
  dsimp only
  with_reducible repeat' first
    | assumption | apply Keeps.ite | apply State.bump_keeps | apply State.crossPrbs_keeps | apply State.forwardLayer_keeps | apply State.judgeCplane_keeps | apply orReject_keeps | apply State.pb_keeps | apply State.rejectSec_keeps | apply State.scaleRaw_keeps | apply State.showBuf_keeps | intro _ _ | split | apply Keeps.upd

theorem State.takeSec_keeps (arr : Nat) (m : EcpriMsg) (x : SecIn) (h₀ : Keeps r₀ s) : Keeps r₀ (State.takeSec s arr m x) := by
  unfold State.takeSec
  dsimp only
  with_reducible repeat' first
    | assumption | apply Keeps.ite | apply State.rejectSec_keeps | apply State.takeC_keeps | apply State.takeU_keeps | split

theorem State.takeInbox_keeps (m : EcpriMsg) (h₀ : Keeps r₀ s) : Keeps r₀ (s.takeInbox m).2.2 := by
  unfold State.takeInbox
  split
  · split
    · exact Keeps.upd h₀
    · exact h₀
  · exact h₀

theorem State.seqCheck_keeps (e : Option Nat) (m : EcpriMsg) (h₀ : Keeps r₀ s) : Keeps r₀ (State.seqCheck s e m) := by
  unfold State.seqCheck
  dsimp only
  with_reducible repeat' first
    | assumption | apply State.bump_keeps | split | apply Keeps.upd

theorem execEcpriMessage_keeps (m : EcpriMsg) (h₀ : Keeps r₀ s) : KeepsOut r₀ (execEcpriMessage m s) := by
  have h1 := State.takeInbox_keeps m h₀
  unfold execEcpriMessage
  split
  · exact KeepsOut.next h₀
  · revert h1
    generalize s.takeInbox m = x
    intro h1
    dsimp only
    split
    · exact KeepsOut.next (Keeps.forEach h1 fun u x hu => State.rejectSec_keeps _ _ _ _ _ _ hu)
    · exact KeepsOut.next (Keeps.forEach (State.seqCheck_keeps _ _ h1) fun u x hu => State.takeSec_keeps _ _ _ hu)

theorem execCplaneWindowClose_keeps (c : Nat) (h₀ : Keeps r₀ s) : KeepsOut r₀ (execCplaneWindowClose c s) := by
  unfold execCplaneWindowClose
  dsimp only
  with_reducible repeat' first
    | assumption | apply KeepsOut.next | apply State.advanceTo_keeps | apply State.judgeCplane_keeps | split

theorem State.sendPiece_keeps (port : Nat) (x : UlSec) (h : SecHdr) (first : Bool) (piece : List (Nat × List Cx)) (h₀ : Keeps r₀ s) : Keeps r₀ (State.sendPiece s port x h first piece) := by
  unfold State.sendPiece
  dsimp only
  with_reducible repeat' first
    | assumption | apply State.queueFrame_keeps | apply Keeps.upd

theorem State.sendUl_keeps (x : UlSec) (h₀ : Keeps r₀ s) : Keeps r₀ (State.sendUl s x) := by
  unfold State.sendUl
  dsimp only
  with_reducible repeat' first
    | assumption | apply Keeps.ite | apply State.injectLists_keeps | apply State.rejectSec_keeps | apply State.sendPiece_keeps | apply Keeps.forEach | intro _ _ _

theorem execUlEgress_keeps (h₀ : Keeps r₀ s) : KeepsOut r₀ (execUlEgress s) := by
  unfold execUlEgress
  dsimp only
  with_reducible repeat' first
    | assumption | apply KeepsOut.next | apply State.sendUl_keeps | apply Keeps.forEach | split | apply Keeps.upd

theorem State.toEgress_keeps (x : UlSec) (h₀ : Keeps r₀ s) : Keeps r₀ (State.toEgress s x) := by
  unfold State.toEgress
  dsimp only
  with_reducible repeat' first
    | assumption | apply Keeps.ite | apply State.pb_keeps | apply State.rejectSec_keeps | apply Keeps.upd

theorem execFhPortMode_keeps (p : Pkt) (h₀ : Keeps r₀ s) : KeepsOut r₀ (execFhPortMode p s) := by
  unfold execFhPortMode
  with_reducible repeat' first
    | assumption | apply KeepsOut.next | apply State.setPortMode_keeps | apply State.command_keeps | intro _ _

theorem execFhPortCfg_keeps (p : Pkt) (h₀ : Keeps r₀ s) : KeepsOut r₀ (execFhPortCfg p s) := by
  unfold execFhPortCfg
  dsimp only
  with_reducible repeat' first
    | assumption | apply KeepsOut.next | apply State.poke_keeps | apply Keeps.forEach | apply State.command_keeps | intro _ _ _ | intro _ _

theorem execFhEaxcSet_keeps (p : Pkt) (h₀ : Keeps r₀ s) : KeepsOut r₀ (execFhEaxcSet p s) := by
  unfold execFhEaxcSet
  dsimp only
  with_reducible repeat' first
    | assumption | apply KeepsOut.next | apply State.stage_keeps | apply State.command_keeps | intro _ _

theorem execFhWindowSet_keeps (p : Pkt) (h₀ : Keeps r₀ s) : KeepsOut r₀ (execFhWindowSet p s) := by
  unfold execFhWindowSet
  dsimp only
  with_reducible repeat' first
    | assumption | apply KeepsOut.next | apply State.stage_keeps | apply State.command_keeps | intro _ _

theorem execFhClassSet_keeps (p : Pkt) (h₀ : Keeps r₀ s) : KeepsOut r₀ (execFhClassSet p s) := by
  unfold execFhClassSet
  dsimp only
  with_reducible repeat' first
    | assumption | apply KeepsOut.next | apply State.stage_keeps | apply State.command_keeps | intro _ _

theorem execFhWinQuery_keeps (p : Pkt) (h₀ : Keeps r₀ s) : KeepsOut r₀ (execFhWinQuery p s) := by
  unfold execFhWinQuery
  dsimp only
  with_reducible repeat' first
    | assumption | apply KeepsOut.next | apply State.command_keeps | intro _ _

theorem execFhFailCfg_keeps (p : Pkt) (h₀ : Keeps r₀ s) : KeepsOut r₀ (execFhFailCfg p s) := by
  unfold execFhFailCfg
  with_reducible repeat' first
    | assumption | apply KeepsOut.next | apply Keeps.wr | apply State.command_keeps | intro _ _

theorem execFhWakeCfg_keeps (p : Pkt) (h₀ : Keeps r₀ s) : KeepsOut r₀ (execFhWakeCfg p s) := by
  unfold execFhWakeCfg
  with_reducible repeat' first
    | assumption | apply KeepsOut.next | apply Keeps.wr | apply State.command_keeps | intro _ _

end Sys2Proof.Machine
end

