-- ==== Sys2Proof/Laws/KeepsJobs.lean ====
section
/-!
SUPPORT. What the operations of Sys2Proof/Machine/Jobs.lean keep.
-/
set_option linter.unusedTactic false
set_option linter.unreachableTactic false

namespace Sys2Proof.Machine

variable {r₀ s : State}

theorem State.submitJob_keeps (j : Nat) (ref : Option CmdRef) (h₀ : Keeps r₀ s) : Keeps r₀ (State.submitJob s j ref) := by
  unfold State.submitJob
  dsimp only
  with_reducible repeat' first
    | assumption | apply Keeps.ite | apply Keeps.wr | apply State.releaseJob_keeps | apply State.setJob_keeps

theorem State.writeJob_keeps (j : Nat) (w : Nat) (v : Word) (h₀ : Keeps r₀ s) : Keeps r₀ (State.writeJob s j w v) := by
  unfold State.writeJob
  dsimp only
  with_reducible repeat' first
    | assumption | apply Keeps.ite | apply State.pb_keeps | apply State.poke_keeps | apply State.submitJob_keeps

theorem execJobGoWrite_keeps (j : Nat) (v : Word) (h₀ : Keeps r₀ s) : KeepsOut r₀ (execJobGoWrite j v s) := by
  unfold execJobGoWrite
  with_reducible repeat' first
    | assumption | apply KeepsOut.next | apply Keeps.ite | apply State.access_keeps | apply State.writeJob_keeps | intro _ _

theorem execJobRelease_keeps (h₀ : Keeps r₀ s) : KeepsOut r₀ (execJobRelease s) := by
  unfold execJobRelease
  with_reducible repeat' first
    | assumption | apply KeepsOut.next | apply KeepsOut.ite | apply Keeps.ite | apply State.advanceTo_keeps | apply State.bump_keeps | apply State.pb_keeps | apply State.releaseJob_keeps | (exact Keeps.some2 (by assumption) (State.takeDue_keeps _ h₀)) | apply Keeps.forEach | intro _ _ _ | split

theorem State.failEarly_keeps (j : Nat) (k : Nat) (reason : Nat) (h₀ : Keeps r₀ s) : Keeps r₀ (State.failEarly s j k reason) := by
  unfold State.failEarly
  dsimp only
  with_reducible repeat' first
    | assumption | apply State.failItem_keeps | apply State.setJob_keeps

theorem State.startJob_keeps (j : Nat) (h₀ : Keeps r₀ s) : Keeps r₀ (State.startJob s j) := by
  unfold State.startJob
  dsimp only
  with_reducible repeat' first
    | assumption | apply Keeps.ite | apply State.failEarly_keeps | apply State.setJob_keeps | apply State.setJobState_keeps | apply Keeps.forEach | intro _ _ _

theorem State.kernelEntry_keeps (k : Nat) (h₀ : Keeps r₀ s) : Keeps r₀ (State.kernelEntry s k).2 := by
  unfold State.kernelEntry
  dsimp only
  with_reducible repeat' first
    | assumption | apply State.drawNat_keeps | split

theorem execWorkItemStart_keeps (c : Nat) (h₀ : Keeps r₀ s) : KeepsOut r₀ (execWorkItemStart c s) := by
  unfold execWorkItemStart
  dsimp only
  with_reducible repeat' first
    | assumption | apply KeepsOut.next | apply KeepsOut.ite | apply State.bump_keeps | apply State.kernelEntry_keeps | apply State.pf_keeps | apply State.setCore_keeps | apply State.setJob_keeps | apply State.startJob_keeps | split

theorem execWorkItemTimeout_keeps (c : Nat) (h₀ : Keeps r₀ s) : KeepsOut r₀ (execWorkItemTimeout c s) := by
  unfold execWorkItemTimeout
  with_reducible repeat' first
    | assumption | apply KeepsOut.next | apply Keeps.ite | apply State.advanceTo_keeps | apply State.coreFail_keeps | split

theorem execJobDeadline_keeps (j : Nat) (h₀ : Keeps r₀ s) : KeepsOut r₀ (execJobDeadline j s) := by
  unfold execJobDeadline
  dsimp only
  with_reducible repeat' first
    | assumption | apply KeepsOut.next | apply KeepsOut.ite | apply Keeps.ite | apply State.advanceTo_keeps | apply State.bump_keeps | apply State.pb_keeps | apply State.stopJob_keeps

theorem execCascSliceTimeout_keeps (j : Nat) (i : Nat) (h₀ : Keeps r₀ s) : KeepsOut r₀ (execCascSliceTimeout j i s) := by
  unfold execCascSliceTimeout
  dsimp only
  with_reducible repeat' first
    | assumption | apply KeepsOut.next | apply KeepsOut.ite | apply State.failAll_keeps | apply State.failItem_keeps | apply State.setJob_keeps | apply State.subDone_keeps | apply State.tryComplete_keeps | apply Keeps.forEach | intro _ _ _ | split

theorem execSolSrsSet_keeps (p : Pkt) (h₀ : Keeps r₀ s) : KeepsOut r₀ (execSolSrsSet p s) := by
  unfold execSolSrsSet
  dsimp only
  with_reducible repeat' first
    | assumption | apply KeepsOut.next | apply State.copyDown_keeps | apply State.stage_keeps | apply Keeps.forEach | apply State.command_keeps | intro _ _ _ | intro _ _

theorem execSolJobSubmit_keeps (p : Pkt) (h₀ : Keeps r₀ s) : KeepsOut r₀ (execSolJobSubmit p s) := by
  unfold execSolJobSubmit
  dsimp only
  with_reducible repeat' first
    | assumption | apply KeepsOut.next | apply State.copyDown_keeps | apply State.poke_keeps | apply State.submitJob_keeps | apply Keeps.forEach | apply State.command_keeps | intro _ _ _ | intro _ _ | split

theorem State.cancelJob_keeps (j : Nat) (h₀ : Keeps r₀ s) : Keeps r₀ (State.cancelJob s j) := by
  unfold State.cancelJob
  with_reducible repeat' first
    | assumption | apply Keeps.ite | apply State.setJobState_keeps | apply State.stopJob_keeps

theorem execSolJobCancel_keeps (p : Pkt) (h₀ : Keeps r₀ s) : KeepsOut r₀ (execSolJobCancel p s) := by
  unfold execSolJobCancel
  dsimp only
  with_reducible repeat' first
    | assumption | apply KeepsOut.next | apply State.cancelJob_keeps | apply State.copyDown_keeps | apply State.command_keeps | intro _ _

theorem execSolJobStatus_keeps (p : Pkt) (h₀ : Keeps r₀ s) : KeepsOut r₀ (execSolJobStatus p s) := by
  unfold execSolJobStatus
  dsimp only
  with_reducible repeat' first
    | assumption | apply KeepsOut.next | apply State.command_keeps | intro _ _

theorem execSolKernelLoad_keeps (p : Pkt) (h₀ : Keeps r₀ s) : KeepsOut r₀ (execSolKernelLoad p s) := by
  unfold execSolKernelLoad
  dsimp only
  with_reducible repeat' first
    | assumption | apply KeepsOut.next | apply State.startLoad_keeps | apply State.command_keeps | intro _ _ | split

theorem State.takeOut_keeps (c : Nat) (h₀ : Keeps r₀ s) : Keeps r₀ (State.takeOut s c) := by
  unfold State.takeOut
  dsimp only
  with_reducible repeat' first
    | assumption | apply State.dropItem_keeps | apply State.pb_keeps | apply State.pf_keeps | apply State.setJob_keeps | split

theorem execSolCoreCtrl_keeps (p : Pkt) (pass : Bool) (h₀ : Keeps r₀ s) : KeepsOut r₀ (execSolCoreCtrl p pass s) := by
  unfold execSolCoreCtrl
  dsimp only
  with_reducible repeat' first
    | assumption | apply KeepsOut.next | apply State.pb_keeps | apply State.pf_keeps | apply State.setCore_keeps | apply State.takeOut_keeps | apply State.command_keeps | intro _ _ | split

theorem execSolCascMode_keeps (p : Pkt) (h₀ : Keeps r₀ s) : KeepsOut r₀ (execSolCascMode p s) := by
  unfold execSolCascMode
  with_reducible repeat' first
    | assumption | apply KeepsOut.next | apply State.copyDown_keeps | apply State.pb_keeps | apply State.command_keeps | intro _ _

theorem execSolChClear_keeps (p : Pkt) (h₀ : Keeps r₀ s) : KeepsOut r₀ (execSolChClear p s) := by
  unfold execSolChClear
  with_reducible repeat' first
    | assumption | apply KeepsOut.next | apply State.setByte_keeps | apply Keeps.forEach | apply State.command_keeps | intro _ _ _ | intro _ _

end Sys2Proof.Machine
end

