-- ==== Sys2Proof/Laws/KeepsCelRead.lean ====
section
/-!
SUPPORT. What the operations of Sys2Proof/Machine/CelRead.lean keep.
-/
set_option linter.unusedTactic false
set_option linter.unreachableTactic false

namespace Sys2Proof.Machine

variable {r₀ s : State}

theorem State.celFull_keeps (status : Nat) (h₀ : Keeps r₀ s) : Keeps r₀ (State.celFull s status) := by
  unfold State.celFull
  with_reducible repeat' first
    | assumption | apply Keeps.ite | apply State.pb_keeps

theorem State.orderSet_keeps (kind : Nat) (inst : Nat) (payload : List Word) (ref : Option CmdRef) (h₀ : Keeps r₀ s) : Keeps r₀ (State.orderSet s kind inst payload ref) := by
  unfold State.orderSet
  with_reducible repeat' first
    | assumption | apply Keeps.upd

end Sys2Proof.Machine
end

