-- ==== Sys2Proof/Laws/KeepsRf.lean ====
section
/-!
SUPPORT. What the operations of Sys2Proof/Machine/Rf.lean keep.
-/
set_option linter.unusedTactic false
set_option linter.unreachableTactic false

namespace Sys2Proof.Machine

variable {r₀ s : State}

theorem State.setPrState_keeps (p : Nat) (v : Nat) (h₀ : Keeps r₀ s) : Keeps r₀ (State.setPrState s p v) := by
  unfold State.setPrState
  with_reducible repeat' first
    | assumption | apply State.pf_keeps

theorem State.setCanState_keeps (p : Nat) (v : Nat) (h₀ : Keeps r₀ s) : Keeps r₀ (State.setCanState s p v) := by
  unfold State.setCanState
  with_reducible repeat' first
    | assumption | apply State.pf_keeps

theorem State.endCapture_keeps (r : Nat) (h₀ : Keeps r₀ s) : Keeps r₀ (State.endCapture s r) := by
  unfold State.endCapture
  dsimp only
  with_reducible repeat' first
    | assumption | apply State.pf_keeps | apply State.setOrx_keeps | split

theorem State.countDiscard_keeps (c : OrxCap) (h₀ : Keeps r₀ s) : Keeps r₀ (State.countDiscard s c) := by
  unfold State.countDiscard
  with_reducible repeat' first
    | assumption | apply Keeps.ite | apply State.bump_keeps

theorem State.abortCapture_keeps (r : Nat) (h₀ : Keeps r₀ s) : Keeps r₀ (State.abortCapture s r) := by
  unfold State.abortCapture
  dsimp only
  with_reducible repeat' first
    | assumption | apply Keeps.ite | apply State.bump_keeps | apply State.countDiscard_keeps | apply State.endCapture_keeps | apply State.finish_keeps | apply State.pb_keeps | apply State.setRing_keeps | apply State.showWaiting_keeps | apply Keeps.forEach | intro _ _ _ | split

theorem State.spoilCaptures_keeps (p : Nat) (h₀ : Keeps r₀ s) : Keeps r₀ (State.spoilCaptures s p) := by
  unfold State.spoilCaptures
  dsimp only
  with_reducible repeat' first
    | assumption | apply Keeps.ite | apply State.setOrx_keeps | apply Keeps.forEach | intro _ _ _ | split

theorem State.wrList_keeps (a : Nat) (ws : List Word) (h₀ : Keeps r₀ s) : Keeps r₀ (State.wrList s a ws) := by
  unfold State.wrList
  with_reducible repeat' first
    | assumption | apply Keeps.wr | apply Keeps.forEach | intro _ _ _

theorem State.pendCoefs_keeps (p : Nat) (ws : List Word) (h₀ : Keeps r₀ s) : Keeps r₀ (State.pendCoefs s p ws) := by
  unfold State.pendCoefs
  dsimp only
  with_reducible repeat' first
    | assumption | apply State.pb_keeps | apply State.setPr_keeps

theorem State.pendTaps_keeps (p : Nat) (ws : List Word) (h₀ : Keeps r₀ s) : Keeps r₀ (State.pendTaps s p ws) := by
  unfold State.pendTaps
  dsimp only
  with_reducible repeat' first
    | assumption | apply State.pb_keeps | apply State.setCan_keeps

theorem State.restartPress_keeps (p : Nat) (h₀ : Keeps r₀ s) : Keeps r₀ (State.restartPress s p) := by
  unfold State.restartPress
  dsimp only
  with_reducible repeat' first
    | assumption | apply State.setPr_keeps | apply State.setPrState_keeps

theorem State.restartCan_keeps (p : Nat) (h₀ : Keeps r₀ s) : Keeps r₀ (State.restartCan s p) := by
  unfold State.restartCan
  dsimp only
  with_reducible repeat' first
    | assumption | apply State.setCan_keeps | apply State.setCanState_keeps

end Sys2Proof.Machine
end

