-- ==== Sys2Proof/Laws/KeepsFeed.lean ====
section
/-!
SUPPORT. What the operations of Sys2Proof/Machine/Feed.lean keep.
-/
set_option linter.unusedTactic false
set_option linter.unreachableTactic false

namespace Sys2Proof.Machine

variable {r₀ s : State}

theorem State.setFeed_keeps (p : Nat) (f : RxFeed) (h₀ : Keeps r₀ s) : Keeps r₀ (State.setFeed s p f) := by
  unfold State.setFeed
  dsimp only
  with_reducible repeat' first
    | assumption | apply Keeps.upd

theorem State.fastDetect_keeps (p : Nat) (blocks : Nat) (power : Nat) (h₀ : Keeps r₀ s) : Keeps r₀ (State.fastDetect s p blocks power) := by
  unfold State.fastDetect
  dsimp only
  with_reducible repeat' first
    | assumption | apply Keeps.wr

theorem State.enterOverload_keeps (p : Nat) (h₀ : Keeps r₀ s) : Keeps r₀ (State.enterOverload s p) := by
  unfold State.enterOverload
  dsimp only
  with_reducible repeat' first
    | assumption | apply Keeps.ite | apply State.bump_keeps | apply State.pb_keeps | apply State.setAdc_keeps | apply State.setAgc_keeps | apply State.setOrx_keeps | apply State.tileEvent_keeps | split

theorem State.leaveOverload_keeps (p : Nat) (h₀ : Keeps r₀ s) : Keeps r₀ (State.leaveOverload s p) := by
  unfold State.leaveOverload
  dsimp only
  with_reducible repeat' first
    | assumption | apply State.pb_keeps | apply State.setAdc_keeps

theorem State.fastBlock_keeps (p : Nat) (b : Nat) (h₀ : Keeps r₀ s) : Keeps r₀ (State.fastBlock s p b) := by
  unfold State.fastBlock
  dsimp only
  with_reducible repeat' first
    | assumption | apply Keeps.ite | apply State.bumpBy_keeps | apply State.enterOverload_keeps | apply State.fastDetect_keeps | apply State.leaveOverload_keeps | apply State.setFeed_keeps

theorem State.envelope_keeps (p : Nat) (e : Nat) (h₀ : Keeps r₀ s) : Keeps r₀ (State.envelope s p e) := by
  unfold State.envelope
  dsimp only
  with_reducible repeat' first
    | assumption | apply Keeps.ite | apply State.bump_keeps | apply State.pb_keeps | apply State.pf_keeps | apply State.tileEvent_keeps

theorem State.detect_keeps (p : Nat) (x : Cx) (h₀ : Keeps r₀ s) : Keeps r₀ (State.detect s p x) := by
  unfold State.detect
  dsimp only
  with_reducible repeat' first
    | assumption | apply Keeps.ite | apply State.envelope_keeps | apply State.setFeed_keeps

theorem State.takePower_keeps (p : Nat) (t : Int) (h₀ : Keeps r₀ s) : Keeps r₀ (State.takePower s p t) := by
  unfold State.takePower
  dsimp only
  with_reducible repeat' first
    | assumption | apply Keeps.ite | apply State.bumpBy_keeps | apply State.setFeed_keeps | apply Keeps.forEach | intro _ _ _

theorem State.takeTick_keeps (p : Nat) (t : Int) (h₀ : Keeps r₀ s) : Keeps r₀ (State.takeTick s p t) := by
  unfold State.takeTick
  dsimp only
  with_reducible repeat' first
    | assumption | apply Keeps.ite | apply State.bumpBy_keeps | apply State.detect_keeps

theorem State.feed_keeps (p : Nat) (codes : List Int) (h₀ : Keeps r₀ s) : Keeps r₀ (State.feed s p codes) := by
  unfold State.feed
  dsimp only
  with_reducible repeat' first
    | assumption | apply Keeps.ite | apply State.fastBlock_keeps | apply State.note_keeps | apply State.setFeed_keeps | apply State.takePower_keeps | apply State.takeTick_keeps | apply Keeps.forEach | intro _ _ _

theorem State.feedAll_keeps (codes : List (List Int)) (h₀ : Keeps r₀ s) : Keeps r₀ (State.feedAll s codes) := by
  unfold State.feedAll
  with_reducible repeat' first
    | assumption | apply Keeps.ite | apply State.feed_keeps | apply Keeps.forEach | intro _ _ _

end Sys2Proof.Machine
end

