-- ==== Sys2Proof/Laws/KeepsFault.lean ====
section
/-!
SUPPORT. What the operations of Sys2Proof/Machine/Fault.lean keep.
-/
set_option linter.unusedTactic false
set_option linter.unreachableTactic false

namespace Sys2Proof.Machine

variable {r₀ s : State}

theorem State.setAvail_keeps (kind : Nat) (unit : Nat) (v : Bool) (h₀ : Keeps r₀ s) : Keeps r₀ (State.setAvail s kind unit v) := by
  unfold State.setAvail
  with_reducible repeat' first
    | assumption | apply Keeps.ite | apply State.pb_keeps

theorem State.stopPath_keeps (p : Nat) (h₀ : Keeps r₀ s) : Keeps r₀ (State.stopPath s p) := by
  unfold State.stopPath
  dsimp only
  with_reducible repeat' first
    | assumption | apply Keeps.ite | apply State.followDemands_keeps | apply State.muteFault_keeps | apply State.pb_keeps | apply State.pf_keeps | apply State.rxUpdate_keeps | apply State.spoilCaptures_keeps

theorem State.stopRow_keeps (r : Nat) (h₀ : Keeps r₀ s) : Keeps r₀ (State.stopRow s r) := by
  unfold State.stopRow
  dsimp only
  with_reducible repeat' first
    | assumption | apply State.abortCapture_keeps | apply State.finish_keeps | apply State.pb_keeps | apply State.setCan_keeps | apply State.setCanState_keeps | apply State.setOrx_keeps | apply State.setPr_keeps | apply State.setPrState_keeps | apply Keeps.forEach | intro _ _ _ | split

theorem State.stopMonitor_keeps (q : Nat) (h₀ : Keeps r₀ s) : Keeps r₀ (State.stopMonitor s q) := by
  unfold State.stopMonitor
  dsimp only
  with_reducible repeat' first
    | assumption | apply State.finish_keeps | apply Keeps.forEach | intro _ _ _ | apply Keeps.upd

theorem State.contain_keeps (kind : Nat) (unit : Nat) (h₀ : Keeps r₀ s) : Keeps r₀ (State.contain s kind unit) := by
  unfold State.contain
  dsimp only
  with_reducible repeat' first
    | assumption | apply Keeps.ite | apply State.setAvail_keeps | apply State.stopMonitor_keeps | apply State.stopPath_keeps | apply State.stopRow_keeps | apply Keeps.upd

theorem State.takeCause_keeps (kind : Nat) (unit : Nat) (cause : Nat) (chk : Nat) (counted : Bool) (h₀ : Keeps r₀ s) : Keeps r₀ (State.takeCause s kind unit cause chk counted) := by
  unfold State.takeCause
  dsimp only
  with_reducible repeat' first
    | assumption | apply Keeps.wr

theorem State.declareFault_keeps (kind : Nat) (unit : Nat) (cause : Nat) (chk : Nat) (die : Nat) (h₀ : Keeps r₀ s) : Keeps r₀ (State.declareFault s kind unit cause chk die) := by
  unfold State.declareFault
  dsimp only
  with_reducible repeat' first
    | assumption | apply Keeps.ite | apply Keeps.wr | apply State.bump_keeps | apply State.contain_keeps | apply State.event_keeps | apply State.eventNotice_keeps | apply State.faultRecord_keeps | apply State.faultSum_keeps | apply State.takeCause_keeps | apply State.tellState_keeps | apply Keeps.forEach | intro _ _ _ | apply Keeps.upd

theorem State.busFault_keeps (r : Nat) (h₀ : Keeps r₀ s) : Keeps r₀ (State.busFault s r) := by
  unfold State.busFault
  with_reducible repeat' first
    | assumption | apply State.declareFault_keeps | apply Keeps.forEach | intro _ _ _

theorem State.restoreUnit_keeps (kind : Nat) (unit : Nat) (h₀ : Keeps r₀ s) : Keeps r₀ (State.restoreUnit s kind unit) := by
  unfold State.restoreUnit
  dsimp only
  with_reducible repeat' first
    | assumption | apply Keeps.ite | apply State.pb_keeps | apply State.pf_keeps | apply State.restartCan_keeps | apply State.restartPress_keeps | apply State.rxUpdate_keeps | apply State.setAvail_keeps | apply Keeps.forEach | intro _ _ _

theorem State.repairUnit_keeps (kind : Nat) (unit : Nat) (h₀ : Keeps r₀ s) : Keeps r₀ (State.repairUnit s kind unit) := by
  unfold State.repairUnit
  dsimp only
  with_reducible repeat' first
    | assumption | apply State.restoreUnit_keeps | apply State.tellState_keeps | apply Keeps.forEach | intro _ _ _ | apply Keeps.upd

theorem State.reachOnly_keeps (k : Nat) (h₀ : Keeps r₀ s) : Keeps r₀ (State.reachOnly s k) := by
  unfold State.reachOnly
  with_reducible repeat' first
    | assumption | apply State.pf_keeps

theorem State.losePackage_keeps (k : Nat) (h₀ : Keeps r₀ s) : Keeps r₀ (State.losePackage s k) := by
  unfold State.losePackage
  dsimp only
  with_reducible repeat' first
    | assumption | apply Keeps.ite | apply Keeps.wr | apply State.bump_keeps | apply State.event_keeps | apply State.eventNotice_keeps | apply State.faultRecord_keeps | apply State.faultSum_keeps | apply State.reachOnly_keeps

end Sys2Proof.Machine
end

