-- ==== Sys2Proof/Laws/KeepsStrobe.lean ====
section
/-!
SUPPORT. What the operations of Sys2Proof/Machine/Strobe.lean keep.
-/
set_option linter.unusedTactic false
set_option linter.unreachableTactic false

namespace Sys2Proof.Machine

variable {r₀ s : State}

theorem State.strobeTx_keeps (p : Nat) (h₀ : Keeps r₀ s) : Keeps r₀ (State.strobeTx s p) := by
  unfold State.strobeTx
  dsimp only
  with_reducible repeat' first
    | assumption | apply Keeps.ite | apply State.pb_keeps | apply State.restartPress_keeps | apply State.setPr_keeps | apply State.setTx_keeps | split

theorem State.strobeRx_keeps (p : Nat) (h₀ : Keeps r₀ s) : Keeps r₀ (State.strobeRx s p) := by
  unfold State.strobeRx
  dsimp only
  with_reducible repeat' first
    | assumption | apply State.pb_keeps | apply State.pf_keeps | apply State.setRx_keeps | split

theorem State.strobePress_keeps (p : Nat) (h₀ : Keeps r₀ s) : Keeps r₀ (State.strobePress s p) := by
  unfold State.strobePress
  dsimp only
  with_reducible repeat' first
    | assumption | apply State.bump_keeps | apply State.bumpBy_keeps | apply State.pb_keeps | apply State.setPr_keeps | apply State.wrList_keeps | split

theorem State.strobeCan_keeps (p : Nat) (h₀ : Keeps r₀ s) : Keeps r₀ (State.strobeCan s p) := by
  unfold State.strobeCan
  dsimp only
  with_reducible repeat' first
    | assumption | apply Keeps.ite | apply State.bump_keeps | apply State.hubEvent_keeps | apply State.pb_keeps | apply State.setCan_keeps | apply State.setCanState_keeps | split

theorem State.strobeRemovals_keeps (p : Nat) (h₀ : Keeps r₀ s) : Keeps r₀ (State.strobeRemovals s p) := by
  unfold State.strobeRemovals
  dsimp only
  with_reducible repeat' first
    | assumption | apply Keeps.ite | apply State.setCan_keeps | apply State.setPr_keeps

theorem State.strobePath_keeps (p : Nat) (h₀ : Keeps r₀ s) : Keeps r₀ (State.strobePath s p) := by
  unfold State.strobePath
  dsimp only
  with_reducible repeat' first
    | assumption | apply Keeps.ite | apply State.blankLeave_keeps | apply State.bump_keeps | apply State.followDemands_keeps | apply State.muteUpdate_keeps | apply State.rxUpdate_keeps | apply State.setTx_keeps | apply State.spoilCaptures_keeps | apply State.strobeCan_keeps | apply State.strobePress_keeps | apply State.strobeRemovals_keeps | apply State.strobeRx_keeps | apply State.strobeTx_keeps | apply Keeps.when | intro _ _

theorem State.strobeRow_keeps (r : Nat) (late : Bool) (h₀ : Keeps r₀ s) : Keeps r₀ (State.strobeRow s r late) := by
  unfold State.strobeRow
  dsimp only
  with_reducible repeat' first
    | assumption | apply State.bump_keeps | apply State.pb_keeps | apply State.pf_keeps | apply State.strobePath_keeps | apply Keeps.forEach | apply Keeps.when | intro _ _

theorem State.resumePath_keeps (p : Nat) (h₀ : Keeps r₀ s) : Keeps r₀ (State.resumePath s p) := by
  unfold State.resumePath
  dsimp only
  with_reducible repeat' first
    | assumption | apply State.followDemands_keeps | apply State.muteUpdate_keeps | apply State.setTx_keeps

end Sys2Proof.Machine
end

