-- ==== Sys2Proof/Laws/KeepsTransmit.lean ====
section
/-!
SUPPORT. What the operations of Sys2Proof/Machine/Transmit.lean keep.
-/
set_option linter.unusedTactic false
set_option linter.unreachableTactic false

namespace Sys2Proof.Machine

variable {r₀ s : State}

theorem execTriggerMessage_keeps (tile : Nat) (line : Nat) (target : Nat) (h₀ : Keeps r₀ s) : KeepsOut r₀ (execTriggerMessage tile line target s) := by
  unfold execTriggerMessage
  dsimp only
  with_reducible repeat' first
    | assumption | apply KeepsOut.next | apply Keeps.ite | apply State.setRow_keeps | apply State.tileEvent_keeps | apply Keeps.forEach | intro _ _ _ | split | dsimp only | apply Keeps.upd

theorem execLoadStrobe_keeps (r : Nat) (h₀ : Keeps r₀ s) : KeepsOut r₀ (execLoadStrobe r s) := by
  unfold execLoadStrobe
  dsimp only
  with_reducible repeat' first
    | assumption | apply KeepsOut.next | apply Keeps.ite | apply State.advanceTo_keeps | apply State.setRow_keeps | apply State.strobeRow_keeps | split

theorem execLocalResumeStrobe_keeps (p : Nat) (h₀ : Keeps r₀ s) : KeepsOut r₀ (execLocalResumeStrobe p s) := by
  unfold execLocalResumeStrobe
  with_reducible repeat' first
    | assumption | apply KeepsOut.next | apply Keeps.ite | apply State.advanceTo_keeps | apply State.resumePath_keeps

theorem State.writeTxCtrl_keeps (p : Nat) (w : Word) (h₀ : Keeps r₀ s) : Keeps r₀ (State.writeTxCtrl s p w) := by
  unfold State.writeTxCtrl
  dsimp only
  with_reducible repeat' first
    | assumption | apply Keeps.ite | apply State.blankEnter_keeps | apply State.blankLeave_keeps | apply State.muteForce_keeps | apply State.poke_keeps

theorem execForceMuteWrite_keeps (p : Nat) (w : Word) (h₀ : Keeps r₀ s) : KeepsOut r₀ (execForceMuteWrite p w s) := by
  unfold execForceMuteWrite
  with_reducible repeat' first
    | assumption | apply KeepsOut.next | apply Keeps.ite | apply State.access_keeps | apply State.writeTxCtrl_keeps | intro _ _

theorem execTddSwitch_keeps (c : Nat) (at_ : Nat) (h₀ : Keeps r₀ s) : KeepsOut r₀ (execTddSwitch c at_ s) := by
  unfold execTddSwitch
  dsimp only
  with_reducible repeat' first
    | assumption | apply KeepsOut.next | apply Keeps.ite | apply State.advanceTo_keeps | apply State.bumpBy_keeps | apply State.followDemands_keeps | apply State.tileEvent_keeps | apply Keeps.forEach | intro _ _ _ | apply Keeps.upd

theorem execBlankExitStart_keeps (p : Nat) (at_ : Nat) (h₀ : Keeps r₀ s) : KeepsOut r₀ (execBlankExitStart p at_ s) := by
  unfold execBlankExitStart
  dsimp only
  with_reducible repeat' first
    | assumption | apply KeepsOut.next | apply Keeps.ite | apply State.advanceTo_keeps | apply State.blankLeave_keeps

theorem State.fePush_keeps (r : Nat) (frame : Word) (qw0 : Word) (ref : Option CmdRef) (h₀ : Keeps r₀ s) : Keeps r₀ (State.fePush s r frame qw0 ref) := by
  unfold State.fePush
  dsimp only
  with_reducible repeat' first
    | assumption | apply Keeps.ite | apply State.pb_keeps | apply State.setRow_keeps

theorem execFeQw1Write_keeps (r : Nat) (w : Word) (h₀ : Keeps r₀ s) : KeepsOut r₀ (execFeQw1Write r w s) := by
  unfold execFeQw1Write
  with_reducible repeat' first
    | assumption | apply KeepsOut.next | apply Keeps.ite | apply State.access_keeps | apply State.fePush_keeps | intro _ _

theorem execFeWriteRelease_keeps (r : Nat) (h₀ : Keeps r₀ s) : KeepsOut r₀ (execFeWriteRelease r s) := by
  unfold execFeWriteRelease
  dsimp only
  with_reducible repeat' first
    | assumption | apply KeepsOut.next | apply State.advanceTo_keeps | apply State.setRow_keeps | split

theorem State.startFrame_keeps (r : Nat) (e : FeEntry) (at_ : Nat) (h₀ : Keeps r₀ s) : Keeps r₀ (State.startFrame s r e at_) := by
  unfold State.startFrame
  dsimp only
  with_reducible repeat' first
    | assumption | apply State.advanceTo_keeps | apply State.setRow_keeps

theorem execFeFrameStart_keeps (r : Nat) (h₀ : Keeps r₀ s) : KeepsOut r₀ (execFeFrameStart r s) := by
  unfold execFeFrameStart
  dsimp only
  with_reducible repeat' first
    | assumption | apply KeepsOut.next | apply State.bumpBy_keeps | apply State.setRow_keeps | apply State.startFrame_keeps | split

theorem State.failBus_keeps (r : Nat) (h₀ : Keeps r₀ s) : Keeps r₀ (State.failBus s r) := by
  unfold State.failBus
  dsimp only
  with_reducible repeat' first
    | assumption | apply State.bumpBy_keeps | apply State.busFault_keeps | apply State.finish_keeps | apply State.pb_keeps | apply State.setRow_keeps | apply Keeps.forEach | intro _ _ _

theorem State.latchRead_keeps (r : Nat) (e : FeEntry) (data : Nat) (h₀ : Keeps r₀ s) : Keeps r₀ (State.latchRead s r e data) := by
  unfold State.latchRead
  dsimp only
  with_reducible repeat' first
    | assumption | apply Keeps.wr | apply State.finish_keeps | apply State.pb_keeps | apply State.setRow_keeps | apply Keeps.when | intro _ _ | split

theorem execFeFrameEnd_keeps (r : Nat) (rdata : Word) (padOk : Bool) (h₀ : Keeps r₀ s) : KeepsOut r₀ (execFeFrameEnd r rdata padOk s) := by
  unfold execFeFrameEnd
  dsimp only
  with_reducible repeat' first
    | assumption | apply KeepsOut.next | apply Keeps.ite | apply State.advanceTo_keeps | apply State.bump_keeps | apply State.bumpBy_keeps | apply State.failBus_keeps | apply State.latchRead_keeps | apply State.setAgc_keeps | apply State.setRow_keeps | split

theorem execFeRdataRead_keeps (r : Nat) (h₀ : Keeps r₀ s) : KeepsOut r₀ (execFeRdataRead r s) := by
  unfold execFeRdataRead
  dsimp only
  with_reducible repeat' first
    | assumption | apply KeepsOut.next | apply Keeps.wr | apply State.accessRead_keeps | apply State.answer_keeps | apply State.setRow_keeps | intro _ _

theorem State.onPaths_keeps (ps : List Nat) (f : State → State × Verdict) (hf_f : ∀ u, Keeps r₀ u → Keeps r₀ (f u).1) (h₀ : Keeps r₀ s) : Keeps r₀ (State.onPaths s ps f).1 := by
  unfold State.onPaths
  with_reducible repeat' first
    | assumption | apply hf_f | split

theorem State.onRows_keeps (rs : List Nat) (f : State → State × Verdict) (hf_f : ∀ u, Keeps r₀ u → Keeps r₀ (f u).1) (h₀ : Keeps r₀ s) : Keeps r₀ (State.onRows s rs f).1 := by
  unfold State.onRows
  with_reducible repeat' first
    | assumption | apply hf_f | split

theorem execTxSet_keeps (p : Pkt) (h₀ : Keeps r₀ s) : KeepsOut r₀ (execTxSet p s) := by
  unfold execTxSet
  with_reducible repeat' first
    | assumption | apply KeepsOut.next | apply State.onPaths_keeps | apply State.stage_keeps | apply State.command_keeps | intro _ _

theorem execTxNco_keeps (p : Pkt) (h₀ : Keeps r₀ s) : KeepsOut r₀ (execTxNco p s) := by
  unfold execTxNco
  with_reducible repeat' first
    | assumption | apply KeepsOut.next | apply State.onPaths_keeps | apply State.stage_keeps | apply Keeps.forEach | apply State.command_keeps | intro _ _ _ | intro _ _

theorem execTxDac_keeps (p : Pkt) (h₀ : Keeps r₀ s) : KeepsOut r₀ (execTxDac p s) := by
  unfold execTxDac
  with_reducible repeat' first
    | assumption | apply KeepsOut.next | apply State.onPaths_keeps | apply State.stage_keeps | apply State.command_keeps | intro _ _

theorem execTxEnable_keeps (p : Pkt) (h₀ : Keeps r₀ s) : KeepsOut r₀ (execTxEnable p s) := by
  unfold execTxEnable
  with_reducible repeat' first
    | assumption | apply KeepsOut.next | apply State.onPaths_keeps | apply State.writeTxCtrl_keeps | apply Keeps.forEach | apply State.command_keeps | intro _ _ _ | intro _ _

theorem execTxMute_keeps (p : Pkt) (h₀ : Keeps r₀ s) : KeepsOut r₀ (execTxMute p s) := by
  unfold execTxMute
  dsimp only
  with_reducible repeat' first
    | assumption | apply KeepsOut.next | apply Keeps.ite | apply State.muteForce_keeps | apply State.onPaths_keeps | apply State.pf_keeps | apply State.command_keeps | intro _ _

theorem execFeWrite_keeps (p : Pkt) (h₀ : Keeps r₀ s) : KeepsOut r₀ (execFeWrite p s) := by
  unfold execFeWrite
  dsimp only
  with_reducible repeat' first
    | assumption | apply KeepsOut.next | apply State.fePush_keeps | apply State.command_keeps | intro _ _ | split

theorem execFeRead_keeps (p : Pkt) (h₀ : Keeps r₀ s) : KeepsOut r₀ (execFeRead p s) := by
  unfold execFeRead
  dsimp only
  with_reducible repeat' first
    | assumption | apply KeepsOut.next | apply State.fePush_keeps | apply State.command_keeps | intro _ _ | split

theorem execTddSet_keeps (p : Pkt) (h₀ : Keeps r₀ s) : KeepsOut r₀ (execTddSet p s) := by
  unfold execTddSet
  dsimp only
  with_reducible repeat' first
    | assumption | apply KeepsOut.next | apply State.stage_keeps | apply Keeps.forEach | apply State.command_keeps | intro _ _ _ | intro _ _

theorem execTddTiming_keeps (p : Pkt) (h₀ : Keeps r₀ s) : KeepsOut r₀ (execTddTiming p s) := by
  unfold execTddTiming
  with_reducible repeat' first
    | assumption | apply KeepsOut.next | apply State.onRows_keeps | apply State.pf_keeps | apply State.stage_keeps | apply Keeps.forEach | apply State.command_keeps | intro _ _ _ | intro _ _

theorem execTxStatus_keeps (p : Pkt) (h₀ : Keeps r₀ s) : KeepsOut r₀ (execTxStatus p s) := by
  unfold execTxStatus
  dsimp only
  with_reducible repeat' first
    | assumption | apply KeepsOut.next | apply State.command_keeps | intro _ _

end Sys2Proof.Machine
end

