-- ==== Sys2Proof/Laws/KeepsPress.lean ====
section
/-!
SUPPORT. What the operations of Sys2Proof/Machine/Press.lean keep.
-/
set_option linter.unusedTactic false
set_option linter.unreachableTactic false

namespace Sys2Proof.Machine

variable {r₀ s : State}

theorem State.startCapture_keeps (r : Nat) (kind : Nat) (path : Nat) (obs : Nat) (len : Nat) (h₀ : Keeps r₀ s) : Keeps r₀ (State.startCapture s r kind path obs len) := by
  unfold State.startCapture
  dsimp only
  with_reducible repeat' first
    | assumption | apply State.pf_keeps | apply State.setOrx_keeps

theorem State.startHost_keeps (r : Nat) (h : HostCap) (h₀ : Keeps r₀ s) : Keeps r₀ (State.startHost s r h) := by
  unfold State.startHost
  dsimp only
  with_reducible repeat' first
    | assumption | apply State.bump_keeps | apply State.bumpF_keeps | apply State.deliver_keeps | apply State.setOrx_keeps | apply State.startCapture_keeps | apply Keeps.upd

theorem execOrxCaptureStart_keeps (r : Nat) (h₀ : Keeps r₀ s) : KeepsOut r₀ (execOrxCaptureStart r s) := by
  unfold execOrxCaptureStart
  dsimp only
  with_reducible repeat' first
    | assumption | apply KeepsOut.next | apply Keeps.ite | apply State.advanceTo_keeps | apply State.endCapture_keeps | apply State.setOrx_keeps | apply State.startCapture_keeps | apply State.startHost_keeps | split

theorem State.captureOver_keeps (r : Nat) (c : OrxCap) (clip : Bool) (h₀ : Keeps r₀ s) : Keeps r₀ (State.captureOver s r c clip) := by
  unfold State.captureOver
  dsimp only
  with_reducible repeat' first
    | assumption | apply Keeps.ite | apply State.advanceTo_keeps | apply State.bump_keeps | apply State.bumpF_keeps | apply State.endCapture_keeps | apply State.pb_keeps

theorem State.pressDiverge_keeps (p : Nat) (h₀ : Keeps r₀ s) : Keeps r₀ (State.pressDiverge s p) := by
  unfold State.pressDiverge
  dsimp only
  with_reducible repeat' first
    | assumption | apply Keeps.ite | apply State.bump_keeps | apply State.hubEvent_keeps | apply State.pb_keeps | apply State.pendCoefs_keeps | apply State.pf_keeps | apply State.setPr_keeps | apply State.setPrState_keeps | apply State.tileEvent_keeps

theorem State.pressJudge_keeps (p : Nat) (n : Int) (h₀ : Keeps r₀ s) : Keeps r₀ (State.pressJudge s p n) := by
  unfold State.pressJudge
  dsimp only
  with_reducible repeat' first
    | assumption | apply Keeps.ite | apply State.pressDiverge_keeps | apply State.setPr_keeps | apply State.wrList_keeps

theorem State.pressCollect_keeps (p : Nat) (xs : List (List Cx)) (l : List (Cx × Cx)) (h₀ : Keeps r₀ s) : Keeps r₀ (State.pressCollect s p xs l) := by
  unfold State.pressCollect
  dsimp only
  with_reducible repeat' first
    | assumption | apply Keeps.ite | apply State.setPr_keeps

theorem State.calDrift_keeps (p : Nat) (h₀ : Keeps r₀ s) : Keeps r₀ (State.calDrift s p) := by
  unfold State.calDrift
  dsimp only
  with_reducible repeat' first
    | assumption | apply Keeps.ite | apply State.bump_keeps | apply State.pb_keeps | apply Keeps.upd

theorem execPressCaptureDone_keeps (r : Nat) (o : List (Int × Int)) (delay : Nat) (h₀ : Keeps r₀ s) : KeepsOut r₀ (execPressCaptureDone r o delay s) := by
  unfold execPressCaptureDone
  dsimp only
  with_reducible repeat' first
    | assumption | apply KeepsOut.next | apply Keeps.ite | apply Keeps.wr | apply State.bump_keeps | apply State.calDrift_keeps | apply State.captureOver_keeps | apply State.countDiscard_keeps | apply State.pf_keeps | apply State.pressCollect_keeps | apply State.pressJudge_keeps | apply State.restartPress_keeps | apply State.setPr_keeps | apply State.setPrState_keeps | split

theorem execPressUpdateReady_keeps (p : Nat) (h₀ : Keeps r₀ s) : KeepsOut r₀ (execPressUpdateReady p s) := by
  unfold execPressUpdateReady
  dsimp only
  with_reducible repeat' first
    | assumption | apply KeepsOut.next | apply Keeps.ite | apply State.bump_keeps | apply State.pendCoefs_keeps | apply State.setPr_keeps

theorem execPressHoldExpiry_keeps (p : Nat) (h₀ : Keeps r₀ s) : KeepsOut r₀ (execPressHoldExpiry p s) := by
  unfold execPressHoldExpiry
  dsimp only
  with_reducible repeat' first
    | assumption | apply KeepsOut.next | apply Keeps.ite | apply State.advanceTo_keeps | apply State.restartPress_keeps | apply State.setPr_keeps | split

theorem State.canDiverge_keeps (p : Nat) (h₀ : Keeps r₀ s) : Keeps r₀ (State.canDiverge s p) := by
  unfold State.canDiverge
  dsimp only
  with_reducible repeat' first
    | assumption | apply Keeps.ite | apply State.bump_keeps | apply State.pendTaps_keeps | apply State.setCan_keeps | apply State.setCanState_keeps

theorem State.canJudge_keeps (p : Nat) (c : Int) (h₀ : Keeps r₀ s) : Keeps r₀ (State.canJudge s p c) := by
  unfold State.canJudge
  dsimp only
  with_reducible repeat' first
    | assumption | apply Keeps.ite | apply State.canDiverge_keeps | apply State.setCan_keeps | apply State.wrList_keeps

theorem execSbfdCaptureDone_keeps (r : Nat) (o : List (Int × Int)) (adc : List Int) (delay : Nat) (h₀ : Keeps r₀ s) : KeepsOut r₀ (execSbfdCaptureDone r o adc delay s) := by
  unfold execSbfdCaptureDone
  dsimp only
  with_reducible repeat' first
    | assumption | apply KeepsOut.next | apply Keeps.ite | apply Keeps.wr | apply State.advanceTo_keeps | apply State.bump_keeps | apply State.canJudge_keeps | apply State.captureOver_keeps | apply State.countDiscard_keeps | apply State.feed_keeps | apply State.pb_keeps | apply State.pf_keeps | apply State.setCan_keeps | split

theorem execCanUpdateReady_keeps (p : Nat) (h₀ : Keeps r₀ s) : KeepsOut r₀ (execCanUpdateReady p s) := by
  unfold execCanUpdateReady
  dsimp only
  with_reducible repeat' first
    | assumption | apply KeepsOut.next | apply Keeps.ite | apply State.pendTaps_keeps | apply State.setCan_keeps

theorem execCanHoldExpiry_keeps (p : Nat) (h₀ : Keeps r₀ s) : KeepsOut r₀ (execCanHoldExpiry p s) := by
  unfold execCanHoldExpiry
  dsimp only
  with_reducible repeat' first
    | assumption | apply KeepsOut.next | apply Keeps.ite | apply State.advanceTo_keeps | apply State.setCan_keeps | apply State.setCanState_keeps | split

theorem State.writePrAdapt_keeps (p : Nat) (w : Word) (h₀ : Keeps r₀ s) : Keeps r₀ (State.writePrAdapt s p w) := by
  unfold State.writePrAdapt
  dsimp only
  with_reducible repeat' first
    | assumption | apply Keeps.ite | apply State.poke_keeps | apply State.restartPress_keeps | apply State.setPr_keeps

theorem State.writeCanAdapt_keeps (p : Nat) (w : Word) (h₀ : Keeps r₀ s) : Keeps r₀ (State.writeCanAdapt s p w) := by
  unfold State.writeCanAdapt
  dsimp only
  with_reducible repeat' first
    | assumption | apply Keeps.ite | apply State.poke_keeps | apply State.restartCan_keeps

theorem execPrSet_keeps (p : Pkt) (h₀ : Keeps r₀ s) : KeepsOut r₀ (execPrSet p s) := by
  unfold execPrSet
  with_reducible repeat' first
    | assumption | apply KeepsOut.next | apply State.onPaths_keeps | apply State.stage_keeps | apply State.command_keeps | intro _ _

theorem execPrCoefSet_keeps (p : Pkt) (h₀ : Keeps r₀ s) : KeepsOut r₀ (execPrCoefSet p s) := by
  unfold execPrCoefSet
  dsimp only
  with_reducible repeat' first
    | assumption | apply KeepsOut.next | apply State.onPaths_keeps | apply State.stage_keeps | apply Keeps.forEach | apply State.command_keeps | intro _ _ _ | intro _ _

theorem State.prAction_keeps (a : Nat) (p : Nat) (h₀ : Keeps r₀ s) : Keeps r₀ (State.prAction s a p) := by
  unfold State.prAction
  dsimp only
  with_reducible repeat' first
    | assumption | apply Keeps.ite | apply State.pb_keeps | apply State.pendCoefs_keeps | apply State.restartPress_keeps | apply State.setPr_keeps | apply State.setPrState_keeps

theorem execPrAdapt_keeps (p : Pkt) (h₀ : Keeps r₀ s) : KeepsOut r₀ (execPrAdapt p s) := by
  unfold execPrAdapt
  with_reducible repeat' first
    | assumption | apply KeepsOut.next | apply State.onPaths_keeps | apply State.prAction_keeps | apply Keeps.forEach | apply State.command_keeps | intro _ _ _ | intro _ _ | split

theorem execPrLimits_keeps (p : Pkt) (h₀ : Keeps r₀ s) : KeepsOut r₀ (execPrLimits p s) := by
  unfold execPrLimits
  with_reducible repeat' first
    | assumption | apply KeepsOut.next | apply State.onPaths_keeps | apply State.poke_keeps | apply State.writePrAdapt_keeps | apply Keeps.forEach | apply State.command_keeps | intro _ _ _ | intro _ _

theorem execPrStatus_keeps (p : Pkt) (h₀ : Keeps r₀ s) : KeepsOut r₀ (execPrStatus p s) := by
  unfold execPrStatus
  dsimp only
  with_reducible repeat' first
    | assumption | apply KeepsOut.next | apply State.command_keeps | intro _ _

theorem execPrSave_keeps (p : Pkt) (h₀ : Keeps r₀ s) : KeepsOut r₀ (execPrSave p s) := by
  unfold execPrSave
  dsimp only
  with_reducible repeat' first
    | assumption | apply KeepsOut.next | apply State.celFull_keeps | apply State.orderSet_keeps | apply Keeps.forEach | apply State.command_keeps | intro _ _ _ | intro _ _ | split | dsimp only | apply Keeps.upd

theorem execPrRestore_keeps (p : Pkt) (h₀ : Keeps r₀ s) : KeepsOut r₀ (execPrRestore p s) := by
  unfold execPrRestore
  dsimp only
  with_reducible repeat' first
    | assumption | apply KeepsOut.next | apply State.onPaths_keeps | apply State.stage_keeps | apply Keeps.forEach | apply State.command_keeps | intro _ _ _ | intro _ _

theorem execCanSet_keeps (p : Pkt) (h₀ : Keeps r₀ s) : KeepsOut r₀ (execCanSet p s) := by
  unfold execCanSet
  with_reducible repeat' first
    | assumption | apply KeepsOut.next | apply State.onPaths_keeps | apply State.stage_keeps | apply State.writeCanAdapt_keeps | apply State.command_keeps | intro _ _

theorem State.canAction_keeps (a : Nat) (p : Nat) (h₀ : Keeps r₀ s) : Keeps r₀ (State.canAction s a p) := by
  unfold State.canAction
  dsimp only
  with_reducible repeat' first
    | assumption | apply Keeps.ite | apply State.pb_keeps | apply State.pendTaps_keeps | apply State.restartCan_keeps | apply State.setCan_keeps | apply State.setCanState_keeps

theorem execCanFit_keeps (p : Pkt) (h₀ : Keeps r₀ s) : KeepsOut r₀ (execCanFit p s) := by
  unfold execCanFit
  with_reducible repeat' first
    | assumption | apply KeepsOut.next | apply State.canAction_keeps | apply State.onPaths_keeps | apply Keeps.forEach | apply State.command_keeps | intro _ _ _ | intro _ _ | split

theorem execCanStatus_keeps (p : Pkt) (h₀ : Keeps r₀ s) : KeepsOut r₀ (execCanStatus p s) := by
  unfold execCanStatus
  dsimp only
  with_reducible repeat' first
    | assumption | apply KeepsOut.next | apply State.command_keeps | intro _ _

theorem execSbfdBand_keeps (p : Pkt) (h₀ : Keeps r₀ s) : KeepsOut r₀ (execSbfdBand p s) := by
  unfold execSbfdBand
  with_reducible repeat' first
    | assumption | apply KeepsOut.next | apply State.stage_keeps | apply State.command_keeps | intro _ _

theorem execOrxSet_keeps (p : Pkt) (h₀ : Keeps r₀ s) : KeepsOut r₀ (execOrxSet p s) := by
  unfold execOrxSet
  with_reducible repeat' first
    | assumption | apply KeepsOut.next | apply State.onRows_keeps | apply State.poke_keeps | apply Keeps.forEach | apply State.command_keeps | intro _ _ _ | intro _ _

theorem execOrxCapture_keeps (p : Pkt) (h₀ : Keeps r₀ s) : KeepsOut r₀ (execOrxCapture p s) := by
  unfold execOrxCapture
  dsimp only
  with_reducible repeat' first
    | assumption | apply KeepsOut.next | apply State.schedule_keeps | apply State.setOrx_keeps | apply State.command_keeps | intro _ _ | split

end Sys2Proof.Machine
end

