-- ==== Sys2Proof/Laws/KeepsTrellis.lean ====
section
/-!
SUPPORT. What the operations of Sys2Proof/Machine/Trellis.lean keep.
-/
set_option linter.unusedTactic false
set_option linter.unreachableTactic false

namespace Sys2Proof.Machine

variable {r₀ s : State}

theorem State.commitAnswer_keeps (refs : List CmdRef) (status : Nat) (res : List Word) (h₀ : Keeps r₀ s) : Keeps r₀ (State.commitAnswer s refs status res) := by
  unfold State.commitAnswer
  dsimp only
  with_reducible repeat' first
    | assumption | apply State.finish_keeps | apply Keeps.forEach | intro _ _ _ | apply Keeps.updTr

theorem State.relayCommit_keeps (b : Nat) (h₀ : Keeps r₀ s) : Keeps r₀ (State.relayCommit s b) := by
  unfold State.relayCommit
  with_reducible repeat' first
    | assumption | apply Keeps.ite | apply State.sendMsg_keeps | split

theorem State.startCommit_keeps (b : Nat) (defers : Nat) (h₀ : Keeps r₀ s) : Keeps r₀ (State.startCommit s b defers) := by
  unfold State.startCommit
  dsimp only
  with_reducible repeat' first
    | assumption | apply Keeps.wr | apply State.bump_keeps | apply State.pauseJobs_keeps | apply State.pb_keeps | apply State.relayCommit_keeps | apply Keeps.updTr

theorem State.evalCommit_keeps (refs : List CmdRef) (defers : Nat) (h₀ : Keeps r₀ s) : Keeps r₀ (State.evalCommit s refs defers) := by
  unfold State.evalCommit
  dsimp only
  with_reducible repeat' first
    | assumption | apply Keeps.ite | apply Keeps.wr | apply State.bump_keeps | apply State.commitAnswer_keeps | apply State.hubEvent_keeps | apply State.landAll_keeps | apply State.pb_keeps | apply State.startCommit_keeps | apply Keeps.updTr

theorem State.requestCommit_keeps (refs : List CmdRef) (h₀ : Keeps r₀ s) : Keeps r₀ (s.requestCommit refs) := by
  unfold State.requestCommit
  apply Keeps.ite
  · exact State.pb_keeps _ _ _ h₀
  · have join : ∀ d : TrDefer, Keeps r₀ { s with tr := { s.tr with defer := some { d with refs := d.refs ++ refs } } } :=
      fun d => Keeps.updTr h₀
    split
    · apply Keeps.ite
      · exact Keeps.forEach h₀ fun u x hu => State.finish_keeps _ _ _ hu
      · split
        · rename_i d _
          apply Keeps.ite
          · exact join d
          · exact State.evalCommit_keeps _ _ h₀
        · exact State.evalCommit_keeps _ _ h₀
    · rename_i d _ _
      apply Keeps.ite
      · exact join d
      · exact State.evalCommit_keeps _ _ h₀
    · exact State.evalCommit_keeps _ _ h₀

theorem execTrWcNowWrite_keeps (w : Word) (h₀ : Keeps r₀ s) : KeepsOut r₀ (execTrWcNowWrite w s) := by
  unfold execTrWcNowWrite
  dsimp only
  with_reducible repeat' first
    | assumption | apply KeepsOut.next | apply Keeps.ite | apply State.access_keeps | apply State.pb_keeps | intro _ _ | apply Keeps.upd

theorem execWeightCommitEval_keeps (h₀ : Keeps r₀ s) : KeepsOut r₀ (execWeightCommitEval s) := by
  unfold execWeightCommitEval
  with_reducible repeat' first
    | assumption | apply KeepsOut.next | apply State.advanceTo_keeps | apply State.requestCommit_keeps | (exact Keeps.some2 (by assumption) (State.takeDue_keeps _ h₀)) | split

theorem execWeightCommitReeval_keeps (h₀ : Keeps r₀ s) : KeepsOut r₀ (execWeightCommitReeval s) := by
  unfold execWeightCommitReeval
  dsimp only
  with_reducible repeat' first
    | assumption | apply KeepsOut.next | apply State.advanceTo_keeps | apply State.evalCommit_keeps | split

theorem execWeightSwitch_keeps (h₀ : Keeps r₀ s) : KeepsOut r₀ (execWeightSwitch s) := by
  unfold execWeightSwitch
  dsimp only
  with_reducible repeat' first
    | assumption | apply KeepsOut.next | apply KeepsOut.ite | apply State.advanceTo_keeps | apply State.pb_keeps | apply State.pf_keeps | split | apply Keeps.updTr

theorem execWeightRetire_keeps (h₀ : Keeps r₀ s) : KeepsOut r₀ (execWeightRetire s) := by
  unfold execWeightRetire
  dsimp only
  with_reducible repeat' first
    | assumption | apply KeepsOut.next | apply KeepsOut.ite | apply State.advanceTo_keeps | apply State.pb_keeps | apply State.pf_keeps | apply State.resumeJobs_keeps | split | apply Keeps.updTr

theorem memWf_foldl {β : Type} {f : List Host.Cell → β → List Host.Cell} (hf : ∀ m b, memWf m = true → memWf (f m b) = true) :
    ∀ (l : List β) (m : List Host.Cell), memWf m = true → memWf (l.foldl f m) = true
  | [], _, h => h
  | b :: l, m, h => memWf_foldl hf l (f m b) (hf m b h)

theorem execCarryFwdDone_keeps (h₀ : Keeps r₀ s) : KeepsOut r₀ (execCarryFwdDone s) := by
  unfold execCarryFwdDone
  apply KeepsOut.ite
  · exact KeepsOut.next h₀
  · have h1 : Keeps r₀ (s.pb Reg.TR_STATUS 2 false) := State.pb_keeps _ _ _ h₀
    with_reducible apply KeepsOut.next
    with_reducible apply Keeps.updMem h1
    intro hm
    replace hm : memWf s.tr.mem = true := hm
    apply memWf_foldl
    swap
    · exact Sparse.wf_keep hm _
    intro m e h
    split
    · exact h
    · exact Sparse.wf_set h _ _

theorem execTrellisCfgApply_keeps (h₀ : Keeps r₀ s) : KeepsOut r₀ (execTrellisCfgApply s) := by
  unfold execTrellisCfgApply
  dsimp only
  with_reducible repeat' first
    | assumption | apply KeepsOut.next | apply State.advanceTo_keeps | split | apply Keeps.updTr

theorem State.newTrellis_keeps (h₀ : Keeps r₀ s) : Keeps r₀ (State.newTrellis s) := by
  unfold State.newTrellis
  dsimp only
  with_reducible repeat' first
    | assumption | apply Keeps.updTr

theorem execBfCommit_keeps (p : Pkt) (h₀ : Keeps r₀ s) : KeepsOut r₀ (execBfCommit p s) := by
  unfold execBfCommit
  dsimp only
  with_reducible repeat' first
    | assumption | apply KeepsOut.next | apply State.schedule_keeps | apply State.command_keeps | intro _ _ | split | dsimp only | apply Keeps.upd

theorem execBfLock_keeps (p : Pkt) (h₀ : Keeps r₀ s) : KeepsOut r₀ (execBfLock p s) := by
  unfold execBfLock
  dsimp only
  with_reducible repeat' first
    | assumption | apply KeepsOut.next | apply State.forwardLocks_keeps | apply State.pb_keeps | apply State.command_keeps | intro _ _

theorem execBfLoad_keeps (p : Pkt) (h₀ : Keeps r₀ s) : KeepsOut r₀ (execBfLoad p s) := by
  unfold execBfLoad
  dsimp only
  with_reducible repeat' first
    | assumption | apply KeepsOut.next | apply State.startLoad_keeps | apply State.command_keeps | intro _ _ | split

theorem execBfScale_keeps (p : Pkt) (h₀ : Keeps r₀ s) : KeepsOut r₀ (execBfScale p s) := by
  unfold execBfScale
  with_reducible repeat' first
    | assumption | apply KeepsOut.next | apply State.stage_keeps | apply State.command_keeps | intro _ _

theorem execBfFallback_keeps (p : Pkt) (h₀ : Keeps r₀ s) : KeepsOut r₀ (execBfFallback p s) := by
  unfold execBfFallback
  with_reducible repeat' first
    | assumption | apply KeepsOut.next | apply State.stage_keeps | apply State.command_keeps | intro _ _

theorem execBfMode_keeps (p : Pkt) (h₀ : Keeps r₀ s) : KeepsOut r₀ (execBfMode p s) := by
  unfold execBfMode
  with_reducible repeat' first
    | assumption | apply KeepsOut.next | apply Keeps.wr | apply State.command_keeps | intro _ _

theorem execBfNullSet_keeps (p : Pkt) (h₀ : Keeps r₀ s) : KeepsOut r₀ (execBfNullSet p s) := by
  unfold execBfNullSet
  dsimp only
  with_reducible repeat' first
    | assumption | apply KeepsOut.next | apply State.stage_keeps | apply State.command_keeps | intro _ _

theorem execBfStatus_keeps (p : Pkt) (h₀ : Keeps r₀ s) : KeepsOut r₀ (execBfStatus p s) := by
  unfold execBfStatus
  with_reducible repeat' first
    | assumption | apply KeepsOut.next | apply State.command_keeps | intro _ _

theorem execSbfdNullCalc_keeps (p : Pkt) (h₀ : Keeps r₀ s) : KeepsOut r₀ (execSbfdNullCalc p s) := by
  unfold execSbfdNullCalc
  dsimp only
  with_reducible repeat' first
    | assumption | apply KeepsOut.next | apply State.command_keeps | intro _ _ | split

theorem execNullCalcDone_keeps (vecs : List (List (Int × Int))) (vals : List Nat) (h₀ : Keeps r₀ s) : KeepsOut r₀ (execNullCalcDone vecs vals s) := by
  unfold execNullCalcDone
  dsimp only
  with_reducible repeat' first
    | assumption | apply KeepsOut.next | apply KeepsOut.ite | apply State.finish_keeps | apply State.markDirty_keeps | apply State.setBytes_keeps | apply State.writeSlot_keeps | apply Keeps.forEach | intro _ _ _ | split

end Sys2Proof.Machine
end

