-- ==== Sys2Proof/Laws/KeepsCommit.lean ====
section
/-!
SUPPORT. What the operations of Sys2Proof/Machine/Commit.lean keep.
-/
set_option linter.unusedTactic false
set_option linter.unreachableTactic false

namespace Sys2Proof.Machine

variable {r₀ s : State}

theorem State.takeStaged_keeps (view : Sparse Word) (a : Nat) (h₀ : Keeps r₀ s) : Keeps r₀ (State.takeStaged s view a) := by
  unfold State.takeStaged
  with_reducible repeat' first
    | assumption | apply Keeps.wr | split

theorem State.discardOld_keeps (c : Nat) (v : CarVals) (sw : Nat) (h₀ : Keeps r₀ s) : Keeps r₀ (State.discardOld s c v sw) := by
  unfold State.discardOld
  dsimp only
  with_reducible repeat' first
    | assumption | apply Keeps.ite | apply State.rejectPrbs_keeps | apply Keeps.forEach | intro _ _ _ | apply Keeps.upd

theorem State.pushWindow_keeps (before : State) (c : Nat) (h₀ : Keeps r₀ s) : Keeps r₀ (State.pushWindow s before c) := by
  unfold State.pushWindow
  dsimp only
  with_reducible repeat' first
    | assumption | split | apply Keeps.upd

theorem State.applyG0_keeps (view : Sparse Word) (ch : List Nat) (h₀ : Keeps r₀ s) : Keeps r₀ (State.applyG0 s view ch) := by
  unfold State.applyG0
  dsimp only
  with_reducible repeat' first
    | assumption | apply State.bumpBy_keeps | apply State.discardOld_keeps | apply State.pushWindow_keeps | apply State.switchCar_keeps | apply State.switchProc_keeps | apply State.takeStaged_keeps | apply Keeps.forEach | intro _ _ _ | apply Keeps.upd

theorem State.evalG0_keeps (view : Sparse Word) (ch : List Nat) (h₀ : Keeps r₀ s) : Keeps r₀ (State.evalG0 s view ch).st := by
  unfold State.evalG0
  dsimp only
  with_reducible repeat' first
    | assumption | apply State.applyG0_keeps | apply State.pb_keeps | apply Keeps.forEach | intro _ _ _ | split

theorem State.evalG1_keeps (view : Sparse Word) (ch : List Nat) (h₀ : Keeps r₀ s) : Keeps r₀ (State.evalG1 s view ch).st := by
  unfold State.evalG1
  dsimp only
  with_reducible repeat' first
    | assumption | apply State.pb_keeps | apply State.switchSrs_keeps | apply State.takeStaged_keeps | apply Keeps.forEach | intro _ _ _ | split

theorem State.evalG2_keeps (view : Sparse Word) (ch : List Nat) (h₀ : Keeps r₀ s) : Keeps r₀ (State.evalG2 s view ch).st := by
  unfold State.evalG2
  dsimp only
  with_reducible repeat' first
    | assumption | apply State.newTrellis_keeps | apply State.takeStaged_keeps | apply Keeps.forEach | intro _ _ _ | split

theorem State.evalG3_keeps (view : Sparse Word) (ch : List Nat) (h₀ : Keeps r₀ s) : Keeps r₀ (s.evalG3 view ch).st := by
  unfold State.evalG3
  dsimp only
  split
  · exact Keeps.forEach h₀ fun u c hu => State.pb_keeps _ _ _ hu
  · refine Keeps.forEach (Keeps.forEach h₀ fun u c hu => ?_) fun u a hu => State.takeStaged_keeps _ _ hu
    exact Keeps.upd hu

theorem State.evalG4_keeps (view : Sparse Word) (ch : List Nat) (h₀ : Keeps r₀ s) : Keeps r₀ (State.evalG4 s view ch).st := by
  unfold State.evalG4
  dsimp only
  with_reducible repeat' first
    | assumption | apply State.pb_keeps | apply State.takeStaged_keeps | apply Keeps.forEach | intro _ _ _ | split

theorem State.byPath_keeps (ch : List Nat) (f : State → Nat → List Nat → State × Bool) (h₀ : Keeps r₀ s)
    (hf : ∀ u p as, Keeps r₀ u → Keeps r₀ (f u p as).1) : Keeps r₀ (s.byPath ch f).st := by
  unfold State.byPath
  dsimp only
  exact Keeps.foldlFst h₀ fun y a hy => hf _ _ _ hy

theorem State.evalG5_keeps (view : Sparse Word) (ch : List Nat) (h₀ : Keeps r₀ s) : Keeps r₀ (s.evalG5 view ch).st := by
  unfold State.evalG5
  apply State.byPath_keeps _ _ h₀
  intro u p as hu
  dsimp only
  split
  · exact State.pb_keeps _ _ _ (State.setTx_keeps _ _ (Keeps.forEach hu fun v a hv => State.takeStaged_keeps _ _ hv))
  · exact State.pb_keeps _ _ _ hu

theorem State.evalG6_keeps (view : Sparse Word) (ch : List Nat) (h₀ : Keeps r₀ s) : Keeps r₀ (s.evalG6 view ch).st := by
  unfold State.evalG6
  apply State.byPath_keeps _ _ h₀
  intro u p as hu
  dsimp only
  split
  · exact State.pb_keeps _ _ _ (State.setRx_keeps _ _ (Keeps.forEach hu fun v a hv => State.takeStaged_keeps _ _ hv))
  · exact State.pb_keeps _ _ _ hu

theorem State.evalG7_keeps (view : Sparse Word) (ch : List Nat) (h₀ : Keeps r₀ s) : Keeps r₀ (s.evalG7 view ch).st := by
  unfold State.evalG7
  apply State.byPath_keeps _ _ h₀
  intro u p as hu
  dsimp only
  split
  · with_reducible repeat' first
      | assumption
      | apply Keeps.when
      | apply Keeps.forEach
      | apply State.pb_keeps
      | apply State.setPr_keeps
      | apply State.setCan_keeps
      | apply State.takeStaged_keeps
      | intro _ _ _
      | intro _ _
  · exact Keeps.when (Keeps.when hu fun v hv => State.pb_keeps _ _ _ hv) fun v hv => State.pb_keeps _ _ _ hv

theorem execConfigCapture_keeps (h₀ : Keeps r₀ s) : KeepsOut r₀ (execConfigCapture s) := by
  unfold execConfigCapture
  dsimp only
  with_reducible repeat' first
    | assumption | apply KeepsOut.next | apply State.pb_keeps | (exact Keeps.some2 (by assumption) (State.takeDue_keeps _ h₀)) | split | apply Keeps.upd

theorem State.showSlots_keeps (h₀ : Keeps r₀ s) : Keeps r₀ (State.showSlots s) := by
  unfold State.showSlots
  with_reducible repeat' first
    | assumption | apply State.pf_keeps

theorem State.evalGroup_keeps (view : Sparse Word) (g : Nat) (h₀ : Keeps r₀ s) : Keeps r₀ (State.evalGroup s view g).st := by
  unfold State.evalGroup
  dsimp only
  with_reducible repeat' first
    | assumption | apply State.evalG0_keeps | apply State.evalG1_keeps | apply State.evalG2_keeps | apply State.evalG3_keeps | apply State.evalG4_keeps | apply State.evalG5_keeps | apply State.evalG6_keeps | apply State.evalG7_keeps | split

theorem State.evalGroups_keeps (view : Sparse Word) (h₀ : Keeps r₀ s) : Keeps r₀ (State.evalGroups s view).1 := by
  unfold State.evalGroups
  dsimp only
  with_reducible repeat' first
    | assumption | apply State.evalGroup_keeps | apply Keeps.foldlFst | intro _ _ _ | split

theorem State.returnEgress_keeps (ents : List Nat) (refused : Nat) (h₀ : Keeps r₀ s) : Keeps r₀ (State.returnEgress s ents refused) := by
  unfold State.returnEgress
  dsimp only
  with_reducible repeat' first
    | assumption | apply Keeps.ite | apply Keeps.upd

theorem execConfigCommit_keeps (h₀ : Keeps r₀ s) : KeepsOut r₀ (execConfigCommit s) := by
  unfold execConfigCommit
  dsimp only
  with_reducible repeat' first
    | assumption | apply KeepsOut.next | apply Keeps.wr | apply State.advanceTo_keeps | apply State.evalGroups_keeps | apply State.eventNotice_keeps | apply State.finish_keeps | apply State.pb_keeps | apply State.pf_keeps | apply State.returnEgress_keeps | apply State.showSlots_keeps | apply State.wrPair_keeps | apply Keeps.forEach | apply Keeps.when | intro _ _ _ | intro _ _ | split | apply Keeps.upd

theorem execSysCommit_keeps (p : Pkt) (h₀ : Keeps r₀ s) : KeepsOut r₀ (execSysCommit p s) := by
  unfold execSysCommit
  dsimp only
  with_reducible repeat' first
    | assumption | apply KeepsOut.next | apply State.fireLine_keeps | apply State.schedule_keeps | apply State.showSlots_keeps | apply State.command_keeps | intro _ _ | split | apply Keeps.upd

theorem execSysCommitCancel_keeps (p : Pkt) (h₀ : Keeps r₀ s) : KeepsOut r₀ (execSysCommitCancel p s) := by
  unfold execSysCommitCancel
  dsimp only
  with_reducible repeat' first
    | assumption | apply KeepsOut.next | apply State.disarm_keeps | apply State.finish_keeps | apply State.showSlots_keeps | apply State.command_keeps | intro _ _ | split | apply Keeps.upd

theorem execSysDiscard_keeps (p : Pkt) (h₀ : Keeps r₀ s) : KeepsOut r₀ (execSysDiscard p s) := by
  unfold execSysDiscard
  dsimp only
  with_reducible repeat' first
    | assumption | apply KeepsOut.next | apply Keeps.swr | apply Keeps.forEach | apply State.command_keeps | intro _ _ _ | intro _ _ | split

theorem execGlCmtNowWrite_keeps (w : Word) (h₀ : Keeps r₀ s) : KeepsOut r₀ (execGlCmtNowWrite w s) := by
  unfold execGlCmtNowWrite
  with_reducible repeat' first
    | assumption | apply KeepsOut.next | apply Keeps.ite | apply State.access_keeps | apply State.fireLine_keeps | apply State.pb_keeps | intro _ _

end Sys2Proof.Machine
end

