-- ==== Sys2Proof/Laws/KeepsMonitor.lean ====
section
/-!
SUPPORT. What the operations of Sys2Proof/Machine/Monitor.lean keep.
-/
set_option linter.unusedTactic false
set_option linter.unreachableTactic false

namespace Sys2Proof.Machine

variable {r₀ s : State}

theorem State.setMa_keeps (q : Nat) (x : MaSt) (h₀ : Keeps r₀ s) : Keeps r₀ (State.setMa s q x) := by
  unfold State.setMa
  dsimp only
  with_reducible repeat' first
    | assumption | apply Keeps.upd

theorem State.setAcc_keeps (q : Nat) (c : Nat) (x : MaAcc) (h₀ : Keeps r₀ s) : Keeps r₀ (State.setAcc s q c x) := by
  unfold State.setAcc
  dsimp only
  with_reducible repeat' first
    | assumption | apply State.setMa_keeps

theorem State.maStart_keeps (q : Nat) (h₀ : Keeps r₀ s) : Keeps r₀ (State.maStart s q) := by
  unfold State.maStart
  dsimp only
  with_reducible repeat' first
    | assumption | apply Keeps.ite | apply State.setMa_keeps | split

theorem State.maAlarm_keeps (q : Nat) (c : Nat) (code : Nat) (h₀ : Keeps r₀ s) : Keeps r₀ (State.maAlarm s q c code) := by
  unfold State.maAlarm
  dsimp only
  with_reducible repeat' first
    | assumption | apply Keeps.ite | apply State.bump_keeps | apply State.monEvt_keeps | apply State.pb_keeps | apply State.setMa_keeps | apply State.tileEvent_keeps

theorem State.maAccumulate_keeps (q : Nat) (c : Nat) (code : Nat) (delayed : Bool) (h₀ : Keeps r₀ s) : Keeps r₀ (State.maAccumulate s q c code delayed) := by
  unfold State.maAccumulate
  dsimp only
  with_reducible repeat' first
    | assumption | apply Keeps.ite | apply State.bump_keeps | apply State.setAcc_keeps

theorem State.maOrderCal_keeps (q : Nat) (ref : Option CmdRef) (h₀ : Keeps r₀ s) : Keeps r₀ (State.maOrderCal s q ref) := by
  unfold State.maOrderCal
  dsimp only
  with_reducible repeat' first
    | assumption | apply Keeps.ite | apply State.maStart_keeps | apply State.setMa_keeps

theorem State.maInject_keeps (q : Nat) (c : Nat) (ref : Option CmdRef) (h₀ : Keeps r₀ s) : Keeps r₀ (State.maInject s q c ref) := by
  unfold State.maInject
  dsimp only
  with_reducible repeat' first
    | assumption | apply Keeps.ite | apply State.bump_keeps | apply State.maStart_keeps | apply State.pb_keeps | apply State.setMa_keeps

theorem execMonitorSequence_keeps (h₀ : Keeps r₀ s) : KeepsOut r₀ (execMonitorSequence s) := by
  unfold execMonitorSequence
  dsimp only
  with_reducible repeat' first
    | assumption | apply KeepsOut.next | apply Keeps.ite | apply State.advanceTo_keeps | apply State.bump_keeps | apply State.maStart_keeps | apply State.pb_keeps | apply State.setMa_keeps | apply Keeps.forEach | intro _ _ _ | split | apply Keeps.upd

theorem execMonitorConversionDone_keeps (q : Nat) (input : Int) (dev : Int) (h₀ : Keeps r₀ s) : KeepsOut r₀ (execMonitorConversionDone q input dev s) := by
  unfold execMonitorConversionDone
  dsimp only
  with_reducible repeat' first
    | assumption | apply KeepsOut.next | apply Keeps.ite | apply Keeps.wr | apply State.advanceTo_keeps | apply State.bump_keeps | apply State.bumpBy_keeps | apply State.finish_keeps | apply State.maAccumulate_keeps | apply State.maAlarm_keeps | apply State.maStart_keeps | apply State.setMa_keeps | split

theorem execMonitorCalDone_keeps (q : Nat) (dur : Nat) (h₀ : Keeps r₀ s) : KeepsOut r₀ (execMonitorCalDone q dur s) := by
  unfold execMonitorCalDone
  dsimp only
  with_reducible repeat' first
    | assumption | apply KeepsOut.next | apply State.advanceTo_keeps | apply State.bump_keeps | apply State.finish_keeps | apply State.maStart_keeps | apply State.setMa_keeps | split

theorem execMonitorCalPeriod_keeps (q : Nat) (h₀ : Keeps r₀ s) : KeepsOut r₀ (execMonitorCalPeriod q s) := by
  unfold execMonitorCalPeriod
  dsimp only
  with_reducible repeat' first
    | assumption | apply KeepsOut.next | apply Keeps.ite | apply State.advanceTo_keeps | apply State.maOrderCal_keeps | apply State.setMa_keeps

theorem execMonitorPowerDown_keeps (q : Nat) (h₀ : Keeps r₀ s) : KeepsOut r₀ (execMonitorPowerDown q s) := by
  unfold execMonitorPowerDown
  dsimp only
  with_reducible repeat' first
    | assumption | apply KeepsOut.next | apply Keeps.ite | apply State.advanceTo_keeps | apply State.setMa_keeps

theorem State.writeMaCfg_keeps (q : Nat) (w : Word) (h₀ : Keeps r₀ s) : Keeps r₀ (State.writeMaCfg s q w) := by
  unfold State.writeMaCfg
  dsimp only
  with_reducible repeat' first
    | assumption | apply Keeps.ite | apply State.maOrderCal_keeps | apply State.maStart_keeps | apply State.poke_keeps | apply State.setMa_keeps

theorem State.maTake_keeps (q : Nat) (mask : Nat) (h₀ : Keeps r₀ s) : Keeps r₀ (State.maTake s q mask) := by
  unfold State.maTake
  dsimp only
  with_reducible repeat' first
    | assumption | apply Keeps.wr | apply State.setAcc_keeps | apply Keeps.forEach | intro _ _ _

theorem execMaInjWrite_keeps (q : Nat) (w : Word) (h₀ : Keeps r₀ s) : KeepsOut r₀ (execMaInjWrite q w s) := by
  unfold execMaInjWrite
  with_reducible repeat' first
    | assumption | apply KeepsOut.next | apply Keeps.ite | apply State.access_keeps | apply State.maInject_keeps | intro _ _

theorem execMaCalWrite_keeps (q : Nat) (w : Word) (h₀ : Keeps r₀ s) : KeepsOut r₀ (execMaCalWrite q w s) := by
  unfold execMaCalWrite
  with_reducible repeat' first
    | assumption | apply KeepsOut.next | apply Keeps.ite | apply State.access_keeps | apply State.maOrderCal_keeps | intro _ _

theorem execMaTakeWrite_keeps (q : Nat) (w : Word) (h₀ : Keeps r₀ s) : KeepsOut r₀ (execMaTakeWrite q w s) := by
  unfold execMaTakeWrite
  with_reducible repeat' first
    | assumption | apply KeepsOut.next | apply Keeps.ite | apply State.access_keeps | apply State.maTake_keeps | intro _ _

theorem execMaInjResRead_keeps (q : Nat) (h₀ : Keeps r₀ s) : KeepsOut r₀ (execMaInjResRead q s) := by
  unfold execMaInjResRead
  with_reducible repeat' first
    | assumption | apply KeepsOut.next | apply State.accessRead_keeps | apply State.answer_keeps | apply State.pb_keeps | intro _ _

theorem State.setBank_keeps (b : Nat) (x : Bank) (h₀ : Keeps r₀ s) : Keeps r₀ (State.setBank s b x) := by
  unfold State.setBank
  dsimp only
  with_reducible repeat' first
    | assumption | apply Keeps.upd

theorem State.setBankState_keeps (b : Nat) (v : Nat) (h₀ : Keeps r₀ s) : Keeps r₀ (State.setBankState s b v) := by
  unfold State.setBankState
  with_reducible repeat' first
    | assumption | apply State.pf_keeps

theorem State.snapNow_keeps (refs : List CmdRef) (sys : Bool) (h₀ : Keeps r₀ s) : Keeps r₀ (State.snapNow s refs sys) := by
  unfold State.snapNow
  with_reducible repeat' first
    | assumption | apply State.fireLine_keeps

theorem State.writeSnapCtrl_keeps (w : Word) (h₀ : Keeps r₀ s) : Keeps r₀ (State.writeSnapCtrl s w) := by
  unfold State.writeSnapCtrl
  dsimp only
  with_reducible repeat' first
    | assumption | apply Keeps.ite | apply State.poke_keeps | apply State.snapNow_keeps

theorem execSnapNowWrite_keeps (w : Word) (h₀ : Keeps r₀ s) : KeepsOut r₀ (execSnapNowWrite w s) := by
  unfold execSnapNowWrite
  with_reducible repeat' first
    | assumption | apply KeepsOut.next | apply State.access_keeps | apply State.writeSnapCtrl_keeps | intro _ _

theorem execSnapshotFire_keeps (h₀ : Keeps r₀ s) : KeepsOut r₀ (execSnapshotFire s) := by
  unfold execSnapshotFire
  dsimp only
  with_reducible repeat' first
    | assumption | apply KeepsOut.next | apply Keeps.wr | apply State.bump_keeps | apply State.finish_keeps | apply State.hubEvent_keeps | apply State.monEvt_keeps | apply State.pb_keeps | apply State.pf_keeps | apply State.setBank_keeps | apply State.setBankState_keeps | (exact Keeps.some2 (by assumption) (State.takeDue_keeps _ h₀)) | apply Keeps.forEach | intro _ _ _ | split

theorem State.bankReady_keeps (b : Nat) (h₀ : Keeps r₀ s) : Keeps r₀ (State.bankReady s b) := by
  unfold State.bankReady
  dsimp only
  with_reducible repeat' first
    | assumption | apply Keeps.ite | apply State.deliver_keeps | apply State.finish_keeps | apply State.monEvt_keeps | apply State.setBankState_keeps | apply Keeps.forEach | intro _ _ _

theorem State.latchTile_keeps (b : Nat) (t : Nat) (late : Bool) (h₀ : Keeps r₀ s) : Keeps r₀ (State.latchTile s b t late) := by
  unfold State.latchTile
  dsimp only
  with_reducible repeat' first
    | assumption | apply Keeps.ite | apply State.bump_keeps | apply State.pb_keeps | apply State.setBank_keeps

theorem execSnapshotLatch_keeps (h₀ : Keeps r₀ s) : KeepsOut r₀ (execSnapshotLatch s) := by
  unfold execSnapshotLatch
  dsimp only
  with_reducible repeat' first
    | assumption | apply KeepsOut.next | apply KeepsOut.ite | apply Keeps.ite | apply Keeps.wr | apply State.advanceTo_keeps | apply State.bankReady_keeps | apply State.bumpBy_keeps | apply State.latchTile_keeps | apply State.setBank_keeps | apply State.wrPair_keeps | apply Keeps.forEach | intro _ _ _ | split | apply Keeps.upd

theorem State.releaseBanks_keeps (mask : Nat) (h₀ : Keeps r₀ s) : Keeps r₀ (State.releaseBanks s mask) := by
  unfold State.releaseBanks
  with_reducible repeat' first
    | assumption | apply Keeps.ite | apply State.pb_keeps | apply State.setBank_keeps | apply State.setBankState_keeps | apply Keeps.forEach | intro _ _ _

theorem execMonSnapRelWrite_keeps (w : Word) (h₀ : Keeps r₀ s) : KeepsOut r₀ (execMonSnapRelWrite w s) := by
  unfold execMonSnapRelWrite
  with_reducible repeat' first
    | assumption | apply KeepsOut.next | apply State.access_keeps | apply State.releaseBanks_keeps | intro _ _

theorem State.bankDelivered_keeps (b : Nat) (ok : Bool) (h₀ : Keeps r₀ s) : Keeps r₀ (State.bankDelivered s b ok) := by
  unfold State.bankDelivered
  with_reducible repeat' first
    | assumption | apply Keeps.ite | apply State.bump_keeps | apply State.monEvt_keeps | apply State.setBank_keeps | apply State.setBankState_keeps

theorem execRecorderEvent_keeps (rec : Nat) (code : Nat) (src : Nat) (late : Bool) (detail : Word) (h₀ : Keeps r₀ s) : KeepsOut r₀ (execRecorderEvent rec code src late detail s) := by
  unfold execRecorderEvent
  with_reducible repeat' first
    | assumption | apply KeepsOut.next | apply Keeps.ite | apply State.event_keeps

theorem execRecorderTrigger_keeps (rec : Nat) (h₀ : Keeps r₀ s) : KeepsOut r₀ (execRecorderTrigger rec s) := by
  unfold execRecorderTrigger
  dsimp only
  with_reducible repeat' first
    | assumption | apply KeepsOut.next | apply KeepsOut.ite | apply State.advanceTo_keeps | apply State.pkgEvent_keeps | apply State.tileEvent_keeps | (exact Keeps.some2 (by assumption) (State.takeDue_keeps _ h₀)) | split | apply Keeps.upd

theorem execRecMarkWrite_keeps (w : Word) (h₀ : Keeps r₀ s) : KeepsOut r₀ (execRecMarkWrite w s) := by
  unfold execRecMarkWrite
  with_reducible repeat' first
    | assumption | apply KeepsOut.next | apply State.access_keeps | apply State.hubEvent_keeps | intro _ _

theorem State.recClear_keeps (r : Nat) (h₀ : Keeps r₀ s) : Keeps r₀ (State.recClear s r) := by
  unfold State.recClear
  dsimp only
  with_reducible repeat' first
    | assumption | apply Keeps.ite | apply State.pb_keeps | apply State.pf_keeps | apply State.setRec_keeps

theorem execRecClear_keeps (r : Nat) (h₀ : Keeps r₀ s) : KeepsOut r₀ (execRecClear r s) := by
  unfold execRecClear
  with_reducible repeat' first
    | assumption | apply KeepsOut.next | apply Keeps.ite | apply State.access_keeps | apply State.recClear_keeps | intro _ _

theorem State.recTest_keeps (r : Nat) (h₀ : Keeps r₀ s) : Keeps r₀ (State.recTest s r) := by
  unfold State.recTest
  dsimp only
  with_reducible repeat' first
    | assumption | apply State.setRec_keeps

theorem execRecTest_keeps (r : Nat) (h₀ : Keeps r₀ s) : KeepsOut r₀ (execRecTest r s) := by
  unfold execRecTest
  with_reducible repeat' first
    | assumption | apply KeepsOut.next | apply Keeps.ite | apply State.access_keeps | apply State.recTest_keeps | intro _ _

theorem State.busyReply_keeps (status : Nat) (res : List Word) (h₀ : Keeps r₀ s) : Keeps r₀ (State.busyReply s status res) := by
  unfold State.busyReply
  dsimp only
  with_reducible repeat' first
    | assumption | apply State.reply_keeps | split | apply Keeps.upd

theorem execRecTestDone_keeps (r : Nat) (bad : List Nat) (h₀ : Keeps r₀ s) : KeepsOut r₀ (execRecTestDone r bad s) := by
  unfold execRecTestDone
  dsimp only
  with_reducible repeat' first
    | assumption | apply KeepsOut.next | apply KeepsOut.ite | apply Keeps.ite | apply State.busyReply_keeps | apply State.pb_keeps | apply State.pf_keeps | apply State.setRec_keeps

theorem State.recRearm_keeps (t : Nat) (h₀ : Keeps r₀ s) : Keeps r₀ (State.recRearm s t) := by
  unfold State.recRearm
  dsimp only
  with_reducible repeat' first
    | assumption | apply State.pb_keeps | apply State.setRec_keeps

theorem execRecRearm_keeps (t : Nat) (h₀ : Keeps r₀ s) : KeepsOut r₀ (execRecRearm t s) := by
  unfold execRecRearm
  with_reducible repeat' first
    | assumption | apply KeepsOut.next | apply Keeps.ite | apply State.access_keeps | apply State.recRearm_keeps | intro _ _

theorem execRecorderMemoryError_keeps (r : Nat) (slot : Nat) (corrected : Bool) (code : Nat) (src : Nat) (detail : Word) (h₀ : Keeps r₀ s) : KeepsOut r₀ (execRecorderMemoryError r slot corrected code src detail s) := by
  unfold execRecorderMemoryError
  dsimp only
  with_reducible repeat' first
    | assumption | apply KeepsOut.next | apply Keeps.ite | apply Keeps.wr | apply State.bump_keeps | apply State.faultRecord_keeps | apply State.faultSum_keeps | apply State.hubEvent_keeps | apply State.monEvt_keeps | apply State.pb_keeps | apply State.pf_keeps | apply State.setRec_keeps

theorem State.writeRecList_keeps (r : Nat) (l : Nat) (i : Nat) (w : Word) (h₀ : Keeps r₀ s) : Keeps r₀ (State.writeRecList s r l i w) := by
  unfold State.writeRecList
  with_reducible repeat' first
    | assumption | apply Keeps.ite | apply Keeps.wr | apply State.pb_keeps

theorem State.writeRecCtrl_keeps (r : Nat) (w : Word) (h₀ : Keeps r₀ s) : Keeps r₀ (State.writeRecCtrl s r w) := by
  unfold State.writeRecCtrl
  dsimp only
  with_reducible repeat' first
    | assumption | apply Keeps.ite | apply State.poke_keeps | apply State.recClear_keeps | apply State.recRearm_keeps | apply State.recTest_keeps

theorem execSnapAt_keeps (p : Pkt) (h₀ : Keeps r₀ s) : KeepsOut r₀ (execSnapAt p s) := by
  unfold execSnapAt
  dsimp only
  with_reducible repeat' first
    | assumption | apply KeepsOut.next | apply Keeps.ite | apply State.copyDown_keeps | apply State.schedule_keeps | apply State.snapNow_keeps | apply State.command_keeps | intro _ _ | split

theorem execSnapRelease_keeps (p : Pkt) (h₀ : Keeps r₀ s) : KeepsOut r₀ (execSnapRelease p s) := by
  unfold execSnapRelease
  dsimp only
  with_reducible repeat' first
    | assumption | apply KeepsOut.next | apply State.releaseBanks_keeps | apply State.command_keeps | intro _ _

theorem execSnapInfo_keeps (p : Pkt) (h₀ : Keeps r₀ s) : KeepsOut r₀ (execSnapInfo p s) := by
  unfold execSnapInfo
  dsimp only
  with_reducible repeat' first
    | assumption | apply KeepsOut.next | apply State.command_keeps | intro _ _

theorem execSnapDeliver_keeps (p : Pkt) (h₀ : Keeps r₀ s) : KeepsOut r₀ (execSnapDeliver p s) := by
  unfold execSnapDeliver
  dsimp only
  with_reducible repeat' first
    | assumption | apply KeepsOut.next | apply State.pb_keeps | apply State.pf_keeps | apply State.command_keeps | intro _ _

theorem execRecMapSet_keeps (p : Pkt) (h₀ : Keeps r₀ s) : KeepsOut r₀ (execRecMapSet p s) := by
  unfold execRecMapSet
  dsimp only
  with_reducible repeat' first
    | assumption | apply KeepsOut.next | apply State.pf_keeps | apply State.command_keeps | intro _ _ | split

theorem execRecListSet_keeps (p : Pkt) (h₀ : Keeps r₀ s) : KeepsOut r₀ (execRecListSet p s) := by
  unfold execRecListSet
  dsimp only
  with_reducible repeat' first
    | assumption | apply KeepsOut.next | apply Keeps.wr | apply Keeps.forEach | apply State.command_keeps | intro _ _ _ | intro _ _ | split

theorem execRecCtrl_keeps (p : Pkt) (h₀ : Keeps r₀ s) : KeepsOut r₀ (execRecCtrl p s) := by
  unfold execRecCtrl
  dsimp only
  with_reducible repeat' first
    | assumption | apply KeepsOut.next | apply State.writeRecCtrl_keeps | apply State.command_keeps | intro _ _ | split | dsimp only | apply Keeps.upd

theorem execRecMark_keeps (p : Pkt) (h₀ : Keeps r₀ s) : KeepsOut r₀ (execRecMark p s) := by
  unfold execRecMark
  with_reducible repeat' first
    | assumption | apply KeepsOut.next | apply State.hubEvent_keeps | apply State.command_keeps | intro _ _

theorem execRecStatus_keeps (p : Pkt) (h₀ : Keeps r₀ s) : KeepsOut r₀ (execRecStatus p s) := by
  unfold execRecStatus
  with_reducible repeat' first
    | assumption | apply KeepsOut.next | apply State.command_keeps | intro _ _ | split

theorem execMaSet_keeps (p : Pkt) (h₀ : Keeps r₀ s) : KeepsOut r₀ (execMaSet p s) := by
  unfold execMaSet
  dsimp only
  with_reducible repeat' first
    | assumption | apply KeepsOut.next | apply Keeps.wr | apply State.writeMaCfg_keeps | apply Keeps.forEach | apply State.command_keeps | intro _ _ _ | intro _ _ | split

theorem execMaWindow_keeps (p : Pkt) (h₀ : Keeps r₀ s) : KeepsOut r₀ (execMaWindow p s) := by
  unfold execMaWindow
  with_reducible repeat' first
    | assumption | apply KeepsOut.next | apply State.poke_keeps | apply State.command_keeps | intro _ _ | split

theorem execMaConvert_keeps (p : Pkt) (h₀ : Keeps r₀ s) : KeepsOut r₀ (execMaConvert p s) := by
  unfold execMaConvert
  dsimp only
  with_reducible repeat' first
    | assumption | apply KeepsOut.next | apply State.maInject_keeps | apply State.command_keeps | intro _ _ | split

theorem execMaTake_keeps (p : Pkt) (h₀ : Keeps r₀ s) : KeepsOut r₀ (execMaTake p s) := by
  unfold execMaTake
  dsimp only
  with_reducible repeat' first
    | assumption | apply KeepsOut.next | apply State.maTake_keeps | apply State.command_keeps | intro _ _ | split

theorem execMaCal_keeps (p : Pkt) (h₀ : Keeps r₀ s) : KeepsOut r₀ (execMaCal p s) := by
  unfold execMaCal
  dsimp only
  with_reducible repeat' first
    | assumption | apply KeepsOut.next | apply State.maOrderCal_keeps | apply State.command_keeps | intro _ _ | split

theorem execMaStatus_keeps (p : Pkt) (h₀ : Keeps r₀ s) : KeepsOut r₀ (execMaStatus p s) := by
  unfold execMaStatus
  dsimp only
  with_reducible repeat' first
    | assumption | apply KeepsOut.next | apply State.command_keeps | intro _ _ | split

end Sys2Proof.Machine
end

