-- ==== Sys2Proof/Laws/KeepsSymbols.lean ====
section
/-!
SUPPORT. What the operations of Sys2Proof/Machine/Symbols.lean keep.
-/
set_option linter.unusedTactic false
set_option linter.unreachableTactic false

namespace Sys2Proof.Machine

variable {r₀ s : State}

theorem State.countResolved_keeps (c : Nat) (rs : List Resolved) (h₀ : Keeps r₀ s) : Keeps r₀ (State.countResolved s c rs) := by
  unfold State.countResolved
  with_reducible repeat' first
    | assumption | apply State.bumpBy_keeps

theorem State.dlPrb_keeps (c : Nat) (n : Int) (l : Nat) (air : Nat) (prb : Nat) (h₀ : Keeps r₀ s) : Keeps r₀ (State.dlPrb s c n l air prb).1 := by
  unfold State.dlPrb
  dsimp only
  with_reducible repeat' first
    | assumption | apply State.bump_keeps | apply State.bumpBy_keeps | apply State.countResolved_keeps | apply State.injectLists_keeps | apply Keeps.forEach | intro _ _ _ | split

theorem State.dropUsed_keeps (c : Nat) (dl : Bool) (n : Int) (l : Nat) (h₀ : Keeps r₀ s) : Keeps r₀ (State.dropUsed s c dl n l) := by
  unfold State.dropUsed
  dsimp only
  with_reducible repeat' first
    | assumption | apply Keeps.upd

theorem State.formDl_keeps (c : Nat) (n : Int) (l : Nat) (air : Nat) (v : CarVals) (h₀ : Keeps r₀ s) : Keeps r₀ (State.formDl s c n l air v) := by
  unfold State.formDl
  dsimp only
  with_reducible repeat' first
    | assumption | apply Keeps.ite | apply State.dlPrb_keeps | apply State.rejectSec_keeps | apply Keeps.forEach | apply Keeps.foldlFst | intro _ _ _ | split | dsimp only | apply Keeps.upd

theorem execDlSymbol_keeps (c : Nat) (n : Int) (l : Nat) (h₀ : Keeps r₀ s) : KeepsOut r₀ (execDlSymbol c n l s) := by
  unfold execDlSymbol
  dsimp only
  with_reducible repeat' first
    | assumption | apply KeepsOut.next | apply KeepsOut.ite | apply Keeps.ite | apply State.advanceTo_keeps | apply State.bump_keeps | apply State.dropUsed_keeps | apply State.formDl_keeps | apply State.judgeCplane_keeps | apply State.showBuf_keeps | apply Keeps.upd

theorem State.passUp_keeps (u : UlSec) (h₀ : Keeps r₀ s) : Keeps r₀ (State.passUp s u) := by
  unfold State.passUp
  dsimp only
  with_reducible repeat' first
    | assumption | apply Keeps.ite | apply State.cascBlocks_keeps | apply State.sendRec_keeps | apply State.toEgress_keeps | apply Keeps.forEach | intro _ _ _

theorem State.formed_keeps (u : UlSec) (h₀ : Keeps r₀ s) : Keeps r₀ (State.formed s u) := by
  unfold State.formed
  dsimp only
  with_reducible repeat' first
    | assumption | apply Keeps.ite | apply State.passUp_keeps | apply Keeps.upd

theorem State.ulSec_keeps (x : Sec) (l : Nat) (air : Nat) (endAir : Nat) (ant : List (List Cx)) (h₀ : Keeps r₀ s) : Keeps r₀ (State.ulSec s x l air endAir ant).1 := by
  unfold State.ulSec
  dsimp only
  with_reducible repeat' first
    | assumption | apply State.bumpBy_keeps | apply State.countResolved_keeps | apply State.formed_keeps | apply State.injectLists_keeps | apply Keeps.upd

theorem State.formUl_keeps (c : Nat) (n : Int) (l : Nat) (air : Nat) (endAir : Nat) (v : CarVals) (h₀ : Keeps r₀ s) : Keeps r₀ (State.formUl s c n l air endAir v) := by
  unfold State.formUl
  dsimp only
  with_reducible repeat' first
    | assumption | apply State.bump_keeps | apply State.bumpBy_keeps | apply State.injectLists_keeps | apply State.ulSec_keeps | apply Keeps.forEach | apply Keeps.when | apply Keeps.foldlFst | intro _ _ _ | intro _ _ | split | apply Keeps.upd

theorem execUlSymbol_keeps (c : Nat) (n : Int) (l : Nat) (adc : List (List Int)) (h₀ : Keeps r₀ s) : KeepsOut r₀ (execUlSymbol c n l adc s) := by
  unfold execUlSymbol
  dsimp only
  with_reducible repeat' first
    | assumption | apply KeepsOut.next | apply KeepsOut.ite | apply State.advanceTo_keeps | apply State.bump_keeps | apply State.dropUsed_keeps | apply State.feedAll_keeps | apply State.formUl_keeps | apply Keeps.upd

theorem execCascPartialTimeout_keeps (h₀ : Keeps r₀ s) : KeepsOut r₀ (execCascPartialTimeout s) := by
  unfold execCascPartialTimeout
  dsimp only
  with_reducible repeat' first
    | assumption | apply KeepsOut.next | apply State.advanceTo_keeps | apply State.bumpBy_keeps | apply State.passUp_keeps | apply State.pb_keeps | split | apply Keeps.upd

theorem execPrachOccasion_keeps (k : Nat) (adc : List (List Int)) (h₀ : Keeps r₀ s) : KeepsOut r₀ (execPrachOccasion k adc s) := by
  unfold execPrachOccasion
  dsimp only
  with_reducible repeat' first
    | assumption | apply KeepsOut.next | apply KeepsOut.ite | apply State.advanceTo_keeps | apply State.bump_keeps | apply State.bumpBy_keeps | apply State.countResolved_keeps | apply State.feedAll_keeps | apply State.injectWords_keeps | apply Keeps.forEach | intro _ _ _ | split | apply Keeps.upd

theorem State.serveSrs_keeps (c : Nat) (e : Nat) (n : Int) (start : Int) (h₀ : Keeps r₀ s) : Keeps r₀ (State.serveSrs s c e n start) := by
  unfold State.serveSrs
  dsimp only
  with_reducible repeat' first
    | assumption | apply Keeps.ite | apply State.bump_keeps | apply State.injectLists_keeps | apply State.pb_keeps | apply State.writeEstimate_keeps | apply State.writeSlot_keeps | apply Keeps.forEach | apply Keeps.foldlFst | intro _ _ _

theorem execSrsEstimate_keeps (c : Nat) (n : Int) (h₀ : Keeps r₀ s) : KeepsOut r₀ (execSrsEstimate c n s) := by
  unfold execSrsEstimate
  dsimp only
  with_reducible repeat' first
    | assumption | apply KeepsOut.next | apply KeepsOut.ite | apply State.serveSrs_keeps | apply Keeps.forEach | intro _ _ _ | apply Keeps.upd

end Sys2Proof.Machine
end

