-- ==== Sys2Proof/Laws/KeepsTimeBase.lean ====
section
/-!
SUPPORT. What the operations of Sys2Proof/Machine/TimeBase.lean keep.
-/
set_option linter.unusedTactic false
set_option linter.unreachableTactic false

namespace Sys2Proof.Machine

variable {r₀ s : State}

theorem State.setRateAt_keeps (n : Nat) (r : Nat) (h₀ : Keeps r₀ s) : Keeps r₀ (State.setRateAt s n r) := by
  unfold State.setRateAt
  dsimp only
  with_reducible repeat' first
    | assumption | apply State.wrPair_keeps | split | apply Keeps.upd

theorem State.adjustRate_keeps (d : Int) (h₀ : Keeps r₀ s) : Keeps r₀ (State.adjustRate s d) := by
  unfold State.adjustRate
  dsimp only
  with_reducible repeat' first
    | assumption | apply Keeps.ite | apply State.pb_keeps | apply State.relayTime_keeps | apply State.setRateAt_keeps

theorem State.enterHoldover_keeps (h₀ : Keeps r₀ s) : Keeps r₀ (State.enterHoldover s) := by
  unfold State.enterHoldover
  dsimp only
  with_reducible repeat' first
    | assumption | apply Keeps.ite | apply State.eventNotice_keeps | apply State.hubEvent_keeps | apply State.irq_keeps | apply State.pb_keeps | apply State.relayTime_keeps | apply Keeps.upd

theorem State.leaveHoldover_keeps (h₀ : Keeps r₀ s) : Keeps r₀ (State.leaveHoldover s) := by
  unfold State.leaveHoldover
  dsimp only
  with_reducible repeat' first
    | assumption | apply Keeps.ite | apply State.eventNotice_keeps | apply State.pb_keeps | apply State.relayTime_keeps | apply Keeps.upd

theorem State.writeTbCtrl_keeps (w : Word) (h₀ : Keeps r₀ s) : Keeps r₀ (State.writeTbCtrl s w) := by
  unfold State.writeTbCtrl
  dsimp only
  with_reducible repeat' first
    | assumption | apply Keeps.ite | apply State.enterHoldover_keeps | apply State.leaveHoldover_keeps | apply State.pf_keeps

theorem State.writeCmpCtrl_keeps (n : Nat) (w : Word) (h₀ : Keeps r₀ s) : Keeps r₀ (State.writeCmpCtrl s n w) := by
  unfold State.writeCmpCtrl
  dsimp only
  with_reducible repeat' first
    | assumption | apply Keeps.ite | apply Keeps.wr | apply State.armCmp_keeps | apply State.disarm_keeps

theorem State.relayOrigin_keeps (h₀ : Keeps r₀ s) : Keeps r₀ (State.relayOrigin s) := by
  unfold State.relayOrigin
  with_reducible repeat' first
    | assumption | apply State.relayTime_keeps

theorem State.setOrigin_keeps (sec : Nat) (ns : Nat) (h₀ : Keeps r₀ s) : Keeps r₀ (State.setOrigin s sec ns) := by
  unfold State.setOrigin
  with_reducible repeat' first
    | assumption | apply Keeps.wr | apply State.relayOrigin_keeps | apply State.retime_keeps | apply State.wrPair_keeps

theorem State.fireAlarm_keeps (late : Bool) (h₀ : Keeps r₀ s) : Keeps r₀ (State.fireAlarm s late) := by
  unfold State.fireAlarm
  dsimp only
  with_reducible repeat' first
    | assumption | apply Keeps.wr | apply State.wakeArrive_keeps

theorem State.armAlarm_keeps (target : Nat) (h₀ : Keeps r₀ s) : Keeps r₀ (State.armAlarm s target) := by
  unfold State.armAlarm
  dsimp only
  with_reducible repeat' first
    | assumption | apply Keeps.ite | apply State.fireAlarm_keeps | apply State.pb_keeps | apply Keeps.upd

theorem State.writeAlarmCtrl_keeps (w : Word) (h₀ : Keeps r₀ s) : Keeps r₀ (State.writeAlarmCtrl s w) := by
  unfold State.writeAlarmCtrl
  dsimp only
  with_reducible repeat' first
    | assumption | apply Keeps.ite | apply Keeps.wr | apply State.armAlarm_keeps | apply State.pb_keeps

theorem State.writeTrigSel_keeps (l : Nat) (w : Word) (h₀ : Keeps r₀ s) : Keeps r₀ (State.writeTrigSel s l w) := by
  unfold State.writeTrigSel
  dsimp only
  with_reducible repeat' first
    | assumption | apply Keeps.ite | apply Keeps.wr | apply State.pb_keeps

theorem State.writeOrigin_keeps (i : Nat) (w : Word) (h₀ : Keeps r₀ s) : Keeps r₀ (State.writeOrigin s i w) := by
  unfold State.writeOrigin
  dsimp only
  with_reducible repeat' first
    | assumption | apply Keeps.ite | apply Keeps.wr | apply State.pb_keeps | apply State.relayOrigin_keeps | apply State.retime_keeps | apply Keeps.upd

theorem execTbRateAdjWrite_keeps (w : Word) (h₀ : Keeps r₀ s) : KeepsOut r₀ (execTbRateAdjWrite w s) := by
  unfold execTbRateAdjWrite
  with_reducible repeat' first
    | assumption | apply KeepsOut.next | apply Keeps.ite | apply State.access_keeps | apply State.adjustRate_keeps | intro _ _

theorem execTbNowNsRead_keeps (h₀ : Keeps r₀ s) : KeepsOut r₀ (execTbNowNsRead s) := by
  unfold execTbNowNsRead
  dsimp only
  with_reducible repeat' first
    | assumption | apply KeepsOut.next | apply Keeps.wr | apply State.accessRead_keeps | apply State.answer_keeps | apply State.wrPair_keeps | intro _ _

theorem State.stepComparators_keeps (t0 : State) (h₀ : Keeps r₀ s) : Keeps r₀ (State.stepComparators s t0) := by
  unfold State.stepComparators
  dsimp only
  with_reducible repeat' first
    | assumption | apply Keeps.ite | apply Keeps.wr | apply State.disarm_keeps | apply State.fireCmp_keeps | apply State.fireLine_keeps | apply State.lateAction_keeps | apply State.pb_keeps | apply State.setCmp_keeps | apply Keeps.forEach | intro _ _ _

theorem State.stepAlarm_keeps (t0 : State) (h₀ : Keeps r₀ s) : Keeps r₀ (State.stepAlarm s t0) := by
  unfold State.stepAlarm
  dsimp only
  with_reducible repeat' first
    | assumption | apply Keeps.ite | apply State.fireAlarm_keeps | apply State.pb_keeps

theorem State.stepRecord_keeps (oldT : Nat) (h₀ : Keeps r₀ s) : Keeps r₀ (State.stepRecord s oldT) := by
  unfold State.stepRecord
  dsimp only
  with_reducible repeat' first
    | assumption | apply Keeps.wr | apply State.hubEvent_keeps | apply State.orderRecord_keeps | apply State.pf_keeps | apply State.wrPair_keeps

theorem State.jumpTo_keeps (t : Nat) (h₀ : Keeps r₀ s) : Keeps r₀ (State.jumpTo s t) := by
  unfold State.jumpTo
  dsimp only
  with_reducible repeat' first
    | assumption | split | apply Keeps.upd

theorem State.stepTime_keeps (t : Nat) (h₀ : Keeps r₀ s) : Keeps r₀ (State.stepTime s t) := by
  unfold State.stepTime
  dsimp only
  with_reducible repeat' first
    | assumption | apply State.jumpTo_keeps | apply State.pb_keeps | apply State.resetSources_keeps | apply State.stepAlarm_keeps | apply State.stepComparators_keeps | apply State.stepRecord_keeps

theorem execTimeStepApply_keeps (h₀ : Keeps r₀ s) : KeepsOut r₀ (execTimeStepApply s) := by
  unfold execTimeStepApply
  dsimp only
  with_reducible repeat' first
    | assumption | apply KeepsOut.next | apply State.advanceTo_keeps | apply State.relayTime_keeps | apply State.reply_keeps | apply State.stepTime_keeps | split | apply Keeps.upd

theorem execComparatorFire_keeps (n : Nat) (h₀ : Keeps r₀ s) : KeepsOut r₀ (execComparatorFire n s) := by
  unfold execComparatorFire
  with_reducible repeat' first
    | assumption | apply KeepsOut.next | apply Keeps.ite | apply State.fireCmp_keeps

theorem execCmpArm_keeps (n : Nat) (w : Word) (h₀ : Keeps r₀ s) : KeepsOut r₀ (execCmpArm n w s) := by
  unfold execCmpArm
  with_reducible repeat' first
    | assumption | apply KeepsOut.next | apply State.access_keeps | apply State.writeCmpCtrl_keeps | intro _ _

theorem execCmpCancel_keeps (n : Nat) (w : Word) (h₀ : Keeps r₀ s) : KeepsOut r₀ (execCmpCancel n w s) := by
  unfold execCmpCancel
  with_reducible repeat' first
    | assumption | apply KeepsOut.next | apply State.access_keeps | apply State.writeCmpCtrl_keeps | intro _ _

theorem execTbTrigSelWrite_keeps (line : Nat) (w : Word) (h₀ : Keeps r₀ s) : KeepsOut r₀ (execTbTrigSelWrite line w s) := by
  unfold execTbTrigSelWrite
  with_reducible repeat' first
    | assumption | apply KeepsOut.next | apply State.access_keeps | apply State.writeTrigSel_keeps | intro _ _

theorem execTbSwStrobe_keeps (w : Word) (h₀ : Keeps r₀ s) : KeepsOut r₀ (execTbSwStrobe w s) := by
  unfold execTbSwStrobe
  with_reducible repeat' first
    | assumption | apply KeepsOut.next | apply Keeps.ite | apply State.access_keeps | apply State.fireHubRoutes_keeps | intro _ _

theorem execTbLateCntRead_keeps (h₀ : Keeps r₀ s) : KeepsOut r₀ (execTbLateCntRead s) := by
  unfold execTbLateCntRead
  with_reducible repeat' first
    | assumption | apply KeepsOut.next | apply Keeps.wr | apply State.accessRead_keeps | apply State.answer_keeps | intro _ _

theorem execGridBoundary_keeps (src : Nat) (ahead : Bool) (h₀ : Keeps r₀ s) : KeepsOut r₀ (execGridBoundary src ahead s) := by
  unfold execGridBoundary
  dsimp only
  with_reducible repeat' first
    | assumption | apply KeepsOut.next | apply KeepsOut.ite | apply Keeps.ite | apply State.advanceTo_keeps | apply State.fireAhead_keeps | apply State.fireHubRoutes_keeps | apply State.markSrc_keeps

theorem execGridOriginWrite_keeps (i : Nat) (w : Word) (h₀ : Keeps r₀ s) : KeepsOut r₀ (execGridOriginWrite i w s) := by
  unfold execGridOriginWrite
  with_reducible repeat' first
    | assumption | apply KeepsOut.next | apply State.access_keeps | apply State.writeOrigin_keeps | intro _ _

theorem execTxtsPop_keeps (h₀ : Keeps r₀ s) : KeepsOut r₀ (execTxtsPop s) := by
  unfold execTxtsPop
  dsimp only
  with_reducible repeat' first
    | assumption | apply KeepsOut.next | apply State.accessRead_keeps | apply State.answer_keeps | apply State.egressRun_keeps | intro _ _ | apply Keeps.upd

theorem execSyncTimeout_keeps (h₀ : Keeps r₀ s) : KeepsOut r₀ (execSyncTimeout s) := by
  unfold execSyncTimeout
  dsimp only
  with_reducible repeat' first
    | assumption | apply KeepsOut.next | apply Keeps.ite | apply State.advanceTo_keeps | apply State.enterHoldover_keeps

theorem execHoldSet_keeps (w : Word) (h₀ : Keeps r₀ s) : KeepsOut r₀ (execHoldSet w s) := by
  unfold execHoldSet
  with_reducible repeat' first
    | assumption | apply KeepsOut.next | apply State.access_keeps | apply State.writeTbCtrl_keeps | intro _ _

theorem execHoldClr_keeps (w : Word) (h₀ : Keeps r₀ s) : KeepsOut r₀ (execHoldClr w s) := by
  unfold execHoldClr
  with_reducible repeat' first
    | assumption | apply KeepsOut.next | apply State.access_keeps | apply State.writeTbCtrl_keeps | intro _ _

theorem execSynceLockLoss_keeps (h₀ : Keeps r₀ s) : KeepsOut r₀ (execSynceLockLoss s) := by
  unfold execSynceLockLoss
  dsimp only
  with_reducible repeat' first
    | assumption | apply KeepsOut.next | apply Keeps.ite | apply State.pb_keeps | apply Keeps.upd

theorem execSynceLockRegain_keeps (h₀ : Keeps r₀ s) : KeepsOut r₀ (execSynceLockRegain s) := by
  unfold execSynceLockRegain
  dsimp only
  with_reducible repeat' first
    | assumption | apply KeepsOut.next | apply State.pb_keeps | apply Keeps.upd

theorem execPpsInEdge_keeps (h₀ : Keeps r₀ s) : KeepsOut r₀ (execPpsInEdge s) := by
  unfold execPpsInEdge
  dsimp only
  with_reducible repeat' first
    | assumption | apply KeepsOut.next | apply Keeps.ite | apply Keeps.wr | apply State.fireHubRoutes_keeps | apply State.pb_keeps | apply Keeps.upd

theorem execPpsinAbsent_keeps (h₀ : Keeps r₀ s) : KeepsOut r₀ (execPpsinAbsent s) := by
  unfold execPpsinAbsent
  with_reducible repeat' first
    | assumption | apply KeepsOut.next | apply Keeps.ite | apply State.advanceTo_keeps | apply State.pb_keeps

theorem execPpsinNsRead_keeps (h₀ : Keeps r₀ s) : KeepsOut r₀ (execPpsinNsRead s) := by
  unfold execPpsinNsRead
  dsimp only
  with_reducible repeat' first
    | assumption | apply KeepsOut.next | apply Keeps.wr | apply State.accessRead_keeps | apply State.answer_keeps | intro _ _ | apply Keeps.upd

theorem execPpsOutRise_keeps (ahead : Bool) (h₀ : Keeps r₀ s) : KeepsOut r₀ (execPpsOutRise ahead s) := by
  unfold execPpsOutRise
  dsimp only
  with_reducible repeat' first
    | assumption | apply KeepsOut.next | apply KeepsOut.ite | apply Keeps.ite | apply State.advanceTo_keeps | apply State.fireAhead_keeps | apply State.fireHubRoutes_keeps | apply State.markSrc_keeps | apply Keeps.upd

theorem execPpsOutFall_keeps (h₀ : Keeps r₀ s) : KeepsOut r₀ (execPpsOutFall s) := by
  unfold execPpsOutFall
  dsimp only
  with_reducible repeat' first
    | assumption | apply KeepsOut.next | apply Keeps.ite | apply State.advanceTo_keeps | apply Keeps.upd

theorem execAlarmArmWrite_keeps (w : Word) (h₀ : Keeps r₀ s) : KeepsOut r₀ (execAlarmArmWrite w s) := by
  unfold execAlarmArmWrite
  with_reducible repeat' first
    | assumption | apply KeepsOut.next | apply State.access_keeps | apply State.writeAlarmCtrl_keeps | intro _ _

theorem execAlarmFire_keeps (h₀ : Keeps r₀ s) : KeepsOut r₀ (execAlarmFire s) := by
  unfold execAlarmFire
  with_reducible repeat' first
    | assumption | apply KeepsOut.next | apply Keeps.ite | apply State.advanceTo_keeps | apply State.fireAlarm_keeps

theorem execTimeRead_keeps (p : Pkt) (h₀ : Keeps r₀ s) : KeepsOut r₀ (execTimeRead p s) := by
  unfold execTimeRead
  dsimp only
  with_reducible repeat' first
    | assumption | apply KeepsOut.next | apply State.command_keeps | intro _ _

theorem execTimeRateAdj_keeps (p : Pkt) (h₀ : Keeps r₀ s) : KeepsOut r₀ (execTimeRateAdj p s) := by
  unfold execTimeRateAdj
  dsimp only
  with_reducible repeat' first
    | assumption | apply KeepsOut.next | apply State.adjustRate_keeps | apply State.command_keeps | intro _ _

theorem execTimeStep_keeps (p : Pkt) (h₀ : Keeps r₀ s) : KeepsOut r₀ (execTimeStep p s) := by
  unfold execTimeStep
  dsimp only
  with_reducible repeat' first
    | assumption | apply KeepsOut.next | apply State.pb_keeps | apply State.command_keeps | intro _ _ | apply Keeps.upd

theorem execTimeHold_keeps (p : Pkt) (h₀ : Keeps r₀ s) : KeepsOut r₀ (execTimeHold p s) := by
  unfold execTimeHold
  dsimp only
  with_reducible repeat' first
    | assumption | apply KeepsOut.next | apply Keeps.ite | apply State.enterHoldover_keeps | apply State.leaveHoldover_keeps | apply State.command_keeps | intro _ _

theorem execTimeSched_keeps (p : Pkt) (h₀ : Keeps r₀ s) : KeepsOut r₀ (execTimeSched p s) := by
  unfold execTimeSched
  with_reducible repeat' first
    | assumption | apply KeepsOut.next | apply State.schedule_keeps | apply State.command_keeps | intro _ _ | split

theorem execTimeCancel_keeps (p : Pkt) (h₀ : Keeps r₀ s) : KeepsOut r₀ (execTimeCancel p s) := by
  unfold execTimeCancel
  with_reducible repeat' first
    | assumption | apply KeepsOut.next | apply State.disarm_keeps | apply State.command_keeps | intro _ _

theorem execTimeGrid_keeps (p : Pkt) (h₀ : Keeps r₀ s) : KeepsOut r₀ (execTimeGrid p s) := by
  unfold execTimeGrid
  with_reducible repeat' first
    | assumption | apply KeepsOut.next | apply State.setOrigin_keeps | apply State.command_keeps | intro _ _

theorem execTimeAlarm_keeps (p : Pkt) (h₀ : Keeps r₀ s) : KeepsOut r₀ (execTimeAlarm p s) := by
  unfold execTimeAlarm
  dsimp only
  with_reducible repeat' first
    | assumption | apply KeepsOut.next | apply State.armAlarm_keeps | apply State.pb_keeps | apply State.wrPair_keeps | apply State.command_keeps | intro _ _ | split

theorem execTimePps_keeps (p : Pkt) (h₀ : Keeps r₀ s) : KeepsOut r₀ (execTimePps p s) := by
  unfold execTimePps
  dsimp only
  with_reducible repeat' first
    | assumption | apply KeepsOut.next | apply Keeps.wr | apply State.ppsFollow_keeps | apply State.retime_keeps | apply State.command_keeps | intro _ _

theorem execCrossingOverflow_keeps (row : Nat) (die : Nat) (unit : Nat) (n : Nat) (h₀ : Keeps r₀ s) : KeepsOut r₀ (execCrossingOverflow row die unit n s) := by
  unfold execCrossingOverflow
  dsimp only
  with_reducible repeat' first
    | assumption | apply KeepsOut.next | apply KeepsOut.ite | apply Keeps.ite | apply State.bump_keeps | apply State.bumpBy_keeps | apply State.event_keeps | apply State.loseWords_keeps | split | apply Keeps.upd

end Sys2Proof.Machine
end

