-- ==== Sys2Proof/Laws/KeepsLinks.lean ====
section
/-!
SUPPORT. What the operations of Sys2Proof/Machine/Links.lean keep.
-/
set_option linter.unusedTactic false
set_option linter.unreachableTactic false

namespace Sys2Proof.Machine

variable {r₀ s : State}

theorem State.setLane_keeps (l : Nat) (n : Nat) (role : Nat) (state : Nat) (h₀ : Keeps r₀ s) : Keeps r₀ (State.setLane s l n role state) := by
  unfold State.setLane
  with_reducible repeat' first
    | assumption | apply State.pf_keeps

theorem State.setSpares_keeps (l : Nat) (sp : List Nat) (h₀ : Keeps r₀ s) : Keeps r₀ (State.setSpares s l sp) := by
  unfold State.setSpares
  with_reducible repeat' first
    | assumption | apply State.pf_keeps

theorem State.upstreamLost_keeps (h₀ : Keeps r₀ s) : Keeps r₀ (State.upstreamLost s) := by
  unfold State.upstreamLost
  with_reducible repeat' first
    | assumption | apply State.enterHoldover_keeps | apply State.muteAllForce_keeps | apply State.pb_keeps

theorem State.failLink_keeps (l : Nat) (die : Nat) (h₀ : Keeps r₀ s) : Keeps r₀ (State.failLink s l die) := by
  unfold State.failLink
  dsimp only
  with_reducible repeat' first
    | assumption | apply Keeps.ite | apply State.declareFault_keeps | apply State.failTileWake_keeps | apply State.finish_keeps | apply State.losePackage_keeps | apply State.reachOnly_keeps | apply State.sendMsg_keeps | apply State.setLinkState_keeps | apply State.setLnk_keeps | apply State.upstreamLost_keeps | apply Keeps.forEach | intro _ _ _ | split

theorem execLinkFail_keeps (l : Nat) (tile : Bool) (h₀ : Keeps r₀ s) : KeepsOut r₀ (execLinkFail l tile s) := by
  unfold execLinkFail
  with_reducible repeat' first
    | assumption | apply KeepsOut.next | apply Keeps.ite | apply State.failLink_keeps

theorem State.takeMsg_keeps (l : Nat) (ws : List Word) (h₀ : Keeps r₀ s) : Keeps r₀ (State.takeMsg s l ws) := by
  unfold State.takeMsg
  dsimp only
  with_reducible repeat' first
    | assumption | apply Keeps.ite | apply State.setLnk_keeps

theorem execTileStripe_keeps (l : Nat) (tile : Bool) (hdr : Nat) (slots : List Nat) (badLanes : List Nat) (h₀ : Keeps r₀ s) : KeepsOut r₀ (execTileStripe l tile hdr slots badLanes s) := by
  unfold execTileStripe
  dsimp only
  with_reducible repeat' first
    | assumption | apply KeepsOut.next | apply KeepsOut.ite | apply Keeps.ite | apply State.bump_keeps | apply State.bumpBy_keeps | apply State.loseWords_keeps | apply State.setLnk_keeps | apply State.takeMsg_keeps | apply Keeps.forEach | intro _ _ _

theorem State.parseRecs_keeps (l fuel : Nat) (h₀ : Keeps r₀ s) : Keeps r₀ (s.parseRecs l fuel) := by
  induction fuel generalizing s with
  | zero => exact h₀
  | succ k ih =>
    unfold State.parseRecs
    dsimp only
    with_reducible repeat' first
      | assumption
      | apply ih
      | apply Keeps.ite
      | apply State.bumpBy_keeps
      | apply State.bump_keeps
      | apply State.setLnk_keeps
      | apply State.takeMsg_keeps
      | apply Keeps.forEach
      | intro _ _ _
      | split

theorem execCascStripe_keeps (k : Nat) (hdr : Nat) (payload : List Byte) (h₀ : Keeps r₀ s) : KeepsOut r₀ (execCascStripe k hdr payload s) := by
  unfold execCascStripe
  dsimp only
  with_reducible repeat' first
    | assumption | apply KeepsOut.next | apply KeepsOut.ite | apply State.bump_keeps | apply State.bumpBy_keeps | apply State.parseRecs_keeps | apply State.setLnk_keeps

theorem State.takeRec_keeps (l kind : Nat) (h₀ : Keeps r₀ s) : ∀ x, s.takeRec l kind = some x → Keeps r₀ x.2 := by
  intro x hx
  unfold State.takeRec at hx
  dsimp only at hx
  split at hx
  · split at hx
    · cases hx
      exact State.crossBlocks_keeps _ _ (State.setLnk_keeps _ _ h₀)
    · cases hx
  · cases hx

theorem execCascLayerRecord_keeps (k : Nat) (h₀ : Keeps r₀ s) : KeepsOut r₀ (execCascLayerRecord k s) := by
  unfold execCascLayerRecord
  dsimp only
  with_reducible repeat' first
    | assumption | apply KeepsOut.next | apply State.sendRec_keeps | apply State.showBuf_keeps | (exact Keeps.some2 (by assumption) (State.takeRec_keeps _ _ h₀)) | split | apply Keeps.upd

theorem execCascPartialRecord_keeps (k : Nat) (h₀ : Keeps r₀ s) : KeepsOut r₀ (execCascPartialRecord k s) := by
  unfold execCascPartialRecord
  dsimp only
  with_reducible repeat' first
    | assumption | apply KeepsOut.next | apply State.passUp_keeps | (exact Keeps.some2 (by assumption) (State.takeRec_keeps _ _ h₀)) | apply Keeps.forEach | intro _ _ _ | split | apply Keeps.upd

theorem State.putEls_keeps (base : Nat) (first : Nat) (bs : List CascBlock) (h₀ : Keeps r₀ s) : Keeps r₀ (State.putEls s base first bs) := by
  unfold State.putEls
  with_reducible repeat' first
    | assumption | apply State.writeCx_keeps | apply Keeps.forEach | intro _ _ _

theorem execCascEstimateRecord_keeps (k : Nat) (h₀ : Keeps r₀ s) : KeepsOut r₀ (execCascEstimateRecord k s) := by
  unfold execCascEstimateRecord
  dsimp only
  with_reducible repeat' first
    | assumption | apply KeepsOut.next | apply Keeps.ite | apply State.putEls_keeps | apply State.sendRec_keeps | (exact Keeps.some2 (by assumption) (State.takeRec_keeps _ _ h₀)) | split

theorem execCascSliceRecord_keeps (k : Nat) (h₀ : Keeps r₀ s) : KeepsOut r₀ (execCascSliceRecord k s) := by
  unfold execCascSliceRecord
  dsimp only
  with_reducible repeat' first
    | assumption | apply KeepsOut.next | apply KeepsOut.ite | apply Keeps.ite | apply State.markDirty_keeps | apply State.putEls_keeps | apply State.sendRec_keeps | apply State.setJob_keeps | apply State.tryComplete_keeps | (exact Keeps.some2 (by assumption) (State.takeRec_keeps _ _ h₀)) | split

theorem State.popMsg_keeps (l : Nat) (typ : Nat) (h₀ : Keeps r₀ s) : Keeps r₀ (State.popMsg s l typ) := by
  unfold State.popMsg
  dsimp only
  with_reducible repeat' first
    | assumption | apply State.setLnk_keeps | split

theorem execAckMessage_keeps (l : Nat) (n : Nat) (h₀ : Keeps r₀ s) : KeepsOut r₀ (execAckMessage l n s) := by
  unfold execAckMessage
  dsimp only
  with_reducible repeat' first
    | assumption | apply KeepsOut.next | apply Keeps.ite | apply State.popMsg_keeps | apply State.setLnk_keeps

theorem execMsgResendTimeout_keeps (l : Nat) (h₀ : Keeps r₀ s) : KeepsOut r₀ (execMsgResendTimeout l s) := by
  unfold execMsgResendTimeout
  dsimp only
  with_reducible repeat' first
    | assumption | apply KeepsOut.next | apply KeepsOut.ite | apply State.advanceTo_keeps | apply State.bumpBy_keeps | apply State.failLink_keeps | apply State.pb_keeps | apply State.setLnk_keeps | split

theorem execCaptureMessage_keeps (r : Nat) (bs : List Byte) (h₀ : Keeps r₀ s) : KeepsOut r₀ (execCaptureMessage r bs s) := by
  unfold execCaptureMessage
  dsimp only
  with_reducible repeat' first
    | assumption | apply KeepsOut.next | apply KeepsOut.ite | apply State.popMsg_keeps | apply State.setRing_keeps | split

theorem execRegRsp_keeps (l : Nat) (w : Word) (h₀ : Keeps r₀ s) : KeepsOut r₀ (execRegRsp l w s) := by
  unfold execRegRsp
  with_reducible repeat' first
    | assumption | apply KeepsOut.next | apply Keeps.ite | apply State.answer_keeps | apply State.popMsg_keeps

theorem execWakeMessage_keeps (pkgs : Nat) (tiles : Nat) (h₀ : Keeps r₀ s) : KeepsOut r₀ (execWakeMessage pkgs tiles s) := by
  unfold execWakeMessage
  dsimp only
  with_reducible repeat' first
    | assumption | apply KeepsOut.next | apply KeepsOut.ite | apply Keeps.ite | apply State.popMsg_keeps | apply State.sendMsg_keeps | apply State.wakeArrive_keeps | split

theorem execTimeMessage_keeps (lead : Nat) (m : TimeMsg) (h₀ : Keeps r₀ s) : KeepsOut r₀ (execTimeMessage lead m s) := by
  unfold execTimeMessage
  dsimp only
  with_reducible repeat' first
    | assumption | apply KeepsOut.next | apply KeepsOut.ite | apply Keeps.ite | apply State.advanceTo_keeps | apply State.enterHoldover_keeps | apply State.leaveHoldover_keeps | apply State.popMsg_keeps | apply State.sendMsg_keeps | apply State.setOrigin_keeps | apply State.setRateAt_keeps | apply State.stepTime_keeps | split

theorem execCommitMessage_keeps (m : CommitMsg) (h₀ : Keeps r₀ s) : KeepsOut r₀ (execCommitMessage m s) := by
  unfold execCommitMessage
  dsimp only
  with_reducible repeat' first
    | assumption | apply KeepsOut.next | apply KeepsOut.ite | apply Keeps.ite | apply State.advanceTo_keeps | apply State.landAll_keeps | apply State.sendMsg_keeps | apply State.startCommit_keeps | split | apply Keeps.updTr

theorem execAlignMessage_keeps (l : Nat) (m : AlignMsg) (h₀ : Keeps r₀ s) : KeepsOut r₀ (execAlignMessage l m s) := by
  unfold execAlignMessage
  dsimp only
  with_reducible repeat' first
    | assumption | apply KeepsOut.next | apply KeepsOut.ite | apply Keeps.ite | apply State.pb_keeps | apply State.pf_keeps | apply State.popMsg_keeps | apply State.sendMsg_keeps | apply State.setLnk_keeps | apply State.stepTime_keeps | apply State.wrPair_keeps | split | apply Keeps.upd

theorem State.activateLink_keeps (l : Nat) (foms : List LaneTry) (data : List Nat) (sp : List Nat) (tries : Nat) (lat : Nat) (h₀ : Keeps r₀ s) : Keeps r₀ (State.activateLink s l foms data sp tries lat) := by
  unfold State.activateLink
  dsimp only
  with_reducible repeat' first
    | assumption | apply Keeps.ite | apply Keeps.wr | apply State.bump_keeps | apply State.pf_keeps | apply State.setLane_keeps | apply State.setLinkState_keeps | apply State.setLnk_keeps | apply State.setSpares_keeps | apply Keeps.forEach | intro _ _ _ | apply Keeps.upd

theorem execLinkTrain_keeps (l : Nat) (attempts : List (List LaneTry)) (lat : Nat) (nearer : Bool) (h₀ : Keeps r₀ s) : KeepsOut r₀ (execLinkTrain l attempts lat nearer s) := by
  unfold execLinkTrain
  dsimp only
  with_reducible repeat' first
    | assumption | apply KeepsOut.next | apply KeepsOut.ite | apply Keeps.ite | apply State.activateLink_keeps | apply State.failLink_keeps | apply State.finish_keeps | apply State.pb_keeps | apply State.pf_keeps | apply State.setLinkState_keeps | apply State.setWakeStep_keeps | split

theorem State.startTrain_keeps (l : Nat) (ref : Option CmdRef) (h₀ : Keeps r₀ s) : Keeps r₀ (State.startTrain s l ref) := by
  unfold State.startTrain
  dsimp only
  with_reducible repeat' first
    | assumption | apply Keeps.ite | apply State.finish_keeps | apply State.pb_keeps | apply State.setLane_keeps | apply State.setLinkState_keeps | apply State.setLnk_keeps | apply Keeps.forEach | intro _ _ _ | split | apply Keeps.upd

theorem State.requestSwap_keeps (l : Nat) (lane : Nat) (failed : Bool) (ref : Option CmdRef) (h₀ : Keeps r₀ s) : Keeps r₀ (State.requestSwap s l lane failed ref) := by
  unfold State.requestSwap
  dsimp only
  with_reducible repeat' first
    | assumption | apply Keeps.ite | apply State.failLink_keeps | apply State.sendMsg_keeps | apply State.setLnk_keeps | split

theorem State.failLane_keeps (l : Nat) (lane : Nat) (die : Nat) (h₀ : Keeps r₀ s) : Keeps r₀ (State.failLane s l lane die) := by
  unfold State.failLane
  dsimp only
  with_reducible repeat' first
    | assumption | apply Keeps.ite | apply State.event_keeps | apply State.failLink_keeps | apply State.pf_keeps | apply State.requestSwap_keeps | apply State.spared_keeps

theorem execLaneFailure_keeps (l : Nat) (lane : Nat) (markers : Bool) (tile : Bool) (h₀ : Keeps r₀ s) : KeepsOut r₀ (execLaneFailure l lane markers tile s) := by
  unfold execLaneFailure
  dsimp only
  with_reducible repeat' first
    | assumption | apply KeepsOut.next | apply KeepsOut.ite | apply Keeps.ite | apply State.bumpBy_keeps | apply State.failLane_keeps

theorem execLaneMessage_keeps (l : Nat) (confirm : Bool) (logical : Nat) (spare : Nat) (at_ : Nat) (h₀ : Keeps r₀ s) : KeepsOut r₀ (execLaneMessage l confirm logical spare at_ s) := by
  unfold execLaneMessage
  dsimp only
  with_reducible repeat' first
    | assumption | apply KeepsOut.next | apply KeepsOut.ite | apply State.popMsg_keeps | apply State.sendMsg_keeps | apply State.setLnk_keeps | split

theorem execLaneSwap_keeps (l : Nat) (h₀ : Keeps r₀ s) : KeepsOut r₀ (execLaneSwap l s) := by
  unfold execLaneSwap
  dsimp only
  with_reducible repeat' first
    | assumption | apply KeepsOut.next | apply KeepsOut.ite | apply State.advanceTo_keeps | apply State.bump_keeps | apply State.finish_keeps | apply State.pb_keeps | apply State.pf_keeps | apply State.sendMsg_keeps | apply State.setLane_keeps | apply State.setLnk_keeps | apply State.setSpares_keeps | split

theorem execFomMeasure_keeps (l : Nat) (foms : List Nat) (h₀ : Keeps r₀ s) : KeepsOut r₀ (execFomMeasure l foms s) := by
  unfold execFomMeasure
  dsimp only
  with_reducible repeat' first
    | assumption | apply KeepsOut.next | apply KeepsOut.ite | apply Keeps.ite | apply State.advanceTo_keeps | apply State.bump_keeps | apply State.failLane_keeps | apply State.pb_keeps | apply State.pf_keeps | apply State.requestSwap_keeps | apply State.setLnk_keeps | apply Keeps.forEach | apply Keeps.when | intro _ _ _ | intro _ _

theorem execLaneRetrain_keeps (l : Nat) (lane : Nat) (fom : Nat) (h₀ : Keeps r₀ s) : KeepsOut r₀ (execLaneRetrain l lane fom s) := by
  unfold execLaneRetrain
  dsimp only
  with_reducible repeat' first
    | assumption | apply KeepsOut.next | apply KeepsOut.ite | apply Keeps.ite | apply State.advanceTo_keeps | apply State.pf_keeps | apply State.setLane_keeps | apply State.setLnk_keeps | apply State.setSpares_keeps | split

theorem State.writeAxCtrl_keeps (l : Nat) (w : Word) (h₀ : Keeps r₀ s) : Keeps r₀ (State.writeAxCtrl s l w) := by
  unfold State.writeAxCtrl
  dsimp only
  with_reducible repeat' first
    | assumption | apply Keeps.ite | apply State.poke_keeps | apply State.startTrain_keeps

theorem execAxRetrainWrite_keeps (l : Nat) (w : Word) (h₀ : Keeps r₀ s) : KeepsOut r₀ (execAxRetrainWrite l w s) := by
  unfold execAxRetrainWrite
  with_reducible repeat' first
    | assumption | apply KeepsOut.next | apply Keeps.ite | apply State.access_keeps | apply State.writeAxCtrl_keeps | intro _ _

theorem State.writeCxCfg_keeps (w : Word) (h₀ : Keeps r₀ s) : Keeps r₀ (State.writeCxCfg s w) := by
  unfold State.writeCxCfg
  with_reducible repeat' first
    | assumption | apply Keeps.ite | apply State.poke_keeps

theorem execCxCfgWrite_keeps (w : Word) (h₀ : Keeps r₀ s) : KeepsOut r₀ (execCxCfgWrite w s) := by
  unfold execCxCfgWrite
  with_reducible repeat' first
    | assumption | apply KeepsOut.next | apply State.access_keeps | apply State.writeCxCfg_keeps | intro _ _

theorem execAxStatus_keeps (p : Pkt) (h₀ : Keeps r₀ s) : KeepsOut r₀ (execAxStatus p s) := by
  unfold execAxStatus
  dsimp only
  with_reducible repeat' first
    | assumption | apply KeepsOut.next | apply State.command_keeps | intro _ _

theorem execAxRetrain_keeps (p : Pkt) (h₀ : Keeps r₀ s) : KeepsOut r₀ (execAxRetrain p s) := by
  unfold execAxRetrain
  dsimp only
  with_reducible repeat' first
    | assumption | apply KeepsOut.next | apply State.startTrain_keeps | apply State.command_keeps | intro _ _ | split

theorem execAxSwap_keeps (p : Pkt) (h₀ : Keeps r₀ s) : KeepsOut r₀ (execAxSwap p s) := by
  unfold execAxSwap
  dsimp only
  with_reducible repeat' first
    | assumption | apply KeepsOut.next | apply State.requestSwap_keeps | apply State.command_keeps | intro _ _ | split

theorem execCxRole_keeps (p : Pkt) (h₀ : Keeps r₀ s) : KeepsOut r₀ (execCxRole p s) := by
  unfold execCxRole
  with_reducible repeat' first
    | assumption | apply KeepsOut.next | apply State.writeCxCfg_keeps | apply State.command_keeps | intro _ _

theorem execAxEye_keeps (p : Pkt) (h₀ : Keeps r₀ s) : KeepsOut r₀ (execAxEye p s) := by
  unfold execAxEye
  dsimp only
  with_reducible repeat' first
    | assumption | apply KeepsOut.next | apply State.command_keeps | intro _ _

end Sys2Proof.Machine
end

