-- ==== Sys2Proof/Laws/KeepsCalib.lean ====
section
/-!
SUPPORT. What the operations of Sys2Proof/Machine/Calib.lean keep.
-/
set_option linter.unusedTactic false
set_option linter.unreachableTactic false

namespace Sys2Proof.Machine

variable {r₀ s : State}

theorem State.setCalState_keeps (v : Nat) (h₀ : Keeps r₀ s) : Keeps r₀ (State.setCalState s v) := by
  unfold State.setCalState
  with_reducible repeat' first
    | assumption | apply State.pf_keeps

theorem State.beginCycle_keeps (h₀ : Keeps r₀ s) : Keeps r₀ (State.beginCycle s) := by
  unfold State.beginCycle
  dsimp only
  with_reducible repeat' first
    | assumption | apply Keeps.ite | apply State.pb_keeps | apply State.pf_keeps | apply State.setCalState_keeps | apply Keeps.upd

theorem execCalCycleStart_keeps (h₀ : Keeps r₀ s) : KeepsOut r₀ (execCalCycleStart s) := by
  unfold execCalCycleStart
  dsimp only
  with_reducible repeat' first
    | assumption | apply KeepsOut.next | apply KeepsOut.ite | apply Keeps.ite | apply State.advanceTo_keeps | apply State.beginCycle_keeps | apply State.bump_keeps | apply Keeps.upd

theorem State.calMiss_keeps (dir : Nat) (a : Nat) (h₀ : Keeps r₀ s) : Keeps r₀ (State.calMiss s dir a) := by
  unfold State.calMiss
  dsimp only
  with_reducible repeat' first
    | assumption | apply State.bump_keeps | split | apply Keeps.upd

theorem State.calTake_keeps (dir : Nat) (a : Nat) (t : Nat) (i : Option CalIn) (h₀ : Keeps r₀ s) : Keeps r₀ (State.calTake s dir a t i) := by
  unfold State.calTake
  dsimp only
  with_reducible repeat' first
    | assumption | apply Keeps.ite | apply State.calMiss_keeps | split | apply Keeps.upd

theorem State.calBegin_keeps (n : Int) (l : Nat) (h₀ : Keeps r₀ s) : Keeps r₀ (State.calBegin s n l) := by
  unfold State.calBegin
  dsimp only
  with_reducible repeat' first
    | assumption | apply Keeps.ite | apply State.abortCapture_keeps | apply State.advanceTo_keeps | apply State.blankLeave_keeps | apply State.drivePads_keeps | apply State.padTrigger_keeps | apply State.setTx_keeps | apply Keeps.forEach | intro _ _ _

theorem State.calEnd_keeps (n : Int) (l : Nat) (t0 : Nat) (as_ : List Nat) (tx : Bool) (h₀ : Keeps r₀ s) : Keeps r₀ (State.calEnd s n l t0 as_ tx) := by
  unfold State.calEnd
  dsimp only
  with_reducible repeat' first
    | assumption | apply Keeps.ite | apply State.advanceTo_keeps | apply State.followDemands_keeps | apply State.setTx_keeps | apply Keeps.forEach | intro _ _ _

theorem State.calMeasure_keeps (n : Int) (t : Nat) (ms : List CalIn) (h₀ : Keeps r₀ s) : Keeps r₀ (State.calMeasure s n t ms) := by
  unfold State.calMeasure
  dsimp only
  with_reducible repeat' first
    | assumption | apply Keeps.ite | apply State.bump_keeps | apply State.bumpF_keeps | apply State.calTake_keeps | apply State.pb_keeps | apply State.pf_keeps | apply State.setCalState_keeps | apply State.setOrx_keeps | apply Keeps.forEach | apply Keeps.when | intro _ _ _ | intro _ _ | split | apply Keeps.upd

theorem execCalOccasion_keeps (n : Int) (l : Nat) (ms : List CalIn) (h₀ : Keeps r₀ s) : KeepsOut r₀ (execCalOccasion n l ms s) := by
  unfold execCalOccasion
  dsimp only
  with_reducible repeat' first
    | assumption | apply KeepsOut.next | apply KeepsOut.ite | apply State.advanceTo_keeps | apply State.calBegin_keeps | apply State.calEnd_keeps | apply State.calMeasure_keeps | apply State.pb_keeps | apply State.setCalState_keeps

theorem State.putResult_keeps (a : Nat) (ws : List Word) (h₀ : Keeps r₀ s) : Keeps r₀ (State.putResult s a ws) := by
  unfold State.putResult
  with_reducible repeat' first
    | assumption | apply Keeps.ite | apply Keeps.wr | apply State.sendMsg_keeps | apply Keeps.forEach | intro _ _ _ | split

theorem State.applyResults_keeps (h₀ : Keeps r₀ s) : Keeps r₀ (State.applyResults s).1 := by
  unfold State.applyResults
  dsimp only
  with_reducible repeat' first
    | assumption | apply Keeps.swr | apply State.bump_keeps | apply State.pb_keeps | apply State.sendMsg_keeps | apply Keeps.foldlFst | intro _ _ _ | split

theorem State.calFinish_keeps (h₀ : Keeps r₀ s) : Keeps r₀ (State.calFinish s) := by
  unfold State.calFinish
  dsimp only
  with_reducible repeat' first
    | assumption | apply State.bump_keeps | apply State.pb_keeps | apply State.pf_keeps | apply State.putResult_keeps | apply State.setCalState_keeps | apply Keeps.forEach | apply Keeps.when | intro _ _ _ | intro _ _ | split | apply Keeps.upd

theorem execCalResults_keeps (h₀ : Keeps r₀ s) : KeepsOut r₀ (execCalResults s) := by
  unfold execCalResults
  with_reducible repeat' first
    | assumption | apply KeepsOut.next | apply Keeps.ite | apply State.applyResults_keeps | apply State.calFinish_keeps

theorem State.writeCalCfg_keeps (w : Word) (h₀ : Keeps r₀ s) : Keeps r₀ (State.writeCalCfg s w) := by
  unfold State.writeCalCfg
  dsimp only
  with_reducible repeat' first
    | assumption | apply Keeps.ite | apply State.muteForce_keeps | apply State.poke_keeps | apply State.setCalState_keeps

theorem execCalConfig_keeps (p : Pkt) (h₀ : Keeps r₀ s) : KeepsOut r₀ (execCalConfig p s) := by
  unfold execCalConfig
  dsimp only
  with_reducible repeat' first
    | assumption | apply KeepsOut.next | apply State.copyDown_keeps | apply State.poke_keeps | apply State.writeCalCfg_keeps | apply State.command_keeps | intro _ _

theorem execCalNetLoad_keeps (p : Pkt) (h₀ : Keeps r₀ s) : KeepsOut r₀ (execCalNetLoad p s) := by
  unfold execCalNetLoad
  dsimp only
  with_reducible repeat' first
    | assumption | apply KeepsOut.next | apply State.startLoad_keeps | apply State.command_keeps | intro _ _ | split

theorem execCalRun_keeps (p : Pkt) (h₀ : Keeps r₀ s) : KeepsOut r₀ (execCalRun p s) := by
  unfold execCalRun
  dsimp only
  with_reducible repeat' first
    | assumption | apply KeepsOut.next | apply Keeps.ite | apply State.beginCycle_keeps | apply State.setCalState_keeps | apply State.command_keeps | intro _ _ | split

theorem execCalApply_keeps (p : Pkt) (h₀ : Keeps r₀ s) : KeepsOut r₀ (execCalApply p s) := by
  unfold execCalApply
  dsimp only
  with_reducible repeat' first
    | assumption | apply KeepsOut.next | apply State.applyResults_keeps | apply State.command_keeps | intro _ _ | split

theorem execCalSave_keeps (p : Pkt) (h₀ : Keeps r₀ s) : KeepsOut r₀ (execCalSave p s) := by
  unfold execCalSave
  dsimp only
  with_reducible repeat' first
    | assumption | apply KeepsOut.next | apply State.celFull_keeps | apply State.orderSet_keeps | apply State.command_keeps | intro _ _ | split

theorem State.calStage_keeps (ws : List Word) (ps : List Nat) (h₀ : Keeps r₀ s) : Keeps r₀ (State.calStage s ws ps) := by
  unfold State.calStage
  with_reducible repeat' first
    | assumption | apply Keeps.swr | apply Keeps.forEach | intro _ _ _

theorem State.calRestoreTile_keeps (t : Nat) (h₀ : Keeps r₀ s) : Keeps r₀ (State.calRestoreTile s t) := by
  unfold State.calRestoreTile
  dsimp only
  with_reducible repeat' first
    | assumption | apply State.calStage_keeps | split | apply Keeps.upd

theorem execCalRestore_keeps (p : Pkt) (h₀ : Keeps r₀ s) : KeepsOut r₀ (execCalRestore p s) := by
  unfold execCalRestore
  dsimp only
  with_reducible repeat' first
    | assumption | apply KeepsOut.next | apply State.calStage_keeps | apply State.command_keeps | intro _ _ | split

theorem execCalStatus_keeps (p : Pkt) (h₀ : Keeps r₀ s) : KeepsOut r₀ (execCalStatus p s) := by
  unfold execCalStatus
  dsimp only
  with_reducible repeat' first
    | assumption | apply KeepsOut.next | apply State.command_keeps | intro _ _

end Sys2Proof.Machine
end

