-- ==== Sys2Proof/Laws/KeepsThermal.lean ====
section
/-!
SUPPORT. What the operations of Sys2Proof/Machine/Thermal.lean keep.
-/
set_option linter.unusedTactic false
set_option linter.unreachableTactic false

namespace Sys2Proof.Machine

variable {r₀ s : State}

theorem State.setSen_keeps (n : Nat) (x : SensorSt) (h₀ : Keeps r₀ s) : Keeps r₀ (State.setSen s n x) := by
  unfold State.setSen
  dsimp only
  with_reducible repeat' first
    | assumption | apply Keeps.upd

theorem State.thNotice_keeps (kind : Nat) (idx : Nat) (t : Int) (h₀ : Keeps r₀ s) : Keeps r₀ (State.thNotice s kind idx t) := by
  unfold State.thNotice
  with_reducible repeat' first
    | assumption | apply State.eventNotice_keeps

theorem State.senWarn_keeps (n : Nat) (raise_ : Bool) (t : Int) (h₀ : Keeps r₀ s) : Keeps r₀ (State.senWarn s n raise_ t) := by
  unfold State.senWarn
  dsimp only
  with_reducible repeat' first
    | assumption | apply Keeps.ite | apply State.bump_keeps | apply State.hubEvent_keeps | apply State.pb_keeps | apply State.thEvt_keeps | apply State.thNotice_keeps

theorem State.senStop_keeps (n : Nat) (h₀ : Keeps r₀ s) : Keeps r₀ (State.senStop s n) := by
  unfold State.senStop
  dsimp only
  with_reducible repeat' first
    | assumption | apply State.pb_keeps | apply State.setSen_keeps

theorem State.senReads_keeps (n : Nat) (t : Int) (h₀ : Keeps r₀ s) : Keeps r₀ (State.senReads s n t) := by
  unfold State.senReads
  dsimp only
  with_reducible repeat' first
    | assumption | apply Keeps.ite | apply Keeps.wr | apply State.bump_keeps | apply State.senWarn_keeps | apply State.setSen_keeps

theorem State.senInvalid_keeps (n : Nat) (h₀ : Keeps r₀ s) : Keeps r₀ (State.senInvalid s n) := by
  unfold State.senInvalid
  dsimp only
  with_reducible repeat' first
    | assumption | apply Keeps.ite | apply State.bump_keeps | apply State.hubEvent_keeps | apply State.pb_keeps | apply State.senStop_keeps | apply State.setSen_keeps | apply State.thEvt_keeps

theorem State.senConvert_keeps (n : Nat) (r : Int × Bool) (h₀ : Keeps r₀ s) : Keeps r₀ (State.senConvert s n r) := by
  unfold State.senConvert
  with_reducible repeat' first
    | assumption | apply Keeps.ite | apply State.pb_keeps | apply State.senInvalid_keeps | apply State.senReads_keeps | apply State.senStop_keeps | split

theorem State.scaleBackoff_keeps (p : Nat) (old : Nat) (new : Nat) (h₀ : Keeps r₀ s) : Keeps r₀ (State.scaleBackoff s p old new) := by
  unfold State.scaleBackoff
  dsimp only
  with_reducible repeat' first
    | assumption | apply State.setPr_keeps

theorem State.throttle_keeps (q : Nat) (h₀ : Keeps r₀ s) : Keeps r₀ (State.throttle s q) := by
  unfold State.throttle
  dsimp only
  with_reducible repeat' first
    | assumption | apply Keeps.ite | apply Keeps.wr | apply State.bump_keeps | apply State.hubEvent_keeps | apply State.scaleBackoff_keeps | apply State.thEvt_keeps | apply State.thNotice_keeps | apply Keeps.forEach | apply Keeps.when | intro _ _ _ | intro _ _ | split | apply Keeps.upd

theorem State.thFire_keeps (n : Nat) (t : Int) (emerg : Bool) (h₀ : Keeps r₀ s) : Keeps r₀ (State.thFire s n t emerg) := by
  unfold State.thFire
  dsimp only
  with_reducible repeat' first
    | assumption | apply Keeps.ite | apply Keeps.upd

theorem State.pathSees_keeps (n : Nat) (r : Int × Bool) (h₀ : Keeps r₀ s) : Keeps r₀ (State.pathSees s n r) := by
  unfold State.pathSees
  dsimp only
  with_reducible repeat' first
    | assumption | apply Keeps.ite | apply State.setSen_keeps | apply State.thFire_keeps

theorem State.dieSees_keeps (die : Nat) (rs : List (Int × Bool)) (h₀ : Keeps r₀ s) : Keeps r₀ (State.dieSees s die rs) := by
  unfold State.dieSees
  dsimp only
  with_reducible repeat' first
    | assumption | apply Keeps.ite | apply State.thFire_keeps | split | apply Keeps.upd

theorem State.restartRule_keeps (h₀ : Keeps r₀ s) : Keeps r₀ (State.restartRule s) := by
  unfold State.restartRule
  dsimp only
  with_reducible repeat' first
    | assumption | apply Keeps.ite | split | apply Keeps.upd

theorem State.thSummary_keeps (h₀ : Keeps r₀ s) : Keeps r₀ (State.thSummary s) := by
  unfold State.thSummary
  dsimp only
  with_reducible repeat' first
    | assumption | apply State.pb_keeps | apply State.pf_keeps

theorem execSensorConversion_keeps (rs : List (Int × Bool)) (h₀ : Keeps r₀ s) : KeepsOut r₀ (execSensorConversion rs s) := by
  unfold execSensorConversion
  dsimp only
  with_reducible repeat' first
    | assumption | apply KeepsOut.next | apply KeepsOut.ite | apply State.advanceTo_keeps | apply State.dieSees_keeps | apply State.pathSees_keeps | apply State.restartRule_keeps | apply State.senConvert_keeps | apply State.thSummary_keeps | apply State.throttle_keeps | apply Keeps.forEach | intro _ _ _ | split | apply Keeps.upd

theorem State.writeThr_keeps (r : Nat) (w : Word) (h₀ : Keeps r₀ s) : Keeps r₀ (State.writeThr s r w) := by
  unfold State.writeThr
  dsimp only
  with_reducible repeat' first
    | assumption | apply Keeps.ite | apply Keeps.wr | apply State.pb_keeps

theorem execThThrWrite_keeps (r : Nat) (w : Word) (h₀ : Keeps r₀ s) : KeepsOut r₀ (execThThrWrite r w s) := by
  unfold execThThrWrite
  with_reducible repeat' first
    | assumption | apply KeepsOut.next | apply Keeps.ite | apply State.writeThr_keeps

theorem execThStatus_keeps (p : Pkt) (h₀ : Keeps r₀ s) : KeepsOut r₀ (execThStatus p s) := by
  unfold execThStatus
  with_reducible repeat' first
    | assumption | apply KeepsOut.next | apply State.command_keeps | intro _ _

theorem execThSet_keeps (p : Pkt) (h₀ : Keeps r₀ s) : KeepsOut r₀ (execThSet p s) := by
  unfold execThSet
  dsimp only
  with_reducible repeat' first
    | assumption | apply KeepsOut.next | apply Keeps.wr | apply State.command_keeps | intro _ _

theorem execThRead_keeps (p : Pkt) (h₀ : Keeps r₀ s) : KeepsOut r₀ (execThRead p s) := by
  unfold execThRead
  with_reducible repeat' first
    | assumption | apply KeepsOut.next | apply State.command_keeps | intro _ _

theorem execThSimulate_keeps (p : Pkt) (h₀ : Keeps r₀ s) : KeepsOut r₀ (execThSimulate p s) := by
  unfold execThSimulate
  dsimp only
  with_reducible repeat' first
    | assumption | apply KeepsOut.next | apply State.setSen_keeps | apply State.command_keeps | intro _ _

end Sys2Proof.Machine
end

