-- ==== Sys2Proof/Laws/KeepsRetain.lean ====
section
/-!
SUPPORT. What the operations of Sys2Proof/Machine/Retain.lean keep.
-/
set_option linter.unusedTactic false
set_option linter.unreachableTactic false

namespace Sys2Proof.Machine

variable {r₀ s : State}

theorem State.forgetLive_keeps (p : Nat → Bool) (h₀ : Keeps r₀ s) : Keeps r₀ (s.forgetLive p) :=
  Keeps.updRegs h₀ (fun h => Sparse.wf_filter h _) id

theorem State.forgetStaged_keeps (p : Nat → Bool) (h₀ : Keeps r₀ s) : Keeps r₀ (s.forgetStaged p) :=
  Keeps.updRegs h₀ id (fun h => Sparse.wf_filter h _)

theorem State.resetConfig_keeps (p : Nat → Bool) (h₀ : Keeps r₀ s) : Keeps r₀ (State.resetConfig s p) := by
  unfold State.resetConfig
  dsimp only
  with_reducible repeat' first
    | assumption | apply Keeps.wr | apply State.forgetLive_keeps | apply State.forgetStaged_keeps | apply Keeps.forEach | intro _ _ _

theorem State.clearMem_keeps (lo hi : Nat) (h₀ : Keeps r₀ s) : Keeps r₀ (s.clearMem lo hi) := by
  unfold State.clearMem
  dsimp only
  with_reducible apply Keeps.updMem h₀
  exact fun h => Sparse.wf_filter h _

theorem State.failBank0_keeps (h₀ : Keeps r₀ s) : Keeps r₀ (State.failBank0 s) := by
  unfold State.failBank0
  dsimp only
  with_reducible repeat' first
    | assumption | apply Keeps.wr | apply State.disarm_keeps | apply State.jumpTo_keeps | apply State.pb_keeps | apply State.ppsFollow_keeps | apply State.resetSources_keeps | apply State.stepRecord_keeps | apply Keeps.forEach

theorem State.failCalBank_keeps (t : Nat) (h₀ : Keeps r₀ s) : Keeps r₀ (State.failCalBank s t) := by
  unfold State.failCalBank
  dsimp only
  with_reducible repeat' first
    | assumption | apply Keeps.ite | apply State.calRestoreTile_keeps | apply State.forgetStaged_keeps | apply State.pb_keeps | apply State.pf_keeps | apply State.resetConfig_keeps | apply State.restartCan_keeps | apply State.restartPress_keeps | apply State.rxUpdate_keeps | apply State.setAdc_keeps | apply State.setCan_keeps | apply State.setPr_keeps | apply State.wrList_keeps | apply Keeps.forEach | intro _ _ _

theorem State.loseBank_keeps (n : Nat) (h₀ : Keeps r₀ s) : Keeps r₀ (State.loseBank s n) := by
  unfold State.loseBank
  dsimp only
  with_reducible repeat' first
    | assumption | apply Keeps.ite | apply Keeps.wr | apply State.clearMem_keeps | apply State.failBank0_keeps | apply State.failCalBank_keeps | apply State.forgetLive_keeps | apply State.muteUpdate_keeps | apply State.pb_keeps | apply State.pf_keeps | apply State.resetConfig_keeps | apply State.setCan_keeps | apply State.setJobState_keeps | apply State.setPr_keeps | apply State.setRec_keeps | apply State.setRx_keeps | apply State.setTx_keeps | apply Keeps.forEach | intro _ _ _ | apply Keeps.upd | apply Keeps.updTr

theorem State.failBank_keeps (n : Nat) (h₀ : Keeps r₀ s) : Keeps r₀ (State.failBank s n) := by
  unfold State.failBank
  dsimp only
  with_reducible repeat' first
    | assumption | apply State.bump_keeps | apply State.hubEvent_keeps | apply State.loseBank_keeps | apply State.pb_keeps | apply State.pwEvt_keeps

theorem State.checkBanks_keeps (banks : List Nat) (bad : Nat) (h₀ : Keeps r₀ s) : Keeps r₀ (State.checkBanks s banks bad) := by
  unfold State.checkBanks
  with_reducible repeat' first
    | assumption | apply State.failBank_keeps | apply Keeps.forEach

end Sys2Proof.Machine
end

