-- ==== Sys2Proof/Laws/KeepsPower.lean ====
section
/-!
SUPPORT. What the operations of Sys2Proof/Machine/Power.lean keep.
-/
set_option linter.unusedTactic false
set_option linter.unreachableTactic false

namespace Sys2Proof.Machine

variable {r₀ s : State}

theorem State.putEntry_keeps (e : PwEntry) (e' : PwEntry) (h₀ : Keeps r₀ s) : Keeps r₀ (State.putEntry s e e') := by
  unfold State.putEntry
  dsimp only
  with_reducible repeat' first
    | assumption | apply Keeps.upd

theorem State.askEntry_keeps (e : PwEntry) (h₀ : Keeps r₀ s) : Keeps r₀ (State.askEntry s e) := by
  unfold State.askEntry
  dsimp only
  with_reducible repeat' first
    | assumption | apply Keeps.ite | apply State.abandonEntry_keeps | apply State.putEntry_keeps | apply State.sendMsg_keeps | split

theorem State.startEntry_keeps (e : PwEntry) (h₀ : Keeps r₀ s) : Keeps r₀ (State.startEntry s e) := by
  unfold State.startEntry
  dsimp only
  with_reducible repeat' first
    | assumption | apply Keeps.ite | apply State.askEntry_keeps | apply State.setPkg_keeps | apply State.setTileState_keeps | apply Keeps.upd

theorem State.beginChange_keeps (e : PwEntry) (dueBy : Option Nat) (h₀ : Keeps r₀ s) : Keeps r₀ (State.beginChange s e dueBy) := by
  unfold State.beginChange
  dsimp only
  with_reducible repeat' first
    | assumption | apply Keeps.ite | apply State.bump_keeps | apply State.startEntry_keeps | apply State.startTileWake_keeps | apply State.tileNotice_keeps | apply Keeps.upd

theorem execPowerEntryStart_keeps (scope : Nat) (h₀ : Keeps r₀ s) : KeepsOut r₀ (execPowerEntryStart scope s) := by
  unfold execPowerEntryStart
  dsimp only
  with_reducible repeat' first
    | assumption | apply KeepsOut.next | apply Keeps.ite | apply State.beginChange_keeps | apply State.startEntry_keeps | split | apply Keeps.upd

theorem execEntryReask_keeps (scope : Nat) (h₀ : Keeps r₀ s) : KeepsOut r₀ (execEntryReask scope s) := by
  unfold execEntryReask
  with_reducible repeat' first
    | assumption | apply KeepsOut.next | apply State.advanceTo_keeps | apply State.askEntry_keeps | split

theorem execEntryDelayTimeout_keeps (scope : Nat) (h₀ : Keeps r₀ s) : KeepsOut r₀ (execEntryDelayTimeout scope s) := by
  unfold execEntryDelayTimeout
  dsimp only
  with_reducible repeat' first
    | assumption | apply KeepsOut.next | apply Keeps.ite | apply State.abandonEntry_keeps | apply State.abandonHere_keeps | apply State.advanceTo_keeps | apply State.copyDown_keeps | split

theorem State.enterTile_keeps (e : PwEntry) (h₀ : Keeps r₀ s) : Keeps r₀ (State.enterTile s e) := by
  unfold State.enterTile
  dsimp only
  with_reducible repeat' first
    | assumption | apply Keeps.ite | apply State.bump_keeps | apply State.latchRow_keeps | apply State.powerEvent_keeps | apply State.setDom_keeps | apply State.setLinkState_keeps | apply State.setTileState_keeps | apply State.tileNotice_keeps | apply Keeps.forEach | apply Keeps.upd

theorem State.enterDeep_keeps (e : PwEntry) (h₀ : Keeps r₀ s) : Keeps r₀ (State.enterDeep s e) := by
  unfold State.enterDeep
  dsimp only
  with_reducible repeat' first
    | assumption | apply Keeps.ite | apply State.armAlarm_keeps | apply State.bump_keeps | apply State.enterState_keeps | apply State.finish_keeps | apply State.latchRow_keeps | apply State.powerEvent_keeps | apply State.setDom_keeps | apply State.setLinkState_keeps | apply State.setPkg_keeps | apply State.setTileState_keeps | apply Keeps.forEach | intro _ _ _ | split | apply Keeps.upd

theorem execPowerEntryExec_keeps (scope : Nat) (h₀ : Keeps r₀ s) : KeepsOut r₀ (execPowerEntryExec scope s) := by
  unfold execPowerEntryExec
  with_reducible repeat' first
    | assumption | apply KeepsOut.next | apply Keeps.ite | apply State.copyDown_keeps | apply State.enterDeep_keeps | apply State.enterTile_keeps | split

theorem execBlankWindow_keeps (h₀ : Keeps r₀ s) : KeepsOut r₀ (execBlankWindow s) := by
  unfold execBlankWindow
  dsimp only
  with_reducible repeat' first
    | assumption | apply KeepsOut.next | apply Keeps.ite | apply State.advanceTo_keeps | apply State.blankEnter_keeps | apply State.bump_keeps | apply State.followDemands_keeps | apply State.pwEvt_keeps | apply State.setTx_keeps | apply Keeps.forEach | intro _ _ _ | split | apply Keeps.upd

theorem execBlankingWindowEnd_keeps (p : Nat) (h₀ : Keeps r₀ s) : KeepsOut r₀ (execBlankingWindowEnd p s) := by
  unfold execBlankingWindowEnd
  dsimp only
  with_reducible repeat' first
    | assumption | apply KeepsOut.next | apply Keeps.ite | apply State.advanceTo_keeps | apply State.blankLeave_keeps | apply State.followDemands_keeps | apply State.setTx_keeps | split

theorem execWakeSource_keeps (src : Nat) (tiles : List Nat) (h₀ : Keeps r₀ s) : KeepsOut r₀ (execWakeSource src tiles s) := by
  unfold execWakeSource
  with_reducible repeat' first
    | assumption | apply KeepsOut.next | apply Keeps.ite | apply State.wakeArrive_keeps

theorem State.wakeClk_keeps (bad : Nat) (h₀ : Keeps r₀ s) : Keeps r₀ (State.wakeClk s bad) := by
  unfold State.wakeClk
  dsimp only
  with_reducible repeat' first
    | assumption | apply Keeps.ite | apply State.checkBanks_keeps | apply State.enterHoldover_keeps | apply State.fireAlarm_keeps | apply State.fireCmp_keeps | apply State.pb_keeps | apply State.setDom_keeps | apply Keeps.forEach | apply Keeps.upd

theorem State.wakeDeepTile_keeps (t : Nat) (src : Nat) (h₀ : Keeps r₀ s) : Keeps r₀ (State.wakeDeepTile s t src) := by
  unfold State.wakeDeepTile
  dsimp only
  with_reducible repeat' first
    | assumption | apply State.setTileState_keeps | apply Keeps.upd

theorem State.powerGood_keeps (b : Nat) (h₀ : Keeps r₀ s) : Keeps r₀ (State.powerGood s b) := by
  unfold State.powerGood
  dsimp only
  with_reducible repeat' first
    | assumption | apply Keeps.upd

theorem execWakeStepDone_keeps (scope : Nat) (bad : Nat) (h₀ : Keeps r₀ s) : KeepsOut r₀ (execWakeStepDone scope bad s) := by
  unfold execWakeStepDone
  dsimp only
  with_reducible repeat' first
    | assumption | apply KeepsOut.next | apply Keeps.ite | apply State.checkBanks_keeps | apply State.pf_keeps | apply State.powerGood_keeps | apply State.setDom_keeps | apply State.setWakeStep_keeps | apply State.startTrain_keeps | apply State.wakeClk_keeps | apply State.wakeDeepTile_keeps | apply Keeps.forEach | intro _ _ _ | split

theorem State.recordWake_keeps (w : PwWake) (h₀ : Keeps r₀ s) : Keeps r₀ (State.recordWake s w) := by
  unfold State.recordWake
  with_reducible repeat' first
    | assumption | apply Keeps.wr

theorem State.failPkgWake_keeps (w : PwWake) (h₀ : Keeps r₀ s) : Keeps r₀ (State.failPkgWake s w) := by
  unfold State.failPkgWake
  dsimp only
  with_reducible repeat' first
    | assumption | apply State.bump_keeps | apply State.faultRecord_keeps | apply State.faultSum_keeps | apply State.finish_keeps | apply State.hubEvent_keeps | apply State.pf_keeps | apply State.pwEvt_keeps | apply State.recordWake_keeps | apply State.setDom_keeps | apply State.setPkg_keeps | split | apply Keeps.upd

theorem execWakeStepTimeout_keeps (scope : Nat) (h₀ : Keeps r₀ s) : KeepsOut r₀ (execWakeStepTimeout scope s) := by
  unfold execWakeStepTimeout
  dsimp only
  with_reducible repeat' first
    | assumption | apply KeepsOut.next | apply Keeps.ite | apply State.advanceTo_keeps | apply State.bump_keeps | apply State.failPkgWake_keeps | apply State.failTileWake_keeps | apply State.hubEvent_keeps | split | apply Keeps.upd

theorem State.autoRelease_keeps (t : Nat) (h₀ : Keeps r₀ s) : Keeps r₀ (State.autoRelease s t) := by
  unfold State.autoRelease
  with_reducible repeat' first
    | assumption | apply Keeps.ite | apply State.releasePads_keeps

theorem State.tileRunning_keeps (t : Nat) (h₀ : Keeps r₀ s) : Keeps r₀ (State.tileRunning s t) := by
  unfold State.tileRunning
  dsimp only
  with_reducible repeat' first
    | assumption | apply State.autoRelease_keeps | apply State.followDemands_keeps | apply State.pb_keeps | apply State.powerEvent_keeps | apply State.setLinkState_keeps | apply State.setTileState_keeps | apply Keeps.forEach | split | apply Keeps.upd

theorem State.tileBack_keeps (t : Nat) (h₀ : Keeps r₀ s) : Keeps r₀ (State.tileBack s t) := by
  unfold State.tileBack
  with_reducible repeat' first
    | assumption | apply Keeps.ite | apply State.powerEvent_keeps | apply State.setLinkState_keeps | apply State.setTileState_keeps | apply State.tileRunning_keeps

theorem execWakeComplete_keeps (scope : Nat) (h₀ : Keeps r₀ s) : KeepsOut r₀ (execWakeComplete scope s) := by
  unfold execWakeComplete
  dsimp only
  with_reducible repeat' first
    | assumption | apply KeepsOut.next | apply Keeps.ite | apply State.bumpBy_keeps | apply State.enterState_keeps | apply State.eventNotice_keeps | apply State.finish_keeps | apply State.hubEvent_keeps | apply State.powerEvent_keeps | apply State.pwEvt_keeps | apply State.recordWake_keeps | apply State.retryNotice_keeps | apply State.setPkg_keeps | apply State.tileBack_keeps | apply State.tileNotice_keeps | apply State.tileRunning_keeps | apply Keeps.forEach | split | apply Keeps.upd

theorem execRefclkLoss_keeps (h₀ : Keeps r₀ s) : KeepsOut r₀ (execRefclkLoss s) := by
  unfold execRefclkLoss
  dsimp only
  with_reducible repeat' first
    | assumption | apply KeepsOut.next | apply Keeps.ite | apply State.bump_keeps | apply State.hubEvent_keeps | apply State.pwEvt_keeps | apply Keeps.upd

theorem execPwDoorbellWrite_keeps (w : Word) (h₀ : Keeps r₀ s) : KeepsOut r₀ (execPwDoorbellWrite w s) := by
  unfold execPwDoorbellWrite
  with_reducible repeat' first
    | assumption | apply KeepsOut.next | apply Keeps.ite | apply State.access_keeps | apply State.wakeArrive_keeps | intro _ _

theorem execPwPadRelWrite_keeps (w : Word) (h₀ : Keeps r₀ s) : KeepsOut r₀ (execPwPadRelWrite w s) := by
  unfold execPwPadRelWrite
  with_reducible repeat' first
    | assumption | apply KeepsOut.next | apply State.access_keeps | apply State.releasePads_keeps | intro _ _

theorem execPwStatus_keeps (p : Pkt) (h₀ : Keeps r₀ s) : KeepsOut r₀ (execPwStatus p s) := by
  unfold execPwStatus
  with_reducible repeat' first
    | assumption | apply KeepsOut.next | apply State.command_keeps | intro _ _

theorem State.schedulePower_keeps (t : Nat) (target : Nat) (time : Nat) (ref : CmdRef) (h₀ : Keeps r₀ s) : Keeps r₀ (State.schedulePower s t target time ref) := by
  unfold State.schedulePower
  dsimp only
  with_reducible repeat' first
    | assumption | apply State.schedule_keeps | split | apply Keeps.upd

theorem State.cancelPower_keeps (ts : List Nat) (h₀ : Keeps r₀ s) : Keeps r₀ (State.cancelPower s ts) := by
  unfold State.cancelPower
  dsimp only
  with_reducible repeat' first
    | assumption | apply State.disarm_keeps | apply State.tileNotice_keeps | apply Keeps.forEach | intro _ _ _ | split | apply Keeps.upd

theorem State.orderTiles_keeps (l : List (Nat × Nat)) (ref : CmdRef) (h₀ : Keeps r₀ s) : Keeps r₀ (State.orderTiles s l ref) := by
  unfold State.orderTiles
  dsimp only
  with_reducible repeat' first
    | assumption | apply Keeps.upd

theorem execPwTile_keeps (p : Pkt) (h₀ : Keeps r₀ s) : KeepsOut r₀ (execPwTile p s) := by
  unfold execPwTile
  dsimp only
  with_reducible repeat' first
    | assumption | apply KeepsOut.next | apply KeepsOut.ite | apply Keeps.ite | apply State.beginChange_keeps | apply State.cancelPower_keeps | apply State.orderTiles_keeps | apply State.schedulePower_keeps | apply Keeps.forEach | apply State.command_keeps | intro _ _ _ | intro _ _ | split

theorem State.orderDeep_keeps (ref : Option CmdRef) (sys : Bool) (ready : Option Nat) (h₀ : Keeps r₀ s) : Keeps r₀ (State.orderDeep s ref sys ready) := by
  unfold State.orderDeep
  dsimp only
  with_reducible repeat' first
    | assumption | apply Keeps.upd

theorem execPwDeep_keeps (p : Pkt) (h₀ : Keeps r₀ s) : KeepsOut r₀ (execPwDeep p s) := by
  unfold execPwDeep
  dsimp only
  with_reducible repeat' first
    | assumption | apply KeepsOut.next | apply Keeps.ite | apply State.copyDown_keeps | apply State.orderDeep_keeps | apply State.command_keeps | intro _ _ | split

theorem execPwWake_keeps (p : Pkt) (h₀ : Keeps r₀ s) : KeepsOut r₀ (execPwWake p s) := by
  unfold execPwWake
  with_reducible repeat' first
    | assumption | apply KeepsOut.next | apply State.wakeArrive_keeps | apply State.command_keeps | intro _ _

theorem execPwWakeRetry_keeps (p : Pkt) (h₀ : Keeps r₀ s) : KeepsOut r₀ (execPwWakeRetry p s) := by
  unfold execPwWakeRetry
  dsimp only
  with_reducible repeat' first
    | assumption | apply KeepsOut.next | apply State.bump_keeps | apply State.setPkg_keeps | apply State.setTileState_keeps | apply Keeps.forEach | apply State.command_keeps | intro _ _ _ | intro _ _ | split | dsimp only | apply Keeps.upd

theorem execPwPadRelease_keeps (p : Pkt) (h₀ : Keeps r₀ s) : KeepsOut r₀ (execPwPadRelease p s) := by
  unfold execPwPadRelease
  dsimp only
  with_reducible repeat' first
    | assumption | apply KeepsOut.next | apply State.releasePads_keeps | apply State.command_keeps | intro _ _ | split

theorem execPwRetClear_keeps (p : Pkt) (h₀ : Keeps r₀ s) : KeepsOut r₀ (execPwRetClear p s) := by
  unfold execPwRetClear
  dsimp only
  with_reducible repeat' first
    | assumption | apply KeepsOut.next | apply Keeps.wr | apply State.command_keeps | intro _ _

theorem execPwConfig_keeps (p : Pkt) (h₀ : Keeps r₀ s) : KeepsOut r₀ (execPwConfig p s) := by
  unfold execPwConfig
  dsimp only
  with_reducible repeat' first
    | assumption | apply KeepsOut.next | apply State.poke_keeps | apply Keeps.forEach | apply State.command_keeps | intro _ _ _ | intro _ _

theorem execPwBlank_keeps (p : Pkt) (h₀ : Keeps r₀ s) : KeepsOut r₀ (execPwBlank p s) := by
  unfold execPwBlank
  dsimp only
  with_reducible repeat' first
    | assumption | apply KeepsOut.next | apply State.poke_keeps | apply Keeps.forEach | apply State.command_keeps | intro _ _ _ | intro _ _

end Sys2Proof.Machine
end

