-- ==== Sys2Proof/Laws/KeepsCellar.lean ====
section
/-!
SUPPORT. What the operations of Sys2Proof/Machine/Cellar.lean keep.
-/
set_option linter.unusedTactic false
set_option linter.unreachableTactic false

namespace Sys2Proof.Machine

variable {r₀ s : State}

theorem State.showCel_keeps (h₀ : Keeps r₀ s) : Keeps r₀ (State.showCel s) := by
  unfold State.showCel
  with_reducible repeat' first
    | assumption | apply Keeps.wr

theorem State.celAnswer_keeps (r : CmdRef) (status : Nat) (res : List Word) (h₀ : Keeps r₀ s) : Keeps r₀ (State.celAnswer s r status res) := by
  unfold State.celAnswer
  dsimp only
  with_reducible repeat' first
    | assumption | apply Keeps.ite | apply State.busyReply_keeps | apply State.finish_keeps | apply Keeps.upd

theorem State.celDone_keeps (r : CmdRef) (h₀ : Keeps r₀ s) : Keeps r₀ (State.celDone s r) := by
  unfold State.celDone
  dsimp only
  with_reducible repeat' first
    | assumption | apply Keeps.ite | apply State.celAnswer_keeps

theorem State.celFail_keeps (h₀ : Keeps r₀ s) : Keeps r₀ (State.celFail s) := by
  unfold State.celFail
  dsimp only
  with_reducible repeat' first
    | assumption | apply Keeps.ite | apply State.celAnswer_keeps | apply Keeps.forEach | intro _ _ _ | apply Keeps.upd

theorem State.celEffect_keeps (o : CelOrder) (h₀ : Keeps r₀ s) : Keeps r₀ (State.celEffect s o) := by
  unfold State.celEffect
  with_reducible repeat' first
    | assumption | apply Keeps.ite | apply Keeps.wr | apply State.pb_keeps | apply Keeps.forEach | intro _ _ _

theorem State.cellarWrite_keeps (ok : Bool) (h₀ : Keeps r₀ s) : Keeps r₀ (State.cellarWrite s ok) := by
  unfold State.cellarWrite
  dsimp only
  with_reducible repeat' first
    | assumption | apply Keeps.ite | apply State.celDone_keeps | apply State.celEffect_keeps | apply State.celFail_keeps | apply State.pb_keeps | apply State.pf_keeps | apply State.showCel_keeps | apply State.wrPair_keeps | apply Keeps.when | intro _ _ | split | apply Keeps.upd

theorem execCellarRecordWrite_keeps (ok : Bool) (h₀ : Keeps r₀ s) : KeepsOut r₀ (execCellarRecordWrite ok s) := by
  unfold execCellarRecordWrite
  with_reducible repeat' first
    | assumption | apply KeepsOut.next | apply State.cellarWrite_keeps

theorem State.rackCopy_keeps (g : Nat) (h₀ : Keeps r₀ s) : Keeps r₀ (State.rackCopy s g) := by
  unfold State.rackCopy
  dsimp only
  with_reducible repeat' first
    | assumption | apply Keeps.forEach | intro _ _ _ | split | apply Keeps.upd

theorem execRacking_keeps (h₀ : Keeps r₀ s) : KeepsOut r₀ (execRacking s) := by
  unfold execRacking
  dsimp only
  with_reducible repeat' first
    | assumption | apply KeepsOut.next | apply Keeps.ite | apply State.finish_keeps | apply State.pb_keeps | apply State.rackCopy_keeps | apply State.showCel_keeps | split | apply Keeps.upd

theorem execSecureWindowWrite_keeps (h₀ : Keeps r₀ s) : KeepsOut r₀ (execSecureWindowWrite s) := by
  unfold execSecureWindowWrite
  with_reducible repeat' first
    | assumption | apply KeepsOut.next | apply State.access_keeps | apply State.pb_keeps | intro _ _

theorem State.fillBuf_keeps (bs : List Byte) (h₀ : Keeps r₀ s) : Keeps r₀ (State.fillBuf s bs) := by
  unfold State.fillBuf
  dsimp only
  with_reducible repeat' first
    | assumption | apply State.pf_keeps | apply Keeps.upd

theorem State.lastVer_keeps (code : Nat) (h₀ : Keeps r₀ s) : Keeps r₀ (State.lastVer s code) := by
  unfold State.lastVer
  with_reducible repeat' first
    | assumption | apply State.pf_keeps

theorem State.setFlash_keeps (b : Nat) (bs : List Byte) (h₀ : Keeps r₀ s) : Keeps r₀ (State.setFlash s b bs) := by
  unfold State.setFlash
  dsimp only
  with_reducible repeat' first
    | assumption | split | apply Keeps.upd

theorem State.imageLoaded_keeps (r : CmdRef) (bs : List Byte) (kind : Nat) (h₀ : Keeps r₀ s) : Keeps r₀ (State.imageLoaded s r bs kind) := by
  unfold State.imageLoaded
  dsimp only
  with_reducible repeat' first
    | assumption | apply Keeps.ite | apply State.finish_keeps | apply State.lastVer_keeps | apply State.orderSet_keeps | apply State.pb_keeps | apply State.setFlash_keeps | split | apply Keeps.upd

theorem State.installKernel_keeps (bs : List Byte) (h₀ : Keeps r₀ s) : Keeps r₀ (State.installKernel s bs) := by
  unfold State.installKernel
  dsimp only
  with_reducible repeat' first
    | assumption | apply State.pb_keeps | apply Keeps.upd

theorem State.kernelLoaded_keeps (r : CmdRef) (bs : List Byte) (k : Nat) (h₀ : Keeps r₀ s) : Keeps r₀ (State.kernelLoaded s r bs k) := by
  unfold State.kernelLoaded
  dsimp only
  with_reducible repeat' first
    | assumption | apply Keeps.ite | apply State.finish_keeps | apply State.installKernel_keeps | apply State.lastVer_keeps

theorem State.tokenLoaded_keeps (r : CmdRef) (bs : List Byte) (h₀ : Keeps r₀ s) : Keeps r₀ (State.tokenLoaded s r bs) := by
  unfold State.tokenLoaded
  dsimp only
  with_reducible repeat' first
    | assumption | apply Keeps.ite | apply Keeps.wr | apply State.finish_keeps | apply State.lastVer_keeps | apply Keeps.upd

theorem State.secLoaded_keeps (r : CmdRef) (bs : List Byte) (args : List Nat) (h₀ : Keeps r₀ s) : Keeps r₀ (State.secLoaded s r bs args) := by
  unfold State.secLoaded
  with_reducible repeat' first
    | assumption | apply Keeps.ite | apply State.imageLoaded_keeps | apply State.kernelLoaded_keeps | apply State.tokenLoaded_keeps

theorem State.spiLoad_keeps (h₀ : Keeps r₀ s) : Keeps r₀ (State.spiLoad s) := by
  unfold State.spiLoad
  dsimp only
  with_reducible repeat' first
    | assumption | apply Keeps.ite | apply State.secLoaded_keeps | split | apply Keeps.upd

theorem execCelStatus_keeps (p : Pkt) (h₀ : Keeps r₀ s) : KeepsOut r₀ (execCelStatus p s) := by
  unfold execCelStatus
  with_reducible repeat' first
    | assumption | apply KeepsOut.next | apply State.command_keeps | intro _ _

theorem execCelRead_keeps (p : Pkt) (h₀ : Keeps r₀ s) : KeepsOut r₀ (execCelRead p s) := by
  unfold execCelRead
  dsimp only
  with_reducible repeat' first
    | assumption | apply KeepsOut.next | apply State.fillBuf_keeps | apply State.command_keeps | intro _ _ | split

theorem execSecId_keeps (p : Pkt) (h₀ : Keeps r₀ s) : KeepsOut r₀ (execSecId p s) := by
  unfold execSecId
  dsimp only
  with_reducible repeat' first
    | assumption | apply KeepsOut.next | apply State.fillBuf_keeps | apply State.command_keeps | intro _ _ | split

theorem execSecAttest_keeps (p : Pkt) (h₀ : Keeps r₀ s) : KeepsOut r₀ (execSecAttest p s) := by
  unfold execSecAttest
  dsimp only
  with_reducible repeat' first
    | assumption | apply KeepsOut.next | apply State.pf_keeps | apply State.command_keeps | intro _ _ | split | dsimp only | apply Keeps.upd

theorem execAttestationDone_keeps (h₀ : Keeps r₀ s) : KeepsOut r₀ (execAttestationDone s) := by
  unfold execAttestationDone
  dsimp only
  with_reducible repeat' first
    | assumption | apply KeepsOut.next | apply State.finish_keeps | apply State.pf_keeps | split | apply Keeps.upd

theorem execSecDbgChallenge_keeps (p : Pkt) (h₀ : Keeps r₀ s) : KeepsOut r₀ (execSecDbgChallenge p s) := by
  unfold execSecDbgChallenge
  dsimp only
  with_reducible repeat' first
    | assumption | apply KeepsOut.next | apply State.command_keeps | intro _ _ | dsimp only | apply Keeps.upd

theorem State.startSec_keeps (ring : Nat) (ref : CmdRef) (need : Nat) (args : List Nat) (h₀ : Keeps r₀ s) : Keeps r₀ (State.startSec s ring ref need args) := by
  unfold State.startSec
  dsimp only
  with_reducible repeat' first
    | assumption | apply Keeps.ite | apply State.startLoad_keeps | apply Keeps.upd

theorem execImgLoad_keeps (p : Pkt) (h₀ : Keeps r₀ s) : KeepsOut r₀ (execImgLoad p s) := by
  unfold execImgLoad
  dsimp only
  with_reducible repeat' first
    | assumption | apply KeepsOut.next | apply Keeps.ite | apply State.spiLoad_keeps | apply State.startSec_keeps | apply State.command_keeps | intro _ _ | split

theorem State.celLater_keeps (r : CmdRef) (quiet : Bool) (res : List Word) (h₀ : Keeps r₀ s) : Keeps r₀ (State.celLater s r quiet res) := by
  unfold State.celLater
  dsimp only
  with_reducible repeat' first
    | assumption | apply Keeps.upd

theorem State.orderState_keeps (kind : Nat) (inst : Nat) (payload : List Word) (r : CmdRef) (h₀ : Keeps r₀ s) : Keeps r₀ (State.orderState s kind inst payload r) := by
  unfold State.orderState
  with_reducible repeat' first
    | assumption | apply Keeps.upd

theorem execImgActivate_keeps (p : Pkt) (h₀ : Keeps r₀ s) : KeepsOut r₀ (execImgActivate p s) := by
  unfold execImgActivate
  dsimp only
  with_reducible repeat' first
    | assumption | apply KeepsOut.next | apply State.celFull_keeps | apply State.celLater_keeps | apply State.lastVer_keeps | apply State.orderState_keeps | apply State.command_keeps | intro _ _ | split

theorem execCelLogClear_keeps (p : Pkt) (h₀ : Keeps r₀ s) : KeepsOut r₀ (execCelLogClear p s) := by
  unfold execCelLogClear
  dsimp only
  with_reducible repeat' first
    | assumption | apply KeepsOut.next | apply State.celFull_keeps | apply State.celLater_keeps | apply State.orderState_keeps | apply State.command_keeps | intro _ _ | split

theorem execSecArbAdvance_keeps (p : Pkt) (h₀ : Keeps r₀ s) : KeepsOut r₀ (execSecArbAdvance p s) := by
  unfold execSecArbAdvance
  dsimp only
  with_reducible repeat' first
    | assumption | apply KeepsOut.next | apply State.celLater_keeps | apply State.orderState_keeps | apply State.command_keeps | intro _ _ | split

theorem execCelRack_keeps (p : Pkt) (h₀ : Keeps r₀ s) : KeepsOut r₀ (execCelRack p s) := by
  unfold execCelRack
  dsimp only
  with_reducible repeat' first
    | assumption | apply KeepsOut.next | apply State.pb_keeps | apply State.command_keeps | intro _ _ | split | apply Keeps.upd

theorem execSecKeyFuse_keeps (p : Pkt) (h₀ : Keeps r₀ s) : KeepsOut r₀ (execSecKeyFuse p s) := by
  unfold execSecKeyFuse
  dsimp only
  with_reducible repeat' first
    | assumption | apply KeepsOut.next | apply Keeps.wr | apply State.pb_keeps | apply Keeps.forEach | apply State.command_keeps | intro _ _ _ | intro _ _

theorem execSecKeyRevoke_keeps (p : Pkt) (h₀ : Keeps r₀ s) : KeepsOut r₀ (execSecKeyRevoke p s) := by
  unfold execSecKeyRevoke
  dsimp only
  with_reducible repeat' first
    | assumption | apply KeepsOut.next | apply State.pb_keeps | apply State.command_keeps | intro _ _

theorem execSecDbgUnlock_keeps (p : Pkt) (h₀ : Keeps r₀ s) : KeepsOut r₀ (execSecDbgUnlock p s) := by
  unfold execSecDbgUnlock
  dsimp only
  with_reducible repeat' first
    | assumption | apply KeepsOut.next | apply Keeps.ite | apply State.spiLoad_keeps | apply State.startSec_keeps | apply State.command_keeps | intro _ _ | split

theorem execSecDbgLock_keeps (p : Pkt) (h₀ : Keeps r₀ s) : KeepsOut r₀ (execSecDbgLock p s) := by
  unfold execSecDbgLock
  with_reducible repeat' first
    | assumption | apply KeepsOut.next | apply Keeps.wr | apply State.command_keeps | intro _ _

end Sys2Proof.Machine
end

