-- ==== Sys2Proof/Laws/KeepsDma.lean ====
section
/-!
SUPPORT. What the operations of Sys2Proof/Machine/Dma.lean keep.
-/
set_option linter.unusedTactic false
set_option linter.unreachableTactic false

namespace Sys2Proof.Machine

variable {r₀ s : State}

theorem State.endItem_keeps (n : Nat) (ok : Bool) (h₀ : Keeps r₀ s) : Keeps r₀ (State.endItem s n ok) := by
  unfold State.endItem
  dsimp only
  with_reducible repeat' first
    | assumption | apply State.bankDelivered_keeps | apply State.finish_keeps | apply State.setRing_keeps | apply State.showWaiting_keeps | split

theorem State.addMoved_keeps (n : Nat) (k : Nat) (h₀ : Keeps r₀ s) : Keeps r₀ (State.addMoved s n k) := by
  unfold State.addMoved
  dsimp only
  with_reducible repeat' first
    | assumption | apply State.bumpBy_keeps | apply Keeps.upd

theorem State.hostWrite_keeps (a : Nat) (bs : List Byte) (h₀ : Keeps r₀ s) : Keeps r₀ (State.hostWrite s a bs) := by
  unfold State.hostWrite
  dsimp only
  with_reducible repeat' first
    | assumption | apply Keeps.ite | apply Keeps.upd

theorem State.ringOff_keeps (n : Nat) (h₀ : Keeps r₀ s) : Keeps r₀ (State.ringOff s n) := by
  unfold State.ringOff
  dsimp only
  with_reducible repeat' first
    | assumption | apply Keeps.ite | apply State.endItem_keeps | apply State.pf_keeps | apply State.setRing_keeps | apply State.setRingState_keeps

theorem State.ringStop_keeps (n : Nat) (h₀ : Keeps r₀ s) : Keeps r₀ (State.ringStop s n) := by
  unfold State.ringStop
  dsimp only
  with_reducible repeat' first
    | assumption | apply Keeps.ite | apply State.bump_keeps | apply State.irq_keeps | apply State.pb_keeps | apply State.setRingState_keeps

theorem State.ringNext_keeps (n : Nat) (d : Desc) (h₀ : Keeps r₀ s) : Keeps r₀ (State.ringNext s n d) := by
  unfold State.ringNext
  dsimp only
  with_reducible repeat' first
    | assumption | apply Keeps.ite | apply State.pf_keeps | apply State.ringOff_keeps | apply State.ringStop_keeps | apply State.setRing_keeps

theorem State.writeBack_keeps (n : Nat) (d : Desc) (status : Nat) (moved : Nat) (w3 : Option Word) (stamp : Option RxStamp) (first : Bool) (last : Bool) (h₀ : Keeps r₀ s) : Keeps r₀ (State.writeBack s n d status moved w3 stamp first last) := by
  unfold State.writeBack
  dsimp only
  with_reducible repeat' first
    | assumption | apply State.addMoved_keeps | apply State.bump_keeps | apply State.hostWrite_keeps | apply State.irq_keeps | apply State.pb_keeps | apply State.ringNext_keeps | apply Keeps.when | intro _ _ | split

theorem State.finishDesc_keeps (n : Nat) (d : Desc) (status : Nat) (moved : Nat) (h₀ : Keeps r₀ s) : Keeps r₀ (State.finishDesc s n d status moved) := by
  unfold State.finishDesc
  dsimp only
  with_reducible repeat' first
    | assumption | apply State.setRing_keeps | apply State.writeBack_keeps

theorem State.finishItem_keeps (n : Nat) (d : Desc) (i : DevItem) (status : Nat) (k : Nat) (h₀ : Keeps r₀ s) : Keeps r₀ (State.finishItem s n d i status k) := by
  unfold State.finishItem
  dsimp only
  with_reducible repeat' first
    | assumption | apply Keeps.ite | apply State.endItem_keeps | apply State.setRing_keeps | apply State.writeBack_keeps

theorem State.putWords2_keeps (o : Nat) (ws : List Word) (h₀ : Keeps r₀ s) : Keeps r₀ (State.putWords2 s o ws).1 := by
  unfold State.putWords2
  dsimp only
  with_reducible repeat' first
    | assumption | apply State.writeBar2_keeps | apply Keeps.foldlFst | intro _ _ _

theorem State.loadTake_keeps (n : Nat) (l : LoadJob) (bs : List Byte) (h₀ : Keeps r₀ s) : Keeps r₀ (State.loadTake s n l bs).1 := by
  unfold State.loadTake
  dsimp only
  with_reducible repeat' first
    | assumption | apply State.putWords2_keeps | apply State.setRing_keeps | split

theorem State.loadDone_keeps (n : Nat) (h₀ : Keeps r₀ s) : Keeps r₀ (State.loadDone s n) := by
  unfold State.loadDone
  dsimp only
  with_reducible repeat' first
    | assumption | apply Keeps.ite | apply State.finish_keeps | apply State.poke_keeps | apply State.secLoaded_keeps | apply State.setRing_keeps | apply Keeps.forEach | intro _ _ _ | split

theorem State.loadFeed_keeps (n : Nat) (d : Desc) (l : LoadJob) (data : List Byte) (h₀ : Keeps r₀ s) : Keeps r₀ (State.loadFeed s n d l data) := by
  unfold State.loadFeed
  dsimp only
  with_reducible repeat' first
    | assumption | apply Keeps.ite | apply State.finishDesc_keeps | apply State.loadDone_keeps | apply State.loadTake_keeps | apply State.setRing_keeps

theorem State.storeWrite_keeps (o : Nat) (bs : List Byte) (k : Nat) (h₀ : Keeps r₀ s) : Keeps r₀ (s.storeWrite o bs k).1 := by
  induction k generalizing s o bs with
  | zero => exact h₀
  | succ k ih =>
    have h1 := State.writeBar2_keeps o (toW (leN bs 0 4)) 15 h₀
    have h2 := State.writeBar2_keeps (o + 4) (toW (leN bs 4 4)) 15 h1
    unfold State.storeWrite
    dsimp only
    split
    · exact h2
    · exact ih _ _ h2

theorem State.frameTx_keeps (n : Nat) (d : Desc) (data : List Byte) (h₀ : Keeps r₀ s) : Keeps r₀ (State.frameTx s n d data) := by
  unfold State.frameTx
  dsimp only
  with_reducible repeat' first
    | assumption | apply Keeps.ite | apply State.egressRun_keeps | apply State.finishDesc_keeps | apply State.queueFrame_keeps | apply State.setRing_keeps

theorem State.grantBeat_keeps (cs : List Nat) (c : Nat) (h₀ : Keeps r₀ s) : Keeps r₀ (State.grantBeat s cs c) := by
  unfold State.grantBeat
  dsimp only
  with_reducible repeat' first
    | assumption | apply State.bump_keeps | split | apply Keeps.upd

theorem State.arbitrate_keeps (n : Nat) (cs : List Nat) (k : Nat) (h₀ : Keeps r₀ s) : Keeps r₀ (s.arbitrate n cs k).1 := by
  induction k generalizing s cs with
  | zero => exact h₀
  | succ k ih =>
    unfold State.arbitrate
    split
    · exact h₀
    · split
      · exact h₀
      · dsimp only
        split
        · exact ih _ (State.grantBeat_keeps _ _ h₀)
        · exact ih _ (State.grantBeat_keeps _ _ h₀)

theorem State.clearBeats_keeps (n : Nat) (h₀ : Keeps r₀ s) : Keeps r₀ (State.clearBeats s n) := by
  unfold State.clearBeats
  dsimp only
  with_reducible repeat' first
    | assumption | apply Keeps.upd

theorem State.dropLoad_keeps (n : Nat) (h₀ : Keeps r₀ s) : Keeps r₀ (State.dropLoad s n) := by
  unfold State.dropLoad
  dsimp only
  with_reducible repeat' first
    | assumption | apply State.finish_keeps | apply State.setRing_keeps | split

theorem State.directFail_keeps (n : Nat) (code : Nat) (h₀ : Keeps r₀ s) : Keeps r₀ (State.directFail s n code) := by
  unfold State.directFail
  dsimp only
  with_reducible repeat' first
    | assumption | apply Keeps.ite | apply State.irq_keeps | apply State.pb_keeps | apply State.pf_keeps

theorem State.writeRingCfg_keeps (n : Nat) (w : Word) (h₀ : Keeps r₀ s) : Keeps r₀ (State.writeRingCfg s n w) := by
  unfold State.writeRingCfg
  dsimp only
  with_reducible repeat' first
    | assumption | apply Keeps.ite | apply Keeps.wr | apply State.directFail_keeps | apply State.dropLoad_keeps | apply State.finishDesc_keeps | apply State.pb_keeps | apply State.pf_keeps | apply State.poke_keeps | apply State.ringOff_keeps | apply State.setRing_keeps | apply State.setRingState_keeps | split

theorem State.writeRingBase_keeps (n : Nat) (a : Nat) (w : Word) (h₀ : Keeps r₀ s) : Keeps r₀ (State.writeRingBase s n a w) := by
  unfold State.writeRingBase
  with_reducible repeat' first
    | assumption | apply Keeps.ite | apply State.pb_keeps | apply State.poke_keeps

theorem execRingEnable_keeps (n : Nat) (w : Word) (h₀ : Keeps r₀ s) : KeepsOut r₀ (execRingEnable n w s) := by
  unfold execRingEnable
  with_reducible repeat' first
    | assumption | apply KeepsOut.next | apply Keeps.ite | apply State.forwardLocks_keeps | apply State.writeRingCfg_keeps

theorem execRingDisable_keeps (n : Nat) (w : Word) (h₀ : Keeps r₀ s) : KeepsOut r₀ (execRingDisable n w s) := by
  unfold execRingDisable
  with_reducible repeat' first
    | assumption | apply KeepsOut.next | apply Keeps.ite | apply State.forwardLocks_keeps | apply State.writeRingCfg_keeps

theorem State.abortDesc_keeps (n : Nat) (h₀ : Keeps r₀ s) : Keeps r₀ (State.abortDesc s n) := by
  unfold State.abortDesc
  dsimp only
  with_reducible repeat' first
    | assumption | apply Keeps.ite | apply State.finishDesc_keeps | apply State.finishItem_keeps | split

theorem execRingDrain_keeps (n : Nat) (h₀ : Keeps r₀ s) : KeepsOut r₀ (execRingDrain n s) := by
  unfold execRingDrain
  with_reducible repeat' first
    | assumption | apply KeepsOut.next | apply Keeps.ite | apply State.abortDesc_keeps | apply State.forwardLocks_keeps

theorem State.doorbell_keeps (n : Nat) (h₀ : Keeps r₀ s) : Keeps r₀ (State.doorbell s n) := by
  unfold State.doorbell
  dsimp only
  with_reducible repeat' first
    | assumption | apply Keeps.ite | apply State.bump_keeps | apply State.pb_keeps | apply State.setRing_keeps | apply State.setRingState_keeps | split

theorem execRingDbWrite_keeps (n : Nat) (h₀ : Keeps r₀ s) : KeepsOut r₀ (execRingDbWrite n s) := by
  unfold execRingDbWrite
  with_reducible repeat' first
    | assumption | apply KeepsOut.next | apply Keeps.ite | apply State.doorbell_keeps

theorem State.fetchError_keeps (n : Nat) (h₀ : Keeps r₀ s) : Keeps r₀ (State.fetchError s n) := by
  unfold State.fetchError
  dsimp only
  with_reducible repeat' first
    | assumption | apply Keeps.ite | apply State.irq_keeps | apply State.pb_keeps | apply State.setRing_keeps | apply State.setRingState_keeps

theorem execDescFetch_keeps (n : Nat) (words : List Word) (err : Bool) (h₀ : Keeps r₀ s) : KeepsOut r₀ (execDescFetch n words err s) := by
  unfold execDescFetch
  dsimp only
  with_reducible repeat' first
    | assumption | apply KeepsOut.next | apply Keeps.ite | apply Keeps.wr | apply State.bump_keeps | apply State.clearBeats_keeps | apply State.fetchError_keeps | apply State.forwardLocks_keeps | apply State.pb_keeps | apply State.ringStop_keeps | apply State.setRing_keeps | apply State.setRingState_keeps

theorem State.hostBound_keeps (n : Nat) (d : Desc) (err : Bool) (h₀ : Keeps r₀ s) : Keeps r₀ (State.hostBound s n d err) := by
  unfold State.hostBound
  dsimp only
  with_reducible repeat' first
    | assumption | apply Keeps.ite | apply State.finishDesc_keeps | apply State.finishItem_keeps | apply State.hostWrite_keeps | split

theorem State.moveDesc_keeps (n : Nat) (d : Desc) (data : List Byte) (err : Bool) (h₀ : Keeps r₀ s) : Keeps r₀ (State.moveDesc s n d data err) := by
  unfold State.moveDesc
  dsimp only
  with_reducible repeat' first
    | assumption | apply Keeps.ite | apply State.finishDesc_keeps | apply State.frameTx_keeps | apply State.hostWrite_keeps | apply State.loadFeed_keeps | apply State.offAccess_keeps | apply State.storeWrite_keeps | split

theorem State.finishMove_keeps (n : Nat) (data : List Byte) (err : Bool) (h₀ : Keeps r₀ s) : Keeps r₀ (State.finishMove s n data err) := by
  unfold State.finishMove
  dsimp only
  with_reducible repeat' first
    | assumption | apply Keeps.ite | apply State.clearBeats_keeps | apply State.forwardLocks_keeps | apply State.hostBound_keeps | apply State.moveDesc_keeps | split

theorem State.takeBeats_keeps (n : Nat) (h₀ : Keeps r₀ s) : Keeps r₀ (State.takeBeats s n) := by
  unfold State.takeBeats
  dsimp only
  with_reducible repeat' first
    | assumption | apply Keeps.ite | apply State.arbitrate_keeps | apply State.finishMove_keeps | apply Keeps.forEach | intro _ _ _

theorem execDescFinish_keeps (n : Nat) (data : List Byte) (err : Bool) (h₀ : Keeps r₀ s) : KeepsOut r₀ (execDescFinish n data err s) := by
  unfold execDescFinish
  with_reducible repeat' first
    | assumption | apply KeepsOut.next | apply Keeps.ite | apply State.finishMove_keeps | apply State.takeBeats_keeps

theorem execReadCompletionTimeout_keeps (n : Nat) (h₀ : Keeps r₀ s) : KeepsOut r₀ (execReadCompletionTimeout n s) := by
  unfold execReadCompletionTimeout
  with_reducible repeat' first
    | assumption | apply KeepsOut.next | apply Keeps.ite | apply State.directFail_keeps | apply State.fetchError_keeps | apply State.finishDesc_keeps | apply State.forwardLocks_keeps | split

theorem State.loadShadow_keeps (n : Nat) (h₀ : Keeps r₀ s) : Keeps r₀ (State.loadShadow s n) := by
  unfold State.loadShadow
  dsimp only
  with_reducible repeat' first
    | assumption | apply Keeps.wr | apply State.pb_keeps | apply State.pf_keeps

theorem State.startDirect_keeps (n : Nat) (h₀ : Keeps r₀ s) : Keeps r₀ (State.startDirect s n) := by
  unfold State.startDirect
  dsimp only
  with_reducible repeat' first
    | assumption | apply Keeps.ite | apply State.clearBeats_keeps | apply State.directFail_keeps | apply State.pf_keeps | apply Keeps.upd

theorem State.directCommit_keeps (n : Nat) (w : Word) (h₀ : Keeps r₀ s) : Keeps r₀ (State.directCommit s n w) := by
  unfold State.directCommit
  dsimp only
  with_reducible repeat' first
    | assumption | apply Keeps.ite | apply State.bump_keeps | apply State.loadShadow_keeps | apply State.pb_keeps | apply State.pf_keeps | apply State.startDirect_keeps

theorem execDmaShCommitWrite_keeps (n : Nat) (w : Word) (h₀ : Keeps r₀ s) : KeepsOut r₀ (execDmaShCommitWrite n w s) := by
  unfold execDmaShCommitWrite
  with_reducible repeat' first
    | assumption | apply KeepsOut.next | apply Keeps.ite | apply State.directCommit_keeps | apply State.forwardLocks_keeps

theorem execDirectHalfPoint_keeps (n : Nat) (h₀ : Keeps r₀ s) : KeepsOut r₀ (execDirectHalfPoint n s) := by
  unfold execDirectHalfPoint
  dsimp only
  with_reducible repeat' first
    | assumption | apply KeepsOut.next | apply Keeps.ite | apply State.irq_keeps | apply State.pb_keeps | apply Keeps.upd

theorem State.directStop_keeps (n : Nat) (h₀ : Keeps r₀ s) : Keeps r₀ (State.directStop s n) := by
  unfold State.directStop
  with_reducible repeat' first
    | assumption | apply Keeps.ite | apply State.directFail_keeps

theorem execDmaStopWrite_keeps (n : Nat) (h₀ : Keeps r₀ s) : KeepsOut r₀ (execDmaStopWrite n s) := by
  unfold execDmaStopWrite
  with_reducible repeat' first
    | assumption | apply KeepsOut.next | apply Keeps.ite | apply State.directStop_keeps | apply State.forwardLocks_keeps

end Sys2Proof.Machine
end

