-- ==== Sys2Proof/Laws/KeepsReset.lean ====
section
/-!
SUPPORT. What the operations of Sys2Proof/Machine/Reset.lean keep.
-/
set_option linter.unusedTactic false
set_option linter.unreachableTactic false

namespace Sys2Proof.Machine

variable {r₀ s : State}

theorem State.h2dReset_keeps (m : Nat) (h₀ : Keeps r₀ s) : Keeps r₀ (State.h2dReset s m) := by
  unfold State.h2dReset
  dsimp only
  with_reducible repeat' first
    | assumption | apply Keeps.ite | apply State.bumpBy_keeps | apply State.mbEvt_keeps | apply State.pf_keeps | apply State.setMbox_keeps

theorem State.d2hReset_keeps (m : Nat) (h₀ : Keeps r₀ s) : Keeps r₀ (State.d2hReset s m) := by
  unfold State.d2hReset
  dsimp only
  with_reducible repeat' first
    | assumption | apply Keeps.ite | apply State.bumpBy_keeps | apply State.bumpSatF_keeps | apply State.hubEvent_keeps | apply State.mbEvt_keeps | apply State.setMbox_keeps | apply Keeps.forEach | intro _ _ _

theorem Keeps.anew {t : State} (h₀ : Keeps r₀ s) (hp : t.part = s.part) (hq : t.pending = s.pending)
    (hl : Sparse.wf (resetWord s.part) s.live = true → Sparse.wf (resetWord s.part) t.live = true)
    (hd : t.staged = []) (hm : t.tr.mem = []) : Keeps r₀ t := by
  refine ⟨hp.trans h₀.of.1, hq.trans h₀.of.2.1, fun c => ?_⟩
  rw [hp, hd, hm]
  exact ⟨hl (h₀.of.2.2 c).1, rfl, rfl⟩

theorem State.coldReset_keeps (kind : Nat) (h₀ : Keeps r₀ s) : Keeps r₀ (s.coldReset kind) := by
  unfold State.coldReset
  exact State.pf_keeps _ _ _ _ (State.pf_keeps _ _ _ _ (Keeps.anew h₀ rfl rfl (fun h => Sparse.wf_filter h _) rfl rfl))

theorem State.keepFaults_keeps (h₀ : Keeps r₀ s) : Keeps r₀ (State.keepFaults s) := by
  unfold State.keepFaults
  dsimp only
  with_reducible repeat' first
    | assumption | apply Keeps.ite | apply State.muteFault_keeps | apply State.setAvail_keeps | apply Keeps.forEach | intro _ _ _

theorem State.resetEntry_keeps (h₀ : Keeps r₀ s) : Keeps r₀ (State.resetEntry s) := by
  unfold State.resetEntry
  dsimp only
  with_reducible repeat' first
    | assumption | apply State.abortDesc_keeps | apply State.latchRow_keeps | apply State.muteForce_keeps | apply State.setTx_keeps | apply Keeps.forEach | intro _ _ _

theorem State.keptLive_wf (s : State) : Sparse.wf (resetWord s.part) s.keptLive = true := by
  unfold State.keptLive
  have step : ∀ (l : Sparse Word) (f : Sparse Word → Nat × Word → Sparse Word),
      (∀ m x, Sparse.wf (resetWord s.part) m = true → Sparse.wf (resetWord s.part) (f m x) = true) →
      ∀ m, Sparse.wf (resetWord s.part) m = true → Sparse.wf (resetWord s.part) (l.foldl f m) = true := by
    intro l f hf
    induction l with
    | nil => exact fun m h => h
    | cons x l ih => exact fun m h => ih _ (hf m x h)
  refine step _ _ (fun m x h => ?_) [] rfl
  dsimp only
  split
  · exact Sparse.wf_set h _ _
  · exact h

theorem State.warmKept_keeps (faultN : Bool) (h₀ : Keeps r₀ s) : Keeps r₀ (s.warmKept faultN) :=
  Keeps.anew h₀ rfl rfl (fun _ => State.keptLive_wf _) rfl rfl

theorem State.warmReset_keeps (cause : Nat) (kind : Nat) (h₀ : Keeps r₀ s) : Keeps r₀ (State.warmReset s cause kind) := by
  unfold State.warmReset
  dsimp only
  with_reducible repeat' first
    | assumption | apply Keeps.ite | apply Keeps.wr | apply State.h2dReset_keeps | apply State.keepFaults_keeps | apply State.pb_keeps | apply State.pf_keeps | apply State.resetEntry_keeps | apply State.warmKept_keeps | apply Keeps.forEach | intro _ _ _

theorem State.hubRestart_keeps (kind : Nat) (h₀ : Keeps r₀ s) : Keeps r₀ (State.hubRestart s kind) := by
  unfold State.hubRestart
  with_reducible repeat' first
    | assumption | apply State.bumpSatF_keeps | apply State.warmReset_keeps

theorem State.hubFault_keeps (cause : Nat) (chk : Nat) (unit : Nat) (h₀ : Keeps r₀ s) : Keeps r₀ (State.hubFault s cause chk unit) := by
  unfold State.hubFault
  dsimp only
  with_reducible repeat' first
    | assumption | apply Keeps.ite | apply Keeps.wr | apply State.bump_keeps | apply State.cellarWrite_keeps | apply State.faultSum_keeps | apply State.hubRestart_keeps | apply Keeps.upd

theorem execPowerOn_keeps (h₀ : Keeps r₀ s) : KeepsOut r₀ (execPowerOn s) := by
  unfold execPowerOn
  with_reducible repeat' first
    | assumption | apply KeepsOut.next | apply Keeps.ite | apply State.coldReset_keeps

theorem execRstNLow_keeps (ns : Nat) (h₀ : Keeps r₀ s) : KeepsOut r₀ (execRstNLow ns s) := by
  unfold execRstNLow
  with_reducible repeat' first
    | assumption | apply KeepsOut.next | apply Keeps.ite | apply State.coldReset_keeps | apply State.warmReset_keeps

theorem execWatchdogTimeout_keeps (h₀ : Keeps r₀ s) : KeepsOut r₀ (execWatchdogTimeout s) := by
  unfold execWatchdogTimeout
  with_reducible repeat' first
    | assumption | apply KeepsOut.next | apply Keeps.ite | apply State.hubRestart_keeps

theorem execHubRestartWindowExpiry_keeps (h₀ : Keeps r₀ s) : KeepsOut r₀ (execHubRestartWindowExpiry s) := by
  unfold execHubRestartWindowExpiry
  with_reducible repeat' first
    | assumption | apply KeepsOut.next | apply State.pf_keeps

theorem execSupplyRemoval_keeps (h₀ : Keeps r₀ s) : KeepsOut r₀ (execSupplyRemoval s) := by
  unfold execSupplyRemoval
  with_reducible repeat' first
    | assumption | apply KeepsOut.next | apply Keeps.wr | apply State.coldReset_keeps

theorem State.pcieReset_keeps (h₀ : Keeps r₀ s) : Keeps r₀ (State.pcieReset s) := by
  unfold State.pcieReset
  dsimp only
  with_reducible repeat' first
    | assumption | apply Keeps.ite | apply State.directStop_keeps | apply State.writeRingCfg_keeps | apply Keeps.forEach | intro _ _ _

theorem execPerstNAssert_keeps (h₀ : Keeps r₀ s) : KeepsOut r₀ (execPerstNAssert s) := by
  unfold execPerstNAssert
  dsimp only
  with_reducible repeat' first
    | assumption | apply KeepsOut.next | apply State.pcieReset_keeps | apply Keeps.upd

theorem execPerstNRelease_keeps (h₀ : Keeps r₀ s) : KeepsOut r₀ (execPerstNRelease s) := by
  unfold execPerstNRelease
  dsimp only
  with_reducible repeat' first
    | assumption | apply KeepsOut.next | apply Keeps.upd

theorem execFunctionLevelReset_keeps (h₀ : Keeps r₀ s) : KeepsOut r₀ (execFunctionLevelReset s) := by
  unfold execFunctionLevelReset
  with_reducible repeat' first
    | assumption | apply KeepsOut.next | apply Keeps.ite | apply State.d2hReset_keeps | apply State.h2dReset_keeps | apply State.pcieReset_keeps | apply Keeps.forEach | intro _ _ _

theorem execThermalShutdown_keeps (cut : Bool) (h₀ : Keeps r₀ s) : KeepsOut r₀ (execThermalShutdown cut s) := by
  unfold execThermalShutdown
  dsimp only
  with_reducible repeat' first
    | assumption | apply KeepsOut.next | apply Keeps.ite | apply Keeps.wr | apply State.bump_keeps | apply State.bumpBy_keeps | apply State.cellarWrite_keeps | apply State.h2dReset_keeps | apply State.latchRow_keeps | apply State.muteForce_keeps | apply State.pb_keeps | apply State.setDom_keeps | apply State.setLinkState_keeps | apply State.setTileState_keeps | apply State.setTx_keeps | apply State.wrPair_keeps | apply Keeps.forEach | intro _ _ _ | split | apply Keeps.upd

theorem execThermalRestart_keeps (h₀ : Keeps r₀ s) : KeepsOut r₀ (execThermalRestart s) := by
  unfold execThermalRestart
  dsimp only
  with_reducible repeat' first
    | assumption | apply KeepsOut.next | apply Keeps.ite | apply State.advanceTo_keeps | apply State.bump_keeps | apply State.thEvt_keeps | apply State.warmReset_keeps | split | apply Keeps.upd

theorem State.mount_keeps (headers : Bool) (torn : Nat) (h₀ : Keeps r₀ s) : Keeps r₀ (State.mount s headers torn) := by
  unfold State.mount
  dsimp only
  with_reducible repeat' first
    | assumption | apply Keeps.ite | apply Keeps.wr | apply State.pf_keeps | apply State.showCel_keeps | apply State.wrPair_keeps | apply Keeps.forEach | intro _ _ _ | apply Keeps.upd

theorem State.firmwareStart_keeps (version : Word) (sramOk : Bool) (h₀ : Keeps r₀ s) : Keeps r₀ (State.firmwareStart s version sramOk) := by
  unfold State.firmwareStart
  dsimp only
  with_reducible repeat' first
    | assumption | apply Keeps.ite | apply Keeps.wr | apply State.bump_keeps | apply State.faultRecord_keeps | apply State.hubEvent_keeps | apply State.notify_keeps | apply State.orderRecord_keeps | apply State.pb_keeps | apply State.pf_keeps | apply Keeps.forEach | intro _ _ _ | split | apply Keeps.upd

theorem State.bootEnd_keeps (dev : Nat) (cause : Nat) (h₀ : Keeps r₀ s) : Keeps r₀ (State.bootEnd s dev cause) := by
  unfold State.bootEnd
  dsimp only
  with_reducible repeat' first
    | assumption | apply State.enterState_keeps | apply State.faultOut_keeps | apply Keeps.upd

theorem State.hubOff_keeps (h₀ : Keeps r₀ s) : Keeps r₀ (State.hubOff s) := by
  unfold State.hubOff
  dsimp only
  with_reducible repeat' first
    | assumption | apply State.setDom_keeps | apply State.setLinkState_keeps | apply State.setTileState_keeps | apply Keeps.forEach | intro _ _ _ | apply Keeps.upd

theorem State.recovery_keeps (sramOk : Bool) (dev : Nat) (cause : Nat) (h₀ : Keeps r₀ s) : Keeps r₀ (State.recovery s sramOk dev cause) := by
  unfold State.recovery
  dsimp only
  with_reducible repeat' first
    | assumption | apply State.bootEnd_keeps | apply State.firmwareStart_keeps | apply State.hubOff_keeps | apply State.pb_keeps | apply Keeps.upd

theorem State.bootTile_keeps (t : Nat) (bad : Bool) (h₀ : Keeps r₀ s) : Keeps r₀ (State.bootTile s t bad) := by
  unfold State.bootTile
  dsimp only
  with_reducible repeat' first
    | assumption | apply Keeps.ite | apply State.bump_keeps | apply State.hubEvent_keeps | apply State.pb_keeps | apply State.pf_keeps | apply State.pwEvt_keeps | apply State.setAdc_keeps | apply State.setDom_keeps | apply State.setLinkState_keeps | apply State.setLnk_keeps | apply State.setTileState_keeps | apply Keeps.forEach | intro _ _ _ | apply Keeps.upd

theorem State.stageSets_keeps (h₀ : Keeps r₀ s) : Keeps r₀ (State.stageSets s) := by
  unfold State.stageSets
  dsimp only
  with_reducible repeat' first
    | assumption | apply State.stage_keeps | apply Keeps.forEach | intro _ _ _

theorem State.bringUp_keeps (badTiles : Nat) (h₀ : Keeps r₀ s) : Keeps r₀ (State.bringUp s badTiles) := by
  unfold State.bringUp
  dsimp only
  with_reducible repeat' first
    | assumption | apply State.bootTile_keeps | apply State.calStage_keeps | apply State.installKernel_keeps | apply State.setDom_keeps | apply State.stageSets_keeps | apply State.startTrain_keeps | apply Keeps.forEach | intro _ _ _ | split | apply Keeps.upd

theorem State.tryBank_keeps (b : Nat) (h₀ : Keeps r₀ s) : Keeps r₀ (State.tryBank s b).1 := by
  unfold State.tryBank
  dsimp only
  with_reducible repeat' first
    | assumption | apply Keeps.ite | apply State.lastVer_keeps | apply State.pf_keeps

theorem State.findImage_keeps (h₀ : Keeps r₀ s) : Keeps r₀ (State.findImage s).1 := by
  unfold State.findImage
  dsimp only
  with_reducible repeat' first
    | assumption | apply State.lastVer_keeps | apply State.tryBank_keeps | split

theorem execBoot_keeps (sel : Nat) (headers : Bool) (torn : Nat) (version : Word) (hubOk : Bool) (badTiles : Nat) (sramOk : Bool) (h₀ : Keeps r₀ s) : KeepsOut r₀ (execBoot sel headers torn version hubOk badTiles sramOk s) := by
  unfold execBoot
  dsimp only
  with_reducible repeat' first
    | assumption | apply KeepsOut.next | apply Keeps.ite | apply State.bootEnd_keeps | apply State.bringUp_keeps | apply State.findImage_keeps | apply State.firmwareStart_keeps | apply State.hubOff_keeps | apply State.mount_keeps | apply State.pf_keeps | apply State.recovery_keeps | split | apply Keeps.upd

end Sys2Proof.Machine
end

