-- ==== Sys2Proof/Laws/KeepsHost.lean ====
section
/-!
SUPPORT. What the operations of Sys2Proof/Machine/Host.lean keep.
-/
set_option linter.unusedTactic false
set_option linter.unreachableTactic false

namespace Sys2Proof.Machine

variable {r₀ s : State}

theorem State.pushWord_keeps (m : Nat) (w : Word) (h₀ : Keeps r₀ s) : Keeps r₀ (State.pushWord s m w) := by
  unfold State.pushWord
  dsimp only
  with_reducible repeat' first
    | assumption | apply Keeps.ite | apply State.mbEvt_keeps | apply State.pf_keeps | apply State.setMbox_keeps

theorem State.publish_keeps (m : Nat) (h₀ : Keeps r₀ s) : Keeps r₀ (State.publish s m) := by
  unfold State.publish
  dsimp only
  with_reducible repeat' first
    | assumption | apply State.setMbox_keeps

theorem execMbH2dDataWrite_keeps (m : Nat) (w : Word) (h₀ : Keeps r₀ s) : KeepsOut r₀ (execMbH2dDataWrite m w s) := by
  unfold execMbH2dDataWrite
  with_reducible repeat' first
    | assumption | apply KeepsOut.next | apply Keeps.ite | apply State.pushWord_keeps

theorem execMbDbWrite_keeps (m : Nat) (w : Word) (h₀ : Keeps r₀ s) : KeepsOut r₀ (execMbDbWrite m w s) := by
  unfold execMbDbWrite
  with_reducible repeat' first
    | assumption | apply KeepsOut.next | apply Keeps.ite | apply State.publish_keeps

theorem execPacketTimeout_keeps (m : Nat) (h₀ : Keeps r₀ s) : KeepsOut r₀ (execPacketTimeout m s) := by
  unfold execPacketTimeout
  dsimp only
  with_reducible repeat' first
    | assumption | apply KeepsOut.next | apply Keeps.ite | apply State.ackWords_keeps | apply State.advanceTo_keeps | apply State.mbEvt_keeps | apply State.reply_keeps

theorem State.pushReply_keeps (m : Nat) (h₀ : Keeps r₀ s) : Keeps r₀ (State.pushReply s m) := by
  unfold State.pushReply
  dsimp only
  with_reducible repeat' first
    | assumption | apply Keeps.ite | apply State.pushPkt_keeps | apply State.setMbox_keeps | split

theorem State.packetRead_keeps (m : Nat) (p : OutPkt) (h₀ : Keeps r₀ s) : Keeps r₀ (State.packetRead s m p) := by
  unfold State.packetRead
  with_reducible repeat' first
    | assumption | apply Keeps.ite | apply State.warmReset_keeps | split

theorem State.popWord_keeps (m : Nat) (h₀ : Keeps r₀ s) : Keeps r₀ (State.popWord s m).1 := by
  unfold State.popWord
  dsimp only
  with_reducible repeat' first
    | assumption | apply State.mbEvt_keeps | apply State.packetRead_keeps | apply State.pushReply_keeps | apply State.setMbox_keeps | split

theorem execMbD2hDataRead_keeps (m : Nat) (h₀ : Keeps r₀ s) : KeepsOut r₀ (execMbD2hDataRead m s) := by
  unfold execMbD2hDataRead
  with_reducible repeat' first
    | assumption | apply KeepsOut.next | apply Keeps.ite | apply State.answer_keeps | apply State.popWord_keeps

theorem execD2hRstWrite_keeps (m : Nat) (h₀ : Keeps r₀ s) : KeepsOut r₀ (execD2hRstWrite m s) := by
  unfold execD2hRstWrite
  with_reducible repeat' first
    | assumption | apply KeepsOut.next | apply Keeps.ite | apply State.d2hReset_keeps | apply State.pushReply_keeps

theorem execMbLostRead_keeps (m : Nat) (h₀ : Keeps r₀ s) : KeepsOut r₀ (execMbLostRead m s) := by
  unfold execMbLostRead
  with_reducible repeat' first
    | assumption | apply KeepsOut.next | apply Keeps.ite | apply Keeps.wr | apply State.answer_keeps

theorem State.sendMbox_keeps (m : Nat) (h₀ : Keeps r₀ s) : Keeps r₀ (State.sendMbox s m) := by
  unfold State.sendMbox
  dsimp only
  with_reducible repeat' first
    | assumption | apply Keeps.ite | apply State.sendMsg_keeps | apply State.setMbox_keeps | apply Keeps.foldl | intro _ _ _

theorem execNoticePush_keeps (m : Nat) (h₀ : Keeps r₀ s) : KeepsOut r₀ (execNoticePush m s) := by
  unfold execNoticePush
  dsimp only
  with_reducible repeat' first
    | assumption | apply KeepsOut.next | apply Keeps.ite | apply State.pushPkt_keeps | apply State.pushReply_keeps | apply State.sendMbox_keeps | apply State.setMbox_keeps | split

theorem execMboxMessage_keeps (k : Nat) (ws : List Word) (h₀ : Keeps r₀ s) : KeepsOut r₀ (execMboxMessage k ws s) := by
  unfold execMboxMessage
  with_reducible repeat' first
    | assumption | apply KeepsOut.next | apply Keeps.ite | apply State.popMsg_keeps | apply State.publish_keeps | apply State.pushWord_keeps | apply Keeps.forEach | intro _ _ _

theorem execSpiWriteWords_keeps (ws : List Word) (h₀ : Keeps r₀ s) : KeepsOut r₀ (execSpiWriteWords ws s) := by
  unfold execSpiWriteWords
  with_reducible repeat' first
    | assumption | apply KeepsOut.next | apply Keeps.ite | apply State.publish_keeps | apply State.pushWord_keeps | apply Keeps.forEach | intro _ _ _

theorem execSpiReadWords_keeps (n : Nat) (h₀ : Keeps r₀ s) : KeepsOut r₀ (execSpiReadWords n s) := by
  unfold execSpiReadWords
  dsimp only
  with_reducible repeat' first
    | assumption | apply KeepsOut.next | apply Keeps.ite | apply State.popWord_keeps | apply Keeps.foldlFst | intro _ _ _ | apply Keeps.upd

theorem execSpiReadStatus_keeps (h₀ : Keeps r₀ s) : KeepsOut r₀ (execSpiReadStatus s) := by
  unfold execSpiReadStatus
  dsimp only
  with_reducible repeat' first
    | assumption | apply KeepsOut.next | apply Keeps.ite | apply Keeps.upd

theorem execSpiWriteLoadBytes_keeps (ws : List Word) (h₀ : Keeps r₀ s) : KeepsOut r₀ (execSpiWriteLoadBytes ws s) := by
  unfold execSpiWriteLoadBytes
  dsimp only
  with_reducible repeat' first
    | assumption | apply KeepsOut.next | apply Keeps.ite | apply State.mbEvt_keeps | apply State.spiLoad_keeps | apply Keeps.upd

theorem State.refuseOp_keeps (op : Nat) (p : Pkt) (status : Nat) (res : List Word) (h₀ : Keeps r₀ s) : Keeps r₀ (State.refuseOp s op p status res) := by
  unfold State.refuseOp
  with_reducible repeat' first
    | assumption | apply Keeps.ite | apply State.ackWords_keeps | apply State.mbEvt_keeps | apply State.pf_keeps | apply State.reply_keeps | apply State.takeCmd_keeps

theorem execUndefinedOpcode_keeps (op : Nat) (p : Pkt) (h₀ : Keeps r₀ s) : KeepsOut r₀ (execUndefinedOpcode op p s) := by
  unfold execUndefinedOpcode
  with_reducible repeat' first
    | assumption | apply KeepsOut.next | apply Keeps.ite | apply State.refuseOp_keeps

theorem execTestDebugCmd_keeps (op : Nat) (p : Pkt) (h₀ : Keeps r₀ s) : KeepsOut r₀ (execTestDebugCmd op p s) := by
  unfold execTestDebugCmd
  with_reducible repeat' first
    | assumption | apply KeepsOut.next | apply Keeps.ite | apply State.refuseOp_keeps

theorem execSysNop_keeps (p : Pkt) (h₀ : Keeps r₀ s) : KeepsOut r₀ (execSysNop p s) := by
  unfold execSysNop
  with_reducible repeat' first
    | assumption | apply KeepsOut.next | apply State.command_keeps | intro _ _

theorem execSysInfo_keeps (p : Pkt) (h₀ : Keeps r₀ s) : KeepsOut r₀ (execSysInfo p s) := by
  unfold execSysInfo
  with_reducible repeat' first
    | assumption | apply KeepsOut.next | apply State.command_keeps | intro _ _

theorem execSysStateGet_keeps (p : Pkt) (h₀ : Keeps r₀ s) : KeepsOut r₀ (execSysStateGet p s) := by
  unfold execSysStateGet
  with_reducible repeat' first
    | assumption | apply KeepsOut.next | apply State.command_keeps | intro _ _

theorem execSysStateSet_keeps (p : Pkt) (h₀ : Keeps r₀ s) : KeepsOut r₀ (execSysStateSet p s) := by
  unfold execSysStateSet
  dsimp only
  with_reducible repeat' first
    | assumption | apply KeepsOut.next | apply State.enterState_keeps | apply State.command_keeps | intro _ _ | split

theorem execSysRestart_keeps (p : Pkt) (h₀ : Keeps r₀ s) : KeepsOut r₀ (execSysRestart p s) := by
  unfold execSysRestart
  dsimp only
  with_reducible repeat' first
    | assumption | apply KeepsOut.next | apply State.command_keeps | intro _ _ | dsimp only | apply Keeps.upd

theorem execSysRestartExpiry_keeps (h₀ : Keeps r₀ s) : KeepsOut r₀ (execSysRestartExpiry s) := by
  unfold execSysRestartExpiry
  with_reducible repeat' first
    | assumption | apply KeepsOut.next | apply State.advanceTo_keeps | apply State.warmReset_keeps | split

theorem execSysEventCfg_keeps (p : Pkt) (h₀ : Keeps r₀ s) : KeepsOut r₀ (execSysEventCfg p s) := by
  unfold execSysEventCfg
  dsimp only
  with_reducible repeat' first
    | assumption | apply KeepsOut.next | apply State.setMbox_keeps | apply State.command_keeps | intro _ _

end Sys2Proof.Machine
end

