-- ==== Sys2Proof/Laws/KeepsSelvedge.lean ====
section
/-!
SUPPORT. What the operations of Sys2Proof/Machine/Selvedge.lean keep.
-/
set_option linter.unusedTactic false
set_option linter.unreachableTactic false

namespace Sys2Proof.Machine

variable {r₀ s : State}

theorem State.declareChk_keeps (key : Nat) (h₀ : Keeps r₀ s) : Keeps r₀ (State.declareChk s key) := by
  unfold State.declareChk
  dsimp only
  with_reducible repeat' first
    | assumption | apply Keeps.ite | apply State.declareFault_keeps

theorem execCheckIntervalEnd_keeps (seen : List CheckSeen) (h₀ : Keeps r₀ s) : KeepsOut r₀ (execCheckIntervalEnd seen s) := by
  unfold execCheckIntervalEnd
  dsimp only
  with_reducible repeat' first
    | assumption | apply KeepsOut.next | apply Keeps.ite | apply State.advanceTo_keeps | apply State.countCheck_keeps | apply State.declareChk_keeps | apply State.hubFault_keeps | apply Keeps.forEach | intro _ _ _ | split | apply Keeps.upd

theorem execSpineFault_keeps (q : Nat) (h₀ : Keeps r₀ s) : KeepsOut r₀ (execSpineFault q s) := by
  unfold execSpineFault
  with_reducible repeat' first
    | assumption | apply KeepsOut.next | apply Keeps.ite | apply State.declareFault_keeps

theorem State.mendBus_keeps (r : Nat) (h₀ : Keeps r₀ s) : Keeps r₀ (State.mendBus s r) := by
  unfold State.mendBus
  dsimp only
  with_reducible repeat' first
    | assumption | apply State.pb_keeps | apply State.setRow_keeps

theorem execSelfTestDone_keeps (kind : Nat) (unit : Nat) (pass : Bool) (h₀ : Keeps r₀ s) : KeepsOut r₀ (execSelfTestDone kind unit pass s) := by
  unfold execSelfTestDone
  dsimp only
  with_reducible repeat' first
    | assumption | apply KeepsOut.next | apply Keeps.ite | apply State.finish_keeps | apply State.mendBus_keeps | apply State.repairUnit_keeps | apply Keeps.when | intro _ _ | split | apply Keeps.upd

theorem State.startInject_keeps (ref : Option CmdRef) (h₀ : Keeps r₀ s) : Keeps r₀ (State.startInject s ref) := by
  unfold State.startInject
  dsimp only
  with_reducible repeat' first
    | assumption | apply State.pb_keeps | apply Keeps.upd

theorem State.writeSvInject_keeps (w : Word) (h₀ : Keeps r₀ s) : Keeps r₀ (State.writeSvInject s w) := by
  unfold State.writeSvInject
  dsimp only
  with_reducible repeat' first
    | assumption | apply Keeps.ite | apply Keeps.wr | apply State.pb_keeps | apply State.startInject_keeps

theorem execSvInjectGo_keeps (w : Word) (h₀ : Keeps r₀ s) : KeepsOut r₀ (execSvInjectGo w s) := by
  unfold execSvInjectGo
  with_reducible repeat' first
    | assumption | apply KeepsOut.next | apply State.access_keeps | apply State.writeSvInject_keeps | intro _ _

theorem execInjectionDone_keeps (h₀ : Keeps r₀ s) : KeepsOut r₀ (execInjectionDone s) := by
  unfold execInjectionDone
  with_reducible repeat' first
    | assumption | apply KeepsOut.next | apply State.injectCount_keeps | split

theorem State.clearSum_keeps (mask : Nat) (h₀ : Keeps r₀ s) : Keeps r₀ (State.clearSum s mask) := by
  unfold State.clearSum
  dsimp only
  with_reducible repeat' first
    | assumption | apply State.faultOut_keeps | apply State.pf_keeps

theorem execSvStatus_keeps (p : Pkt) (h₀ : Keeps r₀ s) : KeepsOut r₀ (execSvStatus p s) := by
  unfold execSvStatus
  with_reducible repeat' first
    | assumption | apply KeepsOut.next | apply State.command_keeps | intro _ _

theorem execSvRepair_keeps (p : Pkt) (h₀ : Keeps r₀ s) : KeepsOut r₀ (execSvRepair p s) := by
  unfold execSvRepair
  dsimp only
  with_reducible repeat' first
    | assumption | apply KeepsOut.next | apply State.command_keeps | intro _ _ | split | dsimp only | apply Keeps.upd

theorem execSvDeclare_keeps (p : Pkt) (h₀ : Keeps r₀ s) : KeepsOut r₀ (execSvDeclare p s) := by
  unfold execSvDeclare
  dsimp only
  with_reducible repeat' first
    | assumption | apply KeepsOut.next | apply State.declareFault_keeps | apply State.command_keeps | intro _ _

theorem execSvInject_keeps (p : Pkt) (h₀ : Keeps r₀ s) : KeepsOut r₀ (execSvInject p s) := by
  unfold execSvInject
  dsimp only
  with_reducible repeat' first
    | assumption | apply KeepsOut.next | apply Keeps.wr | apply State.startInject_keeps | apply State.command_keeps | intro _ _ | split

theorem execSvClear_keeps (p : Pkt) (h₀ : Keeps r₀ s) : KeepsOut r₀ (execSvClear p s) := by
  unfold execSvClear
  dsimp only
  with_reducible repeat' first
    | assumption | apply KeepsOut.next | apply State.clearSum_keeps | apply State.command_keeps | intro _ _

theorem execPackageLoss_keeps (k : Nat) (h₀ : Keeps r₀ s) : KeepsOut r₀ (execPackageLoss k s) := by
  unfold execPackageLoss
  with_reducible repeat' first
    | assumption | apply KeepsOut.next | apply Keeps.ite | apply State.losePackage_keeps | apply State.upstreamLost_keeps

end Sys2Proof.Machine
end

