-- ==== Sys2Proof/Laws/KeepsCtrl.lean ====
section
/-!
SUPPORT. What the operations of Sys2Proof/Machine/Ctrl.lean keep.
-/
set_option linter.unusedTactic false
set_option linter.unreachableTactic false

namespace Sys2Proof.Machine

variable {r₀ s : State}

theorem State.ctrlAbandon_keeps (w : Word) (h₀ : Keeps r₀ s) : Keeps r₀ (State.ctrlAbandon s w) := by
  unfold State.ctrlAbandon
  dsimp only
  with_reducible repeat' first
    | assumption | apply State.abandonHere_keeps | split | apply Keeps.upd

theorem State.ctrlCopy_keeps (op : Nat) (ws : List Word) (h₀ : Keeps r₀ s) : Keeps r₀ (State.ctrlCopy s op ws) := by
  unfold State.ctrlCopy
  dsimp only
  with_reducible repeat' first
    | assumption | apply Keeps.ite | apply State.cancelJob_keeps | apply State.fireLine_keeps | apply State.orderDeep_keeps | apply State.pb_keeps | apply State.poke_keeps | apply State.schedule_keeps | apply State.stage_keeps | apply State.submitJob_keeps | apply State.writeCalCfg_keeps | apply Keeps.forEach | intro _ _ _ | split

theorem State.ctrlResult_keeps (op : Nat) (ws : List Word) (h₀ : Keeps r₀ s) : Keeps r₀ (State.ctrlResult s op ws) := by
  unfold State.ctrlResult
  dsimp only
  with_reducible repeat' first
    | assumption | apply Keeps.ite | apply Keeps.wr | apply Keeps.swr | apply State.bump_keeps | apply State.pb_keeps | apply Keeps.forEach | intro _ _ _

theorem State.ctrlSection_keeps (x : FwdSec) (h₀ : Keeps r₀ s) : Keeps r₀ (State.ctrlSection s x) := by
  unfold State.ctrlSection
  dsimp only
  with_reducible repeat' first
    | assumption | apply Keeps.ite | apply Keeps.upd

theorem State.ctrlReport_keeps (op : Nat) (ws : List Word) (h₀ : Keeps r₀ s) : Keeps r₀ (State.ctrlReport s op ws) := by
  unfold State.ctrlReport
  dsimp only
  with_reducible repeat' first
    | assumption | apply Keeps.ite | apply State.abandonHere_keeps | apply State.copyDown_keeps | apply State.losePackage_keeps | split | apply Keeps.upd

theorem State.passOn_keeps (dir : Nat) (op : Nat) (ws : List Word) (h₀ : Keeps r₀ s) : Keeps r₀ (State.passOn s dir op ws) := by
  unfold State.passOn
  with_reducible repeat' first
    | assumption | apply State.sendMsg_keeps | split

theorem execCtrlMessage_keeps (k : Nat) (m : CtrlMsg) (h₀ : Keeps r₀ s) : KeepsOut r₀ (execCtrlMessage k m s) := by
  unfold execCtrlMessage
  dsimp only
  with_reducible repeat' first
    | assumption | apply KeepsOut.next | apply Keeps.ite | apply State.ctrlAbandon_keeps | apply State.ctrlCopy_keeps | apply State.ctrlReport_keeps | apply State.ctrlResult_keeps | apply State.ctrlSection_keeps | apply State.hearState_keeps | apply State.passOn_keeps | apply State.passState_keeps | apply State.popMsg_keeps | split | apply Keeps.upd

end Sys2Proof.Machine
end

