-- ==== Sys2Proof/Laws/KeepsReceive.lean ====
section
/-!
SUPPORT. What the operations of Sys2Proof/Machine/Receive.lean keep.
-/
set_option linter.unusedTactic false
set_option linter.unreachableTactic false

namespace Sys2Proof.Machine

variable {r₀ s : State}

theorem State.adcRun_keeps (a : Nat) (h₀ : Keeps r₀ s) : Keeps r₀ (State.adcRun s a) := by
  unfold State.adcRun
  dsimp only
  with_reducible repeat' first
    | assumption | apply State.pf_keeps

theorem State.beginShadow_keeps (a : Nat) (j : Nat) (h₀ : Keeps r₀ s) : Keeps r₀ (State.beginShadow s a j) := by
  unfold State.beginShadow
  dsimp only
  with_reducible repeat' first
    | assumption | apply State.pf_keeps | apply State.setAdc_keeps

theorem State.sliceEvent_keeps (a : Nat) (slice : Nat) (h₀ : Keeps r₀ s) : Keeps r₀ (State.sliceEvent s a slice) := by
  unfold State.sliceEvent
  dsimp only
  with_reducible repeat' first
    | assumption | apply State.tileEvent_keeps

theorem State.markSlice_keeps (a : Nat) (slice : Nat) (h₀ : Keeps r₀ s) : Keeps r₀ (State.markSlice s a slice) := by
  unfold State.markSlice
  dsimp only
  with_reducible repeat' first
    | assumption | apply State.bump_keeps | apply State.pb_keeps | apply State.pf_keeps | apply State.sliceEvent_keeps

theorem State.calReloaded_keeps (t : Nat) (h₀ : Keeps r₀ s) : Keeps r₀ (State.calReloaded s t) := by
  unfold State.calReloaded
  dsimp only
  with_reducible repeat' first
    | assumption | apply Keeps.ite | apply State.blankLeave_keeps | apply State.pb_keeps | apply Keeps.forEach | intro _ _ _

theorem execAdcFgCalDone_keeps (a : Nat) (sets : List (List Int)) (h₀ : Keeps r₀ s) : KeepsOut r₀ (execAdcFgCalDone a sets s) := by
  unfold execAdcFgCalDone
  dsimp only
  with_reducible repeat' first
    | assumption | apply KeepsOut.next | apply Keeps.ite | apply State.adcRun_keeps | apply State.beginShadow_keeps | apply State.bump_keeps | apply State.calReloaded_keeps | apply State.finish_keeps | apply State.pb_keeps | apply State.rxUpdate_keeps | apply State.setAdc_keeps | split

theorem execSpareEstimate_keeps (a : Nat) (est : List Int) (h₀ : Keeps r₀ s) : KeepsOut r₀ (execSpareEstimate a est s) := by
  unfold execSpareEstimate
  dsimp only
  with_reducible repeat' first
    | assumption | apply KeepsOut.next | apply Keeps.ite | apply State.advanceTo_keeps | apply State.setAdc_keeps

theorem State.adcTouch_keeps (a : Nat) (h₀ : Keeps r₀ s) : Keeps r₀ (State.adcTouch s a) := by
  unfold State.adcTouch
  dsimp only
  with_reducible repeat' first
    | assumption | apply Keeps.ite | apply State.setOrx_keeps | split

theorem execSliceHandover_keeps (a : Nat) (h₀ : Keeps r₀ s) : KeepsOut r₀ (execSliceHandover a s) := by
  unfold execSliceHandover
  dsimp only
  with_reducible repeat' first
    | assumption | apply KeepsOut.next | apply Keeps.ite | apply State.adcTouch_keeps | apply State.advanceTo_keeps | apply State.beginShadow_keeps | apply State.bump_keeps | apply State.pb_keeps | apply State.pf_keeps | split

theorem execSpareTimeout_keeps (a : Nat) (h₀ : Keeps r₀ s) : KeepsOut r₀ (execSpareTimeout a s) := by
  unfold execSpareTimeout
  dsimp only
  with_reducible repeat' first
    | assumption | apply KeepsOut.next | apply Keeps.ite | apply State.adcRun_keeps | apply State.advanceTo_keeps | apply State.bump_keeps | apply State.markSlice_keeps | apply State.pf_keeps

theorem execSliceFailure_keeps (a : Nat) (slice : Nat) (check : Nat) (h₀ : Keeps r₀ s) : KeepsOut r₀ (execSliceFailure a slice check s) := by
  unfold execSliceFailure
  dsimp only
  with_reducible repeat' first
    | assumption | apply KeepsOut.next | apply Keeps.ite | apply State.adcRun_keeps | apply State.adcTouch_keeps | apply State.declareFault_keeps | apply State.markSlice_keeps | apply State.pb_keeps | apply State.pf_keeps | apply State.spared_keeps | split | apply Keeps.upd

theorem execSliceRetestDone_keeps (a : Nat) (h₀ : Keeps r₀ s) : KeepsOut r₀ (execSliceRetestDone a s) := by
  unfold execSliceRetestDone
  dsimp only
  with_reducible repeat' first
    | assumption | apply KeepsOut.next | apply Keeps.ite | apply State.adcRun_keeps | apply State.advanceTo_keeps | apply State.beginShadow_keeps | apply State.bump_keeps | apply State.finish_keeps | apply State.pf_keeps | apply State.setAdc_keeps | split

theorem execOverloadEnter_keeps (p : Nat) (adc : List Int) (h₀ : Keeps r₀ s) : KeepsOut r₀ (execOverloadEnter p adc s) := by
  unfold execOverloadEnter
  with_reducible repeat' first
    | assumption | apply KeepsOut.next | apply State.feed_keeps

theorem execOverloadExit_keeps (p : Nat) (adc : List Int) (h₀ : Keeps r₀ s) : KeepsOut r₀ (execOverloadExit p adc s) := by
  unfold execOverloadExit
  dsimp only
  with_reducible repeat' first
    | assumption | apply KeepsOut.next | apply Keeps.ite | apply State.feed_keeps | apply State.leaveOverload_keeps

theorem execDetectorWindowEnd_keeps (p : Nat) (adc : List Int) (h₀ : Keeps r₀ s) : KeepsOut r₀ (execDetectorWindowEnd p adc s) := by
  unfold execDetectorWindowEnd
  dsimp only
  with_reducible repeat' first
    | assumption | apply KeepsOut.next | apply Keeps.ite | apply Keeps.wr | apply State.advanceTo_keeps | apply State.feed_keeps | apply State.setAgc_keeps | apply State.setFeed_keeps | apply Keeps.when | intro _ _

theorem execAgcDecision_keeps (p : Nat) (adc : List Int) (h₀ : Keeps r₀ s) : KeepsOut r₀ (execAgcDecision p adc s) := by
  unfold execAgcDecision
  dsimp only
  with_reducible repeat' first
    | assumption | apply KeepsOut.next | apply Keeps.ite | apply Keeps.wr | apply State.advanceTo_keeps | apply State.bump_keeps | apply State.bumpBy_keeps | apply State.feed_keeps | apply State.pf_keeps | apply State.setAgc_keeps | apply State.setFeed_keeps | apply State.setRow_keeps | apply State.wrPair_keeps | apply Keeps.when | intro _ _

theorem execAgcFrameSend_keeps (r : Nat) (h₀ : Keeps r₀ s) : KeepsOut r₀ (execAgcFrameSend r s) := by
  unfold execAgcFrameSend
  dsimp only
  with_reducible repeat' first
    | assumption | apply KeepsOut.next | apply State.bump_keeps | apply State.bumpBy_keeps | apply State.setRow_keeps | apply State.startFrame_keeps | split

theorem execAgcCompApply_keeps (p : Nat) (h₀ : Keeps r₀ s) : KeepsOut r₀ (execAgcCompApply p s) := by
  unfold execAgcCompApply
  dsimp only
  with_reducible repeat' first
    | assumption | apply KeepsOut.next | apply State.advanceTo_keeps | apply State.pf_keeps | apply State.setAgc_keeps | split

theorem execRxFastRead_keeps (p : Nat) (h₀ : Keeps r₀ s) : KeepsOut r₀ (execRxFastRead p s) := by
  unfold execRxFastRead
  with_reducible repeat' first
    | assumption | apply KeepsOut.next | apply Keeps.wr | apply State.accessRead_keeps | apply State.answer_keeps | intro _ _

theorem State.writeAdcCfg_keeps (a : Nat) (w : Word) (h₀ : Keeps r₀ s) : Keeps r₀ (State.writeAdcCfg s a w) := by
  unfold State.writeAdcCfg
  dsimp only
  with_reducible repeat' first
    | assumption | apply Keeps.ite | apply State.adcRun_keeps | apply State.beginShadow_keeps | apply State.poke_keeps

theorem execRxSet_keeps (p : Pkt) (h₀ : Keeps r₀ s) : KeepsOut r₀ (execRxSet p s) := by
  unfold execRxSet
  with_reducible repeat' first
    | assumption | apply KeepsOut.next | apply State.onPaths_keeps | apply State.stage_keeps | apply State.command_keeps | intro _ _

theorem execRxNco_keeps (p : Pkt) (h₀ : Keeps r₀ s) : KeepsOut r₀ (execRxNco p s) := by
  unfold execRxNco
  with_reducible repeat' first
    | assumption | apply KeepsOut.next | apply State.onPaths_keeps | apply State.stage_keeps | apply Keeps.forEach | apply State.command_keeps | intro _ _ _ | intro _ _

theorem execRxEnable_keeps (p : Pkt) (h₀ : Keeps r₀ s) : KeepsOut r₀ (execRxEnable p s) := by
  unfold execRxEnable
  with_reducible repeat' first
    | assumption | apply KeepsOut.next | apply State.onPaths_keeps | apply State.poke_keeps | apply Keeps.forEach | apply State.command_keeps | intro _ _ _ | intro _ _

theorem execRxAgcSet_keeps (p : Pkt) (h₀ : Keeps r₀ s) : KeepsOut r₀ (execRxAgcSet p s) := by
  unfold execRxAgcSet
  with_reducible repeat' first
    | assumption | apply KeepsOut.next | apply State.onPaths_keeps | apply State.poke_keeps | apply Keeps.forEach | apply State.command_keeps | intro _ _ _ | intro _ _

theorem execRxAgcTab_keeps (p : Pkt) (h₀ : Keeps r₀ s) : KeepsOut r₀ (execRxAgcTab p s) := by
  unfold execRxAgcTab
  dsimp only
  with_reducible repeat' first
    | assumption | apply KeepsOut.next | apply State.onPaths_keeps | apply State.poke_keeps | apply Keeps.forEach | apply State.command_keeps | intro _ _ _ | intro _ _

theorem execRxDetect_keeps (p : Pkt) (h₀ : Keeps r₀ s) : KeepsOut r₀ (execRxDetect p s) := by
  unfold execRxDetect
  with_reducible repeat' first
    | assumption | apply KeepsOut.next | apply State.onPaths_keeps | apply State.pf_keeps | apply State.poke_keeps | apply State.command_keeps | intro _ _

theorem execAdcCal_keeps (p : Pkt) (h₀ : Keeps r₀ s) : KeepsOut r₀ (execAdcCal p s) := by
  unfold execAdcCal
  dsimp only
  with_reducible repeat' first
    | assumption | apply KeepsOut.next | apply State.pb_keeps | apply State.pf_keeps | apply State.rxUpdate_keeps | apply State.setAdc_keeps | apply State.writeAdcCfg_keeps | apply State.command_keeps | intro _ _ | split

theorem execRxStatus_keeps (p : Pkt) (h₀ : Keeps r₀ s) : KeepsOut r₀ (execRxStatus p s) := by
  unfold execRxStatus
  dsimp only
  with_reducible repeat' first
    | assumption | apply KeepsOut.next | apply State.command_keeps | intro _ _

end Sys2Proof.Machine
end

