-- ==== Sys2Proof/Laws/KeepsBar0.lean ====
section
/-!
SUPPORT. What the operations of Sys2Proof/Machine/Bar0.lean keep.
-/
set_option linter.unusedTactic false
set_option linter.unreachableTactic false

namespace Sys2Proof.Machine

variable {r₀ s : State}

theorem State.latchLo_keeps (a : Nat) (w : Word) (h₀ : Keeps r₀ s) : Keeps r₀ (State.latchLo s a w) := by
  unfold State.latchLo
  dsimp only
  with_reducible repeat' first
    | assumption | apply Keeps.upd

theorem State.ran_keeps (o : Out) (h₀ : Keeps r₀ s) (ho : KeepsOut r₀ o) : Keeps r₀ (s.ran o) := by
  unfold State.ran
  split
  · exact ho _ rfl
  · exact h₀

theorem State.synceFollow_keeps (h₀ : Keeps r₀ s) : Keeps r₀ (State.synceFollow s) := by
  unfold State.synceFollow
  dsimp only
  with_reducible repeat' first
    | assumption | apply Keeps.upd

theorem State.writeHub_keeps (name : String) (i : Nat) (j : Nat) (a : Nat) (v : Word) (h₀ : Keeps r₀ s) : Keeps r₀ (State.writeHub s name i j a v) := by
  unfold State.writeHub
  with_reducible repeat' first
    | assumption | apply Keeps.ite | apply State.clearSum_keeps | apply State.directCommit_keeps | apply State.directStop_keeps | apply State.doorbell_keeps | apply execD2hRstWrite_keeps | apply execFhEaxcFmtWrite_keeps | apply execFhPortModeWrite_keeps | apply execGlCmtNowWrite_keeps | apply execMbDbWrite_keeps | apply execMbH2dDataWrite_keeps | apply execPwDoorbellWrite_keeps | apply execPwPadRelWrite_keeps | apply execSeCtrlWrite_keeps | apply execTbRateAdjWrite_keeps | apply execTbSwStrobe_keeps | apply execTrWcNowWrite_keeps | apply State.faultOut_keeps | apply State.forwardLocks_keeps | apply State.hubEvent_keeps | apply State.pb_keeps | apply State.poke_keeps | apply State.ppsFollow_keeps | apply State.ran_keeps | apply State.releaseBanks_keeps | apply State.restartSync_keeps | apply State.retime_keeps | apply State.synceFollow_keeps | apply State.writeAlarmCtrl_keeps | apply State.writeCalCfg_keeps | apply State.writeCmpCtrl_keeps | apply State.writeCxCfg_keeps | apply State.writeJob_keeps | apply State.writeOrigin_keeps | apply State.writeRecCtrl_keeps | apply State.writeRecList_keeps | apply State.writeRingBase_keeps | apply State.writeRingCfg_keeps | apply State.writeSnapCtrl_keeps | apply State.writeSvInject_keeps | apply State.writeTbCtrl_keeps | apply State.writeThr_keeps | apply State.writeTrigSel_keeps

theorem State.writeUnit_keeps (pl : Place) (name : String) (i : Nat) (j : Nat) (a : Nat) (v : Word) (h₀ : Keeps r₀ s) : Keeps r₀ (State.writeUnit s pl name i j a v) := by
  unfold State.writeUnit
  with_reducible repeat' first
    | assumption | apply Keeps.ite | apply execFeQw1Write_keeps | apply execMaCalWrite_keeps | apply execMaInjWrite_keeps | apply execMaTakeWrite_keeps | apply State.poke_keeps | apply State.ran_keeps | apply State.writeAdcCfg_keeps | apply State.writeAxCtrl_keeps | apply State.writeCanAdapt_keeps | apply State.writeHub_keeps | apply State.writeMaCfg_keeps | apply State.writePrAdapt_keeps | apply State.writeRecCtrl_keeps | apply State.writeRecList_keeps | apply State.writeTxCtrl_keeps | split

theorem State.writeReg_keeps (r : RegRow) (i : Nat) (j : Nat) (a : Nat) (m : Nat) (w : Word) (h₀ : Keeps r₀ s) : Keeps r₀ (State.writeReg s r i j a m w) := by
  unfold State.writeReg
  dsimp only
  with_reducible repeat' first
    | assumption | apply Keeps.ite | apply State.latchLo_keeps | apply State.poke_keeps | apply State.writeRingBase_keeps | apply State.writeUnit_keeps

theorem State.writeStaged_keeps (r : RegRow) (a : Nat) (m : Nat) (w : Word) (h₀ : Keeps r₀ s) : Keeps r₀ (State.writeStaged s r a m w) := by
  unfold State.writeStaged
  dsimp only
  with_reducible repeat' first
    | assumption | apply Keeps.ite | apply State.latchLo_keeps | apply State.stage_keeps

theorem State.writeBits_keeps (o : Nat) (m : Nat) (w : Word) (h₀ : Keeps r₀ s) : Keeps r₀ (State.writeBits s o m w).1 := by
  unfold State.writeBits
  dsimp only
  with_reducible repeat' first
    | assumption | apply Keeps.ite | apply State.doorbell_keeps | apply State.offAccess_keeps | apply State.pb_keeps | apply State.writeReg_keeps | apply State.writeStaged_keeps | split

theorem State.writeBar0_keeps (o : Nat) (w : Word) (be : Nat) (h₀ : Keeps r₀ s) : Keeps r₀ (State.writeBar0 s o w be) := by
  unfold State.writeBar0
  with_reducible repeat' first
    | assumption | apply State.writeBits_keeps

theorem execRegisterWrite_keeps (o : Nat) (w : Word) (be : Nat) (h₀ : Keeps r₀ s) : KeepsOut r₀ (execRegisterWrite o w be s) := by
  unfold execRegisterWrite
  with_reducible repeat' first
    | assumption | apply KeepsOut.next | apply Keeps.ite | apply State.forwardLocks_keeps | apply State.writeBar0_keeps

theorem execStoreSlotWrite_keeps (o : Nat) (w : Word) (be : Nat) (h₀ : Keeps r₀ s) : KeepsOut r₀ (execStoreSlotWrite o w be s) := by
  unfold execStoreSlotWrite
  with_reducible repeat' first
    | assumption | apply KeepsOut.next | apply Keeps.ite | apply State.offAccess_keeps | apply State.writeBar2_keeps

theorem State.readRun_keeps (name : String) (i : Nat) (pl : Place) (h₀ : Keeps r₀ s) : ∀ u, s.readRun name i pl = some u → Keeps r₀ u := by
  intro u e
  unfold State.readRun at e
  repeat' split at e
  all_goals first
    | exact absurd e (Option.some_ne_none u).symm
    | (rw [← Option.some.inj e]
       apply State.ran_keeps _ h₀
       with_reducible first
       | exact execTbNowNsRead_keeps h₀
       | exact execTbLateCntRead_keeps h₀
       | exact execPpsinNsRead_keeps h₀
       | exact execTxtsPop_keeps h₀
       | exact execFhFailLostRead_keeps h₀
       | exact execFhBufPeakRead_keeps h₀
       | exact execMbD2hDataRead_keeps _ h₀
       | exact execMbLostRead_keeps _ h₀
       | exact execRxFastRead_keeps _ h₀
       | exact execFeRdataRead_keeps _ h₀
       | exact execMaInjResRead_keeps _ h₀)

theorem State.readReg_keeps (r : RegRow) (i : Nat) (a : Nat) (m : Nat) (pl : Place) (h₀ : Keeps r₀ s) : Keeps r₀ (State.readReg s r i a m pl) := by
  unfold State.readReg
  dsimp only
  with_reducible repeat' first
    | assumption | apply Keeps.ite | apply Keeps.wr | apply State.answer_keeps | (exact State.readRun_keeps _ _ _ h₀ _ (by assumption)) | split | apply Keeps.upd

theorem State.readBar0_keeps (o : Nat) (m : Nat) (h₀ : Keeps r₀ s) : Keeps r₀ (State.readBar0 s o m) := by
  unfold State.readBar0
  dsimp only
  with_reducible repeat' first
    | assumption | apply Keeps.ite | apply State.answer_keeps | apply State.offAccess_keeps | apply State.readReg_keeps | split | apply Keeps.upd

theorem execRegisterRead_keeps (bar2 : Bool) (o : Nat) (be : Nat) (h₀ : Keeps r₀ s) : KeepsOut r₀ (execRegisterRead bar2 o be s) := by
  unfold execRegisterRead
  dsimp only
  with_reducible repeat' first
    | assumption | apply KeepsOut.next | apply Keeps.ite | apply State.answer_keeps | apply State.egressRun_keeps | apply State.offAccess_keeps | apply State.readBar0_keeps

theorem execRegReq_keeps (l : Nat) (write : Bool) (o : Nat) (w : Word) (h₀ : Keeps r₀ s) : KeepsOut r₀ (execRegReq l write o w s) := by
  unfold execRegReq
  dsimp only
  with_reducible repeat' first
    | assumption | apply KeepsOut.next | apply Keeps.ite | apply State.answer_keeps | apply State.popMsg_keeps | apply State.readBar0_keeps | apply State.sendMsg_keeps | apply State.writeBar0_keeps

theorem State.writeWords0_keeps (o : Nat) (bs : List Byte) (k : Nat) (h₀ : Keeps r₀ s) : Keeps r₀ (s.writeWords0 o bs k) := by
  induction k generalizing s o bs with
  | zero => exact h₀
  | succ k ih => exact ih _ _ (State.writeBar0_keeps _ _ _ h₀)

theorem State.readWords0_keeps (o k : Nat) (h₀ : Keeps r₀ s) : Keeps r₀ (s.readWords0 o k).1 := by
  induction k generalizing s o with
  | zero => exact h₀
  | succ k ih => exact ih _ (State.readBar0_keeps _ _ h₀)

theorem State.directMove_keeps (n : Nat) (data : List Byte) (h₀ : Keeps r₀ s) : Keeps r₀ (State.directMove s n data).1 := by
  unfold State.directMove
  dsimp only
  with_reducible repeat' first
    | assumption | apply Keeps.ite | apply State.answer_keeps | apply State.hostWrite_keeps | apply State.offAccess_keeps | apply State.readWords0_keeps | apply State.storeWrite_keeps | apply State.writeWords0_keeps | split

theorem State.directNext_keeps (n : Nat) (h₀ : Keeps r₀ s) : Keeps r₀ (State.directNext s n) := by
  unfold State.directNext
  with_reducible repeat' first
    | assumption | apply Keeps.ite | apply State.loadShadow_keeps | apply State.pf_keeps | apply State.startDirect_keeps

theorem execDirectHandover_keeps (n : Nat) (data : List Byte) (err : Nat) (h₀ : Keeps r₀ s) : KeepsOut r₀ (execDirectHandover n data err s) := by
  unfold execDirectHandover
  dsimp only
  with_reducible repeat' first
    | assumption | apply KeepsOut.next | apply Keeps.ite | apply State.addMoved_keeps | apply State.bump_keeps | apply State.directFail_keeps | apply State.directMove_keeps | apply State.directNext_keeps | apply State.forwardLocks_keeps | apply State.irq_keeps | apply State.pb_keeps | apply State.pf_keeps | apply State.takeBeats_keeps

theorem execCfgApply_keeps (p : Pkt) (h₀ : Keeps r₀ s) : KeepsOut r₀ (execCfgApply p s) := by
  unfold execCfgApply
  dsimp only
  with_reducible repeat' first
    | assumption | apply KeepsOut.next | apply State.lastVer_keeps | apply State.writeBits_keeps | apply State.command_keeps | apply Keeps.foldlFst | intro _ _ _ | intro _ _ | split

end Sys2Proof.Machine
end

