-- ==== Sys2Proof/Laws/KeepsMSlot.lean ====
section
/-!
SUPPORT. What the operations of Sys2Proof/Machine/MSlot.lean keep.
-/
set_option linter.unusedTactic false
set_option linter.unreachableTactic false

namespace Sys2Proof.Machine

variable {r₀ s : State}

theorem State.mIssue_keeps (c : Nat) (word : Nat) (fits : Bool) (f : CoreSt → MRes) (h₀ : Keeps r₀ s) : Keeps r₀ (State.mIssue s c word fits f) := by
  unfold State.mIssue
  dsimp only
  with_reducible repeat' first
    | assumption | apply Keeps.ite | apply State.bumpBy_keeps | apply State.coreFail_keeps | apply State.injected_keeps | apply State.progError_keeps | apply State.setCore_keeps | split

theorem execMNop_keeps (c : Nat) (f : FmtMR) (h₀ : Keeps r₀ s) : KeepsOut r₀ (execMNop c f s) := by
  unfold execMNop
  with_reducible repeat' first
    | assumption | apply KeepsOut.next | apply State.mIssue_keeps

theorem execMCmac_keeps (c : Nat) (f : FmtMA) (h₀ : Keeps r₀ s) : KeepsOut r₀ (execMCmac c f s) := by
  unfold execMCmac
  dsimp only
  with_reducible repeat' first
    | assumption | apply KeepsOut.next | apply State.mIssue_keeps

theorem execMDmac_keeps (c : Nat) (f : FmtMA) (h₀ : Keeps r₀ s) : KeepsOut r₀ (execMDmac c f s) := by
  unfold execMDmac
  dsimp only
  with_reducible repeat' first
    | assumption | apply KeepsOut.next | apply State.mIssue_keeps

theorem execMMulw_keeps (c : Nat) (f : FmtMA) (h₀ : Keeps r₀ s) : KeepsOut r₀ (execMMulw c f s) := by
  unfold execMMulw
  dsimp only
  with_reducible repeat' first
    | assumption | apply KeepsOut.next | apply State.mIssue_keeps

theorem execMCmpy_keeps (c : Nat) (f : FmtMP) (h₀ : Keeps r₀ s) : KeepsOut r₀ (execMCmpy c f s) := by
  unfold execMCmpy
  dsimp only
  with_reducible repeat' first
    | assumption | apply KeepsOut.next | apply State.mIssue_keeps

theorem execMRdq_keeps (c : Nat) (f : FmtMQ) (h₀ : Keeps r₀ s) : KeepsOut r₀ (execMRdq c f s) := by
  unfold execMRdq
  dsimp only
  with_reducible repeat' first
    | assumption | apply KeepsOut.next | apply State.mIssue_keeps

theorem execMCplx_keeps (c : Nat) (f : FmtMR) (h₀ : Keeps r₀ s) : KeepsOut r₀ (execMCplx c f s) := by
  unfold execMCplx
  dsimp only
  with_reducible repeat' first
    | assumption | apply KeepsOut.next | apply State.mIssue_keeps

theorem execMReal_keeps (c : Nat) (f : FmtMR) (h₀ : Keeps r₀ s) : KeepsOut r₀ (execMReal c f s) := by
  unfold execMReal
  dsimp only
  with_reducible repeat' first
    | assumption | apply KeepsOut.next | apply State.mIssue_keeps

theorem execMAdd_keeps (c : Nat) (f : FmtMR) (h₀ : Keeps r₀ s) : KeepsOut r₀ (execMAdd c f s) := by
  unfold execMAdd
  with_reducible repeat' first
    | assumption | apply KeepsOut.next | apply State.mIssue_keeps

theorem execMSub_keeps (c : Nat) (f : FmtMR) (h₀ : Keeps r₀ s) : KeepsOut r₀ (execMSub c f s) := by
  unfold execMSub
  with_reducible repeat' first
    | assumption | apply KeepsOut.next | apply State.mIssue_keeps

theorem execMNeg_keeps (c : Nat) (f : FmtMR) (h₀ : Keeps r₀ s) : KeepsOut r₀ (execMNeg c f s) := by
  unfold execMNeg
  dsimp only
  with_reducible repeat' first
    | assumption | apply KeepsOut.next | apply State.mIssue_keeps

theorem execMConj_keeps (c : Nat) (f : FmtMR) (h₀ : Keeps r₀ s) : KeepsOut r₀ (execMConj c f s) := by
  unfold execMConj
  dsimp only
  with_reducible repeat' first
    | assumption | apply KeepsOut.next | apply State.mIssue_keeps

theorem execMSwap_keeps (c : Nat) (f : FmtMR) (h₀ : Keeps r₀ s) : KeepsOut r₀ (execMSwap c f s) := by
  unfold execMSwap
  dsimp only
  with_reducible repeat' first
    | assumption | apply KeepsOut.next | apply State.mIssue_keeps

theorem execMMov_keeps (c : Nat) (f : FmtMR) (h₀ : Keeps r₀ s) : KeepsOut r₀ (execMMov c f s) := by
  unfold execMMov
  with_reducible repeat' first
    | assumption | apply KeepsOut.next | apply State.mIssue_keeps

theorem execMAnd_keeps (c : Nat) (f : FmtMR) (h₀ : Keeps r₀ s) : KeepsOut r₀ (execMAnd c f s) := by
  unfold execMAnd
  with_reducible repeat' first
    | assumption | apply KeepsOut.next | apply State.mIssue_keeps

theorem execMOr_keeps (c : Nat) (f : FmtMR) (h₀ : Keeps r₀ s) : KeepsOut r₀ (execMOr c f s) := by
  unfold execMOr
  with_reducible repeat' first
    | assumption | apply KeepsOut.next | apply State.mIssue_keeps

theorem execMXor_keeps (c : Nat) (f : FmtMR) (h₀ : Keeps r₀ s) : KeepsOut r₀ (execMXor c f s) := by
  unfold execMXor
  with_reducible repeat' first
    | assumption | apply KeepsOut.next | apply State.mIssue_keeps

theorem execMShl_keeps (c : Nat) (f : FmtMR) (h₀ : Keeps r₀ s) : KeepsOut r₀ (execMShl c f s) := by
  unfold execMShl
  with_reducible repeat' first
    | assumption | apply KeepsOut.next | apply State.mIssue_keeps

theorem execMShr_keeps (c : Nat) (f : FmtMR) (h₀ : Keeps r₀ s) : KeepsOut r₀ (execMShr c f s) := by
  unfold execMShr
  dsimp only
  with_reducible repeat' first
    | assumption | apply KeepsOut.next | apply State.mIssue_keeps

theorem execMExp_keeps (c : Nat) (f : FmtMR) (h₀ : Keeps r₀ s) : KeepsOut r₀ (execMExp c f s) := by
  unfold execMExp
  dsimp only
  with_reducible repeat' first
    | assumption | apply KeepsOut.next | apply State.mIssue_keeps

theorem execMExpmin_keeps (c : Nat) (f : FmtMR) (h₀ : Keeps r₀ s) : KeepsOut r₀ (execMExpmin c f s) := by
  unfold execMExpmin
  dsimp only
  with_reducible repeat' first
    | assumption | apply KeepsOut.next | apply State.mIssue_keeps

theorem execMNorm_keeps (c : Nat) (f : FmtMR) (h₀ : Keeps r₀ s) : KeepsOut r₀ (execMNorm c f s) := by
  unfold execMNorm
  dsimp only
  with_reducible repeat' first
    | assumption | apply KeepsOut.next | apply State.mIssue_keeps

theorem execMRcp_keeps (c : Nat) (f : FmtMR) (h₀ : Keeps r₀ s) : KeepsOut r₀ (execMRcp c f s) := by
  unfold execMRcp
  dsimp only
  with_reducible repeat' first
    | assumption | apply KeepsOut.next | apply State.mIssue_keeps

theorem execMRsq_keeps (c : Nat) (f : FmtMR) (h₀ : Keeps r₀ s) : KeepsOut r₀ (execMRsq c f s) := by
  unfold execMRsq
  dsimp only
  with_reducible repeat' first
    | assumption | apply KeepsOut.next | apply State.mIssue_keeps

theorem execMMin_keeps (c : Nat) (f : FmtMR) (h₀ : Keeps r₀ s) : KeepsOut r₀ (execMMin c f s) := by
  unfold execMMin
  dsimp only
  with_reducible repeat' first
    | assumption | apply KeepsOut.next | apply State.mIssue_keeps

theorem execMMax_keeps (c : Nat) (f : FmtMR) (h₀ : Keeps r₀ s) : KeepsOut r₀ (execMMax c f s) := by
  unfold execMMax
  dsimp only
  with_reducible repeat' first
    | assumption | apply KeepsOut.next | apply State.mIssue_keeps

theorem execMCmp_keeps (c : Nat) (f : FmtMR) (h₀ : Keeps r₀ s) : KeepsOut r₀ (execMCmp c f s) := by
  unfold execMCmp
  with_reducible repeat' first
    | assumption | apply KeepsOut.next | apply State.mIssue_keeps

theorem execMTst_keeps (c : Nat) (f : FmtMR) (h₀ : Keeps r₀ s) : KeepsOut r₀ (execMTst c f s) := by
  unfold execMTst
  dsimp only
  with_reducible repeat' first
    | assumption | apply KeepsOut.next | apply State.drawBool_keeps | apply State.mIssue_keeps | split

theorem execMTpois_keeps (c : Nat) (f : FmtMR) (h₀ : Keeps r₀ s) : KeepsOut r₀ (execMTpois c f s) := by
  unfold execMTpois
  with_reducible repeat' first
    | assumption | apply KeepsOut.next | apply State.mIssue_keeps

theorem execMMovs_keeps (c : Nat) (f : FmtMR) (h₀ : Keeps r₀ s) : KeepsOut r₀ (execMMovs c f s) := by
  unfold execMMovs
  with_reducible repeat' first
    | assumption | apply KeepsOut.next | apply State.mIssue_keeps

theorem execMMovi_keeps (c : Nat) (f : FmtMI) (h₀ : Keeps r₀ s) : KeepsOut r₀ (execMMovi c f s) := by
  unfold execMMovi
  with_reducible repeat' first
    | assumption | apply KeepsOut.next | apply State.mIssue_keeps

theorem execMMovih_keeps (c : Nat) (f : FmtMI) (h₀ : Keeps r₀ s) : KeepsOut r₀ (execMMovih c f s) := by
  unfold execMMovih
  dsimp only
  with_reducible repeat' first
    | assumption | apply KeepsOut.next | apply State.mIssue_keeps

end Sys2Proof.Machine
end

