-- ==== Sys2Proof/Laws/KeepsXSlot.lean ====
section
/-!
SUPPORT. What the operations of Sys2Proof/Machine/XSlot.lean keep.
-/
set_option linter.unusedTactic false
set_option linter.unreachableTactic false

namespace Sys2Proof.Machine

variable {r₀ s : State}

theorem State.coreState_keeps (c : Nat) (v : Nat) (h₀ : Keeps r₀ s) : Keeps r₀ (State.coreState s c v) := by
  unfold State.coreState
  with_reducible repeat' first
    | assumption | apply State.pf_keeps

theorem State.endWork_keeps (c : Nat) (mask : Nat) (reason : Nat) (h₀ : Keeps r₀ s) : Keeps r₀ (State.endWork s c mask reason) := by
  unfold State.endWork
  dsimp only
  with_reducible repeat' first
    | assumption | apply State.failAll_keeps | apply State.failItem_keeps | apply State.idleCore_keeps | apply State.subDone_keeps | apply Keeps.forEach | intro _ _ _ | split

theorem State.endBundle_keeps (c : Nat) (mw : MWrites) (r : XRes) (h₀ : Keeps r₀ s) : Keeps r₀ (State.endBundle s c mw r) := by
  unfold State.endBundle
  dsimp only
  with_reducible repeat' first
    | assumption | apply Keeps.ite | apply State.coreState_keeps | apply State.endWork_keeps | apply State.progError_keeps | apply State.setCore_keeps | split

theorem State.xIssue_keeps (c : Nat) (word : Nat) (fits : Bool) (f : CoreSt → XRes) (h₀ : Keeps r₀ s) : Keeps r₀ (State.xIssue s c word fits f) := by
  unfold State.xIssue
  dsimp only
  with_reducible repeat' first
    | assumption | apply Keeps.ite | apply State.endBundle_keeps | apply State.progError_keeps | split

theorem execXNop_keeps (c : Nat) (f : FmtXL) (h₀ : Keeps r₀ s) : KeepsOut r₀ (execXNop c f s) := by
  unfold execXNop
  with_reducible repeat' first
    | assumption | apply KeepsOut.next | apply State.xIssue_keeps

theorem execXLd_keeps (c : Nat) (f : FmtXL) (h₀ : Keeps r₀ s) : KeepsOut r₀ (execXLd c f s) := by
  unfold execXLd
  with_reducible repeat' first
    | assumption | apply KeepsOut.next | apply State.xIssue_keeps

theorem execXSt_keeps (c : Nat) (f : FmtXL) (h₀ : Keeps r₀ s) : KeepsOut r₀ (execXSt c f s) := by
  unfold execXSt
  with_reducible repeat' first
    | assumption | apply KeepsOut.next | apply State.xIssue_keeps

theorem execXLdd_keeps (c : Nat) (f : FmtXD) (h₀ : Keeps r₀ s) : KeepsOut r₀ (execXLdd c f s) := by
  unfold execXLdd
  with_reducible repeat' first
    | assumption | apply KeepsOut.next | apply State.xIssue_keeps

theorem execXLdst_keeps (c : Nat) (f : FmtXD) (h₀ : Keeps r₀ s) : KeepsOut r₀ (execXLdst c f s) := by
  unfold execXLdst
  with_reducible repeat' first
    | assumption | apply KeepsOut.next | apply State.xIssue_keeps

theorem execXSeta_keeps (c : Nat) (f : FmtXA) (h₀ : Keeps r₀ s) : KeepsOut r₀ (execXSeta c f s) := by
  unfold execXSeta
  with_reducible repeat' first
    | assumption | apply KeepsOut.next | apply State.xIssue_keeps

theorem execXAdda_keeps (c : Nat) (f : FmtXA) (h₀ : Keeps r₀ s) : KeepsOut r₀ (execXAdda c f s) := by
  unfold execXAdda
  with_reducible repeat' first
    | assumption | apply KeepsOut.next | apply State.xIssue_keeps

theorem execXMovda_keeps (c : Nat) (f : FmtXA) (h₀ : Keeps r₀ s) : KeepsOut r₀ (execXMovda c f s) := by
  unfold execXMovda
  with_reducible repeat' first
    | assumption | apply KeepsOut.next | apply State.xIssue_keeps

theorem execXSetcbb_keeps (c : Nat) (f : FmtXA) (h₀ : Keeps r₀ s) : KeepsOut r₀ (execXSetcbb c f s) := by
  unfold execXSetcbb
  with_reducible repeat' first
    | assumption | apply KeepsOut.next | apply State.xIssue_keeps

theorem execXSetcbl_keeps (c : Nat) (f : FmtXA) (h₀ : Keeps r₀ s) : KeepsOut r₀ (execXSetcbl c f s) := by
  unfold execXSetcbl
  dsimp only
  with_reducible repeat' first
    | assumption | apply KeepsOut.next | apply State.xIssue_keeps

theorem execXBind_keeps (c : Nat) (f : FmtXA) (h₀ : Keeps r₀ s) : KeepsOut r₀ (execXBind c f s) := by
  unfold execXBind
  with_reducible repeat' first
    | assumption | apply KeepsOut.next | apply State.xIssue_keeps

theorem execXSget_keeps (c : Nat) (f : FmtXS) (h₀ : Keeps r₀ s) : KeepsOut r₀ (execXSget c f s) := by
  unfold execXSget
  dsimp only
  with_reducible repeat' first
    | assumption | apply KeepsOut.next | apply State.xIssue_keeps

theorem execSgetArrival_keeps (c : Nat) (n : Nat) (h₀ : Keeps r₀ s) : KeepsOut r₀ (execSgetArrival c n s) := by
  unfold execSgetArrival
  dsimp only
  with_reducible repeat' first
    | assumption | apply KeepsOut.next | apply State.crossWords_keeps | apply State.hubCheck_keeps | apply State.injectWords_keeps | apply State.setCore_keeps | split

theorem execXSput_keeps (c : Nat) (f : FmtXS) (h₀ : Keeps r₀ s) : KeepsOut r₀ (execXSput c f s) := by
  unfold execXSput
  dsimp only
  with_reducible repeat' first
    | assumption | apply KeepsOut.next | apply KeepsOut.ite | apply State.bumpBy_keeps | apply State.coreFail_keeps | apply State.injected_keeps | apply State.xIssue_keeps | apply Keeps.when | intro _ _ | split

theorem execSputLand_keeps (c : Nat) (h₀ : Keeps r₀ s) : KeepsOut r₀ (execSputLand c s) := by
  unfold execSputLand
  with_reducible repeat' first
    | assumption | apply KeepsOut.next | apply Keeps.ite | apply State.landBurst_keeps

theorem execXSwait_keeps (c : Nat) (f : FmtXS) (h₀ : Keeps r₀ s) : KeepsOut r₀ (execXSwait c f s) := by
  unfold execXSwait
  with_reducible repeat' first
    | assumption | apply KeepsOut.next | apply State.xIssue_keeps

theorem execXLoop_keeps (c : Nat) (f : FmtXC) (h₀ : Keeps r₀ s) : KeepsOut r₀ (execXLoop c f s) := by
  unfold execXLoop
  dsimp only
  with_reducible repeat' first
    | assumption | apply KeepsOut.next | apply State.xIssue_keeps

theorem execXBr_keeps (c : Nat) (f : FmtXB) (h₀ : Keeps r₀ s) : KeepsOut r₀ (execXBr c f s) := by
  unfold execXBr
  with_reducible repeat' first
    | assumption | apply KeepsOut.next | apply State.xIssue_keeps

theorem execXJmp_keeps (c : Nat) (f : FmtXB) (h₀ : Keeps r₀ s) : KeepsOut r₀ (execXJmp c f s) := by
  unfold execXJmp
  with_reducible repeat' first
    | assumption | apply KeepsOut.next | apply State.xIssue_keeps

theorem execXSetrrb_keeps (c : Nat) (f : FmtXE) (h₀ : Keeps r₀ s) : KeepsOut r₀ (execXSetrrb c f s) := by
  unfold execXSetrrb
  with_reducible repeat' first
    | assumption | apply KeepsOut.next | apply State.xIssue_keeps

theorem execXEnd_keeps (c : Nat) (f : FmtXE) (h₀ : Keeps r₀ s) : KeepsOut r₀ (execXEnd c f s) := by
  unfold execXEnd
  with_reducible repeat' first
    | assumption | apply KeepsOut.next | apply State.xIssue_keeps

end Sys2Proof.Machine
end

