-- ==== Sys2Proof/Laws/KeepsExec.lean ====
section
/-!
SUPPORT. What every command keeps: one case per constructor, by the lemma of its meaning.
-/
namespace Sys2Proof.Machine

theorem exec_keeps (i : Instr) {s : State} : KeepsOut s (exec i s) :=
  match i with
  | .registerWrite o w be => execRegisterWrite_keeps o w be Keeps.refl
  | .storeSlotWrite o w be => execStoreSlotWrite_keeps o w be Keeps.refl
  | .crossingOverflow row die unit n => execCrossingOverflow_keeps row die unit n Keeps.refl
  | .triggerMessage tile line target => execTriggerMessage_keeps tile line target Keeps.refl
  | .packageLoss k => execPackageLoss_keeps k Keeps.refl
  | .tbRateAdjWrite w => execTbRateAdjWrite_keeps w Keeps.refl
  | .tbNowNsRead => execTbNowNsRead_keeps Keeps.refl
  | .timeStepApply => execTimeStepApply_keeps Keeps.refl
  | .comparatorFire n => execComparatorFire_keeps n Keeps.refl
  | .cmpArm n w => execCmpArm_keeps n w Keeps.refl
  | .cmpCancel n w => execCmpCancel_keeps n w Keeps.refl
  | .tbTrigSelWrite line w => execTbTrigSelWrite_keeps line w Keeps.refl
  | .tbSwStrobe w => execTbSwStrobe_keeps w Keeps.refl
  | .tbLateCntRead => execTbLateCntRead_keeps Keeps.refl
  | .gridBoundary src ahead => execGridBoundary_keeps src ahead Keeps.refl
  | .gridOriginWrite idx w => execGridOriginWrite_keeps idx w Keeps.refl
  | .txtsPop => execTxtsPop_keeps Keeps.refl
  | .syncTimeout => execSyncTimeout_keeps Keeps.refl
  | .holdSet w => execHoldSet_keeps w Keeps.refl
  | .holdClr w => execHoldClr_keeps w Keeps.refl
  | .synceLockLoss => execSynceLockLoss_keeps Keeps.refl
  | .ppsInEdge => execPpsInEdge_keeps Keeps.refl
  | .ppsinAbsent => execPpsinAbsent_keeps Keeps.refl
  | .ppsinNsRead => execPpsinNsRead_keeps Keeps.refl
  | .ppsOutRise ahead => execPpsOutRise_keeps ahead Keeps.refl
  | .ppsOutFall => execPpsOutFall_keeps Keeps.refl
  | .alarmArmWrite w => execAlarmArmWrite_keeps w Keeps.refl
  | .alarmFire => execAlarmFire_keeps Keeps.refl
  | .timeRead p => execTimeRead_keeps p Keeps.refl
  | .timeRateAdj p => execTimeRateAdj_keeps p Keeps.refl
  | .timeStep p => execTimeStep_keeps p Keeps.refl
  | .timeHold p => execTimeHold_keeps p Keeps.refl
  | .timeSched p => execTimeSched_keeps p Keeps.refl
  | .timeCancel p => execTimeCancel_keeps p Keeps.refl
  | .timeGrid p => execTimeGrid_keeps p Keeps.refl
  | .timeAlarm p => execTimeAlarm_keeps p Keeps.refl
  | .timePps p => execTimePps_keeps p Keeps.refl
  | .configCapture => execConfigCapture_keeps Keeps.refl
  | .configCommit => execConfigCommit_keeps Keeps.refl
  | .fhPortModeWrite w => execFhPortModeWrite_keeps w Keeps.refl
  | .fhEaxcFmtWrite w => execFhEaxcFmtWrite_keeps w Keeps.refl
  | .fhFailLostRead => execFhFailLostRead_keeps Keeps.refl
  | .fhBufPeakRead => execFhBufPeakRead_keeps Keeps.refl
  | .portLinkUp n => execPortLinkUp_keeps n Keeps.refl
  | .portLinkDown n => execPortLinkDown_keeps n Keeps.refl
  | .frameReceive n bs => execFrameReceive_keeps n bs Keeps.refl
  | .ecpriMessage m => execEcpriMessage_keeps m Keeps.refl
  | .cplaneWindowClose c => execCplaneWindowClose_keeps c Keeps.refl
  | .ulEgress => execUlEgress_keeps Keeps.refl
  | .failRecordPost => execFailRecordPost_keeps Keeps.refl
  | .fhPortMode p => execFhPortMode_keeps p Keeps.refl
  | .fhPortCfg p => execFhPortCfg_keeps p Keeps.refl
  | .fhEaxcSet p => execFhEaxcSet_keeps p Keeps.refl
  | .fhWindowSet p => execFhWindowSet_keeps p Keeps.refl
  | .fhClassSet p => execFhClassSet_keeps p Keeps.refl
  | .fhWinQuery p => execFhWinQuery_keeps p Keeps.refl
  | .fhFailCfg p => execFhFailCfg_keeps p Keeps.refl
  | .fhWakeCfg p => execFhWakeCfg_keeps p Keeps.refl
  | .seCtrlWrite w => execSeCtrlWrite_keeps w Keeps.refl
  | .dlSymbol c n l => execDlSymbol_keeps c n l Keeps.refl
  | .ulSymbol c n l adc => execUlSymbol_keeps c n l adc Keeps.refl
  | .prachOccasion k adc => execPrachOccasion_keeps k adc Keeps.refl
  | .srsEstimate c n => execSrsEstimate_keeps c n Keeps.refl
  | .carrierSwitch c => execCarrierSwitch_keeps c Keeps.refl
  | .carSet p => execCarSet_keeps p Keeps.refl
  | .carSrsSet p => execCarSrsSet_keeps p Keeps.refl
  | .carQuery p => execCarQuery_keeps p Keeps.refl
  | .seLinkRate p => execSeLinkRate_keeps p Keeps.refl
  | .carStatus p => execCarStatus_keeps p Keeps.refl
  | .trWcNowWrite w => execTrWcNowWrite_keeps w Keeps.refl
  | .weightCommitEval => execWeightCommitEval_keeps Keeps.refl
  | .weightCommitReeval => execWeightCommitReeval_keeps Keeps.refl
  | .weightSwitch => execWeightSwitch_keeps Keeps.refl
  | .weightRetire => execWeightRetire_keeps Keeps.refl
  | .carryFwdDone => execCarryFwdDone_keeps Keeps.refl
  | .trellisCfgApply => execTrellisCfgApply_keeps Keeps.refl
  | .cascPartialTimeout => execCascPartialTimeout_keeps Keeps.refl
  | .bfCommit p => execBfCommit_keeps p Keeps.refl
  | .bfLock p => execBfLock_keeps p Keeps.refl
  | .bfLoad p => execBfLoad_keeps p Keeps.refl
  | .bfScale p => execBfScale_keeps p Keeps.refl
  | .bfFallback p => execBfFallback_keeps p Keeps.refl
  | .bfMode p => execBfMode_keeps p Keeps.refl
  | .bfNullSet p => execBfNullSet_keeps p Keeps.refl
  | .bfStatus p => execBfStatus_keeps p Keeps.refl
  | .jobGoWrite j v => execJobGoWrite_keeps j v Keeps.refl
  | .jobRelease => execJobRelease_keeps Keeps.refl
  | .workItemStart c => execWorkItemStart_keeps c Keeps.refl
  | .workItemTimeout c => execWorkItemTimeout_keeps c Keeps.refl
  | .jobDeadline j => execJobDeadline_keeps j Keeps.refl
  | .cascSliceTimeout j idx => execCascSliceTimeout_keeps j idx Keeps.refl
  | .solSrsSet p => execSolSrsSet_keeps p Keeps.refl
  | .solJobSubmit p => execSolJobSubmit_keeps p Keeps.refl
  | .solJobCancel p => execSolJobCancel_keeps p Keeps.refl
  | .solJobStatus p => execSolJobStatus_keeps p Keeps.refl
  | .solKernelLoad p => execSolKernelLoad_keeps p Keeps.refl
  | .solCoreCtrl p pass => execSolCoreCtrl_keeps p pass Keeps.refl
  | .solCascMode p => execSolCascMode_keeps p Keeps.refl
  | .solChClear p => execSolChClear_keeps p Keeps.refl
  | .mNop c f => execMNop_keeps c f Keeps.refl
  | .mCmac c f => execMCmac_keeps c f Keeps.refl
  | .mDmac c f => execMDmac_keeps c f Keeps.refl
  | .mMulw c f => execMMulw_keeps c f Keeps.refl
  | .mCmpy c f => execMCmpy_keeps c f Keeps.refl
  | .mRdq c f => execMRdq_keeps c f Keeps.refl
  | .mCplx c f => execMCplx_keeps c f Keeps.refl
  | .mReal c f => execMReal_keeps c f Keeps.refl
  | .mAdd c f => execMAdd_keeps c f Keeps.refl
  | .mSub c f => execMSub_keeps c f Keeps.refl
  | .mNeg c f => execMNeg_keeps c f Keeps.refl
  | .mConj c f => execMConj_keeps c f Keeps.refl
  | .mSwap c f => execMSwap_keeps c f Keeps.refl
  | .mMov c f => execMMov_keeps c f Keeps.refl
  | .mAnd c f => execMAnd_keeps c f Keeps.refl
  | .mOr c f => execMOr_keeps c f Keeps.refl
  | .mXor c f => execMXor_keeps c f Keeps.refl
  | .mShl c f => execMShl_keeps c f Keeps.refl
  | .mShr c f => execMShr_keeps c f Keeps.refl
  | .mExp c f => execMExp_keeps c f Keeps.refl
  | .mExpmin c f => execMExpmin_keeps c f Keeps.refl
  | .mNorm c f => execMNorm_keeps c f Keeps.refl
  | .mRcp c f => execMRcp_keeps c f Keeps.refl
  | .mRsq c f => execMRsq_keeps c f Keeps.refl
  | .mMin c f => execMMin_keeps c f Keeps.refl
  | .mMax c f => execMMax_keeps c f Keeps.refl
  | .mCmp c f => execMCmp_keeps c f Keeps.refl
  | .mTst c f => execMTst_keeps c f Keeps.refl
  | .mTpois c f => execMTpois_keeps c f Keeps.refl
  | .mMovs c f => execMMovs_keeps c f Keeps.refl
  | .mMovi c f => execMMovi_keeps c f Keeps.refl
  | .mMovih c f => execMMovih_keeps c f Keeps.refl
  | .xNop c f => execXNop_keeps c f Keeps.refl
  | .xLd c f => execXLd_keeps c f Keeps.refl
  | .xSt c f => execXSt_keeps c f Keeps.refl
  | .xLdd c f => execXLdd_keeps c f Keeps.refl
  | .xLdst c f => execXLdst_keeps c f Keeps.refl
  | .xSeta c f => execXSeta_keeps c f Keeps.refl
  | .xAdda c f => execXAdda_keeps c f Keeps.refl
  | .xMovda c f => execXMovda_keeps c f Keeps.refl
  | .xSetcbb c f => execXSetcbb_keeps c f Keeps.refl
  | .xSetcbl c f => execXSetcbl_keeps c f Keeps.refl
  | .xBind c f => execXBind_keeps c f Keeps.refl
  | .xSget c f => execXSget_keeps c f Keeps.refl
  | .sgetArrival c n => execSgetArrival_keeps c n Keeps.refl
  | .xSput c f => execXSput_keeps c f Keeps.refl
  | .sputLand c => execSputLand_keeps c Keeps.refl
  | .xSwait c f => execXSwait_keeps c f Keeps.refl
  | .xLoop c f => execXLoop_keeps c f Keeps.refl
  | .xBr c f => execXBr_keeps c f Keeps.refl
  | .xJmp c f => execXJmp_keeps c f Keeps.refl
  | .xSetrrb c f => execXSetrrb_keeps c f Keeps.refl
  | .xEnd c f => execXEnd_keeps c f Keeps.refl
  | .loadStrobe r => execLoadStrobe_keeps r Keeps.refl
  | .localResumeStrobe p => execLocalResumeStrobe_keeps p Keeps.refl
  | .forceMuteWrite p w => execForceMuteWrite_keeps p w Keeps.refl
  | .tddSwitch c at_ => execTddSwitch_keeps c at_ Keeps.refl
  | .blankExitStart p at_ => execBlankExitStart_keeps p at_ Keeps.refl
  | .feQw1Write r w => execFeQw1Write_keeps r w Keeps.refl
  | .feWriteRelease r => execFeWriteRelease_keeps r Keeps.refl
  | .feFrameStart r => execFeFrameStart_keeps r Keeps.refl
  | .feFrameEnd r rdata padOk => execFeFrameEnd_keeps r rdata padOk Keeps.refl
  | .feRdataRead r => execFeRdataRead_keeps r Keeps.refl
  | .txSet p => execTxSet_keeps p Keeps.refl
  | .txNco p => execTxNco_keeps p Keeps.refl
  | .txDac p => execTxDac_keeps p Keeps.refl
  | .txEnable p => execTxEnable_keeps p Keeps.refl
  | .txMute p => execTxMute_keeps p Keeps.refl
  | .feWrite p => execFeWrite_keeps p Keeps.refl
  | .feRead p => execFeRead_keeps p Keeps.refl
  | .tddSet p => execTddSet_keeps p Keeps.refl
  | .tddTiming p => execTddTiming_keeps p Keeps.refl
  | .txStatus p => execTxStatus_keeps p Keeps.refl
  | .orxCaptureStart r => execOrxCaptureStart_keeps r Keeps.refl
  | .pressCaptureDone r o delay => execPressCaptureDone_keeps r o delay Keeps.refl
  | .pressUpdateReady p => execPressUpdateReady_keeps p Keeps.refl
  | .pressHoldExpiry p => execPressHoldExpiry_keeps p Keeps.refl
  | .sbfdCaptureDone r o adc delay => execSbfdCaptureDone_keeps r o adc delay Keeps.refl
  | .canUpdateReady p => execCanUpdateReady_keeps p Keeps.refl
  | .canHoldExpiry p => execCanHoldExpiry_keeps p Keeps.refl
  | .nullCalcDone vecs vals => execNullCalcDone_keeps vecs vals Keeps.refl
  | .prSet p => execPrSet_keeps p Keeps.refl
  | .prCoefSet p => execPrCoefSet_keeps p Keeps.refl
  | .prAdapt p => execPrAdapt_keeps p Keeps.refl
  | .prLimits p => execPrLimits_keeps p Keeps.refl
  | .prStatus p => execPrStatus_keeps p Keeps.refl
  | .prSave p => execPrSave_keeps p Keeps.refl
  | .prRestore p => execPrRestore_keeps p Keeps.refl
  | .canSet p => execCanSet_keeps p Keeps.refl
  | .canFit p => execCanFit_keeps p Keeps.refl
  | .canStatus p => execCanStatus_keeps p Keeps.refl
  | .sbfdBand p => execSbfdBand_keeps p Keeps.refl
  | .sbfdNullCalc p => execSbfdNullCalc_keeps p Keeps.refl
  | .orxSet p => execOrxSet_keeps p Keeps.refl
  | .orxCapture p => execOrxCapture_keeps p Keeps.refl
  | .adcFgCalDone a sets => execAdcFgCalDone_keeps a sets Keeps.refl
  | .spareEstimate a est => execSpareEstimate_keeps a est Keeps.refl
  | .sliceHandover a => execSliceHandover_keeps a Keeps.refl
  | .spareTimeout a => execSpareTimeout_keeps a Keeps.refl
  | .sliceFailure a slice check => execSliceFailure_keeps a slice check Keeps.refl
  | .sliceRetestDone a => execSliceRetestDone_keeps a Keeps.refl
  | .overloadEnter p adc => execOverloadEnter_keeps p adc Keeps.refl
  | .overloadExit p adc => execOverloadExit_keeps p adc Keeps.refl
  | .detectorWindowEnd p adc => execDetectorWindowEnd_keeps p adc Keeps.refl
  | .agcDecision p adc => execAgcDecision_keeps p adc Keeps.refl
  | .agcFrameSend r => execAgcFrameSend_keeps r Keeps.refl
  | .agcCompApply p => execAgcCompApply_keeps p Keeps.refl
  | .rxFastRead p => execRxFastRead_keeps p Keeps.refl
  | .rxSet p => execRxSet_keeps p Keeps.refl
  | .rxNco p => execRxNco_keeps p Keeps.refl
  | .rxEnable p => execRxEnable_keeps p Keeps.refl
  | .rxAgcSet p => execRxAgcSet_keeps p Keeps.refl
  | .rxAgcTab p => execRxAgcTab_keeps p Keeps.refl
  | .rxDetect p => execRxDetect_keeps p Keeps.refl
  | .adcCal p => execAdcCal_keeps p Keeps.refl
  | .rxStatus p => execRxStatus_keeps p Keeps.refl
  | .calCycleStart => execCalCycleStart_keeps Keeps.refl
  | .calOccasion n l ms => execCalOccasion_keeps n l ms Keeps.refl
  | .calResults => execCalResults_keeps Keeps.refl
  | .calConfig p => execCalConfig_keeps p Keeps.refl
  | .calNetLoad p => execCalNetLoad_keeps p Keeps.refl
  | .calRun p => execCalRun_keeps p Keeps.refl
  | .calApply p => execCalApply_keeps p Keeps.refl
  | .calSave p => execCalSave_keeps p Keeps.refl
  | .calRestore p => execCalRestore_keeps p Keeps.refl
  | .calStatus p => execCalStatus_keeps p Keeps.refl
  | .tileStripe l tile hdr slots badLanes => execTileStripe_keeps l tile hdr slots badLanes Keeps.refl
  | .cascStripe k hdr payload => execCascStripe_keeps k hdr payload Keeps.refl
  | .cascLayerRecord k => execCascLayerRecord_keeps k Keeps.refl
  | .cascPartialRecord k => execCascPartialRecord_keeps k Keeps.refl
  | .cascEstimateRecord k => execCascEstimateRecord_keeps k Keeps.refl
  | .cascSliceRecord k => execCascSliceRecord_keeps k Keeps.refl
  | .ackMessage l n => execAckMessage_keeps l n Keeps.refl
  | .regReq l write o w => execRegReq_keeps l write o w Keeps.refl
  | .regRsp l w => execRegRsp_keeps l w Keeps.refl
  | .captureMessage r bs => execCaptureMessage_keeps r bs Keeps.refl
  | .laneMessage l confirm logical spare at_ => execLaneMessage_keeps l confirm logical spare at_ Keeps.refl
  | .timeMessage lead m => execTimeMessage_keeps lead m Keeps.refl
  | .commitMessage m => execCommitMessage_keeps m Keeps.refl
  | .wakeMessage pkgs tiles => execWakeMessage_keeps pkgs tiles Keeps.refl
  | .mboxMessage k ws => execMboxMessage_keeps k ws Keeps.refl
  | .ctrlMessage k m => execCtrlMessage_keeps k m Keeps.refl
  | .alignMessage l m => execAlignMessage_keeps l m Keeps.refl
  | .msgResendTimeout l => execMsgResendTimeout_keeps l Keeps.refl
  | .linkTrain l attempts lat nearer => execLinkTrain_keeps l attempts lat nearer Keeps.refl
  | .laneFailure l lane markers tile => execLaneFailure_keeps l lane markers tile Keeps.refl
  | .laneSwap l => execLaneSwap_keeps l Keeps.refl
  | .fomMeasure l foms => execFomMeasure_keeps l foms Keeps.refl
  | .laneRetrain l lane fom => execLaneRetrain_keeps l lane fom Keeps.refl
  | .linkFail l tile => execLinkFail_keeps l tile Keeps.refl
  | .axRetrainWrite l w => execAxRetrainWrite_keeps l w Keeps.refl
  | .cxCfgWrite w => execCxCfgWrite_keeps w Keeps.refl
  | .axStatus p => execAxStatus_keeps p Keeps.refl
  | .axRetrain p => execAxRetrain_keeps p Keeps.refl
  | .axSwap p => execAxSwap_keeps p Keeps.refl
  | .cxRole p => execCxRole_keeps p Keeps.refl
  | .axEye p => execAxEye_keeps p Keeps.refl
  | .checkIntervalEnd seen => execCheckIntervalEnd_keeps seen Keeps.refl
  | .spineFault q => execSpineFault_keeps q Keeps.refl
  | .selfTestDone kind unit pass => execSelfTestDone_keeps kind unit pass Keeps.refl
  | .svInjectGo w => execSvInjectGo_keeps w Keeps.refl
  | .injectionDone => execInjectionDone_keeps Keeps.refl
  | .svStatus p => execSvStatus_keeps p Keeps.refl
  | .svRepair p => execSvRepair_keeps p Keeps.refl
  | .svDeclare p => execSvDeclare_keeps p Keeps.refl
  | .svInject p => execSvInject_keeps p Keeps.refl
  | .svClear p => execSvClear_keeps p Keeps.refl
  | .mbH2dDataWrite m w => execMbH2dDataWrite_keeps m w Keeps.refl
  | .mbDbWrite m w => execMbDbWrite_keeps m w Keeps.refl
  | .packetTimeout m => execPacketTimeout_keeps m Keeps.refl
  | .mbD2hDataRead m => execMbD2hDataRead_keeps m Keeps.refl
  | .d2hRstWrite m => execD2hRstWrite_keeps m Keeps.refl
  | .mbLostRead m => execMbLostRead_keeps m Keeps.refl
  | .noticePush m => execNoticePush_keeps m Keeps.refl
  | .spiWriteWords ws => execSpiWriteWords_keeps ws Keeps.refl
  | .spiReadWords n => execSpiReadWords_keeps n Keeps.refl
  | .spiReadStatus => execSpiReadStatus_keeps Keeps.refl
  | .spiWriteLoadBytes ws => execSpiWriteLoadBytes_keeps ws Keeps.refl
  | .undefinedOpcode op p => execUndefinedOpcode_keeps op p Keeps.refl
  | .testDebugCmd op p => execTestDebugCmd_keeps op p Keeps.refl
  | .sysNop p => execSysNop_keeps p Keeps.refl
  | .sysInfo p => execSysInfo_keeps p Keeps.refl
  | .sysStateGet p => execSysStateGet_keeps p Keeps.refl
  | .sysStateSet p => execSysStateSet_keeps p Keeps.refl
  | .sysCommit p => execSysCommit_keeps p Keeps.refl
  | .sysCommitCancel p => execSysCommitCancel_keeps p Keeps.refl
  | .sysDiscard p => execSysDiscard_keeps p Keeps.refl
  | .sysRestart p => execSysRestart_keeps p Keeps.refl
  | .sysEventCfg p => execSysEventCfg_keeps p Keeps.refl
  | .glCmtNowWrite w => execGlCmtNowWrite_keeps w Keeps.refl
  | .ringEnable n w => execRingEnable_keeps n w Keeps.refl
  | .ringDisable n w => execRingDisable_keeps n w Keeps.refl
  | .ringDrain n => execRingDrain_keeps n Keeps.refl
  | .ringDbWrite n => execRingDbWrite_keeps n Keeps.refl
  | .descFetch n words err => execDescFetch_keeps n words err Keeps.refl
  | .descFinish n data err => execDescFinish_keeps n data err Keeps.refl
  | .readCompletionTimeout n => execReadCompletionTimeout_keeps n Keeps.refl
  | .dmaShCommitWrite n w => execDmaShCommitWrite_keeps n w Keeps.refl
  | .directHandover n data err => execDirectHandover_keeps n data err Keeps.refl
  | .directHalfPoint n => execDirectHalfPoint_keeps n Keeps.refl
  | .dmaStopWrite n => execDmaStopWrite_keeps n Keeps.refl
  | .monitorSequence => execMonitorSequence_keeps Keeps.refl
  | .monitorConversionDone q input dev => execMonitorConversionDone_keeps q input dev Keeps.refl
  | .monitorCalDone q dur => execMonitorCalDone_keeps q dur Keeps.refl
  | .monitorCalPeriod q => execMonitorCalPeriod_keeps q Keeps.refl
  | .monitorPowerDown q => execMonitorPowerDown_keeps q Keeps.refl
  | .maInjWrite q w => execMaInjWrite_keeps q w Keeps.refl
  | .maCalWrite q w => execMaCalWrite_keeps q w Keeps.refl
  | .maTakeWrite q w => execMaTakeWrite_keeps q w Keeps.refl
  | .maInjResRead q => execMaInjResRead_keeps q Keeps.refl
  | .snapNowWrite w => execSnapNowWrite_keeps w Keeps.refl
  | .snapshotFire => execSnapshotFire_keeps Keeps.refl
  | .snapshotLatch => execSnapshotLatch_keeps Keeps.refl
  | .monSnapRelWrite w => execMonSnapRelWrite_keeps w Keeps.refl
  | .recorderEvent rec code src late detail => execRecorderEvent_keeps rec code src late detail Keeps.refl
  | .recorderTrigger rec => execRecorderTrigger_keeps rec Keeps.refl
  | .recMarkWrite w => execRecMarkWrite_keeps w Keeps.refl
  | .recClear r => execRecClear_keeps r Keeps.refl
  | .recTest r => execRecTest_keeps r Keeps.refl
  | .recTestDone r bad => execRecTestDone_keeps r bad Keeps.refl
  | .recRearm t => execRecRearm_keeps t Keeps.refl
  | .recorderMemoryError r slot corrected code src detail => execRecorderMemoryError_keeps r slot corrected code src detail Keeps.refl
  | .snapAt p => execSnapAt_keeps p Keeps.refl
  | .snapRelease p => execSnapRelease_keeps p Keeps.refl
  | .snapInfo p => execSnapInfo_keeps p Keeps.refl
  | .snapDeliver p => execSnapDeliver_keeps p Keeps.refl
  | .recMapSet p => execRecMapSet_keeps p Keeps.refl
  | .recListSet p => execRecListSet_keeps p Keeps.refl
  | .recCtrl p => execRecCtrl_keeps p Keeps.refl
  | .recMark p => execRecMark_keeps p Keeps.refl
  | .recStatus p => execRecStatus_keeps p Keeps.refl
  | .maSet p => execMaSet_keeps p Keeps.refl
  | .maWindow p => execMaWindow_keeps p Keeps.refl
  | .maConvert p => execMaConvert_keeps p Keeps.refl
  | .maTake p => execMaTake_keeps p Keeps.refl
  | .maCal p => execMaCal_keeps p Keeps.refl
  | .maStatus p => execMaStatus_keeps p Keeps.refl
  | .sensorConversion rs => execSensorConversion_keeps rs Keeps.refl
  | .thermalShutdown cut => execThermalShutdown_keeps cut Keeps.refl
  | .thermalRestart => execThermalRestart_keeps Keeps.refl
  | .thThrWrite r w => execThThrWrite_keeps r w Keeps.refl
  | .thStatus p => execThStatus_keeps p Keeps.refl
  | .thSet p => execThSet_keeps p Keeps.refl
  | .thRead p => execThRead_keeps p Keeps.refl
  | .thSimulate p => execThSimulate_keeps p Keeps.refl
  | .powerEntryStart scope => execPowerEntryStart_keeps scope Keeps.refl
  | .entryReask scope => execEntryReask_keeps scope Keeps.refl
  | .entryDelayTimeout scope => execEntryDelayTimeout_keeps scope Keeps.refl
  | .powerEntryExec scope => execPowerEntryExec_keeps scope Keeps.refl
  | .blankWindow => execBlankWindow_keeps Keeps.refl
  | .wakeSource src tiles => execWakeSource_keeps src tiles Keeps.refl
  | .wakeStepTimeout scope => execWakeStepTimeout_keeps scope Keeps.refl
  | .wakeComplete scope => execWakeComplete_keeps scope Keeps.refl
  | .refclkLoss => execRefclkLoss_keeps Keeps.refl
  | .pwDoorbellWrite w => execPwDoorbellWrite_keeps w Keeps.refl
  | .pwPadRelWrite w => execPwPadRelWrite_keeps w Keeps.refl
  | .pwStatus p => execPwStatus_keeps p Keeps.refl
  | .pwTile p => execPwTile_keeps p Keeps.refl
  | .pwDeep p => execPwDeep_keeps p Keeps.refl
  | .pwWake p => execPwWake_keeps p Keeps.refl
  | .pwWakeRetry p => execPwWakeRetry_keeps p Keeps.refl
  | .pwPadRelease p => execPwPadRelease_keeps p Keeps.refl
  | .pwRetClear p => execPwRetClear_keeps p Keeps.refl
  | .pwConfig p => execPwConfig_keeps p Keeps.refl
  | .pwBlank p => execPwBlank_keeps p Keeps.refl
  | .cellarRecordWrite ok => execCellarRecordWrite_keeps ok Keeps.refl
  | .racking => execRacking_keeps Keeps.refl
  | .secureWindowWrite => execSecureWindowWrite_keeps Keeps.refl
  | .celStatus p => execCelStatus_keeps p Keeps.refl
  | .celRead p => execCelRead_keeps p Keeps.refl
  | .secId p => execSecId_keeps p Keeps.refl
  | .secAttest p => execSecAttest_keeps p Keeps.refl
  | .secDbgChallenge p => execSecDbgChallenge_keeps p Keeps.refl
  | .imgLoad p => execImgLoad_keeps p Keeps.refl
  | .imgActivate p => execImgActivate_keeps p Keeps.refl
  | .cfgApply p => execCfgApply_keeps p Keeps.refl
  | .celLogClear p => execCelLogClear_keeps p Keeps.refl
  | .secArbAdvance p => execSecArbAdvance_keeps p Keeps.refl
  | .celRack p => execCelRack_keeps p Keeps.refl
  | .secKeyFuse p => execSecKeyFuse_keeps p Keeps.refl
  | .secKeyRevoke p => execSecKeyRevoke_keeps p Keeps.refl
  | .secDbgUnlock p => execSecDbgUnlock_keeps p Keeps.refl
  | .secDbgLock p => execSecDbgLock_keeps p Keeps.refl
  | .powerOn => execPowerOn_keeps Keeps.refl
  | .rstNLow ns => execRstNLow_keeps ns Keeps.refl
  | .watchdogTimeout => execWatchdogTimeout_keeps Keeps.refl
  | .boot sel headers torn version hubOk badTiles sramOk => execBoot_keeps sel headers torn version hubOk badTiles sramOk Keeps.refl
  | .perstNAssert => execPerstNAssert_keeps Keeps.refl
  | .functionLevelReset => execFunctionLevelReset_keeps Keeps.refl
  | .registerRead bar2 o be => execRegisterRead_keeps bar2 o be Keeps.refl
  | .supplyRemoval => execSupplyRemoval_keeps Keeps.refl
  | .synceLockRegain => execSynceLockRegain_keeps Keeps.refl
  | .blankingWindowEnd p => execBlankingWindowEnd_keeps p Keeps.refl
  | .hubRestartWindowExpiry => execHubRestartWindowExpiry_keeps Keeps.refl
  | .sysRestartExpiry => execSysRestartExpiry_keeps Keeps.refl
  | .attestationDone => execAttestationDone_keeps Keeps.refl
  | .perstNRelease => execPerstNRelease_keeps Keeps.refl
  | .wakeStepDone scope bad => execWakeStepDone_keeps scope bad Keeps.refl

end Sys2Proof.Machine
end

