-- ==== Sys2Proof/Laws/Solver.lean ====
section
/-!
SUPPORT. What issuing the two slots of a solver bundle does, case by case: the lemmas that a proof about a solver command cites in place of
`State.mIssue` and `State.xIssue`.
-/

namespace Sys2Proof.Machine

variable {s : State} {c word : Nat} {fits : Bool}

theorem mIssue_not_ready {f : CoreSt → MRes} (h : s.mReady c = false) : s.mIssue c word fits f = s := by
  simp [State.mIssue, h]

/-- The M slot before its result is judged. -/
theorem mIssue_of_issues {f : CoreSt → MRes} (h : s.MIssues c word) (hf : fits = true) :
    s.mIssue c word fits f =
      match (f (s.coreOf c)).err with
      | some e => s.progError c e
      | none => if (f (s.coreOf c)).fail then s.coreFail c 1 else s.mDone c (f (s.coreOf c)) := by
  have h1 : ((s.bundle (s.coreOf c).pc).map (· % 2 ^ 32)).any (fun x => !legalM x) = false := by
    cases hb : s.bundle (s.coreOf c).pc with
    | none => rfl
    | some v =>
      have hv := h.held v hb
      simp only [Option.map_some, Option.any_some, hv, h.legal, Bool.not_true]
  have h2 : ((s.bundle (s.coreOf c).pc).map (· % 2 ^ 32)).any (· != word) = false := by
    cases hb : s.bundle (s.coreOf c).pc with
    | none => rfl
    | some v =>
      have hv := h.held v hb
      simp only [Option.map_some, Option.any_some, hv, bne_self_eq_false]
  have h3 : s.injected 0x30 c = (none, s) := by simp [State.injected, h.calm]
  simp only [State.mIssue, h.ready, h1, h2, h3, hf, h.legal, ite_self]
  cases (f (s.coreOf c)).err with
  | some e => rfl
  | none =>
    simp only [State.mDone]
    simp

theorem mIssue_done {f : CoreSt → MRes} (h : s.MIssues c word) (hf : fits = true) (he : (f (s.coreOf c)).err = none)
    (hx : (f (s.coreOf c)).fail = false) : s.mIssue c word fits f = s.mDone c (f (s.coreOf c)) := by
  simp [mIssue_of_issues h hf, he, hx]

theorem mIssue_err {f : CoreSt → MRes} {e : Nat} (h : s.MIssues c word) (hf : fits = true) (he : (f (s.coreOf c)).err = some e) :
    s.mIssue c word fits f = s.progError c e := by
  simp [mIssue_of_issues h hf, he]

theorem xIssue_no_m {f : CoreSt → XRes} (h : (s.coreOf c).mw = none) : s.xIssue c word fits f = s := by
  simp [State.xIssue, h]

theorem xIssue_done {mw : MWrites} {f : CoreSt → XRes} (h : s.XIssues c word mw) (hf : fits = true) :
    s.xIssue c word fits f = s.endBundle c mw (f (s.coreOf c)) := by
  have h1 : ((s.bundle (s.coreOf c).pc).map (· / 2 ^ 32)).any (fun x => !legalX x) = false := by
    cases hb : s.bundle (s.coreOf c).pc with
    | none => rfl
    | some v =>
      have hv := h.held v hb
      simp only [Option.map_some, Option.any_some, hv, h.legal, Bool.not_true]
  have h2 : ((s.bundle (s.coreOf c).pc).map (· / 2 ^ 32)).any (· != word) = false := by
    cases hb : s.bundle (s.coreOf c).pc with
    | none => rfl
    | some v =>
      have hv := h.held v hb
      simp only [Option.map_some, Option.any_some, hv, bne_self_eq_false]
  simp only [State.xIssue, h.after, h1, h2, hf, h.legal, h.core]
  simp

end Sys2Proof.Machine
end

