-- ==== Sys2Proof/Laws/State.lean ====
section
/-!
SUPPORT. Small laws of the state: what each named update leaves alone, field by field, and what a read gives after a write.
A goal that some update leaves a field alone is closed by simp with these laws; by rfl alone the kernel unfolds every update above it.
-/
namespace Sys2Proof.Machine

@[simp] theorem State.wr_part (s : State) (a : Nat) (w : Word) : (s.wr a w).part = s.part := rfl
@[simp] theorem State.wr_tick (s : State) (a : Nat) (w : Word) : (s.wr a w).tick = s.tick := rfl
@[simp] theorem State.wr_staged (s : State) (a : Nat) (w : Word) : (s.wr a w).staged = s.staged := rfl
@[simp] theorem State.wr_tb (s : State) (a : Nat) (w : Word) : (s.wr a w).tb = s.tb := rfl
@[simp] theorem State.wr_host (s : State) (a : Nat) (w : Word) : (s.wr a w).host = s.host := rfl
@[simp] theorem State.wr_recs (s : State) (a : Nat) (w : Word) : (s.wr a w).recs = s.recs := rfl
@[simp] theorem State.wr_cars (s : State) (a : Nat) (w : Word) : (s.wr a w).cars = s.cars := rfl
@[simp] theorem State.wr_tx (s : State) (a : Nat) (w : Word) : (s.wr a w).tx = s.tx := rfl
@[simp] theorem State.wr_rx (s : State) (a : Nat) (w : Word) : (s.wr a w).rx = s.rx := rfl
@[simp] theorem State.wr_pr (s : State) (a : Nat) (w : Word) : (s.wr a w).pr = s.pr := rfl
@[simp] theorem State.wr_can (s : State) (a : Nat) (w : Word) : (s.wr a w).can = s.can := rfl
@[simp] theorem State.wr_orx (s : State) (a : Nat) (w : Word) : (s.wr a w).orx = s.orx := rfl
@[simp] theorem State.wr_adc (s : State) (a : Nat) (w : Word) : (s.wr a w).adc = s.adc := rfl
@[simp] theorem State.wr_agc (s : State) (a : Nat) (w : Word) : (s.wr a w).agc = s.agc := rfl
@[simp] theorem State.wr_air (s : State) (a : Nat) (w : Word) : (s.wr a w).air = s.air := rfl
@[simp] theorem State.wr_rowst (s : State) (a : Nat) (w : Word) : (s.wr a w).rowst = s.rowst := rfl
@[simp] theorem State.wr_tddOld (s : State) (a : Nat) (w : Word) : (s.wr a w).tddOld = s.tddOld := rfl
@[simp] theorem State.wr_fh (s : State) (a : Nat) (w : Word) : (s.wr a w).fh = s.fh := rfl
@[simp] theorem State.wr_links (s : State) (a : Nat) (w : Word) : (s.wr a w).links = s.links := rfl
@[simp] theorem State.wr_tr (s : State) (a : Nat) (w : Word) : (s.wr a w).tr = s.tr := rfl
@[simp] theorem State.wr_sol (s : State) (a : Nat) (w : Word) : (s.wr a w).sol = s.sol := rfl
@[simp] theorem State.wr_cal (s : State) (a : Nat) (w : Word) : (s.wr a w).cal = s.cal := rfl
@[simp] theorem State.wr_sv (s : State) (a : Nat) (w : Word) : (s.wr a w).sv = s.sv := rfl
@[simp] theorem State.wr_dma (s : State) (a : Nat) (w : Word) : (s.wr a w).dma = s.dma := rfl
@[simp] theorem State.wr_mon (s : State) (a : Nat) (w : Word) : (s.wr a w).mon = s.mon := rfl
@[simp] theorem State.wr_pw (s : State) (a : Nat) (w : Word) : (s.wr a w).pw = s.pw := rfl
@[simp] theorem State.wr_th (s : State) (a : Nat) (w : Word) : (s.wr a w).th = s.th := rfl
@[simp] theorem State.wr_celOrders (s : State) (a : Nat) (w : Word) : (s.wr a w).celOrders = s.celOrders := rfl
@[simp] theorem State.wr_cel (s : State) (a : Nat) (w : Word) : (s.wr a w).cel = s.cel := rfl
@[simp] theorem State.wr_boot (s : State) (a : Nat) (w : Word) : (s.wr a w).boot = s.boot := rfl
@[simp] theorem State.wr_lost (s : State) (a : Nat) (w : Word) : (s.wr a w).lost = s.lost := rfl
@[simp] theorem State.wr_pending (s : State) (a : Nat) (w : Word) : (s.wr a w).pending = s.pending := rfl
@[simp] theorem State.wr_fresh (s : State) (a : Nat) (w : Word) : (s.wr a w).fresh = s.fresh := rfl

@[simp] theorem State.pf_part (s : State) (a hi lo v : Nat) : (s.pf a hi lo v).part = s.part := rfl
@[simp] theorem State.pf_tick (s : State) (a hi lo v : Nat) : (s.pf a hi lo v).tick = s.tick := rfl
@[simp] theorem State.pf_staged (s : State) (a hi lo v : Nat) : (s.pf a hi lo v).staged = s.staged := rfl
@[simp] theorem State.pf_tb (s : State) (a hi lo v : Nat) : (s.pf a hi lo v).tb = s.tb := rfl
@[simp] theorem State.pf_host (s : State) (a hi lo v : Nat) : (s.pf a hi lo v).host = s.host := rfl
@[simp] theorem State.pf_recs (s : State) (a hi lo v : Nat) : (s.pf a hi lo v).recs = s.recs := rfl
@[simp] theorem State.pf_cars (s : State) (a hi lo v : Nat) : (s.pf a hi lo v).cars = s.cars := rfl
@[simp] theorem State.pf_tx (s : State) (a hi lo v : Nat) : (s.pf a hi lo v).tx = s.tx := rfl
@[simp] theorem State.pf_rx (s : State) (a hi lo v : Nat) : (s.pf a hi lo v).rx = s.rx := rfl
@[simp] theorem State.pf_pr (s : State) (a hi lo v : Nat) : (s.pf a hi lo v).pr = s.pr := rfl
@[simp] theorem State.pf_can (s : State) (a hi lo v : Nat) : (s.pf a hi lo v).can = s.can := rfl
@[simp] theorem State.pf_orx (s : State) (a hi lo v : Nat) : (s.pf a hi lo v).orx = s.orx := rfl
@[simp] theorem State.pf_adc (s : State) (a hi lo v : Nat) : (s.pf a hi lo v).adc = s.adc := rfl
@[simp] theorem State.pf_agc (s : State) (a hi lo v : Nat) : (s.pf a hi lo v).agc = s.agc := rfl
@[simp] theorem State.pf_air (s : State) (a hi lo v : Nat) : (s.pf a hi lo v).air = s.air := rfl
@[simp] theorem State.pf_rowst (s : State) (a hi lo v : Nat) : (s.pf a hi lo v).rowst = s.rowst := rfl
@[simp] theorem State.pf_tddOld (s : State) (a hi lo v : Nat) : (s.pf a hi lo v).tddOld = s.tddOld := rfl
@[simp] theorem State.pf_fh (s : State) (a hi lo v : Nat) : (s.pf a hi lo v).fh = s.fh := rfl
@[simp] theorem State.pf_links (s : State) (a hi lo v : Nat) : (s.pf a hi lo v).links = s.links := rfl
@[simp] theorem State.pf_tr (s : State) (a hi lo v : Nat) : (s.pf a hi lo v).tr = s.tr := rfl
@[simp] theorem State.pf_sol (s : State) (a hi lo v : Nat) : (s.pf a hi lo v).sol = s.sol := rfl
@[simp] theorem State.pf_cal (s : State) (a hi lo v : Nat) : (s.pf a hi lo v).cal = s.cal := rfl
@[simp] theorem State.pf_sv (s : State) (a hi lo v : Nat) : (s.pf a hi lo v).sv = s.sv := rfl
@[simp] theorem State.pf_dma (s : State) (a hi lo v : Nat) : (s.pf a hi lo v).dma = s.dma := rfl
@[simp] theorem State.pf_mon (s : State) (a hi lo v : Nat) : (s.pf a hi lo v).mon = s.mon := rfl
@[simp] theorem State.pf_pw (s : State) (a hi lo v : Nat) : (s.pf a hi lo v).pw = s.pw := rfl
@[simp] theorem State.pf_th (s : State) (a hi lo v : Nat) : (s.pf a hi lo v).th = s.th := rfl
@[simp] theorem State.pf_celOrders (s : State) (a hi lo v : Nat) : (s.pf a hi lo v).celOrders = s.celOrders := rfl
@[simp] theorem State.pf_cel (s : State) (a hi lo v : Nat) : (s.pf a hi lo v).cel = s.cel := rfl
@[simp] theorem State.pf_boot (s : State) (a hi lo v : Nat) : (s.pf a hi lo v).boot = s.boot := rfl
@[simp] theorem State.pf_lost (s : State) (a hi lo v : Nat) : (s.pf a hi lo v).lost = s.lost := rfl
@[simp] theorem State.pf_pending (s : State) (a hi lo v : Nat) : (s.pf a hi lo v).pending = s.pending := rfl
@[simp] theorem State.pf_fresh (s : State) (a hi lo v : Nat) : (s.pf a hi lo v).fresh = s.fresh := rfl

@[simp] theorem State.pb_part (s : State) (a b : Nat) (v : Bool) : (s.pb a b v).part = s.part := rfl
@[simp] theorem State.pb_tick (s : State) (a b : Nat) (v : Bool) : (s.pb a b v).tick = s.tick := rfl
@[simp] theorem State.pb_staged (s : State) (a b : Nat) (v : Bool) : (s.pb a b v).staged = s.staged := rfl
@[simp] theorem State.pb_tb (s : State) (a b : Nat) (v : Bool) : (s.pb a b v).tb = s.tb := rfl
@[simp] theorem State.pb_host (s : State) (a b : Nat) (v : Bool) : (s.pb a b v).host = s.host := rfl
@[simp] theorem State.pb_recs (s : State) (a b : Nat) (v : Bool) : (s.pb a b v).recs = s.recs := rfl
@[simp] theorem State.pb_cars (s : State) (a b : Nat) (v : Bool) : (s.pb a b v).cars = s.cars := rfl
@[simp] theorem State.pb_tx (s : State) (a b : Nat) (v : Bool) : (s.pb a b v).tx = s.tx := rfl
@[simp] theorem State.pb_rx (s : State) (a b : Nat) (v : Bool) : (s.pb a b v).rx = s.rx := rfl
@[simp] theorem State.pb_pr (s : State) (a b : Nat) (v : Bool) : (s.pb a b v).pr = s.pr := rfl
@[simp] theorem State.pb_can (s : State) (a b : Nat) (v : Bool) : (s.pb a b v).can = s.can := rfl
@[simp] theorem State.pb_orx (s : State) (a b : Nat) (v : Bool) : (s.pb a b v).orx = s.orx := rfl
@[simp] theorem State.pb_adc (s : State) (a b : Nat) (v : Bool) : (s.pb a b v).adc = s.adc := rfl
@[simp] theorem State.pb_agc (s : State) (a b : Nat) (v : Bool) : (s.pb a b v).agc = s.agc := rfl
@[simp] theorem State.pb_air (s : State) (a b : Nat) (v : Bool) : (s.pb a b v).air = s.air := rfl
@[simp] theorem State.pb_rowst (s : State) (a b : Nat) (v : Bool) : (s.pb a b v).rowst = s.rowst := rfl
@[simp] theorem State.pb_tddOld (s : State) (a b : Nat) (v : Bool) : (s.pb a b v).tddOld = s.tddOld := rfl
@[simp] theorem State.pb_fh (s : State) (a b : Nat) (v : Bool) : (s.pb a b v).fh = s.fh := rfl
@[simp] theorem State.pb_links (s : State) (a b : Nat) (v : Bool) : (s.pb a b v).links = s.links := rfl
@[simp] theorem State.pb_tr (s : State) (a b : Nat) (v : Bool) : (s.pb a b v).tr = s.tr := rfl
@[simp] theorem State.pb_sol (s : State) (a b : Nat) (v : Bool) : (s.pb a b v).sol = s.sol := rfl
@[simp] theorem State.pb_cal (s : State) (a b : Nat) (v : Bool) : (s.pb a b v).cal = s.cal := rfl
@[simp] theorem State.pb_sv (s : State) (a b : Nat) (v : Bool) : (s.pb a b v).sv = s.sv := rfl
@[simp] theorem State.pb_dma (s : State) (a b : Nat) (v : Bool) : (s.pb a b v).dma = s.dma := rfl
@[simp] theorem State.pb_mon (s : State) (a b : Nat) (v : Bool) : (s.pb a b v).mon = s.mon := rfl
@[simp] theorem State.pb_pw (s : State) (a b : Nat) (v : Bool) : (s.pb a b v).pw = s.pw := rfl
@[simp] theorem State.pb_th (s : State) (a b : Nat) (v : Bool) : (s.pb a b v).th = s.th := rfl
@[simp] theorem State.pb_celOrders (s : State) (a b : Nat) (v : Bool) : (s.pb a b v).celOrders = s.celOrders := rfl
@[simp] theorem State.pb_cel (s : State) (a b : Nat) (v : Bool) : (s.pb a b v).cel = s.cel := rfl
@[simp] theorem State.pb_boot (s : State) (a b : Nat) (v : Bool) : (s.pb a b v).boot = s.boot := rfl
@[simp] theorem State.pb_lost (s : State) (a b : Nat) (v : Bool) : (s.pb a b v).lost = s.lost := rfl
@[simp] theorem State.pb_pending (s : State) (a b : Nat) (v : Bool) : (s.pb a b v).pending = s.pending := rfl
@[simp] theorem State.pb_fresh (s : State) (a b : Nat) (v : Bool) : (s.pb a b v).fresh = s.fresh := rfl

@[simp] theorem State.bump_part (s : State) (a : Nat) : (s.bump a).part = s.part := rfl
@[simp] theorem State.bump_tick (s : State) (a : Nat) : (s.bump a).tick = s.tick := rfl
@[simp] theorem State.bump_staged (s : State) (a : Nat) : (s.bump a).staged = s.staged := rfl
@[simp] theorem State.bump_tb (s : State) (a : Nat) : (s.bump a).tb = s.tb := rfl
@[simp] theorem State.bump_host (s : State) (a : Nat) : (s.bump a).host = s.host := rfl
@[simp] theorem State.bump_recs (s : State) (a : Nat) : (s.bump a).recs = s.recs := rfl
@[simp] theorem State.bump_cars (s : State) (a : Nat) : (s.bump a).cars = s.cars := rfl
@[simp] theorem State.bump_tx (s : State) (a : Nat) : (s.bump a).tx = s.tx := rfl
@[simp] theorem State.bump_rx (s : State) (a : Nat) : (s.bump a).rx = s.rx := rfl
@[simp] theorem State.bump_pr (s : State) (a : Nat) : (s.bump a).pr = s.pr := rfl
@[simp] theorem State.bump_can (s : State) (a : Nat) : (s.bump a).can = s.can := rfl
@[simp] theorem State.bump_orx (s : State) (a : Nat) : (s.bump a).orx = s.orx := rfl
@[simp] theorem State.bump_adc (s : State) (a : Nat) : (s.bump a).adc = s.adc := rfl
@[simp] theorem State.bump_agc (s : State) (a : Nat) : (s.bump a).agc = s.agc := rfl
@[simp] theorem State.bump_air (s : State) (a : Nat) : (s.bump a).air = s.air := rfl
@[simp] theorem State.bump_rowst (s : State) (a : Nat) : (s.bump a).rowst = s.rowst := rfl
@[simp] theorem State.bump_tddOld (s : State) (a : Nat) : (s.bump a).tddOld = s.tddOld := rfl
@[simp] theorem State.bump_fh (s : State) (a : Nat) : (s.bump a).fh = s.fh := rfl
@[simp] theorem State.bump_links (s : State) (a : Nat) : (s.bump a).links = s.links := rfl
@[simp] theorem State.bump_tr (s : State) (a : Nat) : (s.bump a).tr = s.tr := rfl
@[simp] theorem State.bump_sol (s : State) (a : Nat) : (s.bump a).sol = s.sol := rfl
@[simp] theorem State.bump_cal (s : State) (a : Nat) : (s.bump a).cal = s.cal := rfl
@[simp] theorem State.bump_sv (s : State) (a : Nat) : (s.bump a).sv = s.sv := rfl
@[simp] theorem State.bump_dma (s : State) (a : Nat) : (s.bump a).dma = s.dma := rfl
@[simp] theorem State.bump_mon (s : State) (a : Nat) : (s.bump a).mon = s.mon := rfl
@[simp] theorem State.bump_pw (s : State) (a : Nat) : (s.bump a).pw = s.pw := rfl
@[simp] theorem State.bump_th (s : State) (a : Nat) : (s.bump a).th = s.th := rfl
@[simp] theorem State.bump_celOrders (s : State) (a : Nat) : (s.bump a).celOrders = s.celOrders := rfl
@[simp] theorem State.bump_cel (s : State) (a : Nat) : (s.bump a).cel = s.cel := rfl
@[simp] theorem State.bump_boot (s : State) (a : Nat) : (s.bump a).boot = s.boot := rfl
@[simp] theorem State.bump_lost (s : State) (a : Nat) : (s.bump a).lost = s.lost := rfl
@[simp] theorem State.bump_pending (s : State) (a : Nat) : (s.bump a).pending = s.pending := rfl
@[simp] theorem State.bump_fresh (s : State) (a : Nat) : (s.bump a).fresh = s.fresh := rfl

@[simp] theorem State.swr_part (s : State) (a : Nat) (w : Word) : (s.swr a w).part = s.part := rfl
@[simp] theorem State.swr_tick (s : State) (a : Nat) (w : Word) : (s.swr a w).tick = s.tick := rfl
@[simp] theorem State.swr_live (s : State) (a : Nat) (w : Word) : (s.swr a w).live = s.live := rfl
@[simp] theorem State.swr_tb (s : State) (a : Nat) (w : Word) : (s.swr a w).tb = s.tb := rfl
@[simp] theorem State.swr_host (s : State) (a : Nat) (w : Word) : (s.swr a w).host = s.host := rfl
@[simp] theorem State.swr_recs (s : State) (a : Nat) (w : Word) : (s.swr a w).recs = s.recs := rfl
@[simp] theorem State.swr_cars (s : State) (a : Nat) (w : Word) : (s.swr a w).cars = s.cars := rfl
@[simp] theorem State.swr_tx (s : State) (a : Nat) (w : Word) : (s.swr a w).tx = s.tx := rfl
@[simp] theorem State.swr_rx (s : State) (a : Nat) (w : Word) : (s.swr a w).rx = s.rx := rfl
@[simp] theorem State.swr_pr (s : State) (a : Nat) (w : Word) : (s.swr a w).pr = s.pr := rfl
@[simp] theorem State.swr_can (s : State) (a : Nat) (w : Word) : (s.swr a w).can = s.can := rfl
@[simp] theorem State.swr_orx (s : State) (a : Nat) (w : Word) : (s.swr a w).orx = s.orx := rfl
@[simp] theorem State.swr_adc (s : State) (a : Nat) (w : Word) : (s.swr a w).adc = s.adc := rfl
@[simp] theorem State.swr_agc (s : State) (a : Nat) (w : Word) : (s.swr a w).agc = s.agc := rfl
@[simp] theorem State.swr_air (s : State) (a : Nat) (w : Word) : (s.swr a w).air = s.air := rfl
@[simp] theorem State.swr_rowst (s : State) (a : Nat) (w : Word) : (s.swr a w).rowst = s.rowst := rfl
@[simp] theorem State.swr_tddOld (s : State) (a : Nat) (w : Word) : (s.swr a w).tddOld = s.tddOld := rfl
@[simp] theorem State.swr_fh (s : State) (a : Nat) (w : Word) : (s.swr a w).fh = s.fh := rfl
@[simp] theorem State.swr_links (s : State) (a : Nat) (w : Word) : (s.swr a w).links = s.links := rfl
@[simp] theorem State.swr_tr (s : State) (a : Nat) (w : Word) : (s.swr a w).tr = s.tr := rfl
@[simp] theorem State.swr_sol (s : State) (a : Nat) (w : Word) : (s.swr a w).sol = s.sol := rfl
@[simp] theorem State.swr_cal (s : State) (a : Nat) (w : Word) : (s.swr a w).cal = s.cal := rfl
@[simp] theorem State.swr_sv (s : State) (a : Nat) (w : Word) : (s.swr a w).sv = s.sv := rfl
@[simp] theorem State.swr_dma (s : State) (a : Nat) (w : Word) : (s.swr a w).dma = s.dma := rfl
@[simp] theorem State.swr_mon (s : State) (a : Nat) (w : Word) : (s.swr a w).mon = s.mon := rfl
@[simp] theorem State.swr_pw (s : State) (a : Nat) (w : Word) : (s.swr a w).pw = s.pw := rfl
@[simp] theorem State.swr_th (s : State) (a : Nat) (w : Word) : (s.swr a w).th = s.th := rfl
@[simp] theorem State.swr_celOrders (s : State) (a : Nat) (w : Word) : (s.swr a w).celOrders = s.celOrders := rfl
@[simp] theorem State.swr_cel (s : State) (a : Nat) (w : Word) : (s.swr a w).cel = s.cel := rfl
@[simp] theorem State.swr_boot (s : State) (a : Nat) (w : Word) : (s.swr a w).boot = s.boot := rfl
@[simp] theorem State.swr_lost (s : State) (a : Nat) (w : Word) : (s.swr a w).lost = s.lost := rfl
@[simp] theorem State.swr_pending (s : State) (a : Nat) (w : Word) : (s.swr a w).pending = s.pending := rfl
@[simp] theorem State.swr_fresh (s : State) (a : Nat) (w : Word) : (s.swr a w).fresh = s.fresh := rfl

@[simp] theorem State.answer_part (s : State) (w : Word) : (s.answer w).part = s.part := rfl
@[simp] theorem State.answer_tick (s : State) (w : Word) : (s.answer w).tick = s.tick := rfl
@[simp] theorem State.answer_live (s : State) (w : Word) : (s.answer w).live = s.live := rfl
@[simp] theorem State.answer_staged (s : State) (w : Word) : (s.answer w).staged = s.staged := rfl
@[simp] theorem State.answer_tb (s : State) (w : Word) : (s.answer w).tb = s.tb := rfl
@[simp] theorem State.answer_recs (s : State) (w : Word) : (s.answer w).recs = s.recs := rfl
@[simp] theorem State.answer_cars (s : State) (w : Word) : (s.answer w).cars = s.cars := rfl
@[simp] theorem State.answer_tx (s : State) (w : Word) : (s.answer w).tx = s.tx := rfl
@[simp] theorem State.answer_rx (s : State) (w : Word) : (s.answer w).rx = s.rx := rfl
@[simp] theorem State.answer_pr (s : State) (w : Word) : (s.answer w).pr = s.pr := rfl
@[simp] theorem State.answer_can (s : State) (w : Word) : (s.answer w).can = s.can := rfl
@[simp] theorem State.answer_orx (s : State) (w : Word) : (s.answer w).orx = s.orx := rfl
@[simp] theorem State.answer_adc (s : State) (w : Word) : (s.answer w).adc = s.adc := rfl
@[simp] theorem State.answer_agc (s : State) (w : Word) : (s.answer w).agc = s.agc := rfl
@[simp] theorem State.answer_air (s : State) (w : Word) : (s.answer w).air = s.air := rfl
@[simp] theorem State.answer_rowst (s : State) (w : Word) : (s.answer w).rowst = s.rowst := rfl
@[simp] theorem State.answer_tddOld (s : State) (w : Word) : (s.answer w).tddOld = s.tddOld := rfl
@[simp] theorem State.answer_fh (s : State) (w : Word) : (s.answer w).fh = s.fh := rfl
@[simp] theorem State.answer_links (s : State) (w : Word) : (s.answer w).links = s.links := rfl
@[simp] theorem State.answer_tr (s : State) (w : Word) : (s.answer w).tr = s.tr := rfl
@[simp] theorem State.answer_sol (s : State) (w : Word) : (s.answer w).sol = s.sol := rfl
@[simp] theorem State.answer_cal (s : State) (w : Word) : (s.answer w).cal = s.cal := rfl
@[simp] theorem State.answer_sv (s : State) (w : Word) : (s.answer w).sv = s.sv := rfl
@[simp] theorem State.answer_dma (s : State) (w : Word) : (s.answer w).dma = s.dma := rfl
@[simp] theorem State.answer_mon (s : State) (w : Word) : (s.answer w).mon = s.mon := rfl
@[simp] theorem State.answer_pw (s : State) (w : Word) : (s.answer w).pw = s.pw := rfl
@[simp] theorem State.answer_th (s : State) (w : Word) : (s.answer w).th = s.th := rfl
@[simp] theorem State.answer_celOrders (s : State) (w : Word) : (s.answer w).celOrders = s.celOrders := rfl
@[simp] theorem State.answer_cel (s : State) (w : Word) : (s.answer w).cel = s.cel := rfl
@[simp] theorem State.answer_boot (s : State) (w : Word) : (s.answer w).boot = s.boot := rfl
@[simp] theorem State.answer_lost (s : State) (w : Word) : (s.answer w).lost = s.lost := rfl
@[simp] theorem State.answer_pending (s : State) (w : Word) : (s.answer w).pending = s.pending := rfl
@[simp] theorem State.answer_fresh (s : State) (w : Word) : (s.answer w).fresh = s.fresh := rfl

@[simp] theorem State.setMbox_part (s : State) (m : Nat) (b : Mbox) : (s.setMbox m b).part = s.part := rfl
@[simp] theorem State.setMbox_tick (s : State) (m : Nat) (b : Mbox) : (s.setMbox m b).tick = s.tick := rfl
@[simp] theorem State.setMbox_live (s : State) (m : Nat) (b : Mbox) : (s.setMbox m b).live = s.live := rfl
@[simp] theorem State.setMbox_staged (s : State) (m : Nat) (b : Mbox) : (s.setMbox m b).staged = s.staged := rfl
@[simp] theorem State.setMbox_tb (s : State) (m : Nat) (b : Mbox) : (s.setMbox m b).tb = s.tb := rfl
@[simp] theorem State.setMbox_recs (s : State) (m : Nat) (b : Mbox) : (s.setMbox m b).recs = s.recs := rfl
@[simp] theorem State.setMbox_cars (s : State) (m : Nat) (b : Mbox) : (s.setMbox m b).cars = s.cars := rfl
@[simp] theorem State.setMbox_tx (s : State) (m : Nat) (b : Mbox) : (s.setMbox m b).tx = s.tx := rfl
@[simp] theorem State.setMbox_rx (s : State) (m : Nat) (b : Mbox) : (s.setMbox m b).rx = s.rx := rfl
@[simp] theorem State.setMbox_pr (s : State) (m : Nat) (b : Mbox) : (s.setMbox m b).pr = s.pr := rfl
@[simp] theorem State.setMbox_can (s : State) (m : Nat) (b : Mbox) : (s.setMbox m b).can = s.can := rfl
@[simp] theorem State.setMbox_orx (s : State) (m : Nat) (b : Mbox) : (s.setMbox m b).orx = s.orx := rfl
@[simp] theorem State.setMbox_adc (s : State) (m : Nat) (b : Mbox) : (s.setMbox m b).adc = s.adc := rfl
@[simp] theorem State.setMbox_agc (s : State) (m : Nat) (b : Mbox) : (s.setMbox m b).agc = s.agc := rfl
@[simp] theorem State.setMbox_air (s : State) (m : Nat) (b : Mbox) : (s.setMbox m b).air = s.air := rfl
@[simp] theorem State.setMbox_rowst (s : State) (m : Nat) (b : Mbox) : (s.setMbox m b).rowst = s.rowst := rfl
@[simp] theorem State.setMbox_tddOld (s : State) (m : Nat) (b : Mbox) : (s.setMbox m b).tddOld = s.tddOld := rfl
@[simp] theorem State.setMbox_fh (s : State) (m : Nat) (b : Mbox) : (s.setMbox m b).fh = s.fh := rfl
@[simp] theorem State.setMbox_links (s : State) (m : Nat) (b : Mbox) : (s.setMbox m b).links = s.links := rfl
@[simp] theorem State.setMbox_tr (s : State) (m : Nat) (b : Mbox) : (s.setMbox m b).tr = s.tr := rfl
@[simp] theorem State.setMbox_sol (s : State) (m : Nat) (b : Mbox) : (s.setMbox m b).sol = s.sol := rfl
@[simp] theorem State.setMbox_cal (s : State) (m : Nat) (b : Mbox) : (s.setMbox m b).cal = s.cal := rfl
@[simp] theorem State.setMbox_sv (s : State) (m : Nat) (b : Mbox) : (s.setMbox m b).sv = s.sv := rfl
@[simp] theorem State.setMbox_dma (s : State) (m : Nat) (b : Mbox) : (s.setMbox m b).dma = s.dma := rfl
@[simp] theorem State.setMbox_mon (s : State) (m : Nat) (b : Mbox) : (s.setMbox m b).mon = s.mon := rfl
@[simp] theorem State.setMbox_pw (s : State) (m : Nat) (b : Mbox) : (s.setMbox m b).pw = s.pw := rfl
@[simp] theorem State.setMbox_th (s : State) (m : Nat) (b : Mbox) : (s.setMbox m b).th = s.th := rfl
@[simp] theorem State.setMbox_celOrders (s : State) (m : Nat) (b : Mbox) : (s.setMbox m b).celOrders = s.celOrders := rfl
@[simp] theorem State.setMbox_cel (s : State) (m : Nat) (b : Mbox) : (s.setMbox m b).cel = s.cel := rfl
@[simp] theorem State.setMbox_boot (s : State) (m : Nat) (b : Mbox) : (s.setMbox m b).boot = s.boot := rfl
@[simp] theorem State.setMbox_lost (s : State) (m : Nat) (b : Mbox) : (s.setMbox m b).lost = s.lost := rfl
@[simp] theorem State.setMbox_pending (s : State) (m : Nat) (b : Mbox) : (s.setMbox m b).pending = s.pending := rfl
@[simp] theorem State.setMbox_fresh (s : State) (m : Nat) (b : Mbox) : (s.setMbox m b).fresh = s.fresh := rfl

@[simp] theorem State.setTx_part (s : State) (p : Nat) (x : TxSt) : (s.setTx p x).part = s.part := rfl
@[simp] theorem State.setTx_tick (s : State) (p : Nat) (x : TxSt) : (s.setTx p x).tick = s.tick := rfl
@[simp] theorem State.setTx_live (s : State) (p : Nat) (x : TxSt) : (s.setTx p x).live = s.live := rfl
@[simp] theorem State.setTx_staged (s : State) (p : Nat) (x : TxSt) : (s.setTx p x).staged = s.staged := rfl
@[simp] theorem State.setTx_tb (s : State) (p : Nat) (x : TxSt) : (s.setTx p x).tb = s.tb := rfl
@[simp] theorem State.setTx_host (s : State) (p : Nat) (x : TxSt) : (s.setTx p x).host = s.host := rfl
@[simp] theorem State.setTx_recs (s : State) (p : Nat) (x : TxSt) : (s.setTx p x).recs = s.recs := rfl
@[simp] theorem State.setTx_cars (s : State) (p : Nat) (x : TxSt) : (s.setTx p x).cars = s.cars := rfl
@[simp] theorem State.setTx_rx (s : State) (p : Nat) (x : TxSt) : (s.setTx p x).rx = s.rx := rfl
@[simp] theorem State.setTx_pr (s : State) (p : Nat) (x : TxSt) : (s.setTx p x).pr = s.pr := rfl
@[simp] theorem State.setTx_can (s : State) (p : Nat) (x : TxSt) : (s.setTx p x).can = s.can := rfl
@[simp] theorem State.setTx_orx (s : State) (p : Nat) (x : TxSt) : (s.setTx p x).orx = s.orx := rfl
@[simp] theorem State.setTx_adc (s : State) (p : Nat) (x : TxSt) : (s.setTx p x).adc = s.adc := rfl
@[simp] theorem State.setTx_agc (s : State) (p : Nat) (x : TxSt) : (s.setTx p x).agc = s.agc := rfl
@[simp] theorem State.setTx_air (s : State) (p : Nat) (x : TxSt) : (s.setTx p x).air = s.air := rfl
@[simp] theorem State.setTx_rowst (s : State) (p : Nat) (x : TxSt) : (s.setTx p x).rowst = s.rowst := rfl
@[simp] theorem State.setTx_tddOld (s : State) (p : Nat) (x : TxSt) : (s.setTx p x).tddOld = s.tddOld := rfl
@[simp] theorem State.setTx_fh (s : State) (p : Nat) (x : TxSt) : (s.setTx p x).fh = s.fh := rfl
@[simp] theorem State.setTx_links (s : State) (p : Nat) (x : TxSt) : (s.setTx p x).links = s.links := rfl
@[simp] theorem State.setTx_tr (s : State) (p : Nat) (x : TxSt) : (s.setTx p x).tr = s.tr := rfl
@[simp] theorem State.setTx_sol (s : State) (p : Nat) (x : TxSt) : (s.setTx p x).sol = s.sol := rfl
@[simp] theorem State.setTx_cal (s : State) (p : Nat) (x : TxSt) : (s.setTx p x).cal = s.cal := rfl
@[simp] theorem State.setTx_sv (s : State) (p : Nat) (x : TxSt) : (s.setTx p x).sv = s.sv := rfl
@[simp] theorem State.setTx_dma (s : State) (p : Nat) (x : TxSt) : (s.setTx p x).dma = s.dma := rfl
@[simp] theorem State.setTx_mon (s : State) (p : Nat) (x : TxSt) : (s.setTx p x).mon = s.mon := rfl
@[simp] theorem State.setTx_pw (s : State) (p : Nat) (x : TxSt) : (s.setTx p x).pw = s.pw := rfl
@[simp] theorem State.setTx_th (s : State) (p : Nat) (x : TxSt) : (s.setTx p x).th = s.th := rfl
@[simp] theorem State.setTx_celOrders (s : State) (p : Nat) (x : TxSt) : (s.setTx p x).celOrders = s.celOrders := rfl
@[simp] theorem State.setTx_cel (s : State) (p : Nat) (x : TxSt) : (s.setTx p x).cel = s.cel := rfl
@[simp] theorem State.setTx_boot (s : State) (p : Nat) (x : TxSt) : (s.setTx p x).boot = s.boot := rfl
@[simp] theorem State.setTx_lost (s : State) (p : Nat) (x : TxSt) : (s.setTx p x).lost = s.lost := rfl
@[simp] theorem State.setTx_pending (s : State) (p : Nat) (x : TxSt) : (s.setTx p x).pending = s.pending := rfl
@[simp] theorem State.setTx_fresh (s : State) (p : Nat) (x : TxSt) : (s.setTx p x).fresh = s.fresh := rfl

@[simp] theorem State.setRow_part (s : State) (r : Nat) (x : RowSt) : (s.setRow r x).part = s.part := rfl
@[simp] theorem State.setRow_tick (s : State) (r : Nat) (x : RowSt) : (s.setRow r x).tick = s.tick := rfl
@[simp] theorem State.setRow_live (s : State) (r : Nat) (x : RowSt) : (s.setRow r x).live = s.live := rfl
@[simp] theorem State.setRow_staged (s : State) (r : Nat) (x : RowSt) : (s.setRow r x).staged = s.staged := rfl
@[simp] theorem State.setRow_tb (s : State) (r : Nat) (x : RowSt) : (s.setRow r x).tb = s.tb := rfl
@[simp] theorem State.setRow_host (s : State) (r : Nat) (x : RowSt) : (s.setRow r x).host = s.host := rfl
@[simp] theorem State.setRow_recs (s : State) (r : Nat) (x : RowSt) : (s.setRow r x).recs = s.recs := rfl
@[simp] theorem State.setRow_cars (s : State) (r : Nat) (x : RowSt) : (s.setRow r x).cars = s.cars := rfl
@[simp] theorem State.setRow_tx (s : State) (r : Nat) (x : RowSt) : (s.setRow r x).tx = s.tx := rfl
@[simp] theorem State.setRow_rx (s : State) (r : Nat) (x : RowSt) : (s.setRow r x).rx = s.rx := rfl
@[simp] theorem State.setRow_pr (s : State) (r : Nat) (x : RowSt) : (s.setRow r x).pr = s.pr := rfl
@[simp] theorem State.setRow_can (s : State) (r : Nat) (x : RowSt) : (s.setRow r x).can = s.can := rfl
@[simp] theorem State.setRow_orx (s : State) (r : Nat) (x : RowSt) : (s.setRow r x).orx = s.orx := rfl
@[simp] theorem State.setRow_adc (s : State) (r : Nat) (x : RowSt) : (s.setRow r x).adc = s.adc := rfl
@[simp] theorem State.setRow_agc (s : State) (r : Nat) (x : RowSt) : (s.setRow r x).agc = s.agc := rfl
@[simp] theorem State.setRow_air (s : State) (r : Nat) (x : RowSt) : (s.setRow r x).air = s.air := rfl
@[simp] theorem State.setRow_tddOld (s : State) (r : Nat) (x : RowSt) : (s.setRow r x).tddOld = s.tddOld := rfl
@[simp] theorem State.setRow_fh (s : State) (r : Nat) (x : RowSt) : (s.setRow r x).fh = s.fh := rfl
@[simp] theorem State.setRow_links (s : State) (r : Nat) (x : RowSt) : (s.setRow r x).links = s.links := rfl
@[simp] theorem State.setRow_tr (s : State) (r : Nat) (x : RowSt) : (s.setRow r x).tr = s.tr := rfl
@[simp] theorem State.setRow_sol (s : State) (r : Nat) (x : RowSt) : (s.setRow r x).sol = s.sol := rfl
@[simp] theorem State.setRow_cal (s : State) (r : Nat) (x : RowSt) : (s.setRow r x).cal = s.cal := rfl
@[simp] theorem State.setRow_sv (s : State) (r : Nat) (x : RowSt) : (s.setRow r x).sv = s.sv := rfl
@[simp] theorem State.setRow_dma (s : State) (r : Nat) (x : RowSt) : (s.setRow r x).dma = s.dma := rfl
@[simp] theorem State.setRow_mon (s : State) (r : Nat) (x : RowSt) : (s.setRow r x).mon = s.mon := rfl
@[simp] theorem State.setRow_pw (s : State) (r : Nat) (x : RowSt) : (s.setRow r x).pw = s.pw := rfl
@[simp] theorem State.setRow_th (s : State) (r : Nat) (x : RowSt) : (s.setRow r x).th = s.th := rfl
@[simp] theorem State.setRow_celOrders (s : State) (r : Nat) (x : RowSt) : (s.setRow r x).celOrders = s.celOrders := rfl
@[simp] theorem State.setRow_cel (s : State) (r : Nat) (x : RowSt) : (s.setRow r x).cel = s.cel := rfl
@[simp] theorem State.setRow_boot (s : State) (r : Nat) (x : RowSt) : (s.setRow r x).boot = s.boot := rfl
@[simp] theorem State.setRow_lost (s : State) (r : Nat) (x : RowSt) : (s.setRow r x).lost = s.lost := rfl
@[simp] theorem State.setRow_pending (s : State) (r : Nat) (x : RowSt) : (s.setRow r x).pending = s.pending := rfl
@[simp] theorem State.setRow_fresh (s : State) (r : Nat) (x : RowSt) : (s.setRow r x).fresh = s.fresh := rfl

@[simp] theorem State.setRec_part (s : State) (r : Nat) (x : RecSt) : (s.setRec r x).part = s.part := rfl
@[simp] theorem State.setRec_tick (s : State) (r : Nat) (x : RecSt) : (s.setRec r x).tick = s.tick := rfl
@[simp] theorem State.setRec_live (s : State) (r : Nat) (x : RecSt) : (s.setRec r x).live = s.live := rfl
@[simp] theorem State.setRec_staged (s : State) (r : Nat) (x : RecSt) : (s.setRec r x).staged = s.staged := rfl
@[simp] theorem State.setRec_tb (s : State) (r : Nat) (x : RecSt) : (s.setRec r x).tb = s.tb := rfl
@[simp] theorem State.setRec_host (s : State) (r : Nat) (x : RecSt) : (s.setRec r x).host = s.host := rfl
@[simp] theorem State.setRec_cars (s : State) (r : Nat) (x : RecSt) : (s.setRec r x).cars = s.cars := rfl
@[simp] theorem State.setRec_tx (s : State) (r : Nat) (x : RecSt) : (s.setRec r x).tx = s.tx := rfl
@[simp] theorem State.setRec_rx (s : State) (r : Nat) (x : RecSt) : (s.setRec r x).rx = s.rx := rfl
@[simp] theorem State.setRec_pr (s : State) (r : Nat) (x : RecSt) : (s.setRec r x).pr = s.pr := rfl
@[simp] theorem State.setRec_can (s : State) (r : Nat) (x : RecSt) : (s.setRec r x).can = s.can := rfl
@[simp] theorem State.setRec_orx (s : State) (r : Nat) (x : RecSt) : (s.setRec r x).orx = s.orx := rfl
@[simp] theorem State.setRec_adc (s : State) (r : Nat) (x : RecSt) : (s.setRec r x).adc = s.adc := rfl
@[simp] theorem State.setRec_agc (s : State) (r : Nat) (x : RecSt) : (s.setRec r x).agc = s.agc := rfl
@[simp] theorem State.setRec_air (s : State) (r : Nat) (x : RecSt) : (s.setRec r x).air = s.air := rfl
@[simp] theorem State.setRec_rowst (s : State) (r : Nat) (x : RecSt) : (s.setRec r x).rowst = s.rowst := rfl
@[simp] theorem State.setRec_tddOld (s : State) (r : Nat) (x : RecSt) : (s.setRec r x).tddOld = s.tddOld := rfl
@[simp] theorem State.setRec_fh (s : State) (r : Nat) (x : RecSt) : (s.setRec r x).fh = s.fh := rfl
@[simp] theorem State.setRec_links (s : State) (r : Nat) (x : RecSt) : (s.setRec r x).links = s.links := rfl
@[simp] theorem State.setRec_tr (s : State) (r : Nat) (x : RecSt) : (s.setRec r x).tr = s.tr := rfl
@[simp] theorem State.setRec_sol (s : State) (r : Nat) (x : RecSt) : (s.setRec r x).sol = s.sol := rfl
@[simp] theorem State.setRec_cal (s : State) (r : Nat) (x : RecSt) : (s.setRec r x).cal = s.cal := rfl
@[simp] theorem State.setRec_sv (s : State) (r : Nat) (x : RecSt) : (s.setRec r x).sv = s.sv := rfl
@[simp] theorem State.setRec_dma (s : State) (r : Nat) (x : RecSt) : (s.setRec r x).dma = s.dma := rfl
@[simp] theorem State.setRec_mon (s : State) (r : Nat) (x : RecSt) : (s.setRec r x).mon = s.mon := rfl
@[simp] theorem State.setRec_pw (s : State) (r : Nat) (x : RecSt) : (s.setRec r x).pw = s.pw := rfl
@[simp] theorem State.setRec_th (s : State) (r : Nat) (x : RecSt) : (s.setRec r x).th = s.th := rfl
@[simp] theorem State.setRec_celOrders (s : State) (r : Nat) (x : RecSt) : (s.setRec r x).celOrders = s.celOrders := rfl
@[simp] theorem State.setRec_cel (s : State) (r : Nat) (x : RecSt) : (s.setRec r x).cel = s.cel := rfl
@[simp] theorem State.setRec_boot (s : State) (r : Nat) (x : RecSt) : (s.setRec r x).boot = s.boot := rfl
@[simp] theorem State.setRec_lost (s : State) (r : Nat) (x : RecSt) : (s.setRec r x).lost = s.lost := rfl
@[simp] theorem State.setRec_pending (s : State) (r : Nat) (x : RecSt) : (s.setRec r x).pending = s.pending := rfl
@[simp] theorem State.setRec_fresh (s : State) (r : Nat) (x : RecSt) : (s.setRec r x).fresh = s.fresh := rfl

@[simp] theorem State.setCmp_part (s : State) (n : Nat) (x : CmpSt) : (s.setCmp n x).part = s.part := rfl
@[simp] theorem State.setCmp_tick (s : State) (n : Nat) (x : CmpSt) : (s.setCmp n x).tick = s.tick := rfl
@[simp] theorem State.setCmp_live (s : State) (n : Nat) (x : CmpSt) : (s.setCmp n x).live = s.live := rfl
@[simp] theorem State.setCmp_staged (s : State) (n : Nat) (x : CmpSt) : (s.setCmp n x).staged = s.staged := rfl
@[simp] theorem State.setCmp_host (s : State) (n : Nat) (x : CmpSt) : (s.setCmp n x).host = s.host := rfl
@[simp] theorem State.setCmp_recs (s : State) (n : Nat) (x : CmpSt) : (s.setCmp n x).recs = s.recs := rfl
@[simp] theorem State.setCmp_cars (s : State) (n : Nat) (x : CmpSt) : (s.setCmp n x).cars = s.cars := rfl
@[simp] theorem State.setCmp_tx (s : State) (n : Nat) (x : CmpSt) : (s.setCmp n x).tx = s.tx := rfl
@[simp] theorem State.setCmp_rx (s : State) (n : Nat) (x : CmpSt) : (s.setCmp n x).rx = s.rx := rfl
@[simp] theorem State.setCmp_pr (s : State) (n : Nat) (x : CmpSt) : (s.setCmp n x).pr = s.pr := rfl
@[simp] theorem State.setCmp_can (s : State) (n : Nat) (x : CmpSt) : (s.setCmp n x).can = s.can := rfl
@[simp] theorem State.setCmp_orx (s : State) (n : Nat) (x : CmpSt) : (s.setCmp n x).orx = s.orx := rfl
@[simp] theorem State.setCmp_adc (s : State) (n : Nat) (x : CmpSt) : (s.setCmp n x).adc = s.adc := rfl
@[simp] theorem State.setCmp_agc (s : State) (n : Nat) (x : CmpSt) : (s.setCmp n x).agc = s.agc := rfl
@[simp] theorem State.setCmp_air (s : State) (n : Nat) (x : CmpSt) : (s.setCmp n x).air = s.air := rfl
@[simp] theorem State.setCmp_rowst (s : State) (n : Nat) (x : CmpSt) : (s.setCmp n x).rowst = s.rowst := rfl
@[simp] theorem State.setCmp_tddOld (s : State) (n : Nat) (x : CmpSt) : (s.setCmp n x).tddOld = s.tddOld := rfl
@[simp] theorem State.setCmp_fh (s : State) (n : Nat) (x : CmpSt) : (s.setCmp n x).fh = s.fh := rfl
@[simp] theorem State.setCmp_links (s : State) (n : Nat) (x : CmpSt) : (s.setCmp n x).links = s.links := rfl
@[simp] theorem State.setCmp_tr (s : State) (n : Nat) (x : CmpSt) : (s.setCmp n x).tr = s.tr := rfl
@[simp] theorem State.setCmp_sol (s : State) (n : Nat) (x : CmpSt) : (s.setCmp n x).sol = s.sol := rfl
@[simp] theorem State.setCmp_cal (s : State) (n : Nat) (x : CmpSt) : (s.setCmp n x).cal = s.cal := rfl
@[simp] theorem State.setCmp_sv (s : State) (n : Nat) (x : CmpSt) : (s.setCmp n x).sv = s.sv := rfl
@[simp] theorem State.setCmp_dma (s : State) (n : Nat) (x : CmpSt) : (s.setCmp n x).dma = s.dma := rfl
@[simp] theorem State.setCmp_mon (s : State) (n : Nat) (x : CmpSt) : (s.setCmp n x).mon = s.mon := rfl
@[simp] theorem State.setCmp_pw (s : State) (n : Nat) (x : CmpSt) : (s.setCmp n x).pw = s.pw := rfl
@[simp] theorem State.setCmp_th (s : State) (n : Nat) (x : CmpSt) : (s.setCmp n x).th = s.th := rfl
@[simp] theorem State.setCmp_celOrders (s : State) (n : Nat) (x : CmpSt) : (s.setCmp n x).celOrders = s.celOrders := rfl
@[simp] theorem State.setCmp_cel (s : State) (n : Nat) (x : CmpSt) : (s.setCmp n x).cel = s.cel := rfl
@[simp] theorem State.setCmp_boot (s : State) (n : Nat) (x : CmpSt) : (s.setCmp n x).boot = s.boot := rfl
@[simp] theorem State.setCmp_lost (s : State) (n : Nat) (x : CmpSt) : (s.setCmp n x).lost = s.lost := rfl
@[simp] theorem State.setCmp_pending (s : State) (n : Nat) (x : CmpSt) : (s.setCmp n x).pending = s.pending := rfl
@[simp] theorem State.setCmp_fresh (s : State) (n : Nat) (x : CmpSt) : (s.setCmp n x).fresh = s.fresh := rfl

@[simp] theorem State.setCar_part (s : State) (c : Nat) (x : CarSt) : (s.setCar c x).part = s.part := rfl
@[simp] theorem State.setCar_tick (s : State) (c : Nat) (x : CarSt) : (s.setCar c x).tick = s.tick := rfl
@[simp] theorem State.setCar_live (s : State) (c : Nat) (x : CarSt) : (s.setCar c x).live = s.live := rfl
@[simp] theorem State.setCar_staged (s : State) (c : Nat) (x : CarSt) : (s.setCar c x).staged = s.staged := rfl
@[simp] theorem State.setCar_tb (s : State) (c : Nat) (x : CarSt) : (s.setCar c x).tb = s.tb := rfl
@[simp] theorem State.setCar_host (s : State) (c : Nat) (x : CarSt) : (s.setCar c x).host = s.host := rfl
@[simp] theorem State.setCar_recs (s : State) (c : Nat) (x : CarSt) : (s.setCar c x).recs = s.recs := rfl
@[simp] theorem State.setCar_tx (s : State) (c : Nat) (x : CarSt) : (s.setCar c x).tx = s.tx := rfl
@[simp] theorem State.setCar_rx (s : State) (c : Nat) (x : CarSt) : (s.setCar c x).rx = s.rx := rfl
@[simp] theorem State.setCar_pr (s : State) (c : Nat) (x : CarSt) : (s.setCar c x).pr = s.pr := rfl
@[simp] theorem State.setCar_can (s : State) (c : Nat) (x : CarSt) : (s.setCar c x).can = s.can := rfl
@[simp] theorem State.setCar_orx (s : State) (c : Nat) (x : CarSt) : (s.setCar c x).orx = s.orx := rfl
@[simp] theorem State.setCar_adc (s : State) (c : Nat) (x : CarSt) : (s.setCar c x).adc = s.adc := rfl
@[simp] theorem State.setCar_agc (s : State) (c : Nat) (x : CarSt) : (s.setCar c x).agc = s.agc := rfl
@[simp] theorem State.setCar_air (s : State) (c : Nat) (x : CarSt) : (s.setCar c x).air = s.air := rfl
@[simp] theorem State.setCar_rowst (s : State) (c : Nat) (x : CarSt) : (s.setCar c x).rowst = s.rowst := rfl
@[simp] theorem State.setCar_tddOld (s : State) (c : Nat) (x : CarSt) : (s.setCar c x).tddOld = s.tddOld := rfl
@[simp] theorem State.setCar_fh (s : State) (c : Nat) (x : CarSt) : (s.setCar c x).fh = s.fh := rfl
@[simp] theorem State.setCar_links (s : State) (c : Nat) (x : CarSt) : (s.setCar c x).links = s.links := rfl
@[simp] theorem State.setCar_tr (s : State) (c : Nat) (x : CarSt) : (s.setCar c x).tr = s.tr := rfl
@[simp] theorem State.setCar_sol (s : State) (c : Nat) (x : CarSt) : (s.setCar c x).sol = s.sol := rfl
@[simp] theorem State.setCar_cal (s : State) (c : Nat) (x : CarSt) : (s.setCar c x).cal = s.cal := rfl
@[simp] theorem State.setCar_sv (s : State) (c : Nat) (x : CarSt) : (s.setCar c x).sv = s.sv := rfl
@[simp] theorem State.setCar_dma (s : State) (c : Nat) (x : CarSt) : (s.setCar c x).dma = s.dma := rfl
@[simp] theorem State.setCar_mon (s : State) (c : Nat) (x : CarSt) : (s.setCar c x).mon = s.mon := rfl
@[simp] theorem State.setCar_pw (s : State) (c : Nat) (x : CarSt) : (s.setCar c x).pw = s.pw := rfl
@[simp] theorem State.setCar_th (s : State) (c : Nat) (x : CarSt) : (s.setCar c x).th = s.th := rfl
@[simp] theorem State.setCar_celOrders (s : State) (c : Nat) (x : CarSt) : (s.setCar c x).celOrders = s.celOrders := rfl
@[simp] theorem State.setCar_cel (s : State) (c : Nat) (x : CarSt) : (s.setCar c x).cel = s.cel := rfl
@[simp] theorem State.setCar_boot (s : State) (c : Nat) (x : CarSt) : (s.setCar c x).boot = s.boot := rfl
@[simp] theorem State.setCar_lost (s : State) (c : Nat) (x : CarSt) : (s.setCar c x).lost = s.lost := rfl
@[simp] theorem State.setCar_pending (s : State) (c : Nat) (x : CarSt) : (s.setCar c x).pending = s.pending := rfl
@[simp] theorem State.setCar_fresh (s : State) (c : Nat) (x : CarSt) : (s.setCar c x).fresh = s.fresh := rfl

@[simp] theorem State.setLnk_part (s : State) (l : Nat) (x : LinkSt) : (s.setLnk l x).part = s.part := rfl
@[simp] theorem State.setLnk_tick (s : State) (l : Nat) (x : LinkSt) : (s.setLnk l x).tick = s.tick := rfl
@[simp] theorem State.setLnk_live (s : State) (l : Nat) (x : LinkSt) : (s.setLnk l x).live = s.live := rfl
@[simp] theorem State.setLnk_staged (s : State) (l : Nat) (x : LinkSt) : (s.setLnk l x).staged = s.staged := rfl
@[simp] theorem State.setLnk_tb (s : State) (l : Nat) (x : LinkSt) : (s.setLnk l x).tb = s.tb := rfl
@[simp] theorem State.setLnk_host (s : State) (l : Nat) (x : LinkSt) : (s.setLnk l x).host = s.host := rfl
@[simp] theorem State.setLnk_recs (s : State) (l : Nat) (x : LinkSt) : (s.setLnk l x).recs = s.recs := rfl
@[simp] theorem State.setLnk_cars (s : State) (l : Nat) (x : LinkSt) : (s.setLnk l x).cars = s.cars := rfl
@[simp] theorem State.setLnk_tx (s : State) (l : Nat) (x : LinkSt) : (s.setLnk l x).tx = s.tx := rfl
@[simp] theorem State.setLnk_rx (s : State) (l : Nat) (x : LinkSt) : (s.setLnk l x).rx = s.rx := rfl
@[simp] theorem State.setLnk_pr (s : State) (l : Nat) (x : LinkSt) : (s.setLnk l x).pr = s.pr := rfl
@[simp] theorem State.setLnk_can (s : State) (l : Nat) (x : LinkSt) : (s.setLnk l x).can = s.can := rfl
@[simp] theorem State.setLnk_orx (s : State) (l : Nat) (x : LinkSt) : (s.setLnk l x).orx = s.orx := rfl
@[simp] theorem State.setLnk_adc (s : State) (l : Nat) (x : LinkSt) : (s.setLnk l x).adc = s.adc := rfl
@[simp] theorem State.setLnk_agc (s : State) (l : Nat) (x : LinkSt) : (s.setLnk l x).agc = s.agc := rfl
@[simp] theorem State.setLnk_air (s : State) (l : Nat) (x : LinkSt) : (s.setLnk l x).air = s.air := rfl
@[simp] theorem State.setLnk_rowst (s : State) (l : Nat) (x : LinkSt) : (s.setLnk l x).rowst = s.rowst := rfl
@[simp] theorem State.setLnk_tddOld (s : State) (l : Nat) (x : LinkSt) : (s.setLnk l x).tddOld = s.tddOld := rfl
@[simp] theorem State.setLnk_fh (s : State) (l : Nat) (x : LinkSt) : (s.setLnk l x).fh = s.fh := rfl
@[simp] theorem State.setLnk_tr (s : State) (l : Nat) (x : LinkSt) : (s.setLnk l x).tr = s.tr := rfl
@[simp] theorem State.setLnk_sol (s : State) (l : Nat) (x : LinkSt) : (s.setLnk l x).sol = s.sol := rfl
@[simp] theorem State.setLnk_cal (s : State) (l : Nat) (x : LinkSt) : (s.setLnk l x).cal = s.cal := rfl
@[simp] theorem State.setLnk_sv (s : State) (l : Nat) (x : LinkSt) : (s.setLnk l x).sv = s.sv := rfl
@[simp] theorem State.setLnk_dma (s : State) (l : Nat) (x : LinkSt) : (s.setLnk l x).dma = s.dma := rfl
@[simp] theorem State.setLnk_mon (s : State) (l : Nat) (x : LinkSt) : (s.setLnk l x).mon = s.mon := rfl
@[simp] theorem State.setLnk_pw (s : State) (l : Nat) (x : LinkSt) : (s.setLnk l x).pw = s.pw := rfl
@[simp] theorem State.setLnk_th (s : State) (l : Nat) (x : LinkSt) : (s.setLnk l x).th = s.th := rfl
@[simp] theorem State.setLnk_celOrders (s : State) (l : Nat) (x : LinkSt) : (s.setLnk l x).celOrders = s.celOrders := rfl
@[simp] theorem State.setLnk_cel (s : State) (l : Nat) (x : LinkSt) : (s.setLnk l x).cel = s.cel := rfl
@[simp] theorem State.setLnk_boot (s : State) (l : Nat) (x : LinkSt) : (s.setLnk l x).boot = s.boot := rfl
@[simp] theorem State.setLnk_lost (s : State) (l : Nat) (x : LinkSt) : (s.setLnk l x).lost = s.lost := rfl
@[simp] theorem State.setLnk_pending (s : State) (l : Nat) (x : LinkSt) : (s.setLnk l x).pending = s.pending := rfl
@[simp] theorem State.setLnk_fresh (s : State) (l : Nat) (x : LinkSt) : (s.setLnk l x).fresh = s.fresh := rfl

@[simp] theorem State.setPr_part (s : State) (p : Nat) (x : PrSt) : (s.setPr p x).part = s.part := rfl
@[simp] theorem State.setPr_tick (s : State) (p : Nat) (x : PrSt) : (s.setPr p x).tick = s.tick := rfl
@[simp] theorem State.setPr_live (s : State) (p : Nat) (x : PrSt) : (s.setPr p x).live = s.live := rfl
@[simp] theorem State.setPr_staged (s : State) (p : Nat) (x : PrSt) : (s.setPr p x).staged = s.staged := rfl
@[simp] theorem State.setPr_tb (s : State) (p : Nat) (x : PrSt) : (s.setPr p x).tb = s.tb := rfl
@[simp] theorem State.setPr_host (s : State) (p : Nat) (x : PrSt) : (s.setPr p x).host = s.host := rfl
@[simp] theorem State.setPr_recs (s : State) (p : Nat) (x : PrSt) : (s.setPr p x).recs = s.recs := rfl
@[simp] theorem State.setPr_cars (s : State) (p : Nat) (x : PrSt) : (s.setPr p x).cars = s.cars := rfl
@[simp] theorem State.setPr_tx (s : State) (p : Nat) (x : PrSt) : (s.setPr p x).tx = s.tx := rfl
@[simp] theorem State.setPr_rx (s : State) (p : Nat) (x : PrSt) : (s.setPr p x).rx = s.rx := rfl
@[simp] theorem State.setPr_can (s : State) (p : Nat) (x : PrSt) : (s.setPr p x).can = s.can := rfl
@[simp] theorem State.setPr_orx (s : State) (p : Nat) (x : PrSt) : (s.setPr p x).orx = s.orx := rfl
@[simp] theorem State.setPr_adc (s : State) (p : Nat) (x : PrSt) : (s.setPr p x).adc = s.adc := rfl
@[simp] theorem State.setPr_agc (s : State) (p : Nat) (x : PrSt) : (s.setPr p x).agc = s.agc := rfl
@[simp] theorem State.setPr_air (s : State) (p : Nat) (x : PrSt) : (s.setPr p x).air = s.air := rfl
@[simp] theorem State.setPr_rowst (s : State) (p : Nat) (x : PrSt) : (s.setPr p x).rowst = s.rowst := rfl
@[simp] theorem State.setPr_tddOld (s : State) (p : Nat) (x : PrSt) : (s.setPr p x).tddOld = s.tddOld := rfl
@[simp] theorem State.setPr_fh (s : State) (p : Nat) (x : PrSt) : (s.setPr p x).fh = s.fh := rfl
@[simp] theorem State.setPr_links (s : State) (p : Nat) (x : PrSt) : (s.setPr p x).links = s.links := rfl
@[simp] theorem State.setPr_tr (s : State) (p : Nat) (x : PrSt) : (s.setPr p x).tr = s.tr := rfl
@[simp] theorem State.setPr_sol (s : State) (p : Nat) (x : PrSt) : (s.setPr p x).sol = s.sol := rfl
@[simp] theorem State.setPr_cal (s : State) (p : Nat) (x : PrSt) : (s.setPr p x).cal = s.cal := rfl
@[simp] theorem State.setPr_sv (s : State) (p : Nat) (x : PrSt) : (s.setPr p x).sv = s.sv := rfl
@[simp] theorem State.setPr_dma (s : State) (p : Nat) (x : PrSt) : (s.setPr p x).dma = s.dma := rfl
@[simp] theorem State.setPr_mon (s : State) (p : Nat) (x : PrSt) : (s.setPr p x).mon = s.mon := rfl
@[simp] theorem State.setPr_pw (s : State) (p : Nat) (x : PrSt) : (s.setPr p x).pw = s.pw := rfl
@[simp] theorem State.setPr_th (s : State) (p : Nat) (x : PrSt) : (s.setPr p x).th = s.th := rfl
@[simp] theorem State.setPr_celOrders (s : State) (p : Nat) (x : PrSt) : (s.setPr p x).celOrders = s.celOrders := rfl
@[simp] theorem State.setPr_cel (s : State) (p : Nat) (x : PrSt) : (s.setPr p x).cel = s.cel := rfl
@[simp] theorem State.setPr_boot (s : State) (p : Nat) (x : PrSt) : (s.setPr p x).boot = s.boot := rfl
@[simp] theorem State.setPr_lost (s : State) (p : Nat) (x : PrSt) : (s.setPr p x).lost = s.lost := rfl
@[simp] theorem State.setPr_pending (s : State) (p : Nat) (x : PrSt) : (s.setPr p x).pending = s.pending := rfl
@[simp] theorem State.setPr_fresh (s : State) (p : Nat) (x : PrSt) : (s.setPr p x).fresh = s.fresh := rfl

@[simp] theorem State.setCan_part (s : State) (p : Nat) (x : CanSt) : (s.setCan p x).part = s.part := rfl
@[simp] theorem State.setCan_tick (s : State) (p : Nat) (x : CanSt) : (s.setCan p x).tick = s.tick := rfl
@[simp] theorem State.setCan_live (s : State) (p : Nat) (x : CanSt) : (s.setCan p x).live = s.live := rfl
@[simp] theorem State.setCan_staged (s : State) (p : Nat) (x : CanSt) : (s.setCan p x).staged = s.staged := rfl
@[simp] theorem State.setCan_tb (s : State) (p : Nat) (x : CanSt) : (s.setCan p x).tb = s.tb := rfl
@[simp] theorem State.setCan_host (s : State) (p : Nat) (x : CanSt) : (s.setCan p x).host = s.host := rfl
@[simp] theorem State.setCan_recs (s : State) (p : Nat) (x : CanSt) : (s.setCan p x).recs = s.recs := rfl
@[simp] theorem State.setCan_cars (s : State) (p : Nat) (x : CanSt) : (s.setCan p x).cars = s.cars := rfl
@[simp] theorem State.setCan_tx (s : State) (p : Nat) (x : CanSt) : (s.setCan p x).tx = s.tx := rfl
@[simp] theorem State.setCan_rx (s : State) (p : Nat) (x : CanSt) : (s.setCan p x).rx = s.rx := rfl
@[simp] theorem State.setCan_pr (s : State) (p : Nat) (x : CanSt) : (s.setCan p x).pr = s.pr := rfl
@[simp] theorem State.setCan_orx (s : State) (p : Nat) (x : CanSt) : (s.setCan p x).orx = s.orx := rfl
@[simp] theorem State.setCan_adc (s : State) (p : Nat) (x : CanSt) : (s.setCan p x).adc = s.adc := rfl
@[simp] theorem State.setCan_agc (s : State) (p : Nat) (x : CanSt) : (s.setCan p x).agc = s.agc := rfl
@[simp] theorem State.setCan_air (s : State) (p : Nat) (x : CanSt) : (s.setCan p x).air = s.air := rfl
@[simp] theorem State.setCan_rowst (s : State) (p : Nat) (x : CanSt) : (s.setCan p x).rowst = s.rowst := rfl
@[simp] theorem State.setCan_tddOld (s : State) (p : Nat) (x : CanSt) : (s.setCan p x).tddOld = s.tddOld := rfl
@[simp] theorem State.setCan_fh (s : State) (p : Nat) (x : CanSt) : (s.setCan p x).fh = s.fh := rfl
@[simp] theorem State.setCan_links (s : State) (p : Nat) (x : CanSt) : (s.setCan p x).links = s.links := rfl
@[simp] theorem State.setCan_tr (s : State) (p : Nat) (x : CanSt) : (s.setCan p x).tr = s.tr := rfl
@[simp] theorem State.setCan_sol (s : State) (p : Nat) (x : CanSt) : (s.setCan p x).sol = s.sol := rfl
@[simp] theorem State.setCan_cal (s : State) (p : Nat) (x : CanSt) : (s.setCan p x).cal = s.cal := rfl
@[simp] theorem State.setCan_sv (s : State) (p : Nat) (x : CanSt) : (s.setCan p x).sv = s.sv := rfl
@[simp] theorem State.setCan_dma (s : State) (p : Nat) (x : CanSt) : (s.setCan p x).dma = s.dma := rfl
@[simp] theorem State.setCan_mon (s : State) (p : Nat) (x : CanSt) : (s.setCan p x).mon = s.mon := rfl
@[simp] theorem State.setCan_pw (s : State) (p : Nat) (x : CanSt) : (s.setCan p x).pw = s.pw := rfl
@[simp] theorem State.setCan_th (s : State) (p : Nat) (x : CanSt) : (s.setCan p x).th = s.th := rfl
@[simp] theorem State.setCan_celOrders (s : State) (p : Nat) (x : CanSt) : (s.setCan p x).celOrders = s.celOrders := rfl
@[simp] theorem State.setCan_cel (s : State) (p : Nat) (x : CanSt) : (s.setCan p x).cel = s.cel := rfl
@[simp] theorem State.setCan_boot (s : State) (p : Nat) (x : CanSt) : (s.setCan p x).boot = s.boot := rfl
@[simp] theorem State.setCan_lost (s : State) (p : Nat) (x : CanSt) : (s.setCan p x).lost = s.lost := rfl
@[simp] theorem State.setCan_pending (s : State) (p : Nat) (x : CanSt) : (s.setCan p x).pending = s.pending := rfl
@[simp] theorem State.setCan_fresh (s : State) (p : Nat) (x : CanSt) : (s.setCan p x).fresh = s.fresh := rfl

@[simp] theorem State.setOrx_part (s : State) (r : Nat) (x : OrxSt) : (s.setOrx r x).part = s.part := rfl
@[simp] theorem State.setOrx_tick (s : State) (r : Nat) (x : OrxSt) : (s.setOrx r x).tick = s.tick := rfl
@[simp] theorem State.setOrx_live (s : State) (r : Nat) (x : OrxSt) : (s.setOrx r x).live = s.live := rfl
@[simp] theorem State.setOrx_staged (s : State) (r : Nat) (x : OrxSt) : (s.setOrx r x).staged = s.staged := rfl
@[simp] theorem State.setOrx_tb (s : State) (r : Nat) (x : OrxSt) : (s.setOrx r x).tb = s.tb := rfl
@[simp] theorem State.setOrx_host (s : State) (r : Nat) (x : OrxSt) : (s.setOrx r x).host = s.host := rfl
@[simp] theorem State.setOrx_recs (s : State) (r : Nat) (x : OrxSt) : (s.setOrx r x).recs = s.recs := rfl
@[simp] theorem State.setOrx_cars (s : State) (r : Nat) (x : OrxSt) : (s.setOrx r x).cars = s.cars := rfl
@[simp] theorem State.setOrx_tx (s : State) (r : Nat) (x : OrxSt) : (s.setOrx r x).tx = s.tx := rfl
@[simp] theorem State.setOrx_rx (s : State) (r : Nat) (x : OrxSt) : (s.setOrx r x).rx = s.rx := rfl
@[simp] theorem State.setOrx_pr (s : State) (r : Nat) (x : OrxSt) : (s.setOrx r x).pr = s.pr := rfl
@[simp] theorem State.setOrx_can (s : State) (r : Nat) (x : OrxSt) : (s.setOrx r x).can = s.can := rfl
@[simp] theorem State.setOrx_adc (s : State) (r : Nat) (x : OrxSt) : (s.setOrx r x).adc = s.adc := rfl
@[simp] theorem State.setOrx_agc (s : State) (r : Nat) (x : OrxSt) : (s.setOrx r x).agc = s.agc := rfl
@[simp] theorem State.setOrx_air (s : State) (r : Nat) (x : OrxSt) : (s.setOrx r x).air = s.air := rfl
@[simp] theorem State.setOrx_rowst (s : State) (r : Nat) (x : OrxSt) : (s.setOrx r x).rowst = s.rowst := rfl
@[simp] theorem State.setOrx_tddOld (s : State) (r : Nat) (x : OrxSt) : (s.setOrx r x).tddOld = s.tddOld := rfl
@[simp] theorem State.setOrx_fh (s : State) (r : Nat) (x : OrxSt) : (s.setOrx r x).fh = s.fh := rfl
@[simp] theorem State.setOrx_links (s : State) (r : Nat) (x : OrxSt) : (s.setOrx r x).links = s.links := rfl
@[simp] theorem State.setOrx_tr (s : State) (r : Nat) (x : OrxSt) : (s.setOrx r x).tr = s.tr := rfl
@[simp] theorem State.setOrx_sol (s : State) (r : Nat) (x : OrxSt) : (s.setOrx r x).sol = s.sol := rfl
@[simp] theorem State.setOrx_cal (s : State) (r : Nat) (x : OrxSt) : (s.setOrx r x).cal = s.cal := rfl
@[simp] theorem State.setOrx_sv (s : State) (r : Nat) (x : OrxSt) : (s.setOrx r x).sv = s.sv := rfl
@[simp] theorem State.setOrx_dma (s : State) (r : Nat) (x : OrxSt) : (s.setOrx r x).dma = s.dma := rfl
@[simp] theorem State.setOrx_mon (s : State) (r : Nat) (x : OrxSt) : (s.setOrx r x).mon = s.mon := rfl
@[simp] theorem State.setOrx_pw (s : State) (r : Nat) (x : OrxSt) : (s.setOrx r x).pw = s.pw := rfl
@[simp] theorem State.setOrx_th (s : State) (r : Nat) (x : OrxSt) : (s.setOrx r x).th = s.th := rfl
@[simp] theorem State.setOrx_celOrders (s : State) (r : Nat) (x : OrxSt) : (s.setOrx r x).celOrders = s.celOrders := rfl
@[simp] theorem State.setOrx_cel (s : State) (r : Nat) (x : OrxSt) : (s.setOrx r x).cel = s.cel := rfl
@[simp] theorem State.setOrx_boot (s : State) (r : Nat) (x : OrxSt) : (s.setOrx r x).boot = s.boot := rfl
@[simp] theorem State.setOrx_lost (s : State) (r : Nat) (x : OrxSt) : (s.setOrx r x).lost = s.lost := rfl
@[simp] theorem State.setOrx_pending (s : State) (r : Nat) (x : OrxSt) : (s.setOrx r x).pending = s.pending := rfl
@[simp] theorem State.setOrx_fresh (s : State) (r : Nat) (x : OrxSt) : (s.setOrx r x).fresh = s.fresh := rfl

@[simp] theorem State.setRing_part (s : State) (n : Nat) (x : RingSt) : (s.setRing n x).part = s.part := rfl
@[simp] theorem State.setRing_tick (s : State) (n : Nat) (x : RingSt) : (s.setRing n x).tick = s.tick := rfl
@[simp] theorem State.setRing_live (s : State) (n : Nat) (x : RingSt) : (s.setRing n x).live = s.live := rfl
@[simp] theorem State.setRing_staged (s : State) (n : Nat) (x : RingSt) : (s.setRing n x).staged = s.staged := rfl
@[simp] theorem State.setRing_tb (s : State) (n : Nat) (x : RingSt) : (s.setRing n x).tb = s.tb := rfl
@[simp] theorem State.setRing_host (s : State) (n : Nat) (x : RingSt) : (s.setRing n x).host = s.host := rfl
@[simp] theorem State.setRing_recs (s : State) (n : Nat) (x : RingSt) : (s.setRing n x).recs = s.recs := rfl
@[simp] theorem State.setRing_cars (s : State) (n : Nat) (x : RingSt) : (s.setRing n x).cars = s.cars := rfl
@[simp] theorem State.setRing_tx (s : State) (n : Nat) (x : RingSt) : (s.setRing n x).tx = s.tx := rfl
@[simp] theorem State.setRing_rx (s : State) (n : Nat) (x : RingSt) : (s.setRing n x).rx = s.rx := rfl
@[simp] theorem State.setRing_pr (s : State) (n : Nat) (x : RingSt) : (s.setRing n x).pr = s.pr := rfl
@[simp] theorem State.setRing_can (s : State) (n : Nat) (x : RingSt) : (s.setRing n x).can = s.can := rfl
@[simp] theorem State.setRing_orx (s : State) (n : Nat) (x : RingSt) : (s.setRing n x).orx = s.orx := rfl
@[simp] theorem State.setRing_adc (s : State) (n : Nat) (x : RingSt) : (s.setRing n x).adc = s.adc := rfl
@[simp] theorem State.setRing_agc (s : State) (n : Nat) (x : RingSt) : (s.setRing n x).agc = s.agc := rfl
@[simp] theorem State.setRing_air (s : State) (n : Nat) (x : RingSt) : (s.setRing n x).air = s.air := rfl
@[simp] theorem State.setRing_rowst (s : State) (n : Nat) (x : RingSt) : (s.setRing n x).rowst = s.rowst := rfl
@[simp] theorem State.setRing_tddOld (s : State) (n : Nat) (x : RingSt) : (s.setRing n x).tddOld = s.tddOld := rfl
@[simp] theorem State.setRing_fh (s : State) (n : Nat) (x : RingSt) : (s.setRing n x).fh = s.fh := rfl
@[simp] theorem State.setRing_links (s : State) (n : Nat) (x : RingSt) : (s.setRing n x).links = s.links := rfl
@[simp] theorem State.setRing_tr (s : State) (n : Nat) (x : RingSt) : (s.setRing n x).tr = s.tr := rfl
@[simp] theorem State.setRing_sol (s : State) (n : Nat) (x : RingSt) : (s.setRing n x).sol = s.sol := rfl
@[simp] theorem State.setRing_cal (s : State) (n : Nat) (x : RingSt) : (s.setRing n x).cal = s.cal := rfl
@[simp] theorem State.setRing_sv (s : State) (n : Nat) (x : RingSt) : (s.setRing n x).sv = s.sv := rfl
@[simp] theorem State.setRing_mon (s : State) (n : Nat) (x : RingSt) : (s.setRing n x).mon = s.mon := rfl
@[simp] theorem State.setRing_pw (s : State) (n : Nat) (x : RingSt) : (s.setRing n x).pw = s.pw := rfl
@[simp] theorem State.setRing_th (s : State) (n : Nat) (x : RingSt) : (s.setRing n x).th = s.th := rfl
@[simp] theorem State.setRing_celOrders (s : State) (n : Nat) (x : RingSt) : (s.setRing n x).celOrders = s.celOrders := rfl
@[simp] theorem State.setRing_cel (s : State) (n : Nat) (x : RingSt) : (s.setRing n x).cel = s.cel := rfl
@[simp] theorem State.setRing_boot (s : State) (n : Nat) (x : RingSt) : (s.setRing n x).boot = s.boot := rfl
@[simp] theorem State.setRing_lost (s : State) (n : Nat) (x : RingSt) : (s.setRing n x).lost = s.lost := rfl
@[simp] theorem State.setRing_pending (s : State) (n : Nat) (x : RingSt) : (s.setRing n x).pending = s.pending := rfl
@[simp] theorem State.setRing_fresh (s : State) (n : Nat) (x : RingSt) : (s.setRing n x).fresh = s.fresh := rfl

@[simp] theorem State.setRx_part (s : State) (p : Nat) (x : RxSt) : (s.setRx p x).part = s.part := rfl
@[simp] theorem State.setRx_tick (s : State) (p : Nat) (x : RxSt) : (s.setRx p x).tick = s.tick := rfl
@[simp] theorem State.setRx_live (s : State) (p : Nat) (x : RxSt) : (s.setRx p x).live = s.live := rfl
@[simp] theorem State.setRx_staged (s : State) (p : Nat) (x : RxSt) : (s.setRx p x).staged = s.staged := rfl
@[simp] theorem State.setRx_tb (s : State) (p : Nat) (x : RxSt) : (s.setRx p x).tb = s.tb := rfl
@[simp] theorem State.setRx_host (s : State) (p : Nat) (x : RxSt) : (s.setRx p x).host = s.host := rfl
@[simp] theorem State.setRx_recs (s : State) (p : Nat) (x : RxSt) : (s.setRx p x).recs = s.recs := rfl
@[simp] theorem State.setRx_cars (s : State) (p : Nat) (x : RxSt) : (s.setRx p x).cars = s.cars := rfl
@[simp] theorem State.setRx_tx (s : State) (p : Nat) (x : RxSt) : (s.setRx p x).tx = s.tx := rfl
@[simp] theorem State.setRx_pr (s : State) (p : Nat) (x : RxSt) : (s.setRx p x).pr = s.pr := rfl
@[simp] theorem State.setRx_can (s : State) (p : Nat) (x : RxSt) : (s.setRx p x).can = s.can := rfl
@[simp] theorem State.setRx_orx (s : State) (p : Nat) (x : RxSt) : (s.setRx p x).orx = s.orx := rfl
@[simp] theorem State.setRx_adc (s : State) (p : Nat) (x : RxSt) : (s.setRx p x).adc = s.adc := rfl
@[simp] theorem State.setRx_agc (s : State) (p : Nat) (x : RxSt) : (s.setRx p x).agc = s.agc := rfl
@[simp] theorem State.setRx_air (s : State) (p : Nat) (x : RxSt) : (s.setRx p x).air = s.air := rfl
@[simp] theorem State.setRx_rowst (s : State) (p : Nat) (x : RxSt) : (s.setRx p x).rowst = s.rowst := rfl
@[simp] theorem State.setRx_tddOld (s : State) (p : Nat) (x : RxSt) : (s.setRx p x).tddOld = s.tddOld := rfl
@[simp] theorem State.setRx_fh (s : State) (p : Nat) (x : RxSt) : (s.setRx p x).fh = s.fh := rfl
@[simp] theorem State.setRx_links (s : State) (p : Nat) (x : RxSt) : (s.setRx p x).links = s.links := rfl
@[simp] theorem State.setRx_tr (s : State) (p : Nat) (x : RxSt) : (s.setRx p x).tr = s.tr := rfl
@[simp] theorem State.setRx_sol (s : State) (p : Nat) (x : RxSt) : (s.setRx p x).sol = s.sol := rfl
@[simp] theorem State.setRx_cal (s : State) (p : Nat) (x : RxSt) : (s.setRx p x).cal = s.cal := rfl
@[simp] theorem State.setRx_sv (s : State) (p : Nat) (x : RxSt) : (s.setRx p x).sv = s.sv := rfl
@[simp] theorem State.setRx_dma (s : State) (p : Nat) (x : RxSt) : (s.setRx p x).dma = s.dma := rfl
@[simp] theorem State.setRx_mon (s : State) (p : Nat) (x : RxSt) : (s.setRx p x).mon = s.mon := rfl
@[simp] theorem State.setRx_pw (s : State) (p : Nat) (x : RxSt) : (s.setRx p x).pw = s.pw := rfl
@[simp] theorem State.setRx_th (s : State) (p : Nat) (x : RxSt) : (s.setRx p x).th = s.th := rfl
@[simp] theorem State.setRx_celOrders (s : State) (p : Nat) (x : RxSt) : (s.setRx p x).celOrders = s.celOrders := rfl
@[simp] theorem State.setRx_cel (s : State) (p : Nat) (x : RxSt) : (s.setRx p x).cel = s.cel := rfl
@[simp] theorem State.setRx_boot (s : State) (p : Nat) (x : RxSt) : (s.setRx p x).boot = s.boot := rfl
@[simp] theorem State.setRx_lost (s : State) (p : Nat) (x : RxSt) : (s.setRx p x).lost = s.lost := rfl
@[simp] theorem State.setRx_pending (s : State) (p : Nat) (x : RxSt) : (s.setRx p x).pending = s.pending := rfl
@[simp] theorem State.setRx_fresh (s : State) (p : Nat) (x : RxSt) : (s.setRx p x).fresh = s.fresh := rfl

@[simp] theorem State.setByte_part (s : State) (a : Nat) (b : Byte) : (s.setByte a b).part = s.part := rfl
@[simp] theorem State.setByte_tick (s : State) (a : Nat) (b : Byte) : (s.setByte a b).tick = s.tick := rfl
@[simp] theorem State.setByte_live (s : State) (a : Nat) (b : Byte) : (s.setByte a b).live = s.live := rfl
@[simp] theorem State.setByte_staged (s : State) (a : Nat) (b : Byte) : (s.setByte a b).staged = s.staged := rfl
@[simp] theorem State.setByte_tb (s : State) (a : Nat) (b : Byte) : (s.setByte a b).tb = s.tb := rfl
@[simp] theorem State.setByte_host (s : State) (a : Nat) (b : Byte) : (s.setByte a b).host = s.host := rfl
@[simp] theorem State.setByte_recs (s : State) (a : Nat) (b : Byte) : (s.setByte a b).recs = s.recs := rfl
@[simp] theorem State.setByte_cars (s : State) (a : Nat) (b : Byte) : (s.setByte a b).cars = s.cars := rfl
@[simp] theorem State.setByte_tx (s : State) (a : Nat) (b : Byte) : (s.setByte a b).tx = s.tx := rfl
@[simp] theorem State.setByte_rx (s : State) (a : Nat) (b : Byte) : (s.setByte a b).rx = s.rx := rfl
@[simp] theorem State.setByte_pr (s : State) (a : Nat) (b : Byte) : (s.setByte a b).pr = s.pr := rfl
@[simp] theorem State.setByte_can (s : State) (a : Nat) (b : Byte) : (s.setByte a b).can = s.can := rfl
@[simp] theorem State.setByte_orx (s : State) (a : Nat) (b : Byte) : (s.setByte a b).orx = s.orx := rfl
@[simp] theorem State.setByte_adc (s : State) (a : Nat) (b : Byte) : (s.setByte a b).adc = s.adc := rfl
@[simp] theorem State.setByte_agc (s : State) (a : Nat) (b : Byte) : (s.setByte a b).agc = s.agc := rfl
@[simp] theorem State.setByte_air (s : State) (a : Nat) (b : Byte) : (s.setByte a b).air = s.air := rfl
@[simp] theorem State.setByte_rowst (s : State) (a : Nat) (b : Byte) : (s.setByte a b).rowst = s.rowst := rfl
@[simp] theorem State.setByte_tddOld (s : State) (a : Nat) (b : Byte) : (s.setByte a b).tddOld = s.tddOld := rfl
@[simp] theorem State.setByte_fh (s : State) (a : Nat) (b : Byte) : (s.setByte a b).fh = s.fh := rfl
@[simp] theorem State.setByte_links (s : State) (a : Nat) (b : Byte) : (s.setByte a b).links = s.links := rfl
@[simp] theorem State.setByte_sol (s : State) (a : Nat) (b : Byte) : (s.setByte a b).sol = s.sol := rfl
@[simp] theorem State.setByte_cal (s : State) (a : Nat) (b : Byte) : (s.setByte a b).cal = s.cal := rfl
@[simp] theorem State.setByte_sv (s : State) (a : Nat) (b : Byte) : (s.setByte a b).sv = s.sv := rfl
@[simp] theorem State.setByte_dma (s : State) (a : Nat) (b : Byte) : (s.setByte a b).dma = s.dma := rfl
@[simp] theorem State.setByte_mon (s : State) (a : Nat) (b : Byte) : (s.setByte a b).mon = s.mon := rfl
@[simp] theorem State.setByte_pw (s : State) (a : Nat) (b : Byte) : (s.setByte a b).pw = s.pw := rfl
@[simp] theorem State.setByte_th (s : State) (a : Nat) (b : Byte) : (s.setByte a b).th = s.th := rfl
@[simp] theorem State.setByte_celOrders (s : State) (a : Nat) (b : Byte) : (s.setByte a b).celOrders = s.celOrders := rfl
@[simp] theorem State.setByte_cel (s : State) (a : Nat) (b : Byte) : (s.setByte a b).cel = s.cel := rfl
@[simp] theorem State.setByte_boot (s : State) (a : Nat) (b : Byte) : (s.setByte a b).boot = s.boot := rfl
@[simp] theorem State.setByte_lost (s : State) (a : Nat) (b : Byte) : (s.setByte a b).lost = s.lost := rfl
@[simp] theorem State.setByte_pending (s : State) (a : Nat) (b : Byte) : (s.setByte a b).pending = s.pending := rfl
@[simp] theorem State.setByte_fresh (s : State) (a : Nat) (b : Byte) : (s.setByte a b).fresh = s.fresh := rfl

@[simp] theorem State.answer_readData (s : State) (w : Word) : (s.answer w).host.readData = w := rfl

/-! ### Reads after writes -/

theorem State.rd_wr_same {s : State} (h : s.Canonical) (a : Nat) (w : Word) : (s.wr a w).rd a = w :=
  Sparse.get_set_same h.live a w

theorem State.rd_wr_ne {s : State} (h : s.Canonical) {a b : Nat} (w : Word) (hb : b ≠ a) : (s.wr a w).rd b = s.rd b :=
  Sparse.get_set_ne h.live w hb

theorem State.srd_swr_same {s : State} (h : s.Canonical) (a : Nat) (w : Word) : (s.swr a w).srd a = w :=
  Sparse.get_set_same h.staged a w

theorem State.srd_swr_ne {s : State} (h : s.Canonical) {a b : Nat} (w : Word) (hb : b ≠ a) : (s.swr a w).srd b = s.srd b :=
  Sparse.get_set_ne h.staged w hb

theorem State.memByte_setByte_same {s : State} (h : s.Canonical) (a : Nat) (b : Byte) : (s.setByte a b).memByte a = b :=
  Sparse.get_set_same h.mem a b

theorem State.memByte_setByte_ne {s : State} (h : s.Canonical) {a c : Nat} (b : Byte) (hc : c ≠ a) :
    (s.setByte a b).memByte c = s.memByte c := Sparse.get_set_ne h.mem b hc

@[simp] theorem State.answer_answer (s : State) (a b : Word) : (s.answer a).answer b = s.answer b := rfl
@[simp] theorem State.rd_swr (s : State) (a b : Nat) (w : Word) : (s.swr a w).rd b = s.rd b := rfl
@[simp] theorem State.srd_wr (s : State) (a b : Nat) (w : Word) : (s.wr a w).srd b = s.srd b := rfl
@[simp] theorem State.rd_answer (s : State) (b : Nat) (w : Word) : (s.answer w).rd b = s.rd b := rfl
@[simp] theorem State.rd_setMbox (s : State) (m a : Nat) (b : Mbox) : (s.setMbox m b).rd a = s.rd a := rfl

theorem State.Canonical.wr {s : State} (h : s.Canonical) (a : Nat) (w : Word) : (s.wr a w).Canonical :=
  ⟨Sparse.wf_set h.live a w, h.staged, h.mem⟩

theorem State.Canonical.swr {s : State} (h : s.Canonical) (a : Nat) (w : Word) : (s.swr a w).Canonical :=
  ⟨h.live, Sparse.wf_set h.staged a w, h.mem⟩

end Sys2Proof.Machine
end

