-- ==== Sys2Proof/Laws/Time.lean ====
section
/-!
SUPPORT. What the passage of time does: the tick moves on, the counters of the transmit chains count and the samples on their way move; nothing
else changes, and without samples on their way nothing but the tick.
-/
namespace Sys2Proof.Machine

/-- From `s` to `t` only the register store has changed. -/
def LiveOnly (s t : State) : Prop := ∃ l, t = { s with live := l }

theorem LiveOnly.bumpBy {s u : State} (h : LiveOnly s u) (c n : Nat) : LiveOnly s (u.bumpBy c n) := by
  obtain ⟨l, rfl⟩ := h
  unfold State.bumpBy
  split
  · exact ⟨l, rfl⟩
  · exact ⟨_, rfl⟩

/-- Counting the transmit chain of a path changes the register store alone. -/
theorem LiveOnly.countTx {s u : State} (h : LiveOnly s u) (p : Nat) (a b : Int) : LiveOnly s (u.countTx p a b) := by
  unfold State.countTx
  exact (((((h.bumpBy _ _).bumpBy _ _).bumpBy _ _).bumpBy _ _).bumpBy _ _).bumpBy _ _

theorem LiveOnly.forEach {α : Type} {s : State} {f : State → α → State} (hf : ∀ u x, LiveOnly s u → LiveOnly s (f u x)) :
    ∀ (l : List α) {u : State}, LiveOnly s u → LiveOnly s (u.forEach l f)
  | [], _, h => h
  | x :: l, u, h => LiveOnly.forEach hf l (hf u x h)

/-- Running the transmit chains changes the register store alone. -/
theorem State.runTx_eq (s : State) (n : Nat) : LiveOnly s (s.runTx n) := by
  unfold State.runTx
  split
  · exact ⟨s.live, rfl⟩
  · exact LiveOnly.forEach (fun u p h => h.countTx p _ _) _ ⟨s.live, rfl⟩

/-- Time that passes changes the tick, the register store and the samples on their way, and nothing else. -/
theorem State.advanceTo_eq (s : State) (n : Nat) :
    ∃ l a, s.advanceTo n = { s with tick := max s.tick n, live := l, air := a } := by
  unfold State.advanceTo
  split
  · next h => exact ⟨s.live, s.air, by rw [Nat.max_eq_left h]⟩
  · next h =>
    have hm : max s.tick n = n := Nat.max_eq_right (Nat.le_of_lt (Nat.lt_of_not_le h))
    rw [hm]
    split
    · exact ⟨s.live, s.air, rfl⟩
    · obtain ⟨l, e⟩ := State.runTx_eq s.note n
      exact ⟨l, (State.airDrop { s.note with live := l } n).air, by simp only [e]; rfl⟩

/-- Without samples on their way time changes the tick alone. -/
theorem State.advanceTo_quiet {s : State} (h : s.airQuiet = true) (n : Nat) : s.advanceTo n = { s with tick := max s.tick n } := by
  unfold State.advanceTo
  split
  · next hn => rw [Nat.max_eq_left hn]
  · next hn => rw [Nat.max_eq_right (Nat.le_of_lt (Nat.lt_of_not_le hn))]

@[simp] theorem State.advanceTo_tick (s : State) (n : Nat) : (s.advanceTo n).tick = max s.tick n := by
  obtain ⟨l, a, e⟩ := s.advanceTo_eq n
  rw [e]

/-- A moment that is not ahead changes nothing. -/
theorem State.advanceTo_past {s : State} {n : Nat} (h : n ≤ s.tick) : s.advanceTo n = s := by
  unfold State.advanceTo
  rw [if_pos h]

@[simp] theorem State.advanceTo_part (s : State) (n : Nat) : (s.advanceTo n).part = s.part := by
  obtain ⟨l, a, e⟩ := s.advanceTo_eq n
  rw [e]

@[simp] theorem State.advanceTo_staged (s : State) (n : Nat) : (s.advanceTo n).staged = s.staged := by
  obtain ⟨l, a, e⟩ := s.advanceTo_eq n
  rw [e]

@[simp] theorem State.advanceTo_tb (s : State) (n : Nat) : (s.advanceTo n).tb = s.tb := by
  obtain ⟨l, a, e⟩ := s.advanceTo_eq n
  rw [e]

@[simp] theorem State.advanceTo_host (s : State) (n : Nat) : (s.advanceTo n).host = s.host := by
  obtain ⟨l, a, e⟩ := s.advanceTo_eq n
  rw [e]

@[simp] theorem State.advanceTo_recs (s : State) (n : Nat) : (s.advanceTo n).recs = s.recs := by
  obtain ⟨l, a, e⟩ := s.advanceTo_eq n
  rw [e]

@[simp] theorem State.advanceTo_cars (s : State) (n : Nat) : (s.advanceTo n).cars = s.cars := by
  obtain ⟨l, a, e⟩ := s.advanceTo_eq n
  rw [e]

@[simp] theorem State.advanceTo_tx (s : State) (n : Nat) : (s.advanceTo n).tx = s.tx := by
  obtain ⟨l, a, e⟩ := s.advanceTo_eq n
  rw [e]

@[simp] theorem State.advanceTo_rx (s : State) (n : Nat) : (s.advanceTo n).rx = s.rx := by
  obtain ⟨l, a, e⟩ := s.advanceTo_eq n
  rw [e]

@[simp] theorem State.advanceTo_pr (s : State) (n : Nat) : (s.advanceTo n).pr = s.pr := by
  obtain ⟨l, a, e⟩ := s.advanceTo_eq n
  rw [e]

@[simp] theorem State.advanceTo_can (s : State) (n : Nat) : (s.advanceTo n).can = s.can := by
  obtain ⟨l, a, e⟩ := s.advanceTo_eq n
  rw [e]

@[simp] theorem State.advanceTo_orx (s : State) (n : Nat) : (s.advanceTo n).orx = s.orx := by
  obtain ⟨l, a, e⟩ := s.advanceTo_eq n
  rw [e]

@[simp] theorem State.advanceTo_adc (s : State) (n : Nat) : (s.advanceTo n).adc = s.adc := by
  obtain ⟨l, a, e⟩ := s.advanceTo_eq n
  rw [e]

@[simp] theorem State.advanceTo_agc (s : State) (n : Nat) : (s.advanceTo n).agc = s.agc := by
  obtain ⟨l, a, e⟩ := s.advanceTo_eq n
  rw [e]

@[simp] theorem State.advanceTo_rowst (s : State) (n : Nat) : (s.advanceTo n).rowst = s.rowst := by
  obtain ⟨l, a, e⟩ := s.advanceTo_eq n
  rw [e]

@[simp] theorem State.advanceTo_tddOld (s : State) (n : Nat) : (s.advanceTo n).tddOld = s.tddOld := by
  obtain ⟨l, a, e⟩ := s.advanceTo_eq n
  rw [e]

@[simp] theorem State.advanceTo_fh (s : State) (n : Nat) : (s.advanceTo n).fh = s.fh := by
  obtain ⟨l, a, e⟩ := s.advanceTo_eq n
  rw [e]

@[simp] theorem State.advanceTo_links (s : State) (n : Nat) : (s.advanceTo n).links = s.links := by
  obtain ⟨l, a, e⟩ := s.advanceTo_eq n
  rw [e]

@[simp] theorem State.advanceTo_tr (s : State) (n : Nat) : (s.advanceTo n).tr = s.tr := by
  obtain ⟨l, a, e⟩ := s.advanceTo_eq n
  rw [e]

@[simp] theorem State.advanceTo_sol (s : State) (n : Nat) : (s.advanceTo n).sol = s.sol := by
  obtain ⟨l, a, e⟩ := s.advanceTo_eq n
  rw [e]

@[simp] theorem State.advanceTo_cal (s : State) (n : Nat) : (s.advanceTo n).cal = s.cal := by
  obtain ⟨l, a, e⟩ := s.advanceTo_eq n
  rw [e]

@[simp] theorem State.advanceTo_sv (s : State) (n : Nat) : (s.advanceTo n).sv = s.sv := by
  obtain ⟨l, a, e⟩ := s.advanceTo_eq n
  rw [e]

@[simp] theorem State.advanceTo_dma (s : State) (n : Nat) : (s.advanceTo n).dma = s.dma := by
  obtain ⟨l, a, e⟩ := s.advanceTo_eq n
  rw [e]

@[simp] theorem State.advanceTo_mon (s : State) (n : Nat) : (s.advanceTo n).mon = s.mon := by
  obtain ⟨l, a, e⟩ := s.advanceTo_eq n
  rw [e]

@[simp] theorem State.advanceTo_pw (s : State) (n : Nat) : (s.advanceTo n).pw = s.pw := by
  obtain ⟨l, a, e⟩ := s.advanceTo_eq n
  rw [e]

@[simp] theorem State.advanceTo_th (s : State) (n : Nat) : (s.advanceTo n).th = s.th := by
  obtain ⟨l, a, e⟩ := s.advanceTo_eq n
  rw [e]

@[simp] theorem State.advanceTo_celOrders (s : State) (n : Nat) : (s.advanceTo n).celOrders = s.celOrders := by
  obtain ⟨l, a, e⟩ := s.advanceTo_eq n
  rw [e]

@[simp] theorem State.advanceTo_cel (s : State) (n : Nat) : (s.advanceTo n).cel = s.cel := by
  obtain ⟨l, a, e⟩ := s.advanceTo_eq n
  rw [e]

@[simp] theorem State.advanceTo_boot (s : State) (n : Nat) : (s.advanceTo n).boot = s.boot := by
  obtain ⟨l, a, e⟩ := s.advanceTo_eq n
  rw [e]

@[simp] theorem State.advanceTo_lost (s : State) (n : Nat) : (s.advanceTo n).lost = s.lost := by
  obtain ⟨l, a, e⟩ := s.advanceTo_eq n
  rw [e]

@[simp] theorem State.advanceTo_pending (s : State) (n : Nat) : (s.advanceTo n).pending = s.pending := by
  obtain ⟨l, a, e⟩ := s.advanceTo_eq n
  rw [e]

@[simp] theorem State.advanceTo_fresh (s : State) (n : Nat) : (s.advanceTo n).fresh = s.fresh := by
  obtain ⟨l, a, e⟩ := s.advanceTo_eq n
  rw [e]

/-! ### Registers -/

/-- The counters of the transmit chain are counters. -/
theorem isCounter_countTx (p : Nat) (h : p < 96) :
    isCounter (Cnt.seDlSat p) = true ∧ isCounter (Cnt.txPath p 0) = true ∧ isCounter (Cnt.txPath p 1) = true ∧
      isCounter (Cnt.txPath p 2) = true ∧ isCounter (Cnt.txPath p 3) = true ∧ isCounter (Cnt.prPath p 7) = true := by
  revert p
  decide

theorem State.rd_bumpBy_ne {s : State} (h : s.Canonical) {b c : Nat} (n : Nat) (hb : b ≠ c) : (s.bumpBy c n).rd b = s.rd b := by
  unfold State.bumpBy
  split
  · rfl
  · exact State.rd_wr_ne h _ hb

theorem State.Canonical.bumpBy {s : State} (h : s.Canonical) (c n : Nat) : (s.bumpBy c n).Canonical := by
  unfold State.bumpBy
  split
  · exact h
  · exact h.wr _ _

theorem State.Canonical.countTx {s : State} (h : s.Canonical) (p : Nat) (a b : Int) : (s.countTx p a b).Canonical := by
  unfold State.countTx
  exact (((((h.bumpBy _ _).bumpBy _ _).bumpBy _ _).bumpBy _ _).bumpBy _ _).bumpBy _ _

/-- Counting leaves every register that is no counter. -/
theorem State.rd_countTx {s : State} (h : s.Canonical) {p : Nat} (hp : p < 96) {c : Nat} (hc : isCounter c = false) (a b : Int) :
    (s.countTx p a b).rd c = s.rd c := by
  obtain ⟨h0, h1, h2, h3, h4, h5⟩ := isCounter_countTx p hp
  have ne : ∀ {x : Nat}, isCounter x = true → c ≠ x := by
    intro x hx e
    rw [e, hx] at hc
    cases hc
  unfold State.countTx
  rw [State.rd_bumpBy_ne (((((h.bumpBy _ _).bumpBy _ _).bumpBy _ _).bumpBy _ _).bumpBy _ _) _ (ne h5),
    State.rd_bumpBy_ne ((((h.bumpBy _ _).bumpBy _ _).bumpBy _ _).bumpBy _ _) _ (ne h4),
    State.rd_bumpBy_ne (((h.bumpBy _ _).bumpBy _ _).bumpBy _ _) _ (ne h3),
    State.rd_bumpBy_ne ((h.bumpBy _ _).bumpBy _ _) _ (ne h2),
    State.rd_bumpBy_ne (h.bumpBy _ _) _ (ne h1), State.rd_bumpBy_ne h _ (ne h0)]

/-- Time that passes changes no register but counters. -/
theorem State.rd_advanceTo {s : State} (h : s.Canonical) (n : Nat) {c : Nat} (hc : isCounter c = false) : (s.advanceTo n).rd c = s.rd c := by
  unfold State.advanceTo
  split
  · rfl
  · split
    · rfl
    · have key : ∀ (l : List Nat) (u : State) (a b : Int), (∀ p ∈ l, p < 96) → u.Canonical →
          (u.forEach l (fun v p => v.countTx p a b)).rd c = u.rd c := by
        intro l
        induction l with
        | nil => exact fun u a b _ _ => rfl
        | cons p l ih =>
          intro u a b hl hu
          exact (ih _ a b (fun q hq => hl q (List.mem_cons_of_mem _ hq)) (hu.countTx p a b)).trans
            (State.rd_countTx hu (hl p List.mem_cons_self) hc a b)
      have hn : s.note.Canonical := ⟨h.live, h.staged, h.mem⟩
      have hr : (s.note.runTx n).rd c = s.note.rd c := by
        unfold State.runTx
        split
        · rfl
        · refine key _ _ _ _ (fun p hp => ?_) hn
          have hp1 := List.mem_range.mp (List.mem_of_mem_filter hp)
          have : s.part.paths ≤ 96 := by cases s.part <;> decide
          exact Nat.lt_of_lt_of_le hp1 this
      exact hr

end Sys2Proof.Machine
end

