-- ==== Sys2Proof/WellFormed.lean ====
section
/-!
DEFINITION. Well-formed commands: every operand lies in the range that the spec's numbering and its packet and instruction formats
give it (R1, R8, R206, R207, R421, R427, R451).
-/
namespace Sys2Proof

/-- The fields of a packet's header fit their places (R427). -/
def Pkt.wf (p : Pkt) : Bool := decide (p.mb < 8 ∧ p.tag < 256 ∧ p.flags < 16 ∧ p.params.length < 64)

/-! The fields of an instruction fit their places (R206, R207). -/

def FmtMA.wf (f : FmtMA) : Bool := decide (f.acc < 4 ∧ f.acc2 < 4 ∧ f.x < 32 ∧ f.y < 32 ∧ f.z < 32)
def FmtMP.wf (f : FmtMP) : Bool := decide (f.dst < 32 ∧ f.x < 32 ∧ f.y < 32 ∧ f.k < 64)
def FmtMQ.wf (f : FmtMQ) : Bool := decide (f.dst < 32 ∧ f.acc < 4 ∧ f.k < 64)
def FmtMR.wf (f : FmtMR) : Bool := decide (f.dst < 32 ∧ f.a < 32 ∧ f.b < 32 ∧ f.imm6 < 64 ∧ f.flag < 4)
def FmtMI.wf (f : FmtMI) : Bool := decide (f.dst < 32 ∧ f.imm20 < 2 ^ 20)
def FmtXL.wf (f : FmtXL) : Bool := decide (f.d < 32 ∧ f.a < 8 ∧ f.step < 2 ^ 10)
def FmtXD.wf (f : FmtXD) : Bool :=
  decide (f.d1 < 32 ∧ f.d2 < 32 ∧ f.a1 < 8 ∧ f.a2 < 8 ∧ f.step1 < 32 ∧ f.step2 < 32)
def FmtXA.wf (f : FmtXA) : Bool := decide (f.idx < 8 ∧ f.d < 32 ∧ f.imm17 < 2 ^ 17)
def FmtXS.wf (f : FmtXS) : Bool := decide (f.a < 8 ∧ f.d < 32 ∧ f.store < 4 ∧ f.count < 128 ∧ f.tag < 4)
def FmtXC.wf (f : FmtXC) : Bool := decide (f.last < 2 ^ 13 ∧ f.count < 2 ^ 11)
def FmtXB.wf (f : FmtXB) : Bool := decide (f.flag < 4 ∧ f.target < 2 ^ 13)
def FmtXE.wf (f : FmtXE) : Bool := decide (f.d1 < 32 ∧ f.d2 < 32 ∧ f.imm4 < 16)

/-- The header fields of an eCPRI and O-RAN message fit their places (R91-R93). -/
def EcpriMsg.wf (m : EcpriMsg) : Bool :=
  decide (m.port < 8 ∧ m.seqId < 256 ∧ m.subSeq < 128 ∧ m.eaxc < 2 ^ 16 ∧ m.frameId < 256 ∧ m.subframeId < 16 ∧ m.slotId < 64 ∧
    m.symbolId < 64 ∧ m.filterIndex < 16 ∧ m.size < 2 ^ 16)

/-- A command whose operands are in range. -/
def Instr.wf : Instr → Bool
  | .registerWrite o _ be => decide (o < 2 ^ 28) && o % 4 == 0 && decide (be < 16)
  | .storeSlotWrite o _ be => decide (o < 2 ^ 28) && o % 4 == 0 && decide (be < 16)
  | .crossingOverflow row die unit _ => decide (row < 8) && decide (die < 5) && decide (unit < 32)
  | .triggerMessage tile line target => decide (tile < 4) && decide (line < 16) && decide (target < 2 ^ 48)
  | .packageLoss k => decide (k < 4)
  | .tbRateAdjWrite _ => true
  | .tbNowNsRead => true
  | .timeStepApply => true
  | .comparatorFire n => decide (n < 64)
  | .cmpArm n _ => decide (n < 64)
  | .cmpCancel n _ => decide (n < 64)
  | .tbTrigSelWrite line _ => decide (line < 16)
  | .tbSwStrobe _ => true
  | .tbLateCntRead => true
  | .gridBoundary src _ => decide (src < 11)
  | .gridOriginWrite i _ => decide (i < 3)
  | .txtsPop => true
  | .syncTimeout => true
  | .holdSet _ => true
  | .holdClr _ => true
  | .synceLockLoss => true
  | .ppsInEdge => true
  | .ppsinAbsent => true
  | .ppsinNsRead => true
  | .ppsOutRise _ => true
  | .ppsOutFall => true
  | .alarmArmWrite _ => true
  | .alarmFire => true
  | .timeRead p => p.wf
  | .timeRateAdj p => p.wf
  | .timeStep p => p.wf
  | .timeHold p => p.wf
  | .timeSched p => p.wf
  | .timeCancel p => p.wf
  | .timeGrid p => p.wf
  | .timeAlarm p => p.wf
  | .timePps p => p.wf
  | .configCapture => true
  | .configCommit => true
  | .fhPortModeWrite _ => true
  | .fhEaxcFmtWrite _ => true
  | .fhFailLostRead => true
  | .fhBufPeakRead => true
  | .portLinkUp n => decide (n < 8)
  | .portLinkDown n => decide (n < 8)
  | .frameReceive n _ => decide (n < 8)
  | .ecpriMessage m => m.wf
  | .cplaneWindowClose c => decide (c < 4)
  | .ulEgress => true
  | .failRecordPost => true
  | .fhPortMode p => p.wf
  | .fhPortCfg p => p.wf
  | .fhEaxcSet p => p.wf
  | .fhWindowSet p => p.wf
  | .fhClassSet p => p.wf
  | .fhWinQuery p => p.wf
  | .fhFailCfg p => p.wf
  | .fhWakeCfg p => p.wf
  | .seCtrlWrite _ => true
  | .dlSymbol c _ l => decide (c < 4) && decide (l < 14)
  | .ulSymbol c _ l _ => decide (c < 4) && decide (l < 14)
  | .prachOccasion k _ => decide (k < 256)
  | .srsEstimate c _ => decide (c < 4)
  | .carrierSwitch c => decide (c < 4)
  | .carSet p => p.wf
  | .carSrsSet p => p.wf
  | .carQuery p => p.wf
  | .seLinkRate p => p.wf
  | .carStatus p => p.wf
  | .trWcNowWrite _ => true
  | .weightCommitEval => true
  | .weightCommitReeval => true
  | .weightSwitch => true
  | .weightRetire => true
  | .carryFwdDone => true
  | .trellisCfgApply => true
  | .cascPartialTimeout => true
  | .bfCommit p => p.wf
  | .bfLock p => p.wf
  | .bfLoad p => p.wf
  | .bfScale p => p.wf
  | .bfFallback p => p.wf
  | .bfMode p => p.wf
  | .bfNullSet p => p.wf
  | .bfStatus p => p.wf
  | .jobGoWrite j _ => decide (j < 64)
  | .jobRelease => true
  | .workItemStart c => decide (c < 32)
  | .workItemTimeout c => decide (c < 32)
  | .jobDeadline j => decide (j < 64)
  | .cascSliceTimeout j _ => decide (j < 64)
  | .solSrsSet p => p.wf
  | .solJobSubmit p => p.wf
  | .solJobCancel p => p.wf
  | .solJobStatus p => p.wf
  | .solKernelLoad p => p.wf
  | .solCoreCtrl p _ => p.wf
  | .solCascMode p => p.wf
  | .solChClear p => p.wf
  | .mNop c f => decide (c < 32) && f.wf
  | .mCmac c f => decide (c < 32) && f.wf
  | .mDmac c f => decide (c < 32) && f.wf
  | .mMulw c f => decide (c < 32) && f.wf
  | .mCmpy c f => decide (c < 32) && f.wf
  | .mRdq c f => decide (c < 32) && f.wf
  | .mCplx c f => decide (c < 32) && f.wf
  | .mReal c f => decide (c < 32) && f.wf
  | .mAdd c f => decide (c < 32) && f.wf
  | .mSub c f => decide (c < 32) && f.wf
  | .mNeg c f => decide (c < 32) && f.wf
  | .mConj c f => decide (c < 32) && f.wf
  | .mSwap c f => decide (c < 32) && f.wf
  | .mMov c f => decide (c < 32) && f.wf
  | .mAnd c f => decide (c < 32) && f.wf
  | .mOr c f => decide (c < 32) && f.wf
  | .mXor c f => decide (c < 32) && f.wf
  | .mShl c f => decide (c < 32) && f.wf
  | .mShr c f => decide (c < 32) && f.wf
  | .mExp c f => decide (c < 32) && f.wf
  | .mExpmin c f => decide (c < 32) && f.wf
  | .mNorm c f => decide (c < 32) && f.wf
  | .mRcp c f => decide (c < 32) && f.wf
  | .mRsq c f => decide (c < 32) && f.wf
  | .mMin c f => decide (c < 32) && f.wf
  | .mMax c f => decide (c < 32) && f.wf
  | .mCmp c f => decide (c < 32) && f.wf
  | .mTst c f => decide (c < 32) && f.wf
  | .mTpois c f => decide (c < 32) && f.wf
  | .mMovs c f => decide (c < 32) && f.wf
  | .mMovi c f => decide (c < 32) && f.wf
  | .mMovih c f => decide (c < 32) && f.wf
  | .xNop c f => decide (c < 32) && f.wf
  | .xLd c f => decide (c < 32) && f.wf
  | .xSt c f => decide (c < 32) && f.wf
  | .xLdd c f => decide (c < 32) && f.wf
  | .xLdst c f => decide (c < 32) && f.wf
  | .xSeta c f => decide (c < 32) && f.wf
  | .xAdda c f => decide (c < 32) && f.wf
  | .xMovda c f => decide (c < 32) && f.wf
  | .xSetcbb c f => decide (c < 32) && f.wf
  | .xSetcbl c f => decide (c < 32) && f.wf
  | .xBind c f => decide (c < 32) && f.wf
  | .xSget c f => decide (c < 32) && f.wf
  | .sgetArrival c _ => decide (c < 32)
  | .xSput c f => decide (c < 32) && f.wf
  | .sputLand c => decide (c < 32)
  | .xSwait c f => decide (c < 32) && f.wf
  | .xLoop c f => decide (c < 32) && f.wf
  | .xBr c f => decide (c < 32) && f.wf
  | .xJmp c f => decide (c < 32) && f.wf
  | .xSetrrb c f => decide (c < 32) && f.wf
  | .xEnd c f => decide (c < 32) && f.wf
  | .loadStrobe r => decide (r < 24)
  | .localResumeStrobe p => decide (p < 96)
  | .forceMuteWrite p _ => decide (p < 96)
  | .tddSwitch c _ => decide (c < 4)
  | .blankExitStart p _ => decide (p < 96)
  | .feQw1Write r _ => decide (r < 24)
  | .feWriteRelease r => decide (r < 24)
  | .feFrameStart r => decide (r < 24)
  | .feFrameEnd r _ _ => decide (r < 24)
  | .feRdataRead r => decide (r < 24)
  | .txSet p => p.wf
  | .txNco p => p.wf
  | .txDac p => p.wf
  | .txEnable p => p.wf
  | .txMute p => p.wf
  | .feWrite p => p.wf
  | .feRead p => p.wf
  | .tddSet p => p.wf
  | .tddTiming p => p.wf
  | .txStatus p => p.wf
  | .orxCaptureStart r => decide (r < 24)
  | .pressCaptureDone r _ _ => decide (r < 24)
  | .pressUpdateReady p => decide (p < 96)
  | .pressHoldExpiry p => decide (p < 96)
  | .sbfdCaptureDone r _ _ _ => decide (r < 24)
  | .canUpdateReady p => decide (p < 96)
  | .canHoldExpiry p => decide (p < 96)
  | .nullCalcDone _ _ => true
  | .prSet p => p.wf
  | .prCoefSet p => p.wf
  | .prAdapt p => p.wf
  | .prLimits p => p.wf
  | .prStatus p => p.wf
  | .prSave p => p.wf
  | .prRestore p => p.wf
  | .canSet p => p.wf
  | .canFit p => p.wf
  | .canStatus p => p.wf
  | .sbfdBand p => p.wf
  | .sbfdNullCalc p => p.wf
  | .orxSet p => p.wf
  | .orxCapture p => p.wf
  | .adcFgCalDone a _ => decide (a < 120)
  | .spareEstimate a _ => decide (a < 120)
  | .sliceHandover a => decide (a < 120)
  | .spareTimeout a => decide (a < 120)
  | .sliceFailure a slice check => decide (a < 120) && decide (slice < 5) && decide (check < 4)
  | .sliceRetestDone a => decide (a < 120)
  | .overloadEnter p _ => decide (p < 96)
  | .overloadExit p _ => decide (p < 96)
  | .detectorWindowEnd p _ => decide (p < 96)
  | .agcDecision p _ => decide (p < 96)
  | .agcFrameSend r => decide (r < 24)
  | .agcCompApply p => decide (p < 96)
  | .rxFastRead p => decide (p < 96)
  | .rxSet p => p.wf
  | .rxNco p => p.wf
  | .rxEnable p => p.wf
  | .rxAgcSet p => p.wf
  | .rxAgcTab p => p.wf
  | .rxDetect p => p.wf
  | .adcCal p => p.wf
  | .rxStatus p => p.wf
  | .calCycleStart => true
  | .calOccasion _ l _ => decide (l < 14)
  | .calResults => true
  | .calConfig p => p.wf
  | .calNetLoad p => p.wf
  | .calRun p => p.wf
  | .calApply p => p.wf
  | .calSave p => p.wf
  | .calRestore p => p.wf
  | .calStatus p => p.wf
  | .tileStripe l _ _ _ _ => decide (l < 4)
  | .cascStripe k _ _ => decide (k < 2)
  | .cascLayerRecord k => decide (k < 2)
  | .cascPartialRecord k => decide (k < 2)
  | .cascEstimateRecord k => decide (k < 2)
  | .cascSliceRecord k => decide (k < 2)
  | .ackMessage l n => decide (l < 6) && decide (n < 256)
  | .regReq l _ o _ => decide (l < 6) && decide (o < 2 ^ 28) && o % 4 == 0
  | .regRsp l _ => decide (l < 6)
  | .captureMessage r _ => decide (r < 24)
  | .laneMessage l _ _ _ _ => decide (l < 6)
  | .timeMessage lead _ => decide (lead < 2 ^ 64)
  | .commitMessage _ => true
  | .wakeMessage pkgs tiles => decide (pkgs < 16) && decide (tiles < 2 ^ 16)
  | .mboxMessage k _ => decide (k < 2)
  | .ctrlMessage k _ => decide (k < 2)
  | .alignMessage l _ => decide (l < 6)
  | .msgResendTimeout l => decide (l < 6)
  | .linkTrain l _ _ _ => decide (l < 6)
  | .laneFailure l lane _ _ => decide (l < 6) && decide (lane < 64)
  | .laneSwap l => decide (l < 6)
  | .fomMeasure l _ => decide (l < 6)
  | .laneRetrain l lane _ => decide (l < 6) && decide (lane < 64)
  | .linkFail l _ => decide (l < 6)
  | .axRetrainWrite l _ => decide (l < 6)
  | .cxCfgWrite _ => true
  | .axStatus p => p.wf
  | .axRetrain p => p.wf
  | .axSwap p => p.wf
  | .cxRole p => p.wf
  | .axEye p => p.wf
  | .checkIntervalEnd _ => true
  | .spineFault q => decide (q < 8)
  | .selfTestDone kind unit _ => decide (kind < 5) && decide (unit < 96)
  | .svInjectGo _ => true
  | .injectionDone => true
  | .svStatus p => p.wf
  | .svRepair p => p.wf
  | .svDeclare p => p.wf
  | .svInject p => p.wf
  | .svClear p => p.wf
  | .mbH2dDataWrite m _ => decide (m < 8)
  | .mbDbWrite m _ => decide (m < 8)
  | .packetTimeout m => decide (m < 8)
  | .mbD2hDataRead m => decide (m < 8)
  | .d2hRstWrite m => decide (m < 8)
  | .mbLostRead m => decide (m < 8)
  | .noticePush m => decide (m < 8)
  | .spiWriteWords _ => true
  | .spiReadWords _ => true
  | .spiReadStatus => true
  | .spiWriteLoadBytes _ => true
  | .undefinedOpcode _ p => p.wf
  | .testDebugCmd _ p => p.wf
  | .sysNop p => p.wf
  | .sysInfo p => p.wf
  | .sysStateGet p => p.wf
  | .sysStateSet p => p.wf
  | .sysCommit p => p.wf
  | .sysCommitCancel p => p.wf
  | .sysDiscard p => p.wf
  | .sysRestart p => p.wf
  | .sysEventCfg p => p.wf
  | .glCmtNowWrite _ => true
  | .ringEnable n _ => decide (n < 32)
  | .ringDisable n _ => decide (n < 32)
  | .ringDrain n => decide (n < 32)
  | .ringDbWrite n => decide (n < 32)
  | .descFetch n _ _ => decide (n < 32)
  | .descFinish n _ _ => decide (n < 32)
  | .readCompletionTimeout n => decide (n < 32)
  | .dmaShCommitWrite n _ => decide (n < 32)
  | .directHandover n _ err => decide (n < 32) && decide (err < 4)
  | .directHalfPoint n => decide (n < 32)
  | .dmaStopWrite n => decide (n < 32)
  | .monitorSequence => true
  | .monitorConversionDone q _ _ => decide (q < 8)
  | .monitorCalDone q _ => decide (q < 8)
  | .monitorCalPeriod q => decide (q < 8)
  | .monitorPowerDown q => decide (q < 8)
  | .maInjWrite q _ => decide (q < 8)
  | .maCalWrite q _ => decide (q < 8)
  | .maTakeWrite q _ => decide (q < 8)
  | .maInjResRead q => decide (q < 8)
  | .snapNowWrite _ => true
  | .snapshotFire => true
  | .snapshotLatch => true
  | .monSnapRelWrite _ => true
  | .recorderEvent rec code _ _ _ => decide (rec < 5) && decide (code < 256)
  | .recorderTrigger rec => decide (rec < 5)
  | .recMarkWrite _ => true
  | .recClear r => decide (r < 5)
  | .recTest r => decide (r < 5)
  | .recTestDone r _ => decide (r < 5)
  | .recRearm t => decide (t < 5)
  | .recorderMemoryError r _ _ _ _ _ => decide (r < 5)
  | .snapAt p => p.wf
  | .snapRelease p => p.wf
  | .snapInfo p => p.wf
  | .snapDeliver p => p.wf
  | .recMapSet p => p.wf
  | .recListSet p => p.wf
  | .recCtrl p => p.wf
  | .recMark p => p.wf
  | .recStatus p => p.wf
  | .maSet p => p.wf
  | .maWindow p => p.wf
  | .maConvert p => p.wf
  | .maTake p => p.wf
  | .maCal p => p.wf
  | .maStatus p => p.wf
  | .sensorConversion _ => true
  | .thermalShutdown _ => true
  | .thermalRestart => true
  | .thThrWrite r _ => decide (r < 3)
  | .thStatus p => p.wf
  | .thSet p => p.wf
  | .thRead p => p.wf
  | .thSimulate p => p.wf
  | .powerEntryStart scope => decide (scope < 5)
  | .entryReask scope => decide (scope < 5)
  | .entryDelayTimeout scope => decide (scope < 5)
  | .powerEntryExec scope => decide (scope < 5)
  | .blankWindow => true
  | .wakeSource src _ => decide (src < 16)
  | .wakeStepTimeout scope => decide (scope < 5)
  | .wakeComplete scope => decide (scope < 5)
  | .refclkLoss => true
  | .pwDoorbellWrite _ => true
  | .pwPadRelWrite _ => true
  | .pwStatus p => p.wf
  | .pwTile p => p.wf
  | .pwDeep p => p.wf
  | .pwWake p => p.wf
  | .pwWakeRetry p => p.wf
  | .pwPadRelease p => p.wf
  | .pwRetClear p => p.wf
  | .pwConfig p => p.wf
  | .pwBlank p => p.wf
  | .cellarRecordWrite _ => true
  | .racking => true
  | .secureWindowWrite => true
  | .celStatus p => p.wf
  | .celRead p => p.wf
  | .secId p => p.wf
  | .secAttest p => p.wf
  | .secDbgChallenge p => p.wf
  | .imgLoad p => p.wf
  | .imgActivate p => p.wf
  | .cfgApply p => p.wf
  | .celLogClear p => p.wf
  | .secArbAdvance p => p.wf
  | .celRack p => p.wf
  | .secKeyFuse p => p.wf
  | .secKeyRevoke p => p.wf
  | .secDbgUnlock p => p.wf
  | .secDbgLock p => p.wf
  | .powerOn => true
  | .rstNLow _ => true
  | .watchdogTimeout => true
  | .boot sel _ torn _ _ badTiles _ => decide (sel < 4) && decide (torn < 8) && decide (badTiles < 16)
  | .perstNAssert => true
  | .functionLevelReset => true
  | .registerRead _ o be => decide (o < 2 ^ 28) && o % 4 == 0 && decide (be < 16)
  | .supplyRemoval => true
  | .synceLockRegain => true
  | .blankingWindowEnd p => decide (p < 96)
  | .hubRestartWindowExpiry => true
  | .sysRestartExpiry => true
  | .attestationDone => true
  | .perstNRelease => true
  | .wakeStepDone scope bad => decide (scope < 5) && decide (bad < 16)

end Sys2Proof
end

