-- ==== Sys2Proof/Tests/Slice0.lean ====
section
/-!
SUPPORT. The model's own tests: what is ill-formed is refused, and for each statement states and operands that meet the hypotheses of each of its
clauses.
-/
namespace Sys2Proof.Tests
set_option Elab.async false
open Sys2Proof.Machine

/-! ### The premises as checks -/

def takenB (s : State) (op : Nat) (p : Pkt) : Bool :=
  s.takes op p && (!(p.mb == 6 || p.mb == 7) || s.debugOpen 0) &&
    decide (p.params.length ≤ 14 ∧ 1 ≤ p.tag ∧ p.tag ≤ 255) && !s.tagInUse p.mb p.tag

theorem taken_of {s : State} {op : Nat} {p : Pkt} (h : takenB s op p = true) : s.Taken op p := by
  simp only [takenB, Bool.and_eq_true, Bool.or_eq_true, Bool.not_eq_true', decide_eq_true_eq, Bool.or_eq_false_iff, beq_eq_false_iff_ne] at h
  obtain ⟨⟨⟨h1, h2⟩, h3, h4, h5⟩, h6⟩ := h
  exact ⟨h1, fun hm => h2.resolve_left fun hn => hm.elim hn.1 hn.2, h3, h4, h5, h6⟩

theorem admits_of {s : State} {op : Nat} {p : Pkt} (h : (takenB s op p && acceptedIn op s.dev) = true) : s.Admits op p := by
  simp only [Bool.and_eq_true] at h
  exact ⟨taken_of h.1, h.2⟩

theorem reaches_of {s : State} {a : Nat} (h : (s.domOn 1 && s.part.has (placeOf a).1 && s.domOn (domainOf a) && !s.lostTo a) = true) :
    s.Reaches a := by
  simp only [Bool.and_eq_true, Bool.not_eq_true'] at h
  exact ⟨h.1.1.1, h.1.1.2, h.1.2, h.2⟩

theorem canonical_of {s : State}
    (h : (Sparse.wf (resetWord s.part) s.live && Sparse.wf (resetWord s.part) s.staged && memWf s.tr.mem) = true) : s.Canonical := by
  simp only [Bool.and_eq_true] at h
  exact ⟨h.1.1, h.1.2, h.2⟩

theorem mIssues_of {s : State} {c word : Nat}
    (h : (s.mReady c && legalM word && (s.bundle (s.coreOf c).pc).all (fun b => b % 2 ^ 32 == word) && s.sv.inject.isNone) = true) : s.MIssues c word := by
  simp only [Bool.and_eq_true, Option.all_eq_true, beq_iff_eq, Option.isNone_iff_eq_none] at h
  exact ⟨h.1.1.1, h.1.1.2, h.1.2, h.2⟩

theorem xIssues_of {s : State} {c word : Nat} {mw : MWrites}
    (h : (decide (c < 32) && (s.coreOf c).mw == some mw && legalX word && (s.bundle (s.coreOf c).pc).all (fun b => b / 2 ^ 32 == word)) = true) :
    s.XIssues c word mw := by
  simp only [Bool.and_eq_true, decide_eq_true_eq, Option.all_eq_true, beq_iff_eq] at h
  exact ⟨h.1.1.1, h.1.1.2, h.1.2, h.2⟩

theorem room_of {s : State} {p : Pkt} (h : (s.host.accepted.filter (fun r => r.mb = p.mb)).length < 32) : s.Room p := h

/-! ### States and packets -/

/-- A lead package in READY with every domain on and every tile in RUN. -/
def wS : State := { live := [(0x100, 3)] }

/-- The same in another device state. -/
def wDev (d : Nat) : State := { live := [(0x100, BitVec.ofNat 32 d)] }

/-- A packet of mailbox 0 with parameters and flags. -/
def wP (ps : List Word) (flags : Nat) : Pkt := { mb := 0, tag := 1, quiet := false, flags := flags, params := ps }


/-- States of the solver: core 0 runs a work item; its M slot has issued. -/
def wC (x : CoreSt) : State := { wS with sol := { cores := [(0, x)] } }
def wI : WorkItem := { job := 0, sub := 0, reissued := false, start := 0 }
/-- A member of a system. -/
def wM : State := wS.pb Reg.GL_PKG_POS 4 false
/-- A link in ACTIVE. -/
def wL (l : Nat) : State := wS.setLinkState l 2
/-- A section of carrier 0. -/
def wHdr : SecHdr := { port := 0, eaxc := 0, sectionId := 0, frameId := 0, subframeId := 0, slotId := 0, symbolId := 0, startPrb := 0, numPrb := 1 }
def wSec : Sec := { hdr := wHdr, entry := 0, dl := true, typ := 1, car := 0, mu := 0, ext := false, slot := 0, sym := 0, numSym := 1, prbs := [0], beam := 0, ue := 0, comp := (0, 0), air := 0 }
def wRef : CmdRef := { mb := 0, tag := 2, op := 0 }

theorem tagged_of {x : CoreSt} (h : (x.d.all (fun w => w.poisoned || (w.real && w.ri == residue w.asR.x) ||
    (!w.real && w.ri == residue w.asC.i && w.rq == residue w.asC.q)) &&
    x.acc.all (fun a => (a.ri == 15 || a.ri == residue a.i) && (a.rq == 15 || a.rq == residue a.q))) = true) : x.Tagged := by
  simp only [Bool.and_eq_true, List.all_eq_true] at h
  constructor
  · intro n
    unfold CoreSt.reg
    by_cases hn : x.phys n < x.d.length
    · have := h.1 _ (List.getElem_mem hn)
      rw [List.getD_eq_getElem _ _ hn]
      simp only [Bool.or_eq_true, Bool.and_eq_true, beq_iff_eq, Bool.not_eq_true'] at this
      rcases this with (h0 | h1) | h2
      · exact .inl h0
      · exact .inr (.inl h1)
      · exact .inr (.inr ⟨h2.1.1, h2.1.2, h2.2⟩)
    · rw [List.getD_eq_default _ _ (Nat.le_of_not_lt hn)]
      exact .inr (.inr ⟨rfl, by decide, by decide⟩)
  · intro n
    unfold CoreSt.accOf
    by_cases hn : n < x.acc.length
    · have := h.2 _ (List.getElem_mem hn)
      rw [List.getD_eq_getElem _ _ hn]
      simpa only [AccW.Tagged, Bool.or_eq_true, Bool.and_eq_true, beq_iff_eq] using this
    · rw [List.getD_eq_default _ _ (Nat.le_of_not_lt hn)]
      exact ⟨.inr (by decide), .inr (by decide)⟩

/-! ### Well-formed and ill-formed commands -/

def okP : Pkt := { mb := 7, tag := 255, quiet := true, flags := 15, params := [] }
def badP : Pkt := { okP with mb := 8 }
def okE : EcpriMsg := {
  port := 7, size := 0, payload := [], seqId := 0, cplane := true, eaxc := 0, downlink := true, frameId := 0, subframeId := 0, slotId := 0, symbolId := 0, sections := [] }
def badE : EcpriMsg := { okE with port := 8 }
def okMA : FmtMA := ⟨0, 0, 0, 0, 0, false, false, false⟩
def badMA : FmtMA := { okMA with acc := 4 }
def okMP : FmtMP := ⟨0, 0, 0, false, 0, false⟩
def badMP : FmtMP := { okMP with dst := 32 }
def okMQ : FmtMQ := ⟨0, 0, false, 0, false, false⟩
def badMQ : FmtMQ := { okMQ with dst := 32 }
def okMR : FmtMR := ⟨0, 0, 0, false, 0, 0⟩
def badMR : FmtMR := { okMR with dst := 32 }
def okMI : FmtMI := ⟨0, 0⟩
def badMI : FmtMI := { okMI with dst := 32 }
def okXL : FmtXL := ⟨0, 0, 0⟩
def badXL : FmtXL := { okXL with d := 32 }
def okXD : FmtXD := ⟨0, 0, 0, 0, 0, 0⟩
def badXD : FmtXD := { okXD with d1 := 32 }
def okXA : FmtXA := ⟨0, false, 0, 0⟩
def badXA : FmtXA := { okXA with idx := 8 }
def okXS : FmtXS := ⟨0, 0, 0, 0, 0, false⟩
def badXS : FmtXS := { okXS with a := 8 }
def okXC : FmtXC := ⟨false, false, 0, 0⟩
def badXC : FmtXC := { okXC with last := 2 ^ 13 }
def okXB : FmtXB := ⟨0, false, 0⟩
def badXB : FmtXB := { okXB with flag := 4 }
def okXE : FmtXE := ⟨0, 0, 0⟩
def badXE : FmtXE := { okXE with d1 := 32 }

/-- Every field of a packet is checked. -/
theorem test_wf_packet_fields : okP.wf = true ∧
    [badP, { okP with tag := 256 }, { okP with flags := 16 }, { okP with params := List.replicate 64 0 }].all (fun p => !p.wf) = true := by
  decide +kernel

/-- Every field of a fronthaul message is checked. -/
theorem test_wf_message_fields : okE.wf = true ∧
    [badE, { okE with seqId := 256 }, { okE with subSeq := 128 }, { okE with eaxc := 2 ^ 16 }, { okE with frameId := 256 },
      { okE with subframeId := 16 }, { okE with slotId := 64 }, { okE with symbolId := 64 }].all (fun m => !m.wf) = true := by
  decide +kernel

/-- Every field of an instruction format is checked. -/
theorem test_wf_format_fields :
    [{ okMA with acc := 4 }, { okMA with acc2 := 4 }, { okMA with x := 32 }, { okMA with y := 32 }, { okMA with z := 32 }].all (fun f => !f.wf) = true ∧
    [{ okMP with dst := 32 }, { okMP with x := 32 }, { okMP with y := 32 }, { okMP with k := 64 }].all (fun f => !f.wf) = true ∧
    [{ okMQ with dst := 32 }, { okMQ with acc := 4 }, { okMQ with k := 64 }].all (fun f => !f.wf) = true ∧
    [{ okMR with dst := 32 }, { okMR with a := 32 }, { okMR with b := 32 }, { okMR with imm6 := 64 }, { okMR with flag := 4 }].all (fun f => !f.wf) = true ∧
    [{ okMI with dst := 32 }, { okMI with imm20 := 2 ^ 20 }].all (fun f => !f.wf) = true ∧
    [{ okXL with d := 32 }, { okXL with a := 8 }, { okXL with step := 1024 }].all (fun f => !f.wf) = true ∧
    [{ okXD with d1 := 32 }, { okXD with d2 := 32 }, { okXD with a1 := 8 }, { okXD with a2 := 8 }, { okXD with step1 := 32 }, { okXD with step2 := 32 }].all (fun f => !f.wf) = true ∧
    [{ okXA with idx := 8 }, { okXA with d := 32 }, { okXA with imm17 := 2 ^ 17 }].all (fun f => !f.wf) = true ∧
    [{ okXS with a := 8 }, { okXS with d := 32 }, { okXS with store := 4 }, { okXS with count := 128 }, { okXS with tag := 4 }].all (fun f => !f.wf) = true ∧
    [{ okXC with last := 2 ^ 13 }, { okXC with count := 2 ^ 11 }].all (fun f => !f.wf) = true ∧
    [{ okXB with flag := 4 }, { okXB with target := 2 ^ 13 }].all (fun f => !f.wf) = true ∧
    [{ okXE with d1 := 32 }, { okXE with d2 := 32 }, { okXE with imm4 := 16 }].all (fun f => !f.wf) = true := by
  decide +kernel

/-- Every command with operands in range is well-formed. -/
theorem test_wf_accepts_1 :
    ([.registerWrite 0 0 0, .storeSlotWrite 0 0 0, .crossingOverflow 0 0 0 0, .triggerMessage 0 0 0, .packageLoss 0, .tbRateAdjWrite 0, .tbNowNsRead,
      .timeStepApply, .comparatorFire 0, .cmpArm 0 0, .cmpCancel 0 0, .tbTrigSelWrite 0 0, .tbSwStrobe 0, .tbLateCntRead, .gridBoundary 0 false,
      .gridOriginWrite 0 0, .txtsPop, .syncTimeout, .holdSet 0, .holdClr 0, .synceLockLoss, .ppsInEdge, .ppsinAbsent, .ppsinNsRead, .ppsOutRise false,
      .ppsOutFall, .alarmArmWrite 0, .alarmFire, .timeRead okP, .timeRateAdj okP, .timeStep okP, .timeHold okP, .timeSched okP, .timeCancel okP,
      .timeGrid okP, .timeAlarm okP, .timePps okP, .configCapture, .configCommit, .fhPortModeWrite 0, .fhEaxcFmtWrite 0, .fhFailLostRead,
      .fhBufPeakRead, .portLinkUp 0, .portLinkDown 0, .frameReceive 0 [], .ecpriMessage okE, .cplaneWindowClose 0, .ulEgress, .failRecordPost,
      .fhPortMode okP, .fhPortCfg okP, .fhEaxcSet okP, .fhWindowSet okP, .fhClassSet okP, .fhWinQuery okP, .fhFailCfg okP, .fhWakeCfg okP,
      .seCtrlWrite 0, .dlSymbol 0 0 0] : List Instr).all (fun i => i.wf) = true := by
  decide +kernel

/-- Every command with operands in range is well-formed. -/
theorem test_wf_accepts_2 :
    ([.ulSymbol 0 0 0 [], .prachOccasion 0 [], .srsEstimate 0 0, .carrierSwitch 0, .carSet okP, .carSrsSet okP, .carQuery okP, .seLinkRate okP,
      .carStatus okP, .trWcNowWrite 0, .weightCommitEval, .weightCommitReeval, .weightSwitch, .weightRetire, .carryFwdDone, .trellisCfgApply,
      .cascPartialTimeout, .bfCommit okP, .bfLock okP, .bfLoad okP, .bfScale okP, .bfFallback okP, .bfMode okP, .bfNullSet okP, .bfStatus okP,
      .jobGoWrite 0 0, .jobRelease, .workItemStart 0, .workItemTimeout 0, .jobDeadline 0, .cascSliceTimeout 0 0, .solSrsSet okP, .solJobSubmit okP,
      .solJobCancel okP, .solJobStatus okP, .solKernelLoad okP, .solCoreCtrl okP false, .solCascMode okP, .solChClear okP, .mNop 0 okMR,
      .mCmac 0 okMA, .mDmac 0 okMA, .mMulw 0 okMA, .mCmpy 0 okMP, .mRdq 0 okMQ, .mCplx 0 okMR, .mReal 0 okMR, .mAdd 0 okMR, .mSub 0 okMR,
      .mNeg 0 okMR, .mConj 0 okMR, .mSwap 0 okMR, .mMov 0 okMR, .mAnd 0 okMR, .mOr 0 okMR, .mXor 0 okMR, .mShl 0 okMR, .mShr 0 okMR, .mExp 0 okMR,
      .mExpmin 0 okMR] : List Instr).all (fun i => i.wf) = true := by
  decide +kernel

/-- Every command with operands in range is well-formed. -/
theorem test_wf_accepts_3 :
    ([.mNorm 0 okMR, .mRcp 0 okMR, .mRsq 0 okMR, .mMin 0 okMR, .mMax 0 okMR, .mCmp 0 okMR, .mTst 0 okMR, .mTpois 0 okMR, .mMovs 0 okMR, .mMovi 0 okMI,
      .mMovih 0 okMI, .xNop 0 okXL, .xLd 0 okXL, .xSt 0 okXL, .xLdd 0 okXD, .xLdst 0 okXD, .xSeta 0 okXA, .xAdda 0 okXA, .xMovda 0 okXA,
      .xSetcbb 0 okXA, .xSetcbl 0 okXA, .xBind 0 okXA, .xSget 0 okXS, .sgetArrival 0 0, .xSput 0 okXS, .sputLand 0, .xSwait 0 okXS, .xLoop 0 okXC,
      .xBr 0 okXB, .xJmp 0 okXB, .xSetrrb 0 okXE, .xEnd 0 okXE, .loadStrobe 0, .localResumeStrobe 0, .forceMuteWrite 0 0, .tddSwitch 0 0,
      .blankExitStart 0 0, .feQw1Write 0 0, .feWriteRelease 0, .feFrameStart 0, .feFrameEnd 0 0 false, .feRdataRead 0, .txSet okP, .txNco okP,
      .txDac okP, .txEnable okP, .txMute okP, .feWrite okP, .feRead okP, .tddSet okP, .tddTiming okP, .txStatus okP, .orxCaptureStart 0,
      .pressCaptureDone 0 [] 0, .pressUpdateReady 0, .pressHoldExpiry 0, .sbfdCaptureDone 0 [] [] 0, .canUpdateReady 0, .canHoldExpiry 0,
      .nullCalcDone [] []] : List Instr).all (fun i => i.wf) = true := by
  decide +kernel

/-- Every command with operands in range is well-formed. -/
theorem test_wf_accepts_4 :
    ([.prSet okP, .prCoefSet okP, .prAdapt okP, .prLimits okP, .prStatus okP, .prSave okP, .prRestore okP, .canSet okP, .canFit okP, .canStatus okP,
      .sbfdBand okP, .sbfdNullCalc okP, .orxSet okP, .orxCapture okP, .adcFgCalDone 0 [], .spareEstimate 0 [], .sliceHandover 0, .spareTimeout 0,
      .sliceFailure 0 0 0, .sliceRetestDone 0, .overloadEnter 0 [], .overloadExit 0 [], .detectorWindowEnd 0 [], .agcDecision 0 [], .agcFrameSend 0,
      .agcCompApply 0, .rxFastRead 0, .rxSet okP, .rxNco okP, .rxEnable okP, .rxAgcSet okP, .rxAgcTab okP, .rxDetect okP, .adcCal okP, .rxStatus okP,
      .calCycleStart, .calOccasion 0 0 [], .calResults, .calConfig okP, .calNetLoad okP, .calRun okP, .calApply okP, .calSave okP, .calRestore okP,
      .calStatus okP, .tileStripe 0 false 0 [] [], .cascStripe 0 0 [], .cascLayerRecord 0, .cascPartialRecord 0, .cascEstimateRecord 0,
      .cascSliceRecord 0, .ackMessage 0 0, .regReq 0 false 0 0, .regRsp 0 0, .captureMessage 0 [], .laneMessage 0 false 0 0 0,
      .timeMessage 0 (.hold true), .commitMessage (.locks 0 0), .wakeMessage 0 0, .mboxMessage 0 []] : List Instr).all (fun i => i.wf) = true := by
  decide +kernel

/-- Every command with operands in range is well-formed. -/
theorem test_wf_accepts_5 :
    ([.ctrlMessage 0 (.state 0 0 0), .alignMessage 0 .tile, .msgResendTimeout 0, .linkTrain 0 [] 0 false, .laneFailure 0 0 false false, .laneSwap 0,
      .fomMeasure 0 [], .laneRetrain 0 0 0, .linkFail 0 false, .axRetrainWrite 0 0, .cxCfgWrite 0, .axStatus okP, .axRetrain okP, .axSwap okP,
      .cxRole okP, .axEye okP, .checkIntervalEnd [], .spineFault 0, .selfTestDone 0 0 false, .svInjectGo 0, .injectionDone, .svStatus okP,
      .svRepair okP, .svDeclare okP, .svInject okP, .svClear okP, .mbH2dDataWrite 0 0, .mbDbWrite 0 0, .packetTimeout 0, .mbD2hDataRead 0,
      .d2hRstWrite 0, .mbLostRead 0, .noticePush 0, .spiWriteWords [], .spiReadWords 0, .spiReadStatus, .spiWriteLoadBytes [], .undefinedOpcode 0 okP,
      .testDebugCmd 0 okP, .sysNop okP, .sysInfo okP, .sysStateGet okP, .sysStateSet okP, .sysCommit okP, .sysCommitCancel okP, .sysDiscard okP,
      .sysRestart okP, .sysEventCfg okP, .glCmtNowWrite 0, .ringEnable 0 0, .ringDisable 0 0, .ringDrain 0, .ringDbWrite 0, .descFetch 0 [] false,
      .descFinish 0 [] false, .readCompletionTimeout 0, .dmaShCommitWrite 0 0, .directHandover 0 [] 0, .directHalfPoint 0, .dmaStopWrite 0] : List Instr).all (fun i => i.wf) = true := by
  decide +kernel

/-- Every command with operands in range is well-formed. -/
theorem test_wf_accepts_6 :
    ([.monitorSequence, .monitorConversionDone 0 0 0, .monitorCalDone 0 0, .monitorCalPeriod 0, .monitorPowerDown 0, .maInjWrite 0 0, .maCalWrite 0 0,
      .maTakeWrite 0 0, .maInjResRead 0, .snapNowWrite 0, .snapshotFire, .snapshotLatch, .monSnapRelWrite 0, .recorderEvent 0 0 0 false 0,
      .recorderTrigger 0, .recMarkWrite 0, .recClear 0, .recTest 0, .recTestDone 0 [], .recRearm 0, .recorderMemoryError 0 0 false 0 0 0, .snapAt okP,
      .snapRelease okP, .snapInfo okP, .snapDeliver okP, .recMapSet okP, .recListSet okP, .recCtrl okP, .recMark okP, .recStatus okP, .maSet okP,
      .maWindow okP, .maConvert okP, .maTake okP, .maCal okP, .maStatus okP, .sensorConversion [], .thermalShutdown false, .thermalRestart,
      .thThrWrite 0 0, .thStatus okP, .thSet okP, .thRead okP, .thSimulate okP, .powerEntryStart 0, .entryReask 0, .entryDelayTimeout 0,
      .powerEntryExec 0, .blankWindow, .wakeSource 0 [], .wakeStepTimeout 0, .wakeComplete 0, .refclkLoss, .pwDoorbellWrite 0, .pwPadRelWrite 0,
      .pwStatus okP, .pwTile okP, .pwDeep okP, .pwWake okP, .pwWakeRetry okP] : List Instr).all (fun i => i.wf) = true := by
  decide +kernel

/-- Every command with operands in range is well-formed. -/
theorem test_wf_accepts_7 :
    ([.pwPadRelease okP, .pwRetClear okP, .pwConfig okP, .pwBlank okP, .cellarRecordWrite false, .racking, .secureWindowWrite, .celStatus okP,
      .celRead okP, .secId okP, .secAttest okP, .secDbgChallenge okP, .imgLoad okP, .imgActivate okP, .cfgApply okP, .celLogClear okP,
      .secArbAdvance okP, .celRack okP, .secKeyFuse okP, .secKeyRevoke okP, .secDbgUnlock okP, .secDbgLock okP, .powerOn, .rstNLow 0,
      .watchdogTimeout, .boot 0 false 0 0 false 0 false, .perstNAssert, .functionLevelReset, .registerRead false 0 0, .supplyRemoval,
      .synceLockRegain, .blankingWindowEnd 0, .hubRestartWindowExpiry, .sysRestartExpiry, .attestationDone, .perstNRelease, .wakeStepDone 0 0] : List Instr).all (fun i => i.wf) = true := by
  decide +kernel

/-- A command whose packet is ill-formed is refused. -/
theorem test_wf_refuses_packet_1 :
    ([.timeRead badP, .timeRateAdj badP, .timeStep badP, .timeHold badP, .timeSched badP, .timeCancel badP, .timeGrid badP, .timeAlarm badP,
      .timePps badP, .fhPortMode badP, .fhPortCfg badP, .fhEaxcSet badP, .fhWindowSet badP, .fhClassSet badP, .fhWinQuery badP, .fhFailCfg badP,
      .fhWakeCfg badP, .carSet badP, .carSrsSet badP, .carQuery badP, .seLinkRate badP, .carStatus badP, .bfCommit badP, .bfLock badP, .bfLoad badP,
      .bfScale badP, .bfFallback badP, .bfMode badP, .bfNullSet badP, .bfStatus badP, .solSrsSet badP, .solJobSubmit badP, .solJobCancel badP,
      .solJobStatus badP, .solKernelLoad badP, .solCoreCtrl badP false, .solCascMode badP, .solChClear badP, .txSet badP, .txNco badP, .txDac badP,
      .txEnable badP, .txMute badP, .feWrite badP, .feRead badP, .tddSet badP, .tddTiming badP, .txStatus badP, .prSet badP, .prCoefSet badP,
      .prAdapt badP, .prLimits badP, .prStatus badP, .prSave badP, .prRestore badP, .canSet badP, .canFit badP, .canStatus badP, .sbfdBand badP,
      .sbfdNullCalc badP] : List Instr).all (fun i => !i.wf) = true := by
  decide +kernel

/-- A command whose packet is ill-formed is refused. -/
theorem test_wf_refuses_packet_2 :
    ([.orxSet badP, .orxCapture badP, .rxSet badP, .rxNco badP, .rxEnable badP, .rxAgcSet badP, .rxAgcTab badP, .rxDetect badP, .adcCal badP,
      .rxStatus badP, .calConfig badP, .calNetLoad badP, .calRun badP, .calApply badP, .calSave badP, .calRestore badP, .calStatus badP,
      .axStatus badP, .axRetrain badP, .axSwap badP, .cxRole badP, .axEye badP, .svStatus badP, .svRepair badP, .svDeclare badP, .svInject badP,
      .svClear badP, .undefinedOpcode 0 badP, .testDebugCmd 0 badP, .sysNop badP, .sysInfo badP, .sysStateGet badP, .sysStateSet badP,
      .sysCommit badP, .sysCommitCancel badP, .sysDiscard badP, .sysRestart badP, .sysEventCfg badP, .snapAt badP, .snapRelease badP, .snapInfo badP,
      .snapDeliver badP, .recMapSet badP, .recListSet badP, .recCtrl badP, .recMark badP, .recStatus badP, .maSet badP, .maWindow badP,
      .maConvert badP, .maTake badP, .maCal badP, .maStatus badP, .thStatus badP, .thSet badP, .thRead badP, .thSimulate badP, .pwStatus badP,
      .pwTile badP, .pwDeep badP] : List Instr).all (fun i => !i.wf) = true := by
  decide +kernel

/-- A command whose packet is ill-formed is refused. -/
theorem test_wf_refuses_packet_3 :
    ([.pwWake badP, .pwWakeRetry badP, .pwPadRelease badP, .pwRetClear badP, .pwConfig badP, .pwBlank badP, .celStatus badP, .celRead badP,
      .secId badP, .secAttest badP, .secDbgChallenge badP, .imgLoad badP, .imgActivate badP, .cfgApply badP, .celLogClear badP, .secArbAdvance badP,
      .celRack badP, .secKeyFuse badP, .secKeyRevoke badP, .secDbgUnlock badP, .secDbgLock badP] : List Instr).all (fun i => !i.wf) = true := by
  decide +kernel

/-- An instruction on no core, or whose fields do not fit, is refused. -/
theorem test_wf_refuses_instruction_1 :
    ([.mNop 32 okMR, .mNop 0 badMR, .mCmac 32 okMA, .mCmac 0 badMA, .mDmac 32 okMA, .mDmac 0 badMA, .mMulw 32 okMA, .mMulw 0 badMA, .mCmpy 32 okMP,
      .mCmpy 0 badMP, .mRdq 32 okMQ, .mRdq 0 badMQ, .mCplx 32 okMR, .mCplx 0 badMR, .mReal 32 okMR, .mReal 0 badMR, .mAdd 32 okMR, .mAdd 0 badMR,
      .mSub 32 okMR, .mSub 0 badMR, .mNeg 32 okMR, .mNeg 0 badMR, .mConj 32 okMR, .mConj 0 badMR, .mSwap 32 okMR, .mSwap 0 badMR, .mMov 32 okMR,
      .mMov 0 badMR, .mAnd 32 okMR, .mAnd 0 badMR, .mOr 32 okMR, .mOr 0 badMR, .mXor 32 okMR, .mXor 0 badMR, .mShl 32 okMR, .mShl 0 badMR,
      .mShr 32 okMR, .mShr 0 badMR, .mExp 32 okMR, .mExp 0 badMR, .mExpmin 32 okMR, .mExpmin 0 badMR, .mNorm 32 okMR, .mNorm 0 badMR, .mRcp 32 okMR,
      .mRcp 0 badMR, .mRsq 32 okMR, .mRsq 0 badMR, .mMin 32 okMR, .mMin 0 badMR, .mMax 32 okMR, .mMax 0 badMR, .mCmp 32 okMR, .mCmp 0 badMR,
      .mTst 32 okMR, .mTst 0 badMR, .mTpois 32 okMR, .mTpois 0 badMR, .mMovs 32 okMR, .mMovs 0 badMR] : List Instr).all (fun i => !i.wf) = true := by
  decide +kernel

/-- An instruction on no core, or whose fields do not fit, is refused. -/
theorem test_wf_refuses_instruction_2 :
    ([.mMovi 32 okMI, .mMovi 0 badMI, .mMovih 32 okMI, .mMovih 0 badMI, .xNop 32 okXL, .xNop 0 badXL, .xLd 32 okXL, .xLd 0 badXL, .xSt 32 okXL,
      .xSt 0 badXL, .xLdd 32 okXD, .xLdd 0 badXD, .xLdst 32 okXD, .xLdst 0 badXD, .xSeta 32 okXA, .xSeta 0 badXA, .xAdda 32 okXA, .xAdda 0 badXA,
      .xMovda 32 okXA, .xMovda 0 badXA, .xSetcbb 32 okXA, .xSetcbb 0 badXA, .xSetcbl 32 okXA, .xSetcbl 0 badXA, .xBind 32 okXA, .xBind 0 badXA,
      .xSget 32 okXS, .xSget 0 badXS, .xSput 32 okXS, .xSput 0 badXS, .xSwait 32 okXS, .xSwait 0 badXS, .xLoop 32 okXC, .xLoop 0 badXC, .xBr 32 okXB,
      .xBr 0 badXB, .xJmp 32 okXB, .xJmp 0 badXB, .xSetrrb 32 okXE, .xSetrrb 0 badXE, .xEnd 32 okXE, .xEnd 0 badXE] : List Instr).all (fun i => !i.wf) = true := by
  decide +kernel

/-- A command whose operand lies out of range is refused. -/
theorem test_wf_refuses_operand_1 :
    ([.registerWrite (2 ^ 28) 0 0, .registerWrite 2 0 0, .registerWrite 0 0 16, .storeSlotWrite (2 ^ 28) 0 0, .storeSlotWrite 2 0 0,
      .storeSlotWrite 0 0 16, .crossingOverflow 8 0 0 0, .crossingOverflow 0 5 0 0, .crossingOverflow 0 0 32 0, .triggerMessage 4 0 0,
      .triggerMessage 0 16 0, .triggerMessage 0 0 (2 ^ 48), .packageLoss 4, .comparatorFire 64, .cmpArm 64 0, .cmpCancel 64 0, .tbTrigSelWrite 16 0,
      .gridBoundary 11 false, .gridOriginWrite 3 0, .portLinkUp 8, .portLinkDown 8, .frameReceive 8 [], .ecpriMessage badE, .cplaneWindowClose 4,
      .dlSymbol 4 0 0, .dlSymbol 0 0 14, .ulSymbol 4 0 0 [], .ulSymbol 0 0 14 [], .prachOccasion 256 [], .srsEstimate 4 0, .carrierSwitch 4,
      .jobGoWrite 64 0, .workItemStart 32, .workItemTimeout 32, .jobDeadline 64, .cascSliceTimeout 64 0, .sgetArrival 32 0, .sputLand 32,
      .loadStrobe 24, .localResumeStrobe 96, .forceMuteWrite 96 0, .tddSwitch 4 0, .blankExitStart 96 0, .feQw1Write 24 0, .feWriteRelease 24,
      .feFrameStart 24, .feFrameEnd 24 0 false, .feRdataRead 24, .orxCaptureStart 24, .pressCaptureDone 24 [] 0, .pressUpdateReady 96,
      .pressHoldExpiry 96, .sbfdCaptureDone 24 [] [] 0, .canUpdateReady 96, .canHoldExpiry 96, .adcFgCalDone 120 [], .spareEstimate 120 [],
      .sliceHandover 120, .spareTimeout 120, .sliceFailure 120 0 0] : List Instr).all (fun i => !i.wf) = true := by
  decide +kernel

/-- A command whose operand lies out of range is refused. -/
theorem test_wf_refuses_operand_2 :
    ([.sliceFailure 0 5 0, .sliceFailure 0 0 4, .sliceRetestDone 120, .overloadEnter 96 [], .overloadExit 96 [], .detectorWindowEnd 96 [],
      .agcDecision 96 [], .agcFrameSend 24, .agcCompApply 96, .rxFastRead 96, .calOccasion 0 14 [], .tileStripe 4 false 0 [] [], .cascStripe 2 0 [],
      .cascLayerRecord 2, .cascPartialRecord 2, .cascEstimateRecord 2, .cascSliceRecord 2, .ackMessage 6 0, .ackMessage 0 256, .regReq 6 false 0 0,
      .regReq 0 false (2 ^ 28) 0, .regReq 0 false 2 0, .regRsp 6 0, .captureMessage 24 [], .laneMessage 6 false 0 0 0,
      .timeMessage (2 ^ 64) (.hold true), .wakeMessage 16 0, .wakeMessage 0 (2 ^ 16), .mboxMessage 2 [], .ctrlMessage 2 (.state 0 0 0),
      .alignMessage 6 .tile, .msgResendTimeout 6, .linkTrain 6 [] 0 false, .laneFailure 6 0 false false, .laneFailure 0 64 false false, .laneSwap 6,
      .fomMeasure 6 [], .laneRetrain 6 0 0, .laneRetrain 0 64 0, .linkFail 6 false, .axRetrainWrite 6 0, .spineFault 8, .selfTestDone 5 0 false,
      .selfTestDone 0 96 false, .mbH2dDataWrite 8 0, .mbDbWrite 8 0, .packetTimeout 8, .mbD2hDataRead 8, .d2hRstWrite 8, .mbLostRead 8, .noticePush 8,
      .ringEnable 32 0, .ringDisable 32 0, .ringDrain 32, .ringDbWrite 32, .descFetch 32 [] false, .descFinish 32 [] false, .readCompletionTimeout 32,
      .dmaShCommitWrite 32 0, .directHandover 32 [] 0] : List Instr).all (fun i => !i.wf) = true := by
  decide +kernel

/-- A command whose operand lies out of range is refused. -/
theorem test_wf_refuses_operand_3 :
    ([.directHandover 0 [] 4, .directHalfPoint 32, .dmaStopWrite 32, .monitorConversionDone 8 0 0, .monitorCalDone 8 0, .monitorCalPeriod 8,
      .monitorPowerDown 8, .maInjWrite 8 0, .maCalWrite 8 0, .maTakeWrite 8 0, .maInjResRead 8, .recorderEvent 5 0 0 false 0,
      .recorderEvent 0 256 0 false 0, .recorderTrigger 5, .recClear 5, .recTest 5, .recTestDone 5 [], .recRearm 5,
      .recorderMemoryError 5 0 false 0 0 0, .thThrWrite 3 0, .powerEntryStart 5, .entryReask 5, .entryDelayTimeout 5, .powerEntryExec 5,
      .wakeSource 16 [], .wakeStepTimeout 5, .wakeComplete 5, .boot 4 false 0 0 false 0 false, .boot 0 false 8 0 false 0 false,
      .boot 0 false 0 0 false 16 false, .registerRead false (2 ^ 28) 0, .registerRead false 2 0, .registerRead false 0 16, .blankingWindowEnd 96,
      .wakeStepDone 5 0, .wakeStepDone 0 16] : List Instr).all (fun i => !i.wf) = true := by
  decide +kernel

/-! ### The spec's worked examples -/

/-- 00_scope.md: the EL9672 reset value of ID_DEVICE. -/
theorem test_id_el9672 : resetWord .el9672 Reg.ID_DEVICE = 0x967275B0 := by decide +kernel
/-- 01_array_hierarchy.md: the neighbourhoods of paths 48 and 51. -/
theorem test_neighbours : neighbours 48 = [49, 50, 51] ∧ neighbours 51 = [48, 49, 50, 52] := by decide +kernel
/-- 01_array_hierarchy.md: GL_PKG_POS of package 0 of a chain of three of which two are reached. -/
theorem test_pkg_pos : let s := wS.wr Reg.GL_PKG_POS 0x218
    (s.reach, s.chainLen, s.pkgNum, s.isLead) = (2, 3, 0, true) := by decide +kernel
/-- 02_time_base.md: 687,195 written to TB_RATE_ADJ adds that much to the rate. -/
theorem test_rate_adj : (match exec (.tbRateAdjWrite 687195) wS with | .next t => t.rate | _ => 0) = 0xA000000000 + 687195 := by decide +kernel
/-- 04_symbol_engines.md: symbol 0 of a 30 kHz slot lasts 36,197.92 ns and the others 35,677.08 ns (in grid units of 3125/768 ns). -/
theorem test_symbol_lengths : symEnd 1 false 0 0 - symStart 1 false 0 0 = 8896 ∧ symEnd 1 false 0 5 - symStart 1 false 0 5 = 8768 ∧
    symEnd 1 false 0 13 - symStart 1 false 0 0 = 122880 := by decide +kernel
/-- 07_solver_core_programming.md: the words of "cmac ACC0, D20, D20, cj || ld D16, [A0], +1". -/
theorem test_bundle_words : FmtMA.word 1 ⟨0, 0, 20, 20, 0, true, false, false⟩ = 0x04294040 ∧ FmtXL.word 0x20 ⟨16, 0, 1⟩ = 0x82000100 := by
  decide +kernel
/-- 07_solver_core_programming.md: A4 at 0x1096 in CB1 (base 0x1000, length 192) steps to 0x1097, and "setcbl CB1, 96" folds it to 0x1037. -/
theorem test_setcbl_folds : let x : CoreSt := {
      item := some wI, mw := some {}, a := [0, 0, 0, 0, 0x1096, 0, 0, 0], binds := [0, 0, 0, 0, 2, 0, 0, 0]
      cbBase := [0, 0x1000, 0, 0], cbLen := [0, 192, 0, 0] }
    x.stepped 4 1 = 0x1097 ∧ (match exec (.xSetcbl 0 ⟨1, false, 0, 96⟩) (wC (x.postMod 4 1)) with
      | .next t => (t.coreOf 0).a.getD 4 0 | _ => 0) = 0x1037 := by decide +kernel
/-- 13_selvedge_and_faults.md: -1,234,567 with residue 8 requantised by 10 is -1,206 with residue 9, and the check passes. -/
theorem test_requantisation : requant (-1234567) 8 10 false = (-1206, 9, true) := by decide +kernel
/-- 14_host_control_chiast.md: the header of TIME_STEP with tag 0x2A, and its reply in SERVICE after READY. -/
theorem test_time_step_in_service :
    let p : Pkt := { mb := 1, tag := 0x2A, quiet := false, flags := 0, params := [0, 0, 5] }
    cmdHeader 0x102 p = 0x1020CA80 ∧ (match exec (.timeStep p) { live := [(0x100, 0x304)] } with
      | .next t => (t.mbox 1).d2h.map OutPkt.words | _ => []) = [[0x01002A01, 0x34]] := by decide +kernel
/-- 16_monitoring_and_recorders.md: the counter of DAC clips of path 53. -/
theorem test_counter_address : Cnt.txPath 53 2 = 0x03FD0080 := by decide +kernel
/-- 18_power_states.md: the header of PW_TILE with tag 0x05 and five parameters. -/
theorem test_pw_tile_header : cmdHeader 0x901 { mb := 0, tag := 5, quiet := false, flags := 0, params := [8, 2, 0, 0, 0] } = 0x90114140 := by
  decide +kernel

/-- 05_trellis_beamforming.md: one layer of 1,000,000 under a weight of 0.125 gives 125,000. -/
theorem test_downlink_combining :
    (combineDl 0 1 [([{ i := 0x080000, q := 0 }], [{ i := 1000000, q := 0 }])]).map (fun w => w.1.headD cx0) = [{ i := 125000, q := 0 }] := by
  decide +kernel
/-- 08_transmit_path.md: at the strobe on tick n the accumulator of 3.5 GHz is loaded with 0x3800_0000_0000 x 10 x n; link full scale clips upward only. -/
theorem test_nco_and_dac : ncoPhase 0x380000000000 0 (10 * 3) = 0x380000000000 * 30 % 2 ^ 48 ∧ dacCode 8388352 = (8191, true) ∧
    dacCode (-8388608) = (-8192, false) := by decide +kernel
/-- 09_press_and_sbfd.md: path 51 with its neighbours 48, 49, 50 and 52: y = (4,089,446, 83,888). -/
theorem test_press_output :
    let at0 := fun (v : Cx) (n : Int) => if n = 0 then v else cx0
    let ws := (([0, 0x1000, 0x66000000, 0xFE66] : List Word) ++ List.replicate 108 0 ++ [0xEC000000, 0x51] ++ List.replicate 14 0)
    pressSample 0x86716000 ws (at0 { i := 4194304, q := 0 }) [at0 cx0, at0 cx0, at0 { i := 0, q := 4194304 }, at0 cx0] 0 =
      ({ i := 4089446, q := 83888 }, 0) := by decide +kernel
/-- 11_array_calibration.md: path 53, 0.40 dB below the median, 0.0750 turn off the anchor and 350 ps short of the longest delay. -/
theorem test_calibration_result :
    let t : Nat × Int × Int := (2 ^ 24, 0, 25600)
    let m : CalMeas := { gain := 16022117, delay := 20000, phase := 4915, snr := 40, word := 0x4000 }
    wS.calNew t m = some (0xECCD4304, 0x11F) ∧ calWords t m false = (0x1333FF9A, 0x80FFEA20) := by decide +kernel
/-- 21_electrical_and_package.md: an exact converter reads 2,867 at 25 degrees, half scale of 0.5 V, and 1.0 V on a supply channel as a quarter. -/
theorem test_monitor_codes : maCode false 12 2500 0 = 2867 ∧ maCode false 0 500000 0 = 2048 ∧ maCode false 8 1000000 0 = 1024 ∧
    maCode true 13 0 0 = 2048 ∧ maCode false 14 0 0 = 0 := by decide +kernel
/-- 19_cellar_and_security.md: the security revocation word of a fresh part. -/
theorem test_sec_revoke : resetWord .el9600 Reg.SEC_REVOKE = 0x30 := by decide +kernel

/-! ### Every hypothesis of every statement is met -/

/-- `Obligations.IdleStepIsOneTick`: for each of its clauses a state and operands that meet its hypotheses. -/
theorem witness_idle_step_is_one_tick :
    (∃ (s : State),
    s.pending = []) ∧
    (∃ (s : State),
    s.pending = [] ∧ s.airQuiet = true ∧ s.fh.egress = []) :=
  ⟨⟨wS, by decide +kernel⟩,
   ⟨wS, by decide +kernel, by decide +kernel, by decide +kernel⟩⟩

/-- `Obligations.StepKeepsCanonical`: for each of its clauses a state and operands that meet its hypotheses. -/
theorem witness_step_keeps_canonical :
    ∃ (s : State), ∃ (t : State),
    s.Canonical ∧ step s = .next t :=
  ⟨wS, _, canonical_of (by decide +kernel), rfl⟩

/-- `Obligations.CommandsLeaveTheQueue`: for each of its clauses a state and operands that meet its hypotheses. -/
theorem witness_commands_leave_the_queue :
    (∃ (c : Instr), ∃ (s : State), ∃ (t : State),
    exec c s = .next t) ∧
    (∃ (s : State), ∃ (t : State),
    step s = .next t) :=
  ⟨⟨.gridBoundary 0 false, wS, _, rfl⟩,
   ⟨wS, _, rfl⟩⟩

/-- `Obligations.TimeRegisterAccessesComplete`: for each of its clauses a state and operands that meet its hypotheses. -/
theorem witness_time_register_accesses_complete :
    (∃ (s : State),
    s.Reaches Reg.TB_RATE_ADJ) ∧
    (∃ (s : State),
    s.Reaches Reg.TB_NOW_NS) ∧
    (∃ (s : State),
    s.Reaches Reg.TB_LATE_CNT) ∧
    (∃ (s : State), ∃ (n : Nat),
    s.Reaches (Reg.TB_CMP_CTRL n)) ∧
    (∃ (s : State), ∃ (l : Nat),
    s.Reaches (Reg.TB_TRIG_SEL l) ∧ l < 14) ∧
    (∃ (s : State),
    s.Reaches Reg.TB_SW_STROBE) ∧
    (∃ (s : State), ∃ (k : Nat),
    s.Reaches (Reg.TB_GRID_ORG_SEC_LO + 4 * k)) ∧
    (∃ (s : State), ∃ (u : State), ∃ (e : List Word), ∃ (es : List (List Word)),
    u = s.egressRun ∧ u.Reaches Reg.TB_TXTS_W3 ∧ u.tb.txts = e :: es) ∧
    (∃ (s : State), ∃ (u : State),
    u = s.egressRun ∧ u.Reaches Reg.TB_TXTS_W3 ∧ u.tb.txts = []) ∧
    (∃ (s : State),
    s.Reaches Reg.TB_CTRL) ∧
    (∃ (s : State),
    s.Reaches Reg.TB_ALARM_CTRL) ∧
    (∃ (s : State),
    s.Reaches Reg.TB_PPSIN_NS) :=
  ⟨⟨wS, reaches_of (by decide +kernel)⟩,
   ⟨wS, reaches_of (by decide +kernel)⟩,
   ⟨wS, reaches_of (by decide +kernel)⟩,
   ⟨wS, 0, reaches_of (by decide +kernel)⟩,
   ⟨wS, 0, reaches_of (by decide +kernel), by decide +kernel⟩,
   ⟨wS, reaches_of (by decide +kernel)⟩,
   ⟨wS, 0, reaches_of (by decide +kernel)⟩,
   ⟨{ wS with tb := { txts := [[1, 2, 3, 4]] } }, _, _, _, rfl, reaches_of (by decide +kernel), rfl⟩,
   ⟨wS, _, rfl, reaches_of (by decide +kernel), by decide +kernel⟩,
   ⟨wS, reaches_of (by decide +kernel)⟩,
   ⟨wS, reaches_of (by decide +kernel)⟩,
   ⟨wS, reaches_of (by decide +kernel)⟩⟩

/-- `Obligations.TimeEventsComplete`: for each of its clauses a state and operands that meet its hypotheses. -/
theorem witness_time_events_complete :
    (∃ (s : State), ∃ (n : Nat),
    n < 64 ∧ s.armed n = true ∧ s.domOn 2 = true) ∧
    (∃ (s : State), ∃ (n : Nat),
    (64 ≤ n ∨ s.armed n = false ∨ s.domOn 2 = false)) ∧
    (∃ (s : State),
    s.rb Reg.TB_HOLD_CFG 16 = true ∧ s.rb Reg.TB_STATUS 1 = false ∧ s.domOn 2 = true) ∧
    (∃ (s : State),
    (s.rb Reg.TB_HOLD_CFG 16 = false ∨ s.rb Reg.TB_STATUS 1 = true ∨ s.domOn 2 = false)) ∧
    (∃ (s : State), ∃ (u : State),
    u = s.pb Reg.TB_STATUS 6 false) ∧
    (∃ (s : State), ∃ (u : State),
    u = s.pb Reg.TB_STATUS 6 true) ∧
    (∃ (s : State), ∃ (u : State),
    u = State.pb { s with tb := { s.tb with ppsTick := s.tick, ppsTime := s.now, ppsEpoch := s.epoch, ppsNew := true } }
      Reg.TB_STATUS 5 true ∧ s.tb.ppsFrozen = true) ∧
    (∃ (s : State), ∃ (u : State),
    u = State.pb { s with tb := { s.tb with ppsTick := s.tick, ppsTime := s.now, ppsEpoch := s.epoch, ppsNew := true } }
      Reg.TB_STATUS 5 true ∧ s.tb.ppsFrozen = false) ∧
    (∃ (s : State),
    s.rb Reg.TB_STATUS 5 = true) ∧
    (∃ (s : State),
    s.rb Reg.TB_STATUS 5 = false) ∧
    (∃ (s : State), ∃ (u : State), ∃ (k : Nat), ∃ (at_ : Nat),
    s.ppsRuns = true ∧ s.domOn 2 = true ∧ k = s.nextPps ∧ at_ = s.ppsTickOf k ∧ u = s.advanceTo at_ ∧ s.aheadLines 0x0C k ≠ []) ∧
    (∃ (s : State), ∃ (u : State), ∃ (k : Nat), ∃ (at_ : Nat),
    s.ppsRuns = true ∧ s.domOn 2 = true ∧ k = s.nextPps ∧ at_ = s.ppsTickOf k ∧ u = s.advanceTo at_ ∧ s.aheadLines 0x0C k = []) ∧
    (∃ (s : State),
    (s.ppsRuns = false ∨ s.domOn 2 = false)) ∧
    (∃ (s : State), ∃ (u : State),
    s.tb.ppsOut = true ∧ u = s.advanceTo (s.tickReaching (s.timeAt s.tb.ppsRise +
      clampN (s.rf Reg.TB_PPSOUT_CFG 27 8) 1 500000 * 1000 * nsU))) ∧
    (∃ (s : State),
    s.tb.ppsOut = false) ∧
    (∃ (s : State),
    s.rb Reg.TB_ALARM_CTRL 0 = true) ∧
    (∃ (s : State),
    s.rb Reg.TB_ALARM_CTRL 0 = false) ∧
    (∃ (s : State), ∃ (src : Nat), ∃ (at_ : Nat), ∃ (b : Int),
    1 ≤ src ∧ src ≤ 10 ∧ s.domOn 2 = true ∧ b = s.nextBound src ∧ at_ = s.tickReaching (s.gridTime b) ∧ s.aheadLines src b ≠ []) ∧
    (∃ (s : State), ∃ (src : Nat), ∃ (at_ : Nat), ∃ (b : Int),
    1 ≤ src ∧ src ≤ 10 ∧ s.domOn 2 = true ∧ b = s.nextBound src ∧ at_ = s.tickReaching (s.gridTime b) ∧ s.aheadLines src b = []) ∧
    (∃ (s : State), ∃ (src : Nat),
    (src = 0 ∨ 10 < src ∨ s.domOn 2 = false)) :=
  ⟨⟨wS.pb (Reg.TB_CMP_CTRL 63) 0 true, 63, by decide +kernel, by decide +kernel, by decide +kernel⟩,
   ⟨wS, 64, by decide +kernel⟩,
   ⟨wS.pb Reg.TB_HOLD_CFG 16 true, by decide +kernel, by decide +kernel, by decide +kernel⟩,
   ⟨wS.pb Reg.TB_STATUS 1 true, by decide +kernel⟩,
   ⟨wS, _, rfl⟩,
   ⟨wS, _, rfl⟩,
   ⟨{ wS with tb := { ppsFrozen := true } }, _, rfl, by decide +kernel⟩,
   ⟨wS, _, rfl, by decide +kernel⟩,
   ⟨wS.pb Reg.TB_STATUS 5 true, by decide +kernel⟩,
   ⟨wS, by decide +kernel⟩,
   ⟨((wS.pb Reg.TB_PPSOUT_CFG 0 true).pb Reg.TB_PPSOUT_CFG 1 true).wr (Reg.TB_TRIG_SEL 2) 0x10C, _, _, _, by decide +kernel, by decide +kernel, rfl, rfl, rfl, by decide +kernel⟩,
   ⟨(wS.pb Reg.TB_PPSOUT_CFG 0 true).pb Reg.TB_PPSOUT_CFG 1 true, _, _, _, by decide +kernel, by decide +kernel, rfl, rfl, rfl, by decide +kernel⟩,
   ⟨wS, by decide +kernel⟩,
   ⟨{ wS with tb := { ppsOut := true } }, _, by decide +kernel, rfl⟩,
   ⟨wS, by decide +kernel⟩,
   ⟨wS.pb Reg.TB_ALARM_CTRL 0 true, by decide +kernel⟩,
   ⟨wS, by decide +kernel⟩,
   ⟨wS.wr (Reg.TB_TRIG_SEL 2) 0x101, 1, _, _, by decide +kernel, by decide +kernel, by decide +kernel, rfl, rfl, by decide +kernel⟩,
   ⟨wS, 10, _, _, by decide +kernel, by decide +kernel, by decide +kernel, rfl, rfl, by decide +kernel⟩,
   ⟨wS, 11, by decide +kernel⟩⟩

/-- `Obligations.TimeCommandsComplete`: for each of its clauses a state and operands that meet its hypotheses. -/
theorem witness_time_commands_complete :
    (∃ (s : State), ∃ (u : State), ∃ (p : Pkt),
    s.Admits 0x100 p ∧ u = s.takeCmd 0x100 p ∧ p.is 0 = true) ∧
    (∃ (s : State), ∃ (u : State), ∃ (p : Pkt),
    s.Admits 0x101 p ∧ u = s.takeCmd 0x101 p ∧ p.is 1 = true ∧ s.rb Reg.TB_STATUS 1 = false ∧ s.isLead = true) ∧
    (∃ (s : State), ∃ (u : State), ∃ (p : Pkt),
    s.Admits 0x103 p ∧ u = s.takeCmd 0x103 p ∧ p.is 1 = true ∧ p.arg 0 ≤ 1 ∧ s.isLead = true) ∧
    (∃ (s : State), ∃ (u : State), ∃ (p : Pkt),
    s.Admits 0x104 p ∧ u = s.takeCmd 0x104 p ∧ p.is 5 = true ∧ p.arg 0 < 32 ∧ s.ptpOk p.params 1 = true ∧ u.freeCmp = none) ∧
    (∃ (s : State), ∃ (u : State), ∃ (p : Pkt), ∃ n,
    s.Admits 0x104 p ∧ u = s.takeCmd 0x104 p ∧ p.is 5 = true ∧ p.arg 0 < 32 ∧ s.ptpOk p.params 1 = true ∧ u.freeCmp = some n) ∧
    (∃ (s : State), ∃ (u : State), ∃ (p : Pkt),
    s.Admits 0x105 p ∧ u = s.takeCmd 0x105 p ∧ p.is 1 = true ∧ p.arg 0 < 32 ∧ s.armed (p.arg 0) = true) ∧
    (∃ (s : State), ∃ (u : State), ∃ (p : Pkt),
    s.Admits 0x106 p ∧ u = s.takeCmd 0x106 p ∧ p.is 3 = true ∧ p.arg 0 < 2 ^ 16 ∧ p.arg 2 < 1000000000 ∧ s.isLead = true) ∧
    (∃ (s : State), ∃ (u : State), ∃ (p : Pkt),
    s.Admits 0x107 p ∧ u = s.takeCmd 0x107 p ∧ p.is 3 = true ∧ s.ptpOk p.params 0 = true) ∧
    (∃ (s : State), ∃ (u : State), ∃ (p : Pkt),
    s.Admits 0x108 p ∧ u = s.takeCmd 0x108 p ∧ p.is 4 = true ∧ p.arg 0 ≤ 1 ∧ p.arg 1 ≤ 1 ∧ p.arg 2 < 2 ^ 20) ∧
    (∃ (s : State), ∃ (p : Pkt),
    s.Admits 0x102 p ∧ s.stepOk p = true ∧ s.isLead = true ∧ s.rb Reg.TB_STEP_INFO 8 = false ∧ ((List.range (s.reach - 1)).all (fun k => s.tb.peers.any (fun (x : Nat × Nat) => x.1 == k + 1 && acceptedIn 0x102 x.2))) = true) ∧
    (∃ (s : State), ∃ (u : State), ∃ (v : State), ∃ (st : PendStep), ∃ (at_ : Nat),
    s.tb.pendStep = some st ∧ u = (if s.reach = 1 then s else s.advanceTo (s.tick + 6400)) ∧ at_ = ((if st.relative then (u.now : Int) else 0) + st.ns * (nsU : Int)).toNat ∧ v = (State.stepTime { u with tb := { u.tb with pendStep := none } } at_).relayTime 1 (timeWords at_)) ∧
    (∃ (s : State),
    s.tb.pendStep = none) :=
  ⟨⟨wS, _, (wP [] 0), admits_of (by decide +kernel), rfl, by decide +kernel⟩,
   ⟨wS, _, (wP [0] 0), admits_of (by decide +kernel), rfl, by decide +kernel, by decide +kernel, by decide +kernel⟩,
   ⟨wS, _, (wP [0] 0), admits_of (by decide +kernel), rfl, by decide +kernel, by decide +kernel, by decide +kernel⟩,
   ⟨{ live := (0x100, 3) :: (List.range 32).map (fun n => (Reg.TB_CMP_CTRL n, 1)) }, _, (wP [0, 0, 0, 0, 0] 0), admits_of (by decide +kernel), rfl, by decide +kernel, by decide +kernel, by decide +kernel, by decide +kernel⟩,
   ⟨wS, _, wP [31, 0, 0, 0, 0] 0, _, admits_of (by decide +kernel), rfl, by decide +kernel, by decide +kernel, by decide +kernel, (Option.some_get (by decide +kernel)).symm⟩,
   ⟨wS.pb (Reg.TB_CMP_CTRL 31) 0 true, _, wP [31] 0, admits_of (by decide +kernel), rfl, by decide +kernel, by decide +kernel, by decide +kernel⟩,
   ⟨wS, _, (wP [0, 0, 0] 0), admits_of (by decide +kernel), rfl, by decide +kernel, by decide +kernel, by decide +kernel, by decide +kernel⟩,
   ⟨wS, _, (wP [0, 0, 0] 0), admits_of (by decide +kernel), rfl, by decide +kernel, by decide +kernel⟩,
   ⟨wS, _, (wP [0, 0, 0, 0] 0), admits_of (by decide +kernel), rfl, by decide +kernel, by decide +kernel, by decide +kernel, by decide +kernel⟩,
   ⟨wS, wP [0, 0, 999999999] 0, admits_of (by decide +kernel), by decide +kernel, by decide +kernel, by decide +kernel, by decide +kernel⟩,
   ⟨{ wS with tb := { pendStep := some { ref := wRef, quiet := false, relative := false, ns := 5 } } }, _, _, _, _, (Option.some_get (by decide +kernel)).symm, rfl, rfl, rfl⟩,
   ⟨wS, by decide +kernel⟩⟩

/-- `Obligations.RegisterAccessesComplete`: for each of its clauses a state and operands that meet its hypotheses. -/
theorem witness_register_accesses_complete :
    (∃ (s : State),
    s.pcieUp = true ∧ s.domOn 2 = true ∧ s.part.has .hub = true) ∧
    (∃ (s : State), ∃ (c : Nat),
    s.pcieUp = true ∧ s.domOn 3 = true ∧ c < 4 ∧ s.Canonical) ∧
    (∃ (s : State), ∃ (c : Nat),
    s.pcieUp = true ∧ s.domOn 3 = true ∧ c < 4) ∧
    (∃ (s : State), ∃ (u : State), ∃ (c : Nat),
    u = s.egressRun ∧ u.pcieUp = true ∧ u.domOn 3 = true ∧ c < 4 ∧ u.tb.hiCap = []) ∧
    (∃ (s : State),
    s.pcieUp = true ∧ s.domOn 8 = true ∧ s.lostTo (Reg.TX_NCO_LO 0) = false) ∧
    (∃ (s : State),
    s.pcieUp = true ∧ s.domOn 8 = true ∧ s.lostTo (Reg.TX_NCO_LO 0) = false) ∧
    (∃ (s : State), ∃ (x : State),
    x = s.egressRun ∧ x.pcieUp = true ∧ x.domOn 2 = true ∧ x.tb.hiCap = []) ∧
    (∃ (s : State), ∃ (x : State), ∃ (w : Word),
    x = s.egressRun ∧ x.pcieUp = true ∧ x.domOn 2 = true ∧ x.tb.hiCap = [(Reg.TB_COUNT_HI, w)]) ∧
    (∃ (s : State), ∃ (u : State), ∃ (a : Nat),
    u = s.egressRun ∧ a < 0x10000000 ∧ stagedToLive (a / 4 * 4) = none ∧ s.part.has (placeOf (a / 4 * 4)).1 = false ∧ u.part.has (placeOf (a / 4 * 4)).1 = false ∧ ¬ (0x09000000 ≤ a ∧ a < 0x0A000000) ∧ s.pcieUp = true) ∧
    (∃ (s : State), ∃ (u : State), ∃ (a : Nat),
    u = s.egressRun ∧ a < 0x10000000 ∧ stagedToLive (a / 4 * 4) = none ∧ s.part.has (placeOf (a / 4 * 4)).1 = false ∧ u.part.has (placeOf (a / 4 * 4)).1 = false ∧ ¬ (0x09000000 ≤ a ∧ a < 0x0A000000) ∧ u.pcieUp = true) ∧
    (∃ (s : State), ∃ (a : Nat),
    s.pcieUp = true ∧ a < 0x09000000 ∧ stagedToLive (a / 4 * 4) = none ∧ s.part.has (placeOf (a / 4 * 4)).1 = true ∧ s.domOn (domainOf (a / 4 * 4)) = false) ∧
    (∃ (s : State), ∃ (u : State), ∃ (a : Nat),
    u = s.egressRun ∧ u.pcieUp = true ∧ a < 0x09000000 ∧ stagedToLive (a / 4 * 4) = none ∧ u.part.has (placeOf (a / 4 * 4)).1 = true ∧ u.domOn (domainOf (a / 4 * 4)) = false) ∧
    (∃ (s : State),
    s.pcieUp = false ∧ s.egressRun.pcieUp = false) :=
  ⟨⟨wS, by decide +kernel, by decide +kernel, by decide +kernel⟩,
   ⟨wS, 3, by decide +kernel, by decide +kernel, by decide +kernel, canonical_of (by decide +kernel)⟩,
   ⟨wS, 3, by decide +kernel, by decide +kernel, by decide +kernel⟩,
   ⟨wS, _, 3, rfl, by decide +kernel, by decide +kernel, by decide +kernel, by decide +kernel⟩,
   ⟨wS, by decide +kernel, by decide +kernel, by decide +kernel⟩,
   ⟨wS, by decide +kernel, by decide +kernel, by decide +kernel⟩,
   ⟨wS, _, rfl, by decide +kernel, by decide +kernel, by decide +kernel⟩,
   ⟨{ wS with tb := { hiCap := [(Reg.TB_COUNT_HI, 7)] } }, _, 7, rfl, by decide +kernel, by decide +kernel, by decide +kernel⟩,
   ⟨wS, _, 0x0FFFFFFC, rfl, by decide +kernel, by decide +kernel, by decide +kernel, by decide +kernel, by decide +kernel, by decide +kernel⟩,
   ⟨wS, _, 0x0FFFFFFC, rfl, by decide +kernel, by decide +kernel, by decide +kernel, by decide +kernel, by decide +kernel, by decide +kernel⟩,
   ⟨wS.pb Reg.PW_STAT 19 false, Reg.FH_PORT_MODE, by decide +kernel, by decide +kernel, by decide +kernel, by decide +kernel, by decide +kernel⟩,
   ⟨wS.pb Reg.PW_STAT 19 false, _, Reg.FH_PORT_MODE, rfl, by decide +kernel, by decide +kernel, by decide +kernel, by decide +kernel, by decide +kernel⟩,
   ⟨{ wS with host := { perst := true } }, by decide +kernel, by decide +kernel⟩⟩

/-- `Obligations.StoreAccessesComplete`: for each of its clauses a state and operands that meet its hypotheses. -/
theorem witness_store_accesses_complete :
    (∃ (s : State), ∃ (k : Nat),
    s.pcieUp = true ∧ s.domOn 7 = true ∧ k < 0x2000) ∧
    (∃ (s : State), ∃ (k : Nat), ∃ (lo : Word),
    s.pcieUp = true ∧ s.domOn 7 = true ∧ k < 0x2000 ∧ Sparse.get (fun _ => none) s.tr.lows (0x10000 + 8 * k) = some lo) ∧
    (∃ (s : State), ∃ (k : Nat),
    s.pcieUp = true ∧ s.domOn 7 = true ∧ k < 0xA000) ∧
    (∃ (s : State), ∃ (k : Nat),
    s.pcieUp = true ∧ s.domOn 7 = true ∧ k < 0xA000 ∧ s.rb Reg.TR_STATUS 1 = true) ∧
    (∃ (s : State), ∃ (u : State), ∃ (k : Nat),
    u = s.egressRun ∧ u.pcieUp = true ∧ u.domOn 7 = true ∧ k < 0x4000) ∧
    (∃ (s : State), ∃ (u : State),
    u = s.egressRun ∧ s.pcieUp = true ∧ s.domOn 7 = false) ∧
    (∃ (s : State), ∃ (u : State),
    u = s.egressRun ∧ u.pcieUp = true ∧ u.domOn 7 = false) :=
  ⟨⟨wS, 0x1FFF, by decide +kernel, by decide +kernel, by decide +kernel⟩,
   ⟨{ wS with tr := { lows := [(0x10000 + 8 * 0x1FFF, some 5)] } }, 0x1FFF, 5, by decide +kernel, by decide +kernel, by decide +kernel, by decide +kernel⟩,
   ⟨wS, 0x9FFF, by decide +kernel, by decide +kernel, by decide +kernel⟩,
   ⟨wS.pb Reg.TR_STATUS 1 true, 0x9FFF, by decide +kernel, by decide +kernel, by decide +kernel, by decide +kernel⟩,
   ⟨wS, _, 0x3FFF, rfl, by decide +kernel, by decide +kernel, by decide +kernel⟩,
   ⟨wS.pb Reg.PW_STAT 23 false, _, rfl, by decide +kernel, by decide +kernel⟩,
   ⟨wS.pb Reg.PW_STAT 23 false, _, rfl, by decide +kernel, by decide +kernel⟩⟩

/-- `Obligations.IndirectAccessesComplete`: for each of its clauses a state and operands that meet its hypotheses. -/
theorem witness_indirect_accesses_complete :
    (∃ (s : State), ∃ (l : Nat), ∃ (o : Nat),
    s.linkUp l = true ∧ l < 4 ∧ o < 0x10000000 ∧ o / 0x01000000 = l + 1) ∧
    (∃ (s : State), ∃ (n : Nat), ∃ (err : Nat),
    n < 32 ∧ s.rf (Reg.DMA_STAT n) 31 28 = 1 ∧ s.pcieUp = true ∧ err ≠ 0) ∧
    (∃ (s : State), ∃ (u : State), ∃ (v : State), ∃ (w : State), ∃ (n : Nat), ∃ (data : List Byte), ∃ (refused : Bool),
    n < 32 ∧ s.rf (Reg.DMA_STAT n) 31 28 = 1 ∧ s.pcieUp = true ∧ (s.takeBeats n).directMove n data = (u, refused) ∧ v = State.addMoved (((u.pf (Reg.DMA_HO n) 15 0 (u.rf (Reg.DMA_HO n) 15 0 + 1)).pf (Reg.DMA_HO n) 31 24 0).bump (Cnt.dma n 7)) n
      (s.rd (Reg.DMA_LEN n)).toNat ∧ w = (if v.rb (Reg.DMA_MODE n) 28 then (v.pb (Reg.DMA_STAT n) 1 true).irq (8 + n) else v) ∧ refused = true) ∧
    (∃ (s : State), ∃ (u : State), ∃ (v : State), ∃ (w : State), ∃ (n : Nat), ∃ (data : List Byte), ∃ (refused : Bool),
    n < 32 ∧ s.rf (Reg.DMA_STAT n) 31 28 = 1 ∧ s.pcieUp = true ∧ (s.takeBeats n).directMove n data = (u, refused) ∧ v = State.addMoved (((u.pf (Reg.DMA_HO n) 15 0 (u.rf (Reg.DMA_HO n) 15 0 + 1)).pf (Reg.DMA_HO n) 31 24 0).bump (Cnt.dma n 7)) n
      (s.rd (Reg.DMA_LEN n)).toNat ∧ w = (if v.rb (Reg.DMA_MODE n) 28 then (v.pb (Reg.DMA_STAT n) 1 true).irq (8 + n) else v) ∧ refused = false) ∧
    (∃ (s : State), ∃ (n : Nat),
    fld (s.rd (Reg.DMA_MODE n)) 27 26 ≠ 0 ∧ bit (s.rd (Reg.DMA_MODE n)) 31 = false) ∧
    (∃ (u : State), ∃ (n : Nat),
    u.rb (Reg.DMA_SH_STAT n) 31 = true) ∧
    (∃ (u : State), ∃ (n : Nat),
    u.rb (Reg.DMA_SH_STAT n) 31 = false ∧ u.rb (Reg.DMA_MODE n) 30 = true) ∧
    (∃ (u : State), ∃ (n : Nat),
    u.rb (Reg.DMA_SH_STAT n) 31 = false ∧ u.rb (Reg.DMA_MODE n) 30 = false) ∧
    (∃ (s : State), ∃ (u : State), ∃ (p : Pkt), ∃ (img : List Byte),
    s.Admits 0xA42 p ∧ u = s.takeCmd 0xA42 p ∧ p.is 1 = true ∧ p.arg 0 < 8 ∧ (s.celSet 0x14 (p.arg 0)).map wordBytes = some img ∧ cfgEntries (imgPayload img) = []) ∧
    (∃ (s : State), ∃ (u : State), ∃ (p : Pkt), ∃ (img : List Byte), ∃ a, ∃ v,
    s.Admits 0xA42 p ∧ u = s.takeCmd 0xA42 p ∧ p.is 1 = true ∧ p.arg 0 < 8 ∧ (s.celSet 0x14 (p.arg 0)).map wordBytes = some img ∧ cfgEntries (imgPayload img) = [(a, v)]) :=
  ⟨⟨wL 3, 3, 0x04FFFFFF, by decide +kernel, by decide +kernel, by decide +kernel, by decide +kernel⟩,
   ⟨wS.pf (Reg.DMA_STAT 31) 31 28 1, 31, 1, by decide +kernel, by decide +kernel, by decide +kernel, by decide +kernel⟩,
   ⟨((((wS.pf (Reg.DMA_STAT 31) 31 28 1).wr (Reg.DMA_MODE 31) 0).wr (Reg.DMA_DADDR 31) 0x04000000).wr (Reg.DMA_LEN 31) 8).pb Reg.TR_STATUS 1 true, _, _, _, 31, List.replicate 8 1, _, by decide +kernel, by decide +kernel, by decide +kernel, rfl, rfl, rfl, rfl⟩,
   ⟨(wS.pf (Reg.DMA_STAT 31) 31 28 1).pf (Reg.DMA_MODE 31) 31 26 1, _, _, _, 31, [], _, by decide +kernel, by decide +kernel, by decide +kernel, rfl, rfl, rfl, rfl⟩,
   ⟨wS.pf (Reg.DMA_MODE 31) 27 26 1, 31, by decide +kernel, by decide +kernel⟩,
   ⟨wS.pb (Reg.DMA_SH_STAT 31) 31 true, 31, by decide +kernel⟩,
   ⟨wS.pb (Reg.DMA_MODE 31) 30 true, 31, by decide +kernel, by decide +kernel⟩,
   ⟨wS, 31, by decide +kernel, by decide +kernel⟩,
   ⟨{ wS with cel := { recs := [{ seg := 0, off := 0, kind := 0x14, inst := 7, n := 0, seq := 1, last := true, payload := [4, 0, 0] }] } }, _, wP [7] 0, _, admits_of (by decide +kernel), rfl, by decide +kernel, by decide +kernel, (Option.some_get (by decide +kernel)).symm, by decide +kernel⟩,
   ⟨{ wS with cel := { recs := [{ seg := 0, off := 0, kind := 0x14, inst := 7, n := 0, seq := 1, last := true, payload := [(160 : Word), 0] ++ [0, 0, 0, 0, 8] ++ List.replicate 27 0 ++ [0x300000, 7] }] } }, _, wP [7] 0, _, 0x300000, 7, admits_of (by decide +kernel), rfl, by decide +kernel, by decide +kernel, (Option.some_get (by decide +kernel)).symm, by decide +kernel⟩⟩

/-- `Obligations.CarrierCommandsComplete`: for each of its clauses a state and operands that meet its hypotheses. -/
theorem witness_carrier_commands_complete :
    (∃ (s : State), ∃ (u : State), ∃ (p : Pkt),
    s.Admits 0x210 p ∧ u = s.takeCmd 0x210 p ∧ p.is 6 = true ∧ p.arg 0 < 4 ∧ 8 ≤ cfgFft (wordAt p.params 1) ∧ cfgFft (wordAt p.params 1) ≤ 13 ∧ (fld (wordAt p.params 5) 21 0 = 0 ∨ (80000 ≤ fld (wordAt p.params 5) 21 0 ∧ fld (wordAt p.params 5) 21 0 ≤ 2800000)) ∧ fld (wordAt p.params 3) 15 0 ≤ 50000 ∧ fld (wordAt p.params 3) 26 16 ≤ 2000 ∧ carBlocks (wordAt p.params 1) ≤ 4) ∧
    (∃ (s : State), ∃ (u : State), ∃ (p : Pkt),
    s.Admits 0x211 p ∧ u = s.takeCmd 0x211 p ∧ p.is 3 = true ∧ (p.arg 0) < 4 ∧ fld (wordAt p.params 1) 11 0 ≤ 2560) ∧
    (∃ (s : State), ∃ (u : State), ∃ (p : Pkt),
    s.Admits 0x212 p ∧ u = s.takeCmd 0x212 p ∧ p.is 0 = true) ∧
    (∃ (s : State), ∃ (u : State), ∃ (p : Pkt),
    s.Admits 0x213 p ∧ u = s.takeCmd 0x213 p ∧ p.is 1 = true ∧ p.arg 0 < 3) ∧
    (∃ (s : State), ∃ (u : State), ∃ (p : Pkt),
    s.Admits 0x214 p ∧ u = s.takeCmd 0x214 p ∧ p.is 1 = true ∧ p.arg 0 < 4) ∧
    (∃ (s : State),
    s.Reaches Reg.SE_CTRL) ∧
    (∃ (s : State), ∃ (u : State), ∃ (c : Nat), ∃ (t : Nat), ∃ (w : CarSwitch), ∃ (rest : List CarSwitch),
    c < 4 ∧ s.carNextEvent c = some (0, t) ∧ (s.car c).switches = w :: rest ∧ u = s.advanceTo (s.tickReaching t)) ∧
    (∃ (s : State), ∃ (u : State), ∃ (c : Nat), ∃ (t : Nat), ∃ (p : Nat × Word), ∃ (rest : List (Nat × Word)),
    c < 4 ∧ s.carNextEvent c = some (2, t) ∧ u = s.advanceTo (s.tickReaching t) ∧ (u.car c).proc = p :: rest) ∧
    (∃ (s : State), ∃ (u : State), ∃ (c : Nat), ∃ (t : Nat), ∃ (p : Nat × Word × Word), ∃ (rest : List (Nat × Word × Word)),
    c < 4 ∧ s.carNextEvent c = some (3, t) ∧ u = s.advanceTo (s.tickReaching t) ∧ (u.car c).srs = p :: rest) ∧
    (∃ (s : State), ∃ (u : State), ∃ (c : Nat), ∃ (t : Nat),
    c < 4 ∧ s.carNextEvent c = some (1, t) ∧ u = s.advanceTo (s.tickReaching t)) :=
  ⟨⟨wS, _, wP [3, 0xC00D0000, 0, 0, 0, 0] 0, admits_of (by decide +kernel), rfl, by decide +kernel, by decide +kernel, by decide +kernel, by decide +kernel, by decide +kernel, by decide +kernel, by decide +kernel, by decide +kernel⟩,
   ⟨wS, _, (wP [0, 0, 0] 0), admits_of (by decide +kernel), rfl, by decide +kernel, by decide +kernel, by decide +kernel⟩,
   ⟨wS, _, (wP [] 0), admits_of (by decide +kernel), rfl, by decide +kernel⟩,
   ⟨wS, _, (wP [0] 0), admits_of (by decide +kernel), rfl, by decide +kernel, by decide +kernel⟩,
   ⟨wS, _, (wP [0] 0), admits_of (by decide +kernel), rfl, by decide +kernel, by decide +kernel⟩,
   ⟨wS, reaches_of (by decide +kernel)⟩,
   ⟨{ wS with cars := [(3, { switches := [⟨0, ⟨0xC0080000, 0, 0, 0⟩⟩] })] }, _, 3, 0, _, _, by decide +kernel, by decide +kernel, rfl, rfl⟩,
   ⟨{ wS with cars := [(3, { proc := [(0, 5)] })] }, _, 3, 0, _, _, by decide +kernel, by decide +kernel, rfl, rfl⟩,
   ⟨{ wS with cars := [(3, { srs := [(0, 5, 6)] })] }, _, 3, 0, _, _, by decide +kernel, by decide +kernel, rfl, rfl⟩,
   ⟨{ wS with cars := [(3, { reconfEnd := some 0 })] }, _, 3, 0, by decide +kernel, by decide +kernel, rfl⟩⟩

/-- `Obligations.CalibrationCommandsComplete`: for each of its clauses a state and operands that meet its hypotheses. -/
theorem witness_calibration_commands_complete :
    (∃ (s : State), ∃ (u : State), ∃ (p : Pkt),

    let same := fld (wordAt p.params 0) 15 9 == s.rf Reg.CAL_CFG 15 9
    s.Admits 0x700 p ∧ u = s.takeCmd 0x700 p ∧ p.is 3 = true ∧ fld (wordAt p.params 0) 15 9 < s.part.paths ∧ fld (wordAt p.params 0) 8 0 < 384 ∧ s.antAbsent (fld (wordAt p.params 0) 8 0) = false ∧ (same || s.dev == 2 || s.dev == 3 || s.dev == 5) = true ∧ s.isLead = true) ∧
    (∃ (s : State), ∃ (u : State), ∃ (p : Pkt),
    s.Admits 0x701 p ∧ s.Room p ∧ u = s.takeCmd 0x701 p ∧ p.is 3 = true ∧ p.arg 0 + p.arg 1 ≤ 384 ∧ 0 < p.arg 1 ∧ (List.range (p.arg 1)).all (fun k => !s.antAbsent (p.arg 0 + k)) = true ∧ s.loadRing (p.arg 2) = true ∧ s.isLead = true) ∧
    (∃ (s : State), ∃ (u : State), ∃ (p : Pkt),
    s.Admits 0x702 p ∧ u = s.takeCmd 0x702 p ∧ p.is 1 = true ∧ p.arg 0 < 2 ∧ s.isLead = true) ∧
    (∃ (s : State), ∃ (u : State), ∃ (p : Pkt),
    s.Admits 0x703 p ∧ u = s.takeCmd 0x703 p ∧ p.is 0 = true ∧ s.isLead = true) ∧
    (∃ (s : State), ∃ (u : State), ∃ (p : Pkt),
    s.Admits 0x704 p ∧ s.Room p ∧ u = s.takeCmd 0x704 p ∧ p.is 1 = true ∧ (p.arg 0) < 4 ∧ s.isLead = true) ∧
    (∃ (s : State), ∃ (u : State), ∃ (p : Pkt), ∃ (j : Nat), ∃ (ws : List Word),
    s.Admits 0x705 p ∧ u = s.takeCmd 0x705 p ∧ p.is 1 = true ∧ (p.arg 0 < 4 ∨ p.arg 0 = 0xFF) ∧ s.isLead = true ∧ (if p.arg 0 = 0xFF then u.calBest u.paths else (u.celSet 0x10 (p.arg 0)).map (fun ws => (p.arg 0, ws))) = some (j, ws)) ∧
    (∃ (s : State), ∃ (u : State), ∃ (p : Pkt),
    s.Admits 0x706 p ∧ u = s.takeCmd 0x706 p ∧ p.is 1 = true ∧ (p.arg 0) < s.part.paths) :=
  ⟨⟨wS, _, (wP [0, 0, 0] 0), admits_of (by decide +kernel), rfl, by decide +kernel, by decide +kernel, by decide +kernel, by decide +kernel, by decide +kernel, by decide +kernel⟩,
   ⟨(wS.pf (Reg.RING_CFG 0) 31 24 0x80), _, wP [383, 1, 0] 0, admits_of (by decide +kernel), room_of (by decide +kernel), rfl, by decide +kernel, by decide +kernel, by decide +kernel, by decide +kernel, by decide +kernel, by decide +kernel⟩,
   ⟨wS, _, (wP [0] 0), admits_of (by decide +kernel), rfl, by decide +kernel, by decide +kernel, by decide +kernel⟩,
   ⟨wS, _, (wP [] 0), admits_of (by decide +kernel), rfl, by decide +kernel, by decide +kernel⟩,
   ⟨wS, _, (wP [0] 0), admits_of (by decide +kernel), room_of (by decide +kernel), rfl, by decide +kernel, by decide +kernel, by decide +kernel⟩,
   ⟨{ wS with cel := { recs := [{ seg := 0, off := 0, kind := 0x10, inst := 3, n := 0, seq := 1, last := true, payload := [1, 0, 0] }] } }, _, wP [3] 0, _, _, admits_of (by decide +kernel), rfl, by decide +kernel, by decide +kernel, by decide +kernel, rfl⟩,
   ⟨wS, _, (wP [0] 0), admits_of (by decide +kernel), rfl, by decide +kernel, by decide +kernel⟩⟩

/-- `Obligations.CalibrationEventsComplete`: for each of its clauses a state and operands that meet its hypotheses. -/
theorem witness_calibration_events_complete :
    (∃ (s : State),
    s.isLead = true ∧ s.pw.entries = [] ∧ s.cal.request = true ∧ ¬ (1 ≤ s.calState ∧ s.calState ≤ 3)) ∧
    (∃ (s : State),
    s.isLead = true ∧ s.pw.entries = [] ∧ s.cal.request = false ∧ s.rb Reg.CAL_CFG 31 = true ∧ s.rf Reg.CAL_SCHED 31 16 = 0 ∧ ¬ (1 ≤ s.calState ∧ s.calState ≤ 3)) ∧
    (∃ (s : State), ∃ (v : State), ∃ (w : State), ∃ (ms : Nat), ∃ (unit : Nat), ∃ (n : Int),
    s.isLead = true ∧ s.pw.entries = [] ∧ s.rb Reg.CAL_CFG 31 = true ∧ ms = s.rf Reg.CAL_SCHED 31 16 ∧ ms ≠ 0 ∧ unit = ms * 1000000 * nsU ∧ n = max ((((s.now - s.gridOrigin) + unit - 1) / unit : Nat) : Int) (s.cal.lastStart + 1) ∧ v = s.advanceTo (s.tickReaching (s.gridOrigin + n.toNat * unit)) ∧ w = { v with cal := { v.cal with lastStart := n } } ∧ 1 ≤ s.calState ∧ s.calState ≤ 3) ∧
    (∃ (s : State), ∃ (v : State), ∃ (w : State), ∃ (ms : Nat), ∃ (unit : Nat), ∃ (n : Int),
    s.isLead = true ∧ s.pw.entries = [] ∧ s.rb Reg.CAL_CFG 31 = true ∧ ms = s.rf Reg.CAL_SCHED 31 16 ∧ ms ≠ 0 ∧ unit = ms * 1000000 * nsU ∧ n = max ((((s.now - s.gridOrigin) + unit - 1) / unit : Nat) : Int) (s.cal.lastStart + 1) ∧ v = s.advanceTo (s.tickReaching (s.gridOrigin + n.toNat * unit)) ∧ w = { v with cal := { v.cal with lastStart := n } } ∧ ¬ (1 ≤ s.calState ∧ s.calState ≤ 3) ∧ s.cal.request = false) ∧
    (∃ (s : State),
    s.calState = 4) ∧
    (∃ (s : State), ∃ (n : Int), ∃ (l : Nat),
    l < symsPerSlot (cfgExt (s.carCfg (s.rf Reg.CAL_CFG 25 24))) ∧ s.calSymbol n l = true ∧ s.pathAvail s.refPath = false) ∧
    (∃ (s : State), ∃ (u : State), ∃ (n : Int), ∃ (l : Nat), ∃ (cfg : Word), ∃ (t0 : Nat),
    cfg = s.carCfg (s.rf Reg.CAL_CFG 25 24) ∧ l < symsPerSlot (cfgExt cfg) ∧ s.calSymbol n l = true ∧ s.pathAvail s.refPath = true ∧ t0 = s.tickReaching (s.gridTime (symStart (cfgMu cfg) (cfgExt cfg) n l)) ∧ u = (s.calBegin n l).advanceTo (s.tickReaching (s.gridTime (symEnd (cfgMu cfg) (cfgExt cfg) n l)))) ∧
    (∃ (s : State), ∃ (n : Int), ∃ (l : Nat), ∃ k,
    s.calSymbol n l = true ∧ s.cal.lastSlot = some k) ∧
    (∃ (s : State), ∃ (n : Int), ∃ (l : Nat), ∃ k,
    s.calSymbol n l = true ∧ k < l) ∧
    (∃ (s : State),
    s.calState = 3) :=
  ⟨⟨{ wS with cal := { request := true } }, by decide +kernel, by decide +kernel, by decide +kernel, by decide +kernel⟩,
   ⟨(wS.pb Reg.CAL_CFG 31 true).pf Reg.CAL_SCHED 31 16 0, by decide +kernel, by decide +kernel, by decide +kernel, by decide +kernel, by decide +kernel, by decide +kernel⟩,
   ⟨((wS.pb Reg.CAL_CFG 31 true).pf Reg.CAL_SCHED 31 16 1).pf Reg.CAL_STAT 31 28 3, _, _, _, _, _, by decide +kernel, by decide +kernel, by decide +kernel, rfl, by decide +kernel, rfl, rfl, rfl, rfl, by decide +kernel⟩,
   ⟨(wS.pb Reg.CAL_CFG 31 true).pf Reg.CAL_SCHED 31 16 1, _, _, _, _, _, by decide +kernel, by decide +kernel, by decide +kernel, rfl, by decide +kernel, rfl, rfl, rfl, rfl, by decide +kernel, by decide +kernel⟩,
   ⟨wS.pf Reg.CAL_STAT 31 28 4, by decide +kernel⟩,
   ⟨((((wS.wr (Reg.CAR_CFG 0) 0xC0080000).wr (Reg.TDD_CFG 0) 0x80000000).wr Reg.CAL_SCHED 1).setCalState 1).pb (Reg.GL_PATH_AVAIL 2) 31 false, 0, 0, by decide +kernel, by decide +kernel, by decide +kernel⟩,
   ⟨((((wS.wr (Reg.CAR_CFG 0) 0xC0080000).wr (Reg.TDD_CFG 0) 0x80000000).wr Reg.CAL_SCHED 1).setCalState 1), _, 0, 0, _, _, rfl, by decide +kernel, by decide +kernel, by decide +kernel, rfl, rfl⟩,
   ⟨(let s : State := ((((wS.wr (Reg.CAR_CFG 0) 0xC0080000).wr (Reg.TDD_CFG 0) 0x80000000).wr Reg.CAL_SCHED 1).setCalState 1); { s with cal := { s.cal with lastSlot := some (-1) } }), 0, 0, -1, by decide +kernel, by decide +kernel⟩,
   ⟨((((wS.wr (Reg.CAR_CFG 0) 0xC0080000).wr (Reg.TDD_CFG 0) 0x80000000).wr Reg.CAL_SCHED 2).setCalState 1), 0, 1, 0, by decide +kernel, by decide +kernel⟩,
   ⟨wS.pf Reg.CAL_STAT 31 28 3, by decide +kernel⟩⟩

/-- `Obligations.SymbolEventsComplete`: for each of its clauses a state and operands that meet its hypotheses. -/
theorem witness_symbol_events_complete :
    (∃ (s : State), ∃ (c : Nat), ∃ (l : Nat), ∃ (air : Nat), ∃ (n : Int), ∃ (v : CarVals),
    c < 4 ∧ v = s.carNamed c n l ∧ cfgDl v.cfg = true ∧ l < symsPerSlot (cfgExt v.cfg) ∧ s.domOn 5 = true ∧ s.domOn 7 = true ∧ air = s.airOf v.cfg n l ∧ Sparse.get (fun _ => 0) s.fh.lastDl c ≤ air) ∧
    (∃ (s : State), ∃ (u : State), ∃ (c : Nat), ∃ (l : Nat), ∃ (air : Nat), ∃ (fin : Nat), ∃ (n : Int), ∃ (adc : List (List Int)), ∃ (v : CarVals),
    c < 4 ∧ v = s.carNamed c n l ∧ cfgUl v.cfg = true ∧ l < symsPerSlot (cfgExt v.cfg) ∧ s.domOn 5 = true ∧ s.domOn 7 = true ∧ air = s.airOf v.cfg n l ∧ Sparse.get (fun _ => 0) s.fh.lastUl c ≤ air ∧ fin = s.gridTime (symEnd (cfgMu v.cfg) (cfgExt v.cfg) n l) ∧ u = (s.advanceTo (s.tickReaching (fin + min 2000 (fld v.adv 26 16) * nsU) + ulLatency)).feedAll adc) ∧
    (∃ (s : State), ∃ (u : State), ∃ (w : Held), ∃ (rest : List Held),
    s.fh.held = w :: rest ∧ u = s.advanceTo (s.tickReaching (w.from_ + 10000 * nsU))) ∧
    (∃ (s : State), ∃ (u : State), ∃ (k : Nat), ∃ (o : PrachOcc), ∃ (rest : List PrachOcc), ∃ (ws : List Cx), ∃ (adc : List (List Int)),
    Sparse.get (fun _ => []) s.fh.prach k = o :: rest ∧ s.domOn 5 = true ∧ s.domOn 7 = true ∧ o.latched = none ∧ u = (s.advanceTo (s.tickReaching o.start)).feedAll adc ∧ u.sv.inject = none ∧ ws = ((u.resolveVec (u.storeFor o.start).1 (u.storeFor o.start).2 (u.trVals o.start).fb o.sec (o.sec.prbs.headD 0)).addr.map
      u.weights).getD []) ∧
    (∃ (s : State), ∃ (u : State), ∃ (k : Nat), ∃ (o : PrachOcc), ∃ (rest : List PrachOcc), ∃ (ws : List Cx), ∃ (adc : List (List Int)),
    Sparse.get (fun _ => []) s.fh.prach k = o :: rest ∧ s.domOn 5 = true ∧ s.domOn 7 = true ∧ o.latched = some ws ∧ u = (s.advanceTo (s.tickReaching (o.stop + s.ulCompAt o.sec.car o.start * nsU) + ulLatency)).feedAll adc) ∧
    (∃ (s : State), ∃ (u : State), ∃ (c : Nat), ∃ (n : Int),
    c < 4 ∧ s.domOn 5 = true ∧ s.domOn 7 = true ∧ cfgUl (s.carCfg c) = true ∧ s.srsSlotOn c n = true ∧ u = s.forEach ((List.range 256).filter (fun e => s.srsUsed e && fld (s.srsW e 0) 28 27 == c))
      (fun v e => v.serveSrs c e n (carSlotStart (cfgMu (s.carCfg c)) (cfgExt (s.carCfg c)) n))) :=
  ⟨⟨(wS.wr (Reg.CAR_CFG 0) 0xC0080000), 0, 0, _, 0, _, by decide +kernel, rfl, by decide +kernel, by decide +kernel, by decide +kernel, by decide +kernel, rfl, by decide +kernel⟩,
   ⟨(wS.wr (Reg.CAR_CFG 0) 0xC0080000), _, 0, 0, _, _, 0, [], _, by decide +kernel, rfl, by decide +kernel, by decide +kernel, by decide +kernel, by decide +kernel, rfl, by decide +kernel, rfl, rfl⟩,
   ⟨{ wS with fh := { held := [⟨⟨wSec, 0, 0, []⟩, [], 0⟩] } }, _, _, _, rfl, rfl⟩,
   ⟨{ wS with fh := { prach := [(0, [⟨wSec, 0, 0, 0, 0, 0, 1, 0, none⟩])] } }, _, 0, _, _, _, [], rfl, by decide +kernel, by decide +kernel, by decide +kernel, rfl, by decide +kernel, rfl⟩,
   ⟨{ wS with fh := { prach := [(0, [⟨wSec, 0, 0, 0, 0, 0, 1, 0, some []⟩])] } }, _, 0, _, _, _, [], rfl, by decide +kernel, by decide +kernel, (Option.some_get (by decide +kernel)).symm, rfl⟩,
   ⟨(wS.wr (Reg.CAR_CFG 0) 0xC0080000|>.pb (Reg.CAR_SRS_PER 0) 31 true), _, 0, 0, by decide +kernel, by decide +kernel, by decide +kernel, by decide +kernel, by decide +kernel, rfl⟩⟩

/-- `Obligations.CommitsComplete`: for each of its clauses a state and operands that meet its hypotheses. -/
theorem witness_commits_complete :
    (∃ (s : State), ∃ (u : State), ∃ (p : Pkt),
    s.Admits 0x004 p ∧ s.Room p ∧ u = s.takeCmd 0x004 p ∧ p.flags = 1 ∧ p.params = []) ∧
    (∃ (s : State), ∃ (u : State), ∃ (p : Pkt), ∃ (n : Nat), ∃ (i : Nat),
    s.Admits 0x004 p ∧ s.Room p ∧ u = s.takeCmd 0x004 p ∧ p.is 3 = true ∧ s.ptpOk p.params 0 = true ∧ u.freeCmp = some n ∧ (List.range 8).find? (fun i => !u.host.slots.any (fun (x : Nat × CmdRef) => x.1 == i)) = some i) ∧
    (∃ (s : State), ∃ (u : State), ∃ (p : Pkt), ∃ (n : Nat), ∃ (x : Nat × CmdRef),
    s.Admits 0x005 p ∧ u = s.takeCmd 0x005 p ∧ p.is 1 = true ∧ p.arg 0 < 8 ∧ u.host.slots.find? (fun (y : Nat × CmdRef) => y.1 == p.arg 0) = some x ∧ (List.range 32).find? (fun n => (u.cmpOf n).ref == some x.2 && u.armed n) = some n) ∧
    (∃ (s : State), ∃ (u : State), ∃ (p : Pkt),
    s.Admits 0x006 p ∧ u = s.takeCmd 0x006 p ∧ p.is 1 = true ∧ p.arg 0 < 256) ∧
    (∃ (s : State),
    s.Reaches Reg.GL_CMT_NOW) ∧
    (∃ (s : State), ∃ (u : State), ∃ (v : State), ∃ (d : Due),
    s.takeDue 0 = some (d, u) ∧ v = u.pb Reg.GL_CMT_STAT 31 true) ∧
    (∃ (s : State), ∃ (u : State), ∃ (v : State), ∃ (c : Capture), ∃ (rest : List Capture), ∃ (k : Nat × Nat × Nat),
    s.host.captures = c :: rest ∧ u = s.advanceTo c.target ∧ v = (State.evalGroups { u with host := { u.host with captures := rest, slots := u.host.slots.filter (fun (x : Nat × CmdRef) => !c.refs.contains x.2) } } c.staged).1 ∧ k = (State.evalGroups { u with host := { u.host with captures := rest, slots := u.host.slots.filter (fun (x : Nat × CmdRef) => !c.refs.contains x.2) } } c.staged).2) :=
  ⟨⟨wS, _, wP [] 1, admits_of (by decide +kernel), room_of (by decide +kernel), rfl, by decide +kernel, by decide +kernel⟩,
   ⟨wS, _, (wP [0, 0, 0] 0), _, _, admits_of (by decide +kernel), room_of (by decide +kernel), rfl, by decide +kernel, by decide +kernel, (Option.some_get (by decide +kernel)).symm, (Option.some_get (by decide +kernel)).symm⟩,
   ⟨{ (wS.setCmp 31 { ref := some wRef }).pb (Reg.TB_CMP_CTRL 31) 0 true with host := { slots := [(7, wRef)] } }, _, wP [7] 0, _, _, admits_of (by decide +kernel), rfl, by decide +kernel, by decide +kernel, (Option.some_get (by decide +kernel)).symm, (Option.some_get (by decide +kernel)).symm⟩,
   ⟨wS, _, (wP [0] 0), admits_of (by decide +kernel), rfl, by decide +kernel, by decide +kernel⟩,
   ⟨wS, reaches_of (by decide +kernel)⟩,
   ⟨{ wS with tb := { dues := [⟨0, 0, false, [], false⟩] } }, _, _, _, rfl, rfl⟩,
   ⟨{ wS with host := { captures := [⟨[], 0, false, [], []⟩] } }, _, _, _, _, _, rfl, rfl, rfl, rfl⟩⟩

/-- `Obligations.ThermalComplete`: for each of its clauses a state and operands that meet its hypotheses. -/
theorem witness_thermal_complete :
    (∃ (s : State), ∃ (v : State), ∃ (u : State), ∃ (rs : List (Int × Bool)), ∃ (at_ : Nat),
    rs.length = 46 ∧ s.dev ≠ 0 ∧ at_ = (if s.tick % 102400 = 0 ∧ s.th.last ≠ s.tick + 1 then s.tick else (s.tick / 102400 + 1) * 102400) ∧ v = s.advanceTo at_ ∧ u = { v with th := { v.th with last := at_ + 1 } }) ∧
    (∃ (s : State), ∃ (r : Nat),
    r ≤ 2 ∧ s.dev ≠ 0) ∧
    (∃ (s : State), ∃ (u : State), ∃ (p : Pkt),
    s.Admits 0x940 p ∧ u = s.takeCmd 0x940 p ∧ p.is 0 = true) ∧
    (∃ (s : State), ∃ (u : State), ∃ (p : Pkt),

    let w := fun (i : Nat) => wordAt p.params i
    let boff := maskW (w 2) 0x3F0F
    let rst := maskW (w 3) 0xFFFF
    s.Admits 0x941 p ∧ u = s.takeCmd 0x941 p ∧ p.is 4 = true ∧ thresholdsOk (w 1) boff rst = true) ∧
    (∃ (s : State), ∃ (u : State), ∃ (p : Pkt),
    s.Admits 0x942 p ∧ u = s.takeCmd 0x942 p ∧ p.is 2 = true ∧ 1 ≤ p.arg 1 ∧ p.arg 1 ≤ 14 ∧ p.arg 0 + p.arg 1 ≤ 46) ∧
    (∃ (s : State), ∃ (u : State), ∃ (p : Pkt),
    s.Admits 0x943 p ∧ u = s.takeCmd 0x943 p ∧ p.is 2 = true ∧ s.senPresent (p.arg 0) = true ∧ s.dev = 5) :=
  ⟨⟨{ wS with tick := 102400 }, _, _, List.replicate 46 (250, true), 102400, by decide +kernel, by decide +kernel, by decide +kernel, rfl, rfl⟩,
   ⟨wS, 0, by decide +kernel, by decide +kernel⟩,
   ⟨wS, _, (wP [] 0), admits_of (by decide +kernel), rfl, by decide +kernel⟩,
   ⟨wS, _, wP [0, 0x78776B5F, 0, 0x5A] 0, admits_of (by decide +kernel), rfl, by decide +kernel, by decide +kernel⟩,
   ⟨wS, _, (wP [0, 1] 0), admits_of (by decide +kernel), rfl, by decide +kernel, by decide +kernel, by decide +kernel, by decide +kernel⟩,
   ⟨wDev 5, _, wP [45, 0] 0, admits_of (by decide +kernel), rfl, by decide +kernel, by decide +kernel, by decide +kernel⟩⟩

/-- `Obligations.DmaComplete`: for each of its clauses a state and operands that meet its hypotheses. -/
theorem witness_dma_complete :
    (∃ (s : State), ∃ (n : Nat),
    n < 32 ∧ s.domOn 1 = true) ∧
    (∃ (s : State), ∃ (n : Nat),
    n < 32 ∧ s.domOn 1 = true) ∧
    (∃ (s : State), ∃ (n : Nat),
    s.ringState n = 4 ∧ n < 32) ∧
    (∃ (s : State), ∃ (n : Nat),
    n < 32 ∧ s.domOn 1 = true) ∧
    (∃ (s : State), ∃ (n : Nat),
    s.mayFetch n = true ∧ (s.ringOf n).reread = false) ∧
    (∃ (s : State), ∃ (n : Nat),
    s.mayFetch n = true) ∧
    (∃ (s : State), ∃ (u : State), ∃ (v : State), ∃ (n : Nat), ∃ (data : List Byte), ∃ (err : Bool), ∃ (d : Desc), ∃ (d0 : Desc),
    (s.ringOf n).desc = some d0 ∧ n < 32 ∧ s.pcieUp = true ∧ (s.ringState n = 1 ∨ s.ringState n = 4) ∧ u = s.takeBeats n ∧ (u.ringOf n).desc = some d ∧ v = (if d.func = 8 ∨ d.func = 9 then u.hostBound n d err else (u.moveDesc n d data err).forwardLocks)) ∧
    (∃ (s : State), ∃ (n : Nat), ∃ (d : Desc),
    (s.ringOf n).desc = some d ∧ d.func < 8 ∧ n < 32) ∧
    (∃ (s : State), ∃ (n : Nat),
    (s.ringOf n).desc = none ∧ s.mayFetch n = false ∧ n < 32 ∧ s.rf (Reg.DMA_STAT n) 31 28 = 1 ∧ s.rb (Reg.DMA_MODE n) 31 = false) ∧
    (∃ (s : State), ∃ (n : Nat),
    n < 32 ∧ s.domOn 1 = true) ∧
    (∃ (s : State), ∃ (u : State), ∃ (n : Nat),
    n < 32 ∧ s.rf (Reg.DMA_STAT n) 31 28 = 1 ∧ n ∉ s.dma.half ∧ u = { s with dma := { s.dma with half := n :: s.dma.half } }) ∧
    (∃ (s : State), ∃ (n : Nat),
    n < 32 ∧ s.domOn 1 = true) :=
  ⟨⟨wS, 0, by decide +kernel, by decide +kernel⟩,
   ⟨wS, 0, by decide +kernel, by decide +kernel⟩,
   ⟨wS.setRingState 31 4, 31, by decide +kernel, by decide +kernel⟩,
   ⟨wS, 0, by decide +kernel, by decide +kernel⟩,
   ⟨(wS.setRingState 1 1).setRing 1 { load := some { ref := wRef, need := 4 } } |>.pf (Reg.RING_CFG 1) 31 24 0x80, 1, by decide +kernel, by decide +kernel⟩,
   ⟨(wS.setRingState 1 1).setRing 1 { load := some { ref := wRef, need := 4 } } |>.pf (Reg.RING_CFG 1) 31 24 0x80, 1, by decide +kernel⟩,
   ⟨(wS.setRing 31 { desc := some { idx := 0, words := [0, 0, 0, 0] } }).setRingState 31 1, _, _, 31, [], false, _, _, (Option.some_get (by decide +kernel)).symm, by decide +kernel, by decide +kernel, by decide +kernel, rfl, (Option.some_get (by decide +kernel)).symm, rfl⟩,
   ⟨(wS.setRing 31 { desc := some { idx := 0, words := [0, 0, 0, 0], func := 7 } }).setRingState 31 1, 31, _, (Option.some_get (by decide +kernel)).symm, by decide +kernel, by decide +kernel⟩,
   ⟨wS.pf (Reg.DMA_STAT 31) 31 28 1, 31, by decide +kernel, by decide +kernel, by decide +kernel, by decide +kernel, by decide +kernel⟩,
   ⟨wS, 31, by decide +kernel, by decide +kernel⟩,
   ⟨wS.pf (Reg.DMA_STAT 31) 31 28 1, _, 31, by decide +kernel, by decide +kernel, by decide +kernel, rfl⟩,
   ⟨wS, 31, by decide +kernel, by decide +kernel⟩⟩

/-- `Obligations.ResetsComplete`: for each of its clauses a state and operands that meet its hypotheses. -/
theorem witness_resets_complete :
    (∃ (s : State),
    s.dev = 0) ∧
    (∃ (s : State), ∃ (ns : Nat),
    s.dev ≠ 0 ∧ 1000 ≤ ns) ∧
    (∃ (s : State),
    2 ≤ s.dev ∧ s.domOn 1 = true) ∧
    (∃ (s : State),
    s.pcieUp = true) ∧
    (∃ (s : State), ∃ n, ∃ t, ∃ emerg,
    s.th.fire = some (n, t, emerg) ∧ s.dev ≠ 0 ∧ s.th.latched = false) ∧
    (∃ (s : State), ∃ t,
    s.th.okSince = some t ∧ s.th.latched = true) ∧
    (∃ (s : State),
    s.dev = 1) :=
  ⟨⟨wDev 0, by decide +kernel⟩,
   ⟨wS, 1000, by decide +kernel, by decide +kernel⟩,
   ⟨wS, by decide +kernel, by decide +kernel⟩,
   ⟨wS, by decide +kernel⟩,
   ⟨{ wS with th := { fire := some (0, 1200, false) } }, _, _, _, rfl, by decide +kernel, by decide +kernel⟩,
   ⟨{ wS with th := { okSince := some 0, latched := true } }, _, (Option.some_get (by decide +kernel)).symm, by decide +kernel⟩,
   ⟨wDev 1, by decide +kernel⟩⟩

/-- `Obligations.SelvedgeComplete`: for each of its clauses a state and operands that meet its hypotheses. -/
theorem witness_selvedge_complete :
    (∃ (s : State),
    2 ≤ s.dev ∧ s.domOn 1 = true) ∧
    (∃ (s : State),
    s.domOn 1 = true ∧ 2 ≤ s.dev) ∧
    (∃ (s : State), ∃ (kind : Nat), ∃ (unit : Nat), ∃ t,
    s.sv.tests.find? (fun t => t.kind = kind ∧ t.unit = unit) = some t) ∧
    (∃ (s : State),
    s.Reaches Reg.SV_INJECT) ∧
    (∃ (s : State), ∃ i,
    s.sv.inject = some i) ∧
    (∃ (s : State), ∃ (u : State), ∃ (p : Pkt),
    s.Admits 0x040 p ∧ u = s.takeCmd 0x040 p ∧ p.is 2 = true ∧ s.unitPresent (p.arg 0) (p.arg 1) = true) ∧
    (∃ (s : State), ∃ (u : State), ∃ (p : Pkt),

    s.Admits 0x041 p ∧ s.Room p ∧ u = s.takeCmd 0x041 p ∧ p.is 2 = true ∧ s.unitPresent (p.arg 0) (p.arg 1) = true ∧ s.faulted (p.arg 0) (p.arg 1) = true) ∧
    (∃ (s : State), ∃ (u : State), ∃ (p : Pkt),
    s.Admits 0x042 p ∧ u = s.takeCmd 0x042 p ∧ p.is 2 = true ∧ s.unitPresent (p.arg 0) (p.arg 1) = true ∧ s.faulted (p.arg 0) (p.arg 1) = false) ∧
    (∃ (s : State), ∃ (u : State), ∃ (p : Pkt),
    s.Admits 0x043 p ∧ s.Room p ∧ u = s.takeCmd 0x043 p ∧ p.is 4 = true ∧ s.chkAt (p.arg 0) (p.arg 1) = true ∧ (p.arg 1) < 256 ∧ p.arg 2 < 256 ∧ p.arg 3 < 2) ∧
    (∃ (s : State), ∃ (u : State), ∃ (p : Pkt),
    s.Admits 0x044 p ∧ u = s.takeCmd 0x044 p ∧ p.is 1 = true ∧ p.arg 0 < 512) ∧
    (∃ (s : State),
    2 ≤ s.dev ∧ s.domOn 1 = true) ∧
    (∃ (s : State), ∃ (row : Nat), ∃ (die : Nat),
    row < 8 ∧ (die < s.part.tiles ∨ die = 4)) :=
  ⟨⟨wS, by decide +kernel, by decide +kernel⟩,
   ⟨wS, by decide +kernel, by decide +kernel⟩,
   ⟨{ wS with sv := { tests := [⟨0, 0, wRef, 0, false⟩] } }, 0, 0, _, (Option.some_get (by decide +kernel)).symm⟩,
   ⟨wS, reaches_of (by decide +kernel)⟩,
   ⟨{ wS with sv := { inject := some ⟨3, 0, 1, 0, none⟩ } }, _, (Option.some_get (by decide +kernel)).symm⟩,
   ⟨wS, _, (wP [0, 0] 0), admits_of (by decide +kernel), rfl, by decide +kernel, by decide +kernel⟩,
   ⟨wS.pb (causeReg 0 95) 31 true, _, wP [0, 95] 0, admits_of (by decide +kernel), room_of (by decide +kernel), rfl, by decide +kernel, by decide +kernel, by decide +kernel⟩,
   ⟨wS, _, (wP [0, 0] 0), admits_of (by decide +kernel), rfl, by decide +kernel, by decide +kernel, by decide +kernel⟩,
   ⟨wDev 5, _, wP [0x19, 95, 255, 1] 0, admits_of (by decide +kernel), room_of (by decide +kernel), rfl, by decide +kernel, by decide +kernel, by decide +kernel, by decide +kernel, by decide +kernel⟩,
   ⟨wS, _, (wP [0] 0), admits_of (by decide +kernel), rfl, by decide +kernel, by decide +kernel⟩,
   ⟨wS, by decide +kernel, by decide +kernel⟩,
   ⟨wS, 0, 0, by decide +kernel, by decide +kernel⟩⟩

/-- `Obligations.SolverJobsComplete`: for each of its clauses a state and operands that meet its hypotheses. -/
theorem witness_solver_jobs_complete :
    (∃ (s : State), ∃ (j : Nat),
    s.Reaches (Reg.SOL_JOB_W0 j)) ∧
    (∃ (s : State), ∃ d, ∃ s1,
    s.takeDue 12 = some (d, s1)) ∧
    (∃ (s : State), ∃ (c : Nat), ∃ j, ∃ i, ∃ rest,

    let able := decide (c < 32) && s.domOn 6 && s.rb Reg.SOL_CTRL 31 && s.rb Reg.SOL_CORE_AVAIL c && (s.coreOf c).item.isNone && !s.quiet 4
    s.jobHead = some j ∧ able = true ∧
    let s1 := s.startJob j
    let x := s1.jobOf j
    x.todo = i :: rest) ∧
    (∃ (s : State), ∃ (c : Nat), ∃ i,
    (s.coreOf c).item = some i ∧ c < 32) ∧
    (∃ (s : State), ∃ (j : Nat),
    j < 64 ∧ s.jobActive j = true ∧ s.rb (Reg.SOL_JOB_W7 j) 27 = false) ∧
    (∃ (s : State), ∃ (j : Nat),

    j < 64 ∧ s.reach ≠ 1 ∧ s.jobActive j = true) ∧
    (∃ (s : State), ∃ (u : State), ∃ (p : Pkt),

    let ok := p.is 5 && decide ((p.arg 0) < 256) && srsOk (wordAt p.params 1) (wordAt p.params 2) (wordAt p.params 3)
    s.Admits 0x400 p ∧ u = s.takeCmd 0x400 p ∧ ok = true ∧ s.isLead = true) ∧
    (∃ (s : State), ∃ (u : State), ∃ (p : Pkt),

    let ok := p.is 8 && decide (p.arg 0 < 64 ∨ p.arg 0 = 0xFF) && s.jobOk (wordAt p.params 1) (wordAt p.params 3) (wordAt p.params 4)
    s.Admits 0x401 p ∧ s.Room p ∧ u = s.takeCmd 0x401 p ∧ ok = true ∧ s.isLead = true) ∧
    (∃ (s : State), ∃ (u : State), ∃ (p : Pkt),
    s.Admits 0x402 p ∧ u = s.takeCmd 0x402 p ∧ p.is 1 = true ∧ (p.arg 0) < 64 ∧ s.isLead = true) ∧
    (∃ (s : State), ∃ (u : State), ∃ (p : Pkt),
    s.Admits 0x403 p ∧ u = s.takeCmd 0x403 p ∧ p.is 1 = true ∧ (p.arg 0) < 64) ∧
    (∃ (s : State), ∃ (u : State), ∃ (p : Pkt),

    let ok := p.is 3 && decide (8 ≤ (p.arg 0) ∧ (p.arg 0) ≤ 15 ∧ 0 < p.arg 2) && s.loadRing (p.arg 1)
    s.Admits 0x404 p ∧ s.Room p ∧ u = s.takeCmd 0x404 p ∧ ok = true) ∧
    (∃ (s : State), ∃ (u : State), ∃ (p : Pkt),
    s.Admits 0x405 p ∧ u = s.takeCmd 0x405 p ∧ p.is 2 = true ∧ (p.arg 0) < 32 ∧ p.arg 1 < 2) ∧
    (∃ (s : State), ∃ (u : State), ∃ (p : Pkt),
    s.Admits 0x406 p ∧ u = s.takeCmd 0x406 p ∧ p.is 1 = true ∧ p.arg 0 < 2 ∧ s.isLead = true) ∧
    (∃ (s : State), ∃ (u : State), ∃ (p : Pkt),
    s.Admits 0x407 p ∧ u = s.takeCmd 0x407 p ∧ p.is 2 = true ∧ p.arg 0 + p.arg 1 ≤ 2048) :=
  ⟨⟨wS, 0, reaches_of (by decide +kernel)⟩,
   ⟨{ wS with tb := { dues := [⟨12, 0, false, [], false⟩] } }, _, _, rfl⟩,
   ⟨((wS.wr (Reg.SOL_JOB_W0 63) 0).setJobState 63 2).setJob 63 { todo := [0] } |>.pb Reg.SOL_CTRL 31 true, 31, _, _, _, (Option.some_get (by decide +kernel)).symm, by decide +kernel, rfl⟩,
   ⟨wC { item := some wI }, 0, _, (Option.some_get (by decide +kernel)).symm, by decide +kernel⟩,
   ⟨wS.setJobState 63 3, 63, by decide +kernel, by decide +kernel, by decide +kernel⟩,
   ⟨(wS.setJobState 63 3).pf Reg.GL_PKG_POS 11 2 0x81, 63, by decide +kernel, by decide +kernel, by decide +kernel⟩,
   ⟨wS, _, (wP [0, 0, 0, 0, 0] 0), admits_of (by decide +kernel), rfl, by decide +kernel, by decide +kernel⟩,
   ⟨wS.wr Reg.SOL_KERNEL_VALID 2, _, wP [0xFF, 0x20000, 0, 0, 0, 0, 0, 0] 0, admits_of (by decide +kernel), room_of (by decide +kernel), rfl, by decide +kernel, by decide +kernel⟩,
   ⟨wS, _, (wP [0] 0), admits_of (by decide +kernel), rfl, by decide +kernel, by decide +kernel, by decide +kernel⟩,
   ⟨wS, _, (wP [0] 0), admits_of (by decide +kernel), rfl, by decide +kernel, by decide +kernel⟩,
   ⟨(wS.pf (Reg.RING_CFG 0) 31 24 0x80), _, wP [15, 0, 1] 0, admits_of (by decide +kernel), room_of (by decide +kernel), rfl, by decide +kernel⟩,
   ⟨wS, _, (wP [0, 0] 0), admits_of (by decide +kernel), rfl, by decide +kernel, by decide +kernel, by decide +kernel⟩,
   ⟨wS, _, (wP [0] 0), admits_of (by decide +kernel), rfl, by decide +kernel, by decide +kernel, by decide +kernel⟩,
   ⟨wS, _, (wP [0, 0] 0), admits_of (by decide +kernel), rfl, by decide +kernel, by decide +kernel⟩⟩

/-- `Obligations.TrellisComplete`: for each of its clauses a state and operands that meet its hypotheses. -/
theorem witness_trellis_complete :
    (∃ (s : State),
    s.Reaches Reg.TR_WC_NOW) ∧
    (∃ (s : State), ∃ d, ∃ s1,
    s.takeDue 1 = some (d, s1)) ∧
    (∃ (s : State), ∃ d,
    s.tr.defer = some d) ∧
    (∃ (s : State), ∃ e,
    s.tr.exec = some e ∧ e.switched = false) ∧
    (∃ (s : State), ∃ e,
    s.tr.exec = some e ∧ e.switched = true) ∧
    (∃ (s : State),
    s.rb Reg.TR_STATUS 2 = true) ∧
    (∃ (s : State), ∃ x,
    s.tr.vers.find? (fun (x : Nat × TrVals) => decide (s.tr.appliedAt < x.1)) = some x) ∧
    (∃ (s : State), ∃ (u : State), ∃ (p : Pkt),

    let now := p.flags == 1
    let ok := (now && p.params.length == 0) || (p.is 3 && s.ptpOk p.params 0)
    s.Admits 0x300 p ∧ s.Room p ∧ u = s.takeCmd 0x300 p ∧ ok = true ∧ s.isLead = true) ∧
    (∃ (s : State), ∃ (u : State), ∃ (p : Pkt),
    s.Admits 0x301 p ∧ u = s.takeCmd 0x301 p ∧ p.is 1 = true ∧ p.arg 0 < 2) ∧
    (∃ (s : State), ∃ (u : State), ∃ (p : Pkt),
    s.Admits 0x302 p ∧ s.Room p ∧ u = s.takeCmd 0x302 p ∧ p.is 4 = true ∧ p.arg 0 < 4 ∧ 1 ≤ p.arg 2 ∧ p.arg 1 + p.arg 2 ≤ (bfTarget (p.arg 0)).2.2 ∧ s.loadRing (p.arg 3) = true ∧ u.loadBusy (p.arg 3) = false) ∧
    (∃ (s : State), ∃ (u : State), ∃ (p : Pkt),
    s.Admits 0x303 p ∧ u = s.takeCmd 0x303 p ∧ p.is 2 = true ∧ p.arg 0 < 16 ∧ p.arg 1 < 16) ∧
    (∃ (s : State), ∃ (u : State), ∃ (p : Pkt),
    s.Admits 0x304 p ∧ u = s.takeCmd 0x304 p ∧ p.is 2 = true ∧ p.arg 0 < 2 ∧ p.arg 1 < 4096) ∧
    (∃ (s : State), ∃ (u : State), ∃ (p : Pkt),
    s.Admits 0x305 p ∧ u = s.takeCmd 0x305 p ∧ p.is 2 = true ∧ p.arg 0 < 2 ∧ p.arg 1 < 2) ∧
    (∃ (s : State), ∃ (u : State), ∃ (p : Pkt),

    let fits := decide (fld (wordAt p.params 2) 11 0 ≤ 2048 ∧
    fld (wordAt p.params 2) 26 16 + fld (wordAt p.params 2) 11 0 ≤ cfgNprb (s.srd (Reg.CAR_CFG (p.arg 0))))
    s.Admits 0x306 p ∧ u = s.takeCmd 0x306 p ∧ p.is 5 = true ∧ (p.arg 0) < 4 ∧ fits = true) ∧
    (∃ (s : State), ∃ (u : State), ∃ (p : Pkt),
    s.Admits 0x307 p ∧ u = s.takeCmd 0x307 p ∧ p.is 0 = true) ∧
    (∃ (s : State), ∃ (u : State), ∃ (p : Pkt),

    let ok := p.is 3 && decide ((p.arg 0) < 4 ∧ 1 ≤ p.arg 1 ∧ p.arg 1 ≤ 4 ∧ p.arg 2 + p.arg 1 ≤ 4096) && s.rb (Reg.SBFD_BAND (p.arg 0)) 31
    s.Admits 0x60B p ∧ s.Room p ∧ u = s.takeCmd 0x60B p ∧ ok = true) ∧
    (∃ (s : State), ∃ r, ∃ w_,
    s.refsOp 0x60B = r :: w_ ∧ s.rb Reg.TR_STATUS 1 = false) :=
  ⟨⟨wS, reaches_of (by decide +kernel)⟩,
   ⟨{ wS with tb := { dues := [⟨1, 0, false, [], false⟩] } }, _, _, rfl⟩,
   ⟨{ wS with tr := { defer := some ⟨[], 0, 0⟩ } }, _, (Option.some_get (by decide +kernel)).symm⟩,
   ⟨{ wS with tr := { exec := some ⟨0, 0, false, false, false⟩ } }, _, (Option.some_get (by decide +kernel)).symm, by decide +kernel⟩,
   ⟨{ wS with tr := { exec := some ⟨0, 0, false, false, true⟩ } }, _, (Option.some_get (by decide +kernel)).symm, by decide +kernel⟩,
   ⟨wS.pb Reg.TR_STATUS 2 true, by decide +kernel⟩,
   ⟨{ wS with tr := { vers := [(0, {}), (5, {})] } }, _, (Option.some_get (by decide +kernel)).symm⟩,
   ⟨wS, _, (wP [0, 0, 0] 0), admits_of (by decide +kernel), room_of (by decide +kernel), rfl, by decide +kernel, by decide +kernel⟩,
   ⟨wS, _, (wP [0] 0), admits_of (by decide +kernel), rfl, by decide +kernel, by decide +kernel⟩,
   ⟨(wS.pf (Reg.RING_CFG 0) 31 24 0x80), _, wP [3, 1023, 1, 0] 0, admits_of (by decide +kernel), room_of (by decide +kernel), rfl, by decide +kernel, by decide +kernel, by decide +kernel, by decide +kernel, by decide +kernel, by decide +kernel⟩,
   ⟨wS, _, (wP [0, 0] 0), admits_of (by decide +kernel), rfl, by decide +kernel, by decide +kernel, by decide +kernel⟩,
   ⟨wS, _, (wP [0, 0] 0), admits_of (by decide +kernel), rfl, by decide +kernel, by decide +kernel, by decide +kernel⟩,
   ⟨wS, _, (wP [0, 0] 0), admits_of (by decide +kernel), rfl, by decide +kernel, by decide +kernel, by decide +kernel⟩,
   ⟨wS, _, (wP [0, 0, 0, 0, 0] 0), admits_of (by decide +kernel), rfl, by decide +kernel, by decide +kernel, by decide +kernel⟩,
   ⟨wS, _, (wP [] 0), admits_of (by decide +kernel), rfl, by decide +kernel⟩,
   ⟨wS.pb (Reg.SBFD_BAND 3) 31 true, _, wP [3, 4, 4092] 0, admits_of (by decide +kernel), room_of (by decide +kernel), rfl, by decide +kernel⟩,
   ⟨{ wS with host := { accepted := [⟨0, 1, 0x60B, 0⟩] } }, _, _, rfl, by decide +kernel⟩⟩

/-- `Obligations.CellarComplete`: for each of its clauses a state and operands that meet its hypotheses. -/
theorem witness_cellar_complete :
    (∃ (s : State), ∃ (u : State), ∃ (g : Nat), ∃ (n : Nat), ∃ (x : Nat × Nat), ∃ (rest : List (Nat × Nat)),
    s.cel.segs = (g, n) :: x :: rest ∧ s.celMode = 1 ∧ 24 < s.cel.segs.length ∧ s.cel.rackRef = none ∧ u = s.rackCopy g ∧ 20 < (u.cel.segs.filter (fun (y : Nat × Nat) => y.1 ≠ g)).length) ∧
    (∃ (s : State),
    s.Reaches Reg.CEL_STAT) ∧
    (∃ (s : State), ∃ (u : State), ∃ (p : Pkt),
    s.Admits 0xA00 p ∧ u = s.takeCmd 0xA00 p ∧ p.is 0 = true) ∧
    (∃ (s : State), ∃ (u : State), ∃ (p : Pkt),

    let log := p.flags == 1
    let valid := decide (p.flags < 2) && p.params.length == (if log then 5 else 2) && (!log || decide (1 ≤ p.arg 4 ∧ p.arg 4 ≤ 32))
    s.Admits 0xA01 p ∧ u = s.takeCmd 0xA01 p ∧ valid = true ∧ p.arg 0 ≠ 0x02) ∧
    (∃ (s : State), ∃ (u : State), ∃ (p : Pkt),

    s.Admits 0xA43 p ∧ u = s.takeCmd 0xA43 p ∧ p.is 2 = true) ∧
    (∃ (s : State), ∃ (u : State), ∃ (p : Pkt),
    s.Admits 0xA45 p ∧ s.Room p ∧ u = s.takeCmd 0xA45 p ∧ p.is 0 = true) :=
  ⟨⟨{ (wS.pf Reg.CEL_STAT 31 30 1) with cel := { segs := (List.range 25).map (fun i => (i, 1)) } }, _, _, _, _, _, rfl, by decide +kernel, by decide +kernel, by decide +kernel, rfl, by decide +kernel⟩,
   ⟨wS, reaches_of (by decide +kernel)⟩,
   ⟨wS, _, (wP [] 0), admits_of (by decide +kernel), rfl, by decide +kernel⟩,
   ⟨wS, _, wP [0x10, 0] 0, admits_of (by decide +kernel), rfl, by decide +kernel, by decide +kernel⟩,
   ⟨wS, _, (wP [0, 0] 0), admits_of (by decide +kernel), rfl, by decide +kernel⟩,
   ⟨wS, _, (wP [] 0), admits_of (by decide +kernel), room_of (by decide +kernel), rfl, by decide +kernel⟩⟩

/-- `Obligations.SecurityCommandsComplete`: for each of its clauses a state and operands that meet its hypotheses. -/
theorem witness_security_commands_complete :
    (∃ (s : State), ∃ (u : State), ∃ (p : Pkt),
    s.Admits 0xA02 p ∧ u = s.takeCmd 0xA02 p ∧ p.is 0 = true) ∧
    (∃ (s : State), ∃ (u : State), ∃ (p : Pkt),
    s.Admits 0xA03 p ∧ s.Room p ∧ u = s.takeCmd 0xA03 p ∧ p.is 8 = true) ∧
    (∃ (s : State), ∃ r, ∃ nonce,
    s.cel.attest = some (r, nonce)) ∧
    (∃ (s : State), ∃ (u : State), ∃ (p : Pkt),
    s.Admits 0xA04 p ∧ u = s.takeCmd 0xA04 p ∧ p.is 0 = true) ∧
    (∃ (s : State), ∃ (u : State), ∃ (p : Pkt),
    s.Admits 0xA40 p ∧ s.Room p ∧ u = s.takeCmd 0xA40 p ∧ p.is 3 = true ∧ 1 ≤ p.arg 0 ∧ p.arg 0 ≤ 4 ∧ 0 < p.arg 2 ∧ s.secRing (p.arg 1) = true ∧ u.host.accepted.any (fun r => r.op == 0xA40 || r.op == 0x404) = false ∧ u.secBusy (p.arg 1) = false) ∧
    (∃ (s : State), ∃ (u : State), ∃ (p : Pkt),

    s.Admits 0xA41 p ∧ u = s.takeCmd 0xA41 p ∧ p.is 1 = true ∧ p.arg 0 < 2) ∧
    (∃ (s : State), ∃ (u : State), ∃ (p : Pkt),

    let cur := (s.rd (Reg.SEC_ARB ((p.arg 0) - 1))).toNat
    let ok := p.is 2 && decide (1 ≤ (p.arg 0) ∧ (p.arg 0) ≤ 4 ∧ cur ≤ (p.arg 1) ∧ (p.arg 1) ≤ (s.usedVer (p.arg 0)).getD cur)
    s.Admits 0xA44 p ∧ u = s.takeCmd 0xA44 p ∧ ok = true) ∧
    (∃ (s : State), ∃ (u : State), ∃ (p : Pkt),
    s.Admits 0xA80 p ∧ u = s.takeCmd 0xA80 p ∧ p.is 9 = true ∧ ((p.arg 0) = 2 ∨ (p.arg 0) = 3) ∧ s.rb Reg.SEC_REVOKE (4 + (p.arg 0)) = false) ∧
    (∃ (s : State), ∃ (u : State), ∃ (p : Pkt),

    let last := decide ((p.arg 0) < 2) && s.rb Reg.SEC_REVOKE (1 - (p.arg 0))
    s.Admits 0xA81 p ∧ u = s.takeCmd 0xA81 p ∧ p.is 1 = true ∧ (p.arg 0) < 4 ∧ last = false) ∧
    (∃ (s : State), ∃ (u : State), ∃ (p : Pkt),
    s.Admits 0xA82 p ∧ s.Room p ∧ u = s.takeCmd 0xA82 p ∧ p.is 2 = true ∧ 0 < p.arg 1 ∧ s.secRing (p.arg 0) = true ∧ u.secBusy (p.arg 0) = false) ∧
    (∃ (s : State), ∃ (u : State), ∃ (p : Pkt),
    s.Admits 0xA83 p ∧ u = s.takeCmd 0xA83 p ∧ p.is 0 = true) :=
  ⟨⟨wS, _, (wP [] 0), admits_of (by decide +kernel), rfl, by decide +kernel⟩,
   ⟨wS, _, (wP [0, 0, 0, 0, 0, 0, 0, 0] 0), admits_of (by decide +kernel), room_of (by decide +kernel), rfl, by decide +kernel⟩,
   ⟨{ wS with cel := { attest := some (wRef, []) } }, _, _, rfl⟩,
   ⟨wS, _, (wP [] 0), admits_of (by decide +kernel), rfl, by decide +kernel⟩,
   ⟨(wDev 2).pf (Reg.RING_CFG 0) 31 24 0x80, _, wP [4, 0, 1] 0, admits_of (by decide +kernel), room_of (by decide +kernel), rfl, by decide +kernel, by decide +kernel, by decide +kernel, by decide +kernel, by decide +kernel, by decide +kernel, by decide +kernel⟩,
   ⟨wS, _, (wP [0] 0), admits_of (by decide +kernel), rfl, by decide +kernel, by decide +kernel⟩,
   ⟨wS, _, (wP [1, 0] 0), admits_of (by decide +kernel), rfl, by decide +kernel⟩,
   ⟨wDev 2, _, wP [3, 0, 0, 0, 0, 0, 0, 0, 0] 0, admits_of (by decide +kernel), rfl, by decide +kernel, by decide +kernel, by decide +kernel⟩,
   ⟨wDev 2, _, wP [3] 0, admits_of (by decide +kernel), rfl, by decide +kernel, by decide +kernel, by decide +kernel⟩,
   ⟨(wDev 2).pf (Reg.RING_CFG 0) 31 24 0x80, _, wP [0, 1] 0, admits_of (by decide +kernel), room_of (by decide +kernel), rfl, by decide +kernel, by decide +kernel, by decide +kernel, by decide +kernel⟩,
   ⟨wDev 2, _, (wP [] 0), admits_of (by decide +kernel), rfl, by decide +kernel⟩⟩

/-- `Obligations.MailboxesComplete`: for each of its clauses a state and operands that meet its hypotheses. -/
theorem witness_mailboxes_complete :
    (∃ (s : State), ∃ (m : Nat),
    s.hostMbox m = true) ∧
    (∃ (s : State), ∃ (m : Nat), ∃ (w : Word),
    s.hostMbox m = true ∧ bit w 0 = true) ∧
    (∃ (s : State), ∃ (m : Nat),

    let b := s.mbox m
    (decide (m < 8) && s.domOn 1 && decide (2 ≤ s.dev) && b.broken && b.reply == none) = true) ∧
    (∃ (s : State), ∃ (m : Nat),
    s.hostMbox m = true ∧ s.mboxLocked m = false) ∧
    (∃ (s : State), ∃ (m : Nat),
    m < 8 ∧ s.domOn 1 = true) ∧
    (∃ (s : State), ∃ (k : Nat),
    k < 2 ∧ s.part.hasLink (4 + k) = true ∧ s.linkState (4 + k) = 2) ∧
    (∃ (s : State),
    s.spiOn = true) ∧
    (∃ (s : State),
    s.spiOn = true) ∧
    (∃ (s : State),
    s.spiOn = true) ∧
    (∃ (s : State),
    s.spiOn = true) :=
  ⟨⟨wS, 0, by decide +kernel⟩,
   ⟨wS, 7, 1, by decide +kernel, by decide +kernel⟩,
   ⟨{ wS with host := { mboxes := [(7, { h2d := [0x3C000], published := 1 })] } }, 7, by decide +kernel⟩,
   ⟨wS, 0, by decide +kernel, by decide +kernel⟩,
   ⟨wS, 0, by decide +kernel, by decide +kernel⟩,
   ⟨wL 5, 1, by decide +kernel, by decide +kernel, by decide +kernel⟩,
   ⟨{ wS with host := { spiPeriph := true } }, by decide +kernel⟩,
   ⟨{ wS with host := { spiPeriph := true } }, by decide +kernel⟩,
   ⟨{ wS with host := { spiPeriph := true } }, by decide +kernel⟩,
   ⟨{ wS with host := { spiPeriph := true } }, by decide +kernel⟩⟩

/-- `Obligations.SystemCommandsComplete`: for each of its clauses a state and operands that meet its hypotheses. -/
theorem witness_system_commands_complete :
    (∃ (op : Nat),
    opDefined op = false ∧ op < 0xF00) ∧
    (∃ (op : Nat),
    0xF00 ≤ op ∧ op ≤ 0xFFF) ∧
    (∃ (s : State), ∃ (u : State), ∃ (p : Pkt),
    s.Admits 0x000 p ∧ u = s.takeCmd 0x000 p ∧ p.flags = 0) ∧
    (∃ (s : State), ∃ (u : State), ∃ (p : Pkt),
    s.Admits 0x001 p ∧ u = s.takeCmd 0x001 p ∧ p.is 0 = true) ∧
    (∃ (s : State), ∃ (u : State), ∃ (p : Pkt),
    s.Admits 0x002 p ∧ u = s.takeCmd 0x002 p ∧ p.is 0 = true) ∧
    (∃ (s : State), ∃ (u : State), ∃ (p : Pkt),
    s.Admits 0x003 p ∧ u = s.takeCmd 0x003 p ∧ p.is 1 = true ∧ (p.arg 0) ≤ 8 ∧ ((p.arg 0) == s.dev || stateMove s.dev (p.arg 0)) = true) ∧
    (∃ (s : State), ∃ (u : State), ∃ (p : Pkt),
    s.Admits 0x007 p ∧ u = s.takeCmd 0x007 p ∧ p.is 0 = true) ∧
    (∃ (s : State), ∃ t, ∃ w_,
    s.host.restart = some (w_, t)) ∧
    (∃ (s : State), ∃ (u : State), ∃ (p : Pkt),
    s.Admits 0x008 p ∧ u = s.takeCmd 0x008 p ∧ p.is 2 = true ∧ (p.arg 0) < 4 ∧ p.arg 1 < 64) :=
  ⟨⟨0xEFF, by decide +kernel, by decide +kernel⟩,
   ⟨0xFFF, by decide +kernel, by decide +kernel⟩,
   ⟨wS, _, (wP [] 0), admits_of (by decide +kernel), rfl, by decide +kernel⟩,
   ⟨wS, _, (wP [] 0), admits_of (by decide +kernel), rfl, by decide +kernel⟩,
   ⟨wS, _, (wP [] 0), admits_of (by decide +kernel), rfl, by decide +kernel⟩,
   ⟨wS, _, wP [4] 0, admits_of (by decide +kernel), rfl, by decide +kernel, by decide +kernel, by decide +kernel⟩,
   ⟨wS, _, (wP [] 0), admits_of (by decide +kernel), rfl, by decide +kernel⟩,
   ⟨{ wS with host := { restart := some (wRef, 0) } }, _, _, rfl⟩,
   ⟨wS, _, (wP [0, 0] 0), admits_of (by decide +kernel), rfl, by decide +kernel, by decide +kernel, by decide +kernel⟩⟩

/-- `Obligations.FronthaulEventsComplete`: for each of its clauses a state and operands that meet its hypotheses. -/
theorem witness_fronthaul_events_complete :
    (∃ (s : State), ∃ (n : Nat),
    n < 8 ∧ s.domOn 3 = true ∧ s.portPresent n = true ∧ s.rb (Reg.FH_PORT_CFG n) 31 = true) ∧
    (∃ (s : State), ∃ (n : Nat),
    (decide (n < 8) && s.rb Reg.FH_STATUS n) = true) ∧
    (∃ (s : State), ∃ (n : Nat),
    s.portUp n = true) ∧
    (∃ (s : State), ∃ (m : EcpriMsg),
    s.portUp m.port = true) ∧
    (∃ (s : State), ∃ (c : Nat), ∃ u0, ∃ w_,

    let us := s.fh.data.filter (fun u => u.car == c && !u.judged)
    us = u0 :: w_) ∧
    (∃ (s : State), ∃ x, ∃ w_,
    s.fh.ul = x :: w_) ∧
    (∃ (s : State), ∃ (ws : List Word), ∃ (rest : List (List Word)),
    s.fh.waiting = ws :: rest ∧ s.ringFunc (16 + s.rf Reg.FH_FAIL_CFG 3 0) = some 9 ∧ s.ringState (16 + s.rf Reg.FH_FAIL_CFG 3 0) = 1 ∧ (s.ringOf (16 + s.rf Reg.FH_FAIL_CFG 3 0)).items = []) :=
  ⟨⟨wS.pb (Reg.FH_PORT_CFG 0) 31 true, 0, by decide +kernel, by decide +kernel, by decide +kernel, by decide +kernel⟩,
   ⟨wS.pb Reg.FH_STATUS 7 true, 7, by decide +kernel⟩,
   ⟨wS.pb Reg.FH_STATUS 7 true, 7, by decide +kernel⟩,
   ⟨wS.pb Reg.FH_STATUS 7 true, { port := 7, size := 0, payload := [], seqId := 0, cplane := true, eaxc := 0, downlink := true, frameId := 0, subframeId := 0, slotId := 0, symbolId := 0, sections := [] }, by decide +kernel⟩,
   ⟨{ wS with fh := { data := [{ hdr := wHdr, entry := 0, car := 0, slot := 0, sym := 0, air := 0, data := [] }] } }, 0, _, _, rfl⟩,
   ⟨{ wS with fh := { ul := [⟨wSec, 0, 0, []⟩] } }, _, _, rfl⟩,
   ⟨({ wS with fh := { waiting := [[1]] } }.pf (Reg.RING_CFG 16) 31 24 0x89).setRingState 16 1, _, _, rfl, by decide +kernel, by decide +kernel, by decide +kernel⟩⟩

/-- `Obligations.FronthaulCommandsComplete`: for each of its clauses a state and operands that meet its hypotheses. -/
theorem witness_fronthaul_commands_complete :
    (∃ (s : State),
    s.Reaches Reg.FH_PORT_MODE) ∧
    (∃ (s : State),
    s.Reaches Reg.FH_EAXC_FMT) ∧
    (∃ (s : State),
    s.Reaches Reg.FH_FAIL_LOST) ∧
    (∃ (s : State),
    s.Reaches Reg.FH_BUF_STAT) ∧
    (∃ (s : State), ∃ (u : State), ∃ (p : Pkt),
    s.Admits 0x200 p ∧ u = s.takeCmd 0x200 p ∧ p.is 1 = true ∧ p.arg 0 < 3) ∧
    (∃ (s : State), ∃ (u : State), ∃ (p : Pkt),

    let n := fld (wordAt p.params 0) 2 0
    let first := fld (wordAt p.params 0) 11 8
    let count := fld (wordAt p.params 0) 19 16
    let ok := p.flags == 0 && decide (p.params.length = 2 + count ∧ count ≤ 12 ∧ first + count ≤ 16) && s.portPresent n
    s.Admits 0x201 p ∧ u = s.takeCmd 0x201 p ∧ ok = true) ∧
    (∃ (s : State), ∃ (u : State), ∃ (p : Pkt),

    let ok := p.is 3 && decide (p.arg 0 < 256 ∧ fld (wordAt p.params 2) 31 30 ≠ 3 ∧ ¬(fld (wordAt p.params 2) 31 30 = 1 ∧ 7 < fld (wordAt p.params 2) 29 25))
    s.Admits 0x202 p ∧ u = s.takeCmd 0x202 p ∧ ok = true) ∧
    (∃ (s : State), ∃ (u : State), ∃ (p : Pkt),

    let ok := p.is 5 && decide ((p.arg 0) < 4) && (p.params.drop 1).all (fun w => decide (w.toNat ≤ 0xFFFFF))
    s.Admits 0x203 p ∧ u = s.takeCmd 0x203 p ∧ ok = true) ∧
    (∃ (s : State), ∃ (u : State), ∃ (p : Pkt),
    s.Admits 0x204 p ∧ u = s.takeCmd 0x204 p ∧ p.flags < 2 ∧ p.params.length = 2 ∧ (p.arg 0) < 16) ∧
    (∃ (s : State), ∃ (u : State), ∃ (p : Pkt),
    s.Admits 0x205 p ∧ u = s.takeCmd 0x205 p ∧ p.is 0 = true) ∧
    (∃ (s : State), ∃ (u : State), ∃ (p : Pkt),
    s.Admits 0x206 p ∧ u = s.takeCmd 0x206 p ∧ p.is 2 = true ∧ p.arg 0 < 2 ∧ 16 ≤ p.arg 1 ∧ p.arg 1 < 32) ∧
    (∃ (s : State), ∃ (u : State), ∃ (p : Pkt),
    s.Admits 0x207 p ∧ u = s.takeCmd 0x207 p ∧ p.is 3 = true ∧ p.arg 0 < 2 ∧ p.arg 1 < 2 ^ 16) :=
  ⟨⟨wS, reaches_of (by decide +kernel)⟩,
   ⟨wS, reaches_of (by decide +kernel)⟩,
   ⟨wS, reaches_of (by decide +kernel)⟩,
   ⟨wS, reaches_of (by decide +kernel)⟩,
   ⟨wS, _, (wP [0] 0), admits_of (by decide +kernel), rfl, by decide +kernel, by decide +kernel⟩,
   ⟨wS, _, wP [0xC0400, 0, 0, 0, 0, 0, 0, 0, 0, 0, 0, 0, 0, 0] 0, admits_of (by decide +kernel), rfl, by decide +kernel⟩,
   ⟨wS, _, (wP [0, 0, 0] 0), admits_of (by decide +kernel), rfl, by decide +kernel⟩,
   ⟨wS, _, (wP [0, 0, 0, 0, 0] 0), admits_of (by decide +kernel), rfl, by decide +kernel⟩,
   ⟨wS, _, wP [15, 0] 1, admits_of (by decide +kernel), rfl, by decide +kernel, by decide +kernel, by decide +kernel⟩,
   ⟨wS, _, (wP [] 0), admits_of (by decide +kernel), rfl, by decide +kernel⟩,
   ⟨wS, _, (wP [0, 16] 0), admits_of (by decide +kernel), rfl, by decide +kernel, by decide +kernel, by decide +kernel, by decide +kernel⟩,
   ⟨wS, _, (wP [0, 0, 0] 0), admits_of (by decide +kernel), rfl, by decide +kernel, by decide +kernel, by decide +kernel⟩⟩

/-- `Obligations.ObservationComplete`: for each of its clauses a state and operands that meet its hypotheses. -/
theorem witness_observation_complete :
    (∃ (s : State), ∃ (r : Nat), ∃ (h : HostCap),
    r < s.part.rows ∧ s.tileRuns (r / 6) = true ∧ s.quiet (r / 6) = false ∧ s.rowAvail r = true ∧ (s.orxOf r).cap = none ∧ bit (s.rd (Reg.ORX_CFG r)) 31 = true ∧ (s.orxOf r).host = some h ∧ s.hostReady h = true ∧ s.calClash r s.tick (s.tick + 320 + 2 ^ h.log2 / 2) = false) ∧
    (∃ (s : State), ∃ (r : Nat), ∃ c,
    (s.orxOf r).cap = some c ∧ c.kind = 0) ∧
    (∃ (s : State), ∃ (p : Nat),

    let x := s.prOf p
    x.ready = true ∧ s.prState p = 2 ∧ s.pathAvail p = true) ∧
    (∃ (s : State), ∃ (u : State), ∃ (p : Nat), ∃ (t : Nat),
    (s.prOf p).holdEnd = some t ∧ s.prState p = 3 ∧ u = s.advanceTo t) ∧
    (∃ (s : State), ∃ (r : Nat), ∃ c0,
    (s.orxOf r).cap = some c0 ∧ c0.kind = 1) ∧
    (∃ (s : State), ∃ (p : Nat),

    let x := s.canOf p
    x.ready = true ∧ (s.canState p = 1 ∨ s.canState p = 2) ∧ s.pathAvail p = true) ∧
    (∃ (s : State), ∃ (p : Nat), ∃ t,
    (s.canOf p).holdEnd = some t ∧ s.canState p = 3) :=
  ⟨⟨(wS.wr (Reg.ORX_CFG 23) 0x80000000).setOrx 23 { host := some ⟨wRef, 0, 10, 16, none⟩ }, 23, _, by decide +kernel, by decide +kernel, by decide +kernel, by decide +kernel, by decide +kernel, by decide +kernel, (Option.some_get (by decide +kernel)).symm, by decide +kernel, by decide +kernel⟩,
   ⟨wS.setOrx 23 { cap := some { kind := 0, path := 95, start := 0, len := 0, obs := 0 } }, 23, _, (Option.some_get (by decide +kernel)).symm, by decide +kernel⟩,
   ⟨(wS.setPr 95 { ready := true }).setPrState 95 2, 95, by decide +kernel, by decide +kernel, by decide +kernel⟩,
   ⟨(wS.setPr 95 { holdEnd := some 10 }).setPrState 95 3, _, 95, _, (Option.some_get (by decide +kernel)).symm, by decide +kernel, rfl⟩,
   ⟨wS.setOrx 23 { cap := some { kind := 1, path := 95, start := 0, len := 0, obs := 0 } }, 23, _, (Option.some_get (by decide +kernel)).symm, by decide +kernel⟩,
   ⟨(wS.setCan 95 { ready := true }).setCanState 95 2, 95, by decide +kernel, by decide +kernel, by decide +kernel⟩,
   ⟨(wS.setCan 95 { holdEnd := some 10 }).setCanState 95 3, 95, _, (Option.some_get (by decide +kernel)).symm, by decide +kernel⟩⟩

/-- `Obligations.PressCommandsComplete`: for each of its clauses a state and operands that meet its hypotheses. -/
theorem witness_press_commands_complete :
    (∃ (s : State), ∃ (u : State), ∃ (p : Pkt),
    s.Admits 0x600 p ∧ u = s.takeCmd 0x600 p ∧ p.is 2 = true ∧ p.arg 0 < s.part.paths ∧ [p.arg 0].all u.pathOn = true) ∧
    (∃ (s : State), ∃ (u : State), ∃ (p : Pkt),

    let path := fld (wordAt p.params 0) 22 16
    let first := fld (wordAt p.params 0) 5 0
    s.Admits 0x601 p ∧ u = s.takeCmd 0x601 p ∧ p.flags = 0 ∧ 1 ≤ (p.arg 1) ∧ (p.arg 1) ≤ 6 ∧ p.params.length = 2 + 2 * (p.arg 1) ∧ first + (p.arg 1) ≤ 64 ∧ path < s.part.paths ∧ [path].all u.pathOn = true) ∧
    (∃ (s : State), ∃ (u : State), ∃ (p : Pkt),
    s.Admits 0x602 p ∧ u = s.takeCmd 0x602 p ∧ p.is 4 = true ∧ s.maskOk p = true ∧ p.arg 3 < 4 ∧ (maskPaths p).all u.pathOn = true) ∧
    (∃ (s : State), ∃ (u : State), ∃ (p : Pkt),
    s.Admits 0x603 p ∧ u = s.takeCmd 0x603 p ∧ p.is 3 = true ∧ s.pathArgOk (p.arg 0) = true ∧ (u.pathArgs (p.arg 0)).all u.pathOn = true) ∧
    (∃ (s : State), ∃ (u : State), ∃ (p : Pkt),
    s.Admits 0x604 p ∧ u = s.takeCmd 0x604 p ∧ p.is 1 = true ∧ p.arg 0 < s.part.paths) ∧
    (∃ (s : State), ∃ (u : State), ∃ (p : Pkt),
    s.Admits 0x605 p ∧ s.Room p ∧ u = s.takeCmd 0x605 p ∧ p.is 3 = true ∧ s.maskOk p = true) ∧
    (∃ (s : State), ∃ (u : State), ∃ (p : Pkt),
    s.Admits 0x606 p ∧ u = s.takeCmd 0x606 p ∧ p.is 3 = true ∧ s.maskOk p = true ∧ (maskPaths p).all u.pathOn = true) ∧
    (∃ (s : State), ∃ (u : State), ∃ (p : Pkt),
    s.Admits 0x607 p ∧ u = s.takeCmd 0x607 p ∧ p.is 3 = true ∧ p.arg 0 < s.part.paths ∧ [p.arg 0].all u.pathOn = true) ∧
    (∃ (s : State), ∃ (u : State), ∃ (p : Pkt),
    s.Admits 0x608 p ∧ u = s.takeCmd 0x608 p ∧ p.is 4 = true ∧ s.maskOk p = true ∧ p.arg 3 < 4 ∧ (maskPaths p).all u.pathOn = true) ∧
    (∃ (s : State), ∃ (u : State), ∃ (p : Pkt),
    s.Admits 0x609 p ∧ u = s.takeCmd 0x609 p ∧ p.is 1 = true ∧ p.arg 0 < s.part.paths) ∧
    (∃ (s : State), ∃ (u : State), ∃ (p : Pkt),
    s.Admits 0x60A p ∧ u = s.takeCmd 0x60A p ∧ p.is 3 = true ∧ p.arg 0 < 4 ∧ bandFits (wordAt p.params 1) (s.srd (Reg.CAR_CFG (p.arg 0))) = true) ∧
    (∃ (s : State), ∃ (u : State), ∃ (p : Pkt),
    s.Admits 0x60C p ∧ u = s.takeCmd 0x60C p ∧ p.is 2 = true ∧ s.rowArgOk (p.arg 0) = true ∧ (u.rowArgs (p.arg 0)).all u.rowOn = true) ∧
    (∃ (s : State), ∃ (u : State), ∃ (p : Pkt),

    let now := p.arg 2 == 0 && p.arg 3 == 0 && p.arg 4 == 0
    s.Admits 0x60D p ∧ s.Room p ∧ u = s.takeCmd 0x60D p ∧ p.is 7 = true ∧ (p.arg 0) < s.part.rows ∧ p.arg 1 < 4 ∧ 10 ≤ p.arg 5 ∧ p.arg 5 ≤ 14 ∧ 16 ≤ p.arg 6 ∧ p.arg 6 < 32 ∧ (now || s.ptpOk p.params 2) = true ∧ s.ringFunc (p.arg 6) = some 9) :=
  ⟨⟨wS, _, (wP [0, 0] 0), admits_of (by decide +kernel), rfl, by decide +kernel, by decide +kernel, by decide +kernel⟩,
   ⟨wS, _, wP (toW (95 * 65536 + 58) :: 6 :: List.replicate 12 0) 0, admits_of (by decide +kernel), rfl, by decide +kernel, by decide +kernel, by decide +kernel, by decide +kernel, by decide +kernel, by decide +kernel, by decide +kernel⟩,
   ⟨wS, _, (wP [0, 0, 0, 0] 0), admits_of (by decide +kernel), rfl, by decide +kernel, by decide +kernel, by decide +kernel, by decide +kernel⟩,
   ⟨wS, _, (wP [0, 0, 0] 0), admits_of (by decide +kernel), rfl, by decide +kernel, by decide +kernel, by decide +kernel⟩,
   ⟨wS, _, (wP [0] 0), admits_of (by decide +kernel), rfl, by decide +kernel, by decide +kernel⟩,
   ⟨wS, _, (wP [0, 0, 0] 0), admits_of (by decide +kernel), room_of (by decide +kernel), rfl, by decide +kernel, by decide +kernel⟩,
   ⟨wS, _, (wP [0, 0, 0] 0), admits_of (by decide +kernel), rfl, by decide +kernel, by decide +kernel, by decide +kernel⟩,
   ⟨wS, _, (wP [0, 0, 0] 0), admits_of (by decide +kernel), rfl, by decide +kernel, by decide +kernel, by decide +kernel⟩,
   ⟨wS, _, (wP [0, 0, 0, 0] 0), admits_of (by decide +kernel), rfl, by decide +kernel, by decide +kernel, by decide +kernel, by decide +kernel⟩,
   ⟨wS, _, (wP [0] 0), admits_of (by decide +kernel), rfl, by decide +kernel, by decide +kernel⟩,
   ⟨wS, _, (wP [0, 0, 0] 0), admits_of (by decide +kernel), rfl, by decide +kernel, by decide +kernel, by decide +kernel⟩,
   ⟨wS, _, (wP [0, 0] 0), admits_of (by decide +kernel), rfl, by decide +kernel, by decide +kernel, by decide +kernel⟩,
   ⟨wS.pf (Reg.RING_CFG 31) 31 24 0x89, _, wP [23, 3, 0, 0, 0, 14, 31] 0, admits_of (by decide +kernel), room_of (by decide +kernel), rfl, by decide +kernel, by decide +kernel, by decide +kernel, by decide +kernel, by decide +kernel, by decide +kernel, by decide +kernel, by decide +kernel, by decide +kernel⟩⟩

/-- `Obligations.ConvertersComplete`: for each of its clauses a state and operands that meet its hypotheses. -/
theorem witness_converters_complete :
    (∃ (s : State), ∃ (a : Nat), ∃ ref, ∃ w_,

    let x := s.adcOf a
    x.foreground = some (w_, ref) ∧ s.adcPresent a = true) ∧
    (∃ (s : State), ∃ (a : Nat),

    let x := s.adcOf a
    let slice := match x.retest with | some (k, _) => k | none => s.adcSpare a
    s.adcPresent a = true ∧ slice ≠ 7 ∧ (s.adcState a = 1 ∨ s.adcState a = 5)) ∧
    (∃ (s : State), ∃ (a : Nat), ∃ tc,

    let x := s.adcOf a
    x.converged = some tc ∧
    let cfg := s.rd (adcCfg a)
    let s1 := s.advanceTo (x.shadow + s.calTicks a)
    let quiet := !bit cfg 30 || x.handNow || s1.adcQuiet a
    let forced := !quiet && decide (tc + max 1 (fld cfg 23 16) * 1600000 ≤ s1.tick)
    let ovl := decide (a < 96) && (s1.rb (Reg.RX_STATUS a) 7 || (s1.txOf a).setTick == s1.tick || (s1.rxOf a).setTick == s1.tick)
    s.adcPresent a = true ∧ s.adcState a = 1 ∧ ovl = false ∧ (quiet || forced) = true ∧ s.adcAvail a = true ∧ s.adcSpare a ≠ 7) ∧
    (∃ (s : State), ∃ (a : Nat),

    let x := s.adcOf a
    let sp := s.adcSpare a
    let held := decide (a < 96) && s.rb (Reg.RX_STATUS a) 7 && decide (x.ovlTick ≤ x.timeoutFrom)
    s.adcPresent a = true ∧ s.adcState a = 1 ∧ sp ≠ 7 ∧ x.converged.isSome = false ∧ held = false) ∧
    (∃ (s : State), ∃ (a : Nat), ∃ (slice : Nat),
    s.adcPresent a = true ∧ slice < 5 ∧ bitN (s.adcFailed a) slice = false ∧ s.adcState a ≠ 0) ∧
    (∃ (s : State), ∃ (a : Nat), ∃ k, ∃ ref,

    let x := s.adcOf a
    x.retest = some (k, ref)) ∧
    (∃ (s : State), ∃ (u : State), ∃ (p : Pkt),

    let a := adcTarget (p.arg 0)
    s.Admits 0x526 p ∧ s.Room p ∧ u = s.takeCmd 0x526 p ∧ p.is (if (p.arg 1) = 4 then 3 else 2) = true ∧ s.adcTargetOk (p.arg 0) = true ∧ (p.arg 1) ≤ 4 ∧ ((p.arg 1) != 4 || (decide (p.arg 2 < 5) && bitN (s.adcFailed a) (p.arg 2))) = true) :=
  ⟨⟨wS, 0, _, _, rfl, by decide +kernel⟩,
   ⟨(wS.pf (adcStat 95) 31 29 1), 95, by decide +kernel, by decide +kernel, by decide +kernel⟩,
   ⟨(wS.pf (adcStat 95) 31 29 1).setAdc 95 { converged := some 0 }, 95, _, (Option.some_get (by decide +kernel)).symm, by decide +kernel, by decide +kernel, by decide +kernel, by decide +kernel, by decide +kernel, by decide +kernel⟩,
   ⟨(wS.pf (adcStat 95) 31 29 1), 95, by decide +kernel, by decide +kernel, by decide +kernel, by decide +kernel, by decide +kernel⟩,
   ⟨(wS.pf (adcStat 95) 31 29 1), 95, 4, by decide +kernel, by decide +kernel, by decide +kernel, by decide +kernel⟩,
   ⟨(wS.pf (adcStat 95) 31 29 1).setAdc 95 { retest := some (4, wRef) }, 95, _, _, rfl⟩,
   ⟨wS, _, wP [0x117, 3] 0, admits_of (by decide +kernel), room_of (by decide +kernel), rfl, by decide +kernel, by decide +kernel, by decide +kernel, by decide +kernel⟩⟩

/-- `Obligations.ReceiveEventsComplete`: for each of its clauses a state and operands that meet its hypotheses. -/
theorem witness_receive_events_complete :
    (∃ (s : State), ∃ (p : Nat),
    p < s.part.paths ∧ s.pathOn p = true) ∧
    (∃ (s : State), ∃ (p : Nat),
    p < s.part.paths ∧ s.pathOn p = true) ∧
    (∃ (s : State), ∃ (r : Nat), ∃ (w : Nat × FeEntry),
    (s.rowOf r).active = none ∧ s.rowHolds r = false ∧ (s.rowOf r).agcWait = [w]) ∧
    (∃ (s : State), ∃ (p : Nat), ∃ t, ∃ att, ∃ rest,

    let g := s.agcOf p
    g.comp = (t, att) :: rest) ∧
    (∃ (s : State), ∃ (p : Nat),
    s.Reaches (Reg.RX_FAST p)) :=
  ⟨⟨wS, 0, by decide +kernel, by decide +kernel⟩,
   ⟨wS, 0, by decide +kernel, by decide +kernel⟩,
   ⟨wS.setRow 23 { agcWait := [(0, ⟨0, 0, false, false, none, none, 0, none⟩)] }, 23, (0, ⟨0, 0, false, false, none, none, 0, none⟩), by decide +kernel, by decide +kernel, by decide +kernel⟩,
   ⟨wS.setAgc 95 { comp := [(5, 6)] }, 95, _, _, _, rfl⟩,
   ⟨wS, 0, reaches_of (by decide +kernel)⟩⟩

/-- `Obligations.ReceiveCommandsComplete`: for each of its clauses a state and operands that meet its hypotheses. -/
theorem witness_receive_commands_complete :
    (∃ (s : State), ∃ (u : State), ∃ (p : Pkt),
    s.Admits 0x520 p ∧ u = s.takeCmd 0x520 p ∧ p.is 4 = true ∧ p.arg 0 < s.part.paths ∧ [p.arg 0].all u.pathOn = true) ∧
    (∃ (s : State), ∃ (u : State), ∃ (p : Pkt),
    s.Admits 0x521 p ∧ u = s.takeCmd 0x521 p ∧ p.is 4 = true ∧ s.pathArgOk (p.arg 0) = true ∧ p.arg 1 + p.arg 2 * 2 ^ 32 ≤ 0xE00000000000 ∧ (u.pathArgs (p.arg 0)).all u.pathOn = true) ∧
    (∃ (s : State), ∃ (u : State), ∃ (p : Pkt),
    s.Admits 0x522 p ∧ u = s.takeCmd 0x522 p ∧ p.is 5 = true ∧ s.maskOk p = true ∧ p.arg 3 < 2 ∧ p.arg 4 < 2 ∧ (maskPaths p).all u.pathOn = true) ∧
    (∃ (s : State), ∃ (u : State), ∃ (p : Pkt),
    s.Admits 0x523 p ∧ u = s.takeCmd 0x523 p ∧ p.is 4 = true ∧ s.pathArgOk (p.arg 0) = true ∧ (u.pathArgs (p.arg 0)).all u.pathOn = true) ∧
    (∃ (s : State), ∃ (u : State), ∃ (p : Pkt),

    let path := fld (wordAt p.params 0) 22 16
    let first := fld (wordAt p.params 0) 4 0
    s.Admits 0x524 p ∧ u = s.takeCmd 0x524 p ∧ p.flags = 0 ∧ 1 ≤ (p.arg 1) ∧ (p.arg 1) ≤ 12 ∧ p.params.length = 2 + (p.arg 1) ∧ first + (p.arg 1) ≤ 32 ∧ path < s.part.paths ∧ [path].all u.pathOn = true) ∧
    (∃ (s : State), ∃ (u : State), ∃ (p : Pkt),
    s.Admits 0x525 p ∧ u = s.takeCmd 0x525 p ∧ p.is 4 = true ∧ p.arg 0 < s.part.paths ∧ p.arg 2 < 8 ∧ p.arg 3 < 2 ∧ [p.arg 0].all u.pathOn = true) ∧
    (∃ (s : State), ∃ (u : State), ∃ (p : Pkt),
    s.Admits 0x527 p ∧ u = s.takeCmd 0x527 p ∧ p.is 1 = true ∧ p.arg 0 < s.part.paths) :=
  ⟨⟨wS, _, (wP [0, 0, 0, 0] 0), admits_of (by decide +kernel), rfl, by decide +kernel, by decide +kernel, by decide +kernel⟩,
   ⟨wS, _, (wP [0, 0, 0, 0] 0), admits_of (by decide +kernel), rfl, by decide +kernel, by decide +kernel, by decide +kernel, by decide +kernel⟩,
   ⟨wS, _, (wP [0, 0, 0, 0, 0] 0), admits_of (by decide +kernel), rfl, by decide +kernel, by decide +kernel, by decide +kernel, by decide +kernel, by decide +kernel⟩,
   ⟨wS, _, (wP [0, 0, 0, 0] 0), admits_of (by decide +kernel), rfl, by decide +kernel, by decide +kernel, by decide +kernel⟩,
   ⟨wS, _, wP (toW (95 * 65536 + 20) :: 12 :: List.replicate 12 0) 0, admits_of (by decide +kernel), rfl, by decide +kernel, by decide +kernel, by decide +kernel, by decide +kernel, by decide +kernel, by decide +kernel, by decide +kernel⟩,
   ⟨wS, _, (wP [0, 0, 0, 0] 0), admits_of (by decide +kernel), rfl, by decide +kernel, by decide +kernel, by decide +kernel, by decide +kernel, by decide +kernel⟩,
   ⟨wS, _, (wP [0] 0), admits_of (by decide +kernel), rfl, by decide +kernel, by decide +kernel⟩⟩

/-- `Obligations.TransmitEventsComplete`: for each of its clauses a state and operands that meet its hypotheses. -/
theorem witness_transmit_events_complete :
    (∃ (s : State), ∃ (tile : Nat), ∃ (line : Nat), ∃ (target : Nat), ∃ m,
    s.tb.msgs.find? (fun m => m.tile == tile && m.line == line && m.target == target) = some m) ∧
    (∃ (s : State), ∃ (r : Nat), ∃ t, ∃ late, ∃ rest,
    (s.rowOf r).strobes = (t, late) :: rest ∧ s.rowOn r = true ∧ s.commitFirst t = false) ∧
    (∃ (s : State), ∃ (p : Nat),
    (s.txOf p).mRange = true ∧ s.pathOn p = true) ∧
    (∃ (s : State), ∃ (p : Nat),
    s.Reaches (Reg.TX_CTRL p)) ∧
    (∃ (s : State), ∃ (c : Nat), ∃ (at_ : Nat),

    let edge := decide (c < 4) && s.rows.any (fun r => s.txDemandC r c at_ != s.txDemandC r c (at_ - 1) || s.rxDemandC r c at_ != s.rxDemandC r c (at_ - 1))
    let wait := s.paths.any (fun p => (s.txOf p).rxHold == at_)
    ¬ (at_ < s.tick ∧ at_ ≤ Sparse.get (fun _ => 0) s.tb.tddLast c) ∧ (edge || wait) = true) ∧
    (∃ (s : State), ∃ (p : Nat), ∃ (t : Nat),
    s.tick ≤ t ∧ s.rb (Reg.TX_STATUS p) 4 = true ∧ (s.txOf p).blankEnd = none ∧ s.txDemand (p / 4) (t + 3200) = true ∧ s.txDemand (p / 4) (t + 3199) = false) ∧
    (∃ (s : State), ∃ (r : Nat),
    s.Reaches (Reg.FE_QW1 r)) ∧
    (∃ (s : State), ∃ (r : Nat), ∃ t, ∃ rest,
    (s.rowOf r).releases = t :: rest) ∧
    (∃ (s : State), ∃ (r : Nat), ∃ (t : Nat), ∃ (e : FeEntry), ∃ (rest : List FeEntry),
    s.rowHolds r = false ∧ (s.rowOf r).queue = e :: rest ∧ (s.rowOf r).active = none ∧ (s.rowOf r).agcWait = [] ∧ s.entryTrigger r e = some t) ∧
    (∃ (s : State), ∃ (r : Nat), ∃ e,

    let x := s.rowOf r
    x.active = some e) ∧
    (∃ (s : State), ∃ (r : Nat),
    s.Reaches (Reg.FE_RDATA r)) :=
  ⟨⟨{ wS with tb := { msgs := [⟨0, 0, 0, false⟩] } }, 0, 0, 0, _, (Option.some_get (by decide +kernel)).symm⟩,
   ⟨wS.setRow 23 { strobes := [(5, false)] }, 23, _, _, _, rfl, by decide +kernel, by decide +kernel⟩,
   ⟨wS.setTx 95 { mRange := true }, 95, by decide +kernel, by decide +kernel⟩,
   ⟨wS, 0, reaches_of (by decide +kernel)⟩,
   ⟨wS, 0, 0, by decide +kernel, by decide +kernel⟩,
   ⟨((wS.wr (Reg.CAR_CFG 0) 0xC0080000).wr (Reg.TDD_CFG 0) 0x80000000).wr (Reg.TDD_DL 0 0) 0x20 |>.pb (Reg.TX_STATUS 95) 4 true, 95, 567666, by decide +kernel, by decide +kernel, by decide +kernel, by decide +kernel, by decide +kernel⟩,
   ⟨wS, 0, reaches_of (by decide +kernel)⟩,
   ⟨wS.setRow 23 { releases := [5] }, 23, _, _, rfl⟩,
   ⟨wS.setRow 23 { queue := [⟨0, 0, false, false, some 5, none, 0, none⟩] }, 23, _, _, _, by decide +kernel, rfl, by decide +kernel, by decide +kernel, (Option.some_get (by decide +kernel)).symm⟩,
   ⟨wS.setRow 23 { active := some ⟨0, 0, false, false, none, none, 0, none⟩ }, 23, _, (Option.some_get (by decide +kernel)).symm⟩,
   ⟨wS, 0, reaches_of (by decide +kernel)⟩⟩

/-- `Obligations.TransmitCommandsComplete`: for each of its clauses a state and operands that meet its hypotheses. -/
theorem witness_transmit_commands_complete :
    (∃ (s : State), ∃ (u : State), ∃ (p : Pkt),
    s.Admits 0x500 p ∧ u = s.takeCmd 0x500 p ∧ p.is 4 = true ∧ p.arg 0 < s.part.paths ∧ [p.arg 0].all u.pathOn = true) ∧
    (∃ (s : State), ∃ (u : State), ∃ (p : Pkt),
    s.Admits 0x501 p ∧ u = s.takeCmd 0x501 p ∧ p.is 4 = true ∧ s.pathArgOk (p.arg 0) = true ∧ p.arg 2 < 2 ^ 15 ∧ (u.pathArgs (p.arg 0)).all u.pathOn = true) ∧
    (∃ (s : State), ∃ (u : State), ∃ (p : Pkt),
    s.Admits 0x502 p ∧ u = s.takeCmd 0x502 p ∧ p.is 3 = true ∧ p.arg 0 < s.part.paths ∧ p.arg 1 < 4 ∧ p.arg 2 < 2 ∧ [p.arg 0].all u.pathOn = true) ∧
    (∃ (s : State), ∃ (u : State), ∃ (p : Pkt),
    s.Admits 0x503 p ∧ u = s.takeCmd 0x503 p ∧ p.is 5 = true ∧ s.maskOk p = true ∧ p.arg 3 < 2 ∧ p.arg 4 < 2 ∧ (maskPaths p).all u.pathOn = true) ∧
    (∃ (s : State), ∃ (u : State), ∃ (p : Pkt),
    s.Admits 0x504 p ∧ u = s.takeCmd 0x504 p ∧ p.is 2 = true ∧ p.arg 0 < s.part.paths ∧ p.arg 1 < 2 ∧ [p.arg 0].all u.pathOn = true) ∧
    (∃ (s : State), ∃ (u : State), ∃ (p : Pkt),
    s.Admits 0x505 p ∧ u = s.takeCmd 0x505 p ∧ p.is 3 = true ∧ p.arg 0 < s.part.rows) ∧
    (∃ (s : State), ∃ (u : State), ∃ (p : Pkt),
    s.Admits 0x506 p ∧ s.Room p ∧ u = s.takeCmd 0x506 p ∧ p.is 2 = true ∧ p.arg 0 < s.part.rows) ∧
    (∃ (s : State), ∃ (u : State), ∃ (p : Pkt),

    let n := (p.params.length - 4) / 2
    s.Admits 0x507 p ∧ u = s.takeCmd 0x507 p ∧ p.flags = 0 ∧ 4 ≤ p.params.length ∧ p.params.length = 4 + 2 * n ∧ n ≤ 5 ∧ p.arg 0 < 4 ∧ p.arg 1 < 2 ∧ p.arg 2 < 80 ∧ p.arg 3 + n ≤ 80) ∧
    (∃ (s : State), ∃ (u : State), ∃ (p : Pkt),
    s.Admits 0x508 p ∧ u = s.takeCmd 0x508 p ∧ p.is 5 = true ∧ s.rowArgOk (p.arg 0) = true ∧ p.arg 3 < 2 ∧ p.arg 4 < 2 ^ 16 ∧ (u.rowArgs (p.arg 0)).all u.rowOn = true) ∧
    (∃ (s : State), ∃ (u : State), ∃ (p : Pkt),
    s.Admits 0x509 p ∧ u = s.takeCmd 0x509 p ∧ p.is 1 = true ∧ p.arg 0 < s.part.paths) :=
  ⟨⟨wS, _, (wP [0, 0, 0, 0] 0), admits_of (by decide +kernel), rfl, by decide +kernel, by decide +kernel, by decide +kernel⟩,
   ⟨wS, _, (wP [0, 0, 0, 0] 0), admits_of (by decide +kernel), rfl, by decide +kernel, by decide +kernel, by decide +kernel, by decide +kernel⟩,
   ⟨wS, _, (wP [0, 0, 0] 0), admits_of (by decide +kernel), rfl, by decide +kernel, by decide +kernel, by decide +kernel, by decide +kernel, by decide +kernel⟩,
   ⟨wS, _, (wP [0, 0, 0, 0, 0] 0), admits_of (by decide +kernel), rfl, by decide +kernel, by decide +kernel, by decide +kernel, by decide +kernel, by decide +kernel⟩,
   ⟨wS, _, (wP [0, 0] 0), admits_of (by decide +kernel), rfl, by decide +kernel, by decide +kernel, by decide +kernel, by decide +kernel⟩,
   ⟨wS, _, (wP [0, 0, 0] 0), admits_of (by decide +kernel), rfl, by decide +kernel, by decide +kernel⟩,
   ⟨wS, _, (wP [0, 0] 0), admits_of (by decide +kernel), room_of (by decide +kernel), rfl, by decide +kernel, by decide +kernel⟩,
   ⟨wS, _, wP ([3, 1, 79, 75] ++ List.replicate 10 0) 0, admits_of (by decide +kernel), rfl, by decide +kernel, by decide +kernel, by decide +kernel, by decide +kernel, by decide +kernel, by decide +kernel, by decide +kernel, by decide +kernel⟩,
   ⟨wS, _, (wP [0, 0, 0, 0, 0] 0), admits_of (by decide +kernel), rfl, by decide +kernel, by decide +kernel, by decide +kernel, by decide +kernel, by decide +kernel⟩,
   ⟨wS, _, (wP [0] 0), admits_of (by decide +kernel), rfl, by decide +kernel, by decide +kernel⟩⟩

/-- `Obligations.MultipliesIssue`: for each of its clauses a state and operands that meet its hypotheses. -/
theorem witness_multiplies_issue :
    (∃ (s : State), ∃ (c : Nat), ∃ (f : FmtMR), ∃ (r : MRes),
    s.MIssues c (f.word 0) ∧ f.fits = true ∧ r = ({})) ∧
    (∃ (s : State), ∃ (c : Nat), ∃ (f : FmtMA), ∃ (x : CoreSt), ∃ (r : MRes),
    s.MIssues c (f.word 1) ∧ f.fits = true ∧ x = s.coreOf c ∧ r = (
      let a := (x.reg f.x).asC
      let b := (x.reg f.y).asC
      let ((i, ri), (q, rq)) := cmul a b f.cj
      { w := { accs := [(f.acc, macC (x.accOf f.acc) f.clr f.ng (a.bad || b.bad) i ri q rq)] } })) ∧
    (∃ (s : State), ∃ (c : Nat), ∃ (f : FmtMA), ∃ (x : CoreSt), ∃ (r : MRes),
    s.MIssues c (f.word 2) ∧ f.fits = true ∧ x = s.coreOf c ∧ r = (
      let a := (x.reg f.x).asC
      let b := (x.reg f.y).asC
      let z := (x.reg f.z).asC
      let r1 := macC (x.accOf f.acc) f.clr f.ng (a.bad || b.bad) (a.i * b.i) (rMul a.ri b.ri) (a.q * b.q) (rMul a.rq b.rq)
      let same := f.acc2 == f.acc
      let r2 := macC (if same then r1 else x.accOf f.acc2) (f.clr && !same) f.ng (a.bad || z.bad) (a.i * z.i) (rMul a.ri z.ri)
        (a.q * z.q) (rMul a.rq z.rq)
      { w := { accs := [(f.acc, r1), (f.acc2, r2)] } })) ∧
    (∃ (s : State), ∃ (c : Nat), ∃ (f : FmtMA), ∃ (x : CoreSt), ∃ (r : MRes),
    s.MIssues c (f.word 3) ∧ f.fits = true ∧ x = s.coreOf c ∧ r = (
      let a := (x.reg f.x).asR
      let b := (x.reg f.y).asR
      let old := x.accOf f.acc
      let (v, r) := accAdd f.clr f.ng old.i old.ri (a.x * b.x) (rMul a.r b.r)
      let bad := a.bad || b.bad || (!f.clr && old.poisoned)
      let q := if f.clr then 0 else old.q
      let rq := if f.clr then 0 else old.rq
      { w := { accs := [(f.acc, { i := v, q := q, ri := if bad then 15 else r, rq := if bad then 15 else rq })] } })) ∧
    (∃ (s : State), ∃ (c : Nat), ∃ (f : FmtMP), ∃ (x : CoreSt), ∃ (r : MRes),
    s.MIssues c (f.word 4) ∧ f.fits = true ∧ x = s.coreOf c ∧ r = (
      let a := (x.reg f.x).asC
      let b := (x.reg f.y).asC
      let ((i, ri), (q, rq)) := cmul a b f.cj
      x.quantC f.dst (x.shift f.k) f.rnd (a.bad || b.bad) i ri q rq) ∧ r.fail = false) ∧
    (∃ (s : State), ∃ (c : Nat), ∃ (f : FmtMQ), ∃ (x : CoreSt), ∃ (r : MRes),
    s.MIssues c (f.word 5) ∧ f.fits = true ∧ x = s.coreOf c ∧ r = (
      let a := x.accOf f.acc
      let k := x.shift f.k
      let r :=
        if f.real then
          let bad := a.ri == 15
          let (v, xr, pass) := requant a.i a.ri k f.rnd
          let (w, y, n) := satR v xr 48
          { x.toD f.dst (mkR bad w y) n with checked := !bad, fail := !bad && !pass }
        else x.quantC f.dst k f.rnd a.poisoned a.i a.ri a.q a.rq
      { r with w := { r.w with accs := if f.clr then [(f.acc, {})] else [] } }) ∧ r.fail = false) :=
  ⟨⟨(wC { item := some wI }), 0, ⟨0, 0, 0, false, 0, 0⟩, _, mIssues_of (by decide +kernel), by decide +kernel, rfl⟩,
   ⟨(wC { item := some wI }), 0, ⟨0, 1, 0, 0, 0, false, false, false⟩, _, _, mIssues_of (by decide +kernel), by decide +kernel, rfl, rfl⟩,
   ⟨(wC { item := some wI }), 0, ⟨0, 1, 0, 0, 0, false, false, false⟩, _, _, mIssues_of (by decide +kernel), by decide +kernel, rfl, rfl⟩,
   ⟨(wC { item := some wI }), 0, ⟨0, 1, 0, 0, 0, false, false, false⟩, _, _, mIssues_of (by decide +kernel), by decide +kernel, rfl, rfl⟩,
   ⟨(wC { item := some wI }), 0, ⟨0, 0, 0, false, 0, false⟩, _, _, mIssues_of (by decide +kernel), by decide +kernel, rfl, rfl, by decide +kernel⟩,
   ⟨(wC { item := some wI }), 0, ⟨0, 0, false, 0, false, false⟩, _, _, mIssues_of (by decide +kernel), by decide +kernel, rfl, rfl, by decide +kernel⟩⟩

/-- `Obligations.ConversionsIssue`: for each of its clauses a state and operands that meet its hypotheses. -/
theorem witness_conversions_issue :
    (∃ (s : State), ∃ (c : Nat), ∃ (f : FmtMR), ∃ (x : CoreSt), ∃ (r : MRes),
    s.MIssues c (f.word 6) ∧ f.fits = true ∧ x = s.coreOf c ∧ r = (
      let a := (x.reg f.a).asR
      let (v, r, n) := satR a.x a.r 24
      x.toD f.dst (mkC a.bad v 0 r 0) n)) ∧
    (∃ (s : State), ∃ (c : Nat), ∃ (f : FmtMR), ∃ (x : CoreSt), ∃ (r : MRes),
    s.MIssues c (f.word 7) ∧ f.fits = true ∧ x = s.coreOf c ∧ r = (
      let a := (x.reg f.a).asC
      x.toD f.dst (mkR a.bad a.i a.ri) 0)) ∧
    (∃ (s : State), ∃ (c : Nat), ∃ (f : FmtMR), ∃ (x : CoreSt), ∃ (r : MRes),
    s.MIssues c (f.word 8) ∧ f.fits = true ∧ x = s.coreOf c ∧ r = (x.addSub f false)) ∧
    (∃ (s : State), ∃ (c : Nat), ∃ (f : FmtMR), ∃ (x : CoreSt), ∃ (r : MRes),
    s.MIssues c (f.word 9) ∧ f.fits = true ∧ x = s.coreOf c ∧ r = (x.addSub f true)) ∧
    (∃ (s : State), ∃ (c : Nat), ∃ (f : FmtMR), ∃ (x : CoreSt), ∃ (r : MRes),
    s.MIssues c (f.word 0x0A) ∧ f.fits = true ∧ x = s.coreOf c ∧ r = (
      if f.real then
        let a := (x.reg f.a).asR
        let (v, r, n) := satR (-a.x) (rNeg a.r) 48
        x.toD f.dst (mkR a.bad v r) n
      else
        let a := (x.reg f.a).asC
        let (vi, ri, ni) := satR (-a.i) (rNeg a.ri) 24
        let (vq, rq, nq) := satR (-a.q) (rNeg a.rq) 24
        x.toD f.dst (mkC a.bad vi vq ri rq) (ni + nq))) ∧
    (∃ (s : State), ∃ (c : Nat), ∃ (f : FmtMR), ∃ (x : CoreSt), ∃ (r : MRes),
    s.MIssues c (f.word 0x0B) ∧ f.fits = true ∧ x = s.coreOf c ∧ r = (
      let a := (x.reg f.a).asC
      let (vq, rq, nq) := satR (-a.q) (rNeg a.rq) 24
      x.toD f.dst (mkC a.bad a.i vq a.ri rq) nq)) ∧
    (∃ (s : State), ∃ (c : Nat), ∃ (f : FmtMR), ∃ (x : CoreSt), ∃ (r : MRes),
    s.MIssues c (f.word 0x0C) ∧ f.fits = true ∧ x = s.coreOf c ∧ r = (
      let a := (x.reg f.a).asC
      x.toD f.dst (mkC a.bad a.q a.i a.rq a.ri) 0)) ∧
    (∃ (s : State), ∃ (c : Nat), ∃ (f : FmtMR), ∃ (x : CoreSt), ∃ (r : MRes),
    s.MIssues c (f.word 0x0D) ∧ f.fits = true ∧ x = s.coreOf c ∧ r = (x.toD f.dst (x.reg f.a) 0)) ∧
    (∃ (s : State), ∃ (c : Nat), ∃ (f : FmtMR), ∃ (x : CoreSt), ∃ (r : MRes),
    s.MIssues c (f.word 0x0E) ∧ f.fits = true ∧ x = s.coreOf c ∧ r = (x.bitwise f (· &&& ·))) ∧
    (∃ (s : State), ∃ (c : Nat), ∃ (f : FmtMR), ∃ (x : CoreSt), ∃ (r : MRes),
    s.MIssues c (f.word 0x0F) ∧ f.fits = true ∧ x = s.coreOf c ∧ r = (x.bitwise f (· ||| ·))) ∧
    (∃ (s : State), ∃ (c : Nat), ∃ (f : FmtMR), ∃ (x : CoreSt), ∃ (r : MRes),
    s.MIssues c (f.word 0x10) ∧ f.fits = true ∧ x = s.coreOf c ∧ r = (x.bitwise f (· ^^^ ·))) ∧
    (∃ (s : State), ∃ (c : Nat), ∃ (f : FmtMR), ∃ (x : CoreSt), ∃ (r : MRes),
    s.MIssues c (f.word 0x11) ∧ f.fits = true ∧ x = s.coreOf c ∧ r = (x.shl f.dst (x.reg f.a) f.real false f.imm6)) ∧
    (∃ (s : State), ∃ (c : Nat), ∃ (f : FmtMR), ∃ (x : CoreSt), ∃ (r : MRes),
    s.MIssues c (f.word 0x12) ∧ f.fits = true ∧ x = s.coreOf c ∧ r = (
      if f.real then
        let a := (x.reg f.a).asR
        let (v, r, pass) := requant a.x a.r f.imm6 true
        { x.toD f.dst (mkR a.bad v r) 0 with checked := !a.bad, fail := !a.bad && !pass }
      else
        let a := (x.reg f.a).asC
        x.quantC f.dst f.imm6 true a.bad a.i a.ri a.q a.rq) ∧ r.fail = false) :=
  ⟨⟨(wC { item := some wI }), 0, ⟨0, 0, 0, false, 0, 0⟩, _, _, mIssues_of (by decide +kernel), by decide +kernel, rfl, rfl⟩,
   ⟨(wC { item := some wI }), 0, ⟨0, 0, 0, false, 0, 0⟩, _, _, mIssues_of (by decide +kernel), by decide +kernel, rfl, rfl⟩,
   ⟨(wC { item := some wI }), 0, ⟨0, 0, 0, false, 0, 0⟩, _, _, mIssues_of (by decide +kernel), by decide +kernel, rfl, rfl⟩,
   ⟨(wC { item := some wI }), 0, ⟨0, 0, 0, false, 0, 0⟩, _, _, mIssues_of (by decide +kernel), by decide +kernel, rfl, rfl⟩,
   ⟨(wC { item := some wI }), 0, ⟨0, 0, 0, false, 0, 0⟩, _, _, mIssues_of (by decide +kernel), by decide +kernel, rfl, rfl⟩,
   ⟨(wC { item := some wI }), 0, ⟨0, 0, 0, false, 0, 0⟩, _, _, mIssues_of (by decide +kernel), by decide +kernel, rfl, rfl⟩,
   ⟨(wC { item := some wI }), 0, ⟨0, 0, 0, false, 0, 0⟩, _, _, mIssues_of (by decide +kernel), by decide +kernel, rfl, rfl⟩,
   ⟨(wC { item := some wI }), 0, ⟨0, 0, 0, false, 0, 0⟩, _, _, mIssues_of (by decide +kernel), by decide +kernel, rfl, rfl⟩,
   ⟨(wC { item := some wI }), 0, ⟨0, 0, 0, false, 0, 0⟩, _, _, mIssues_of (by decide +kernel), by decide +kernel, rfl, rfl⟩,
   ⟨(wC { item := some wI }), 0, ⟨0, 0, 0, false, 0, 0⟩, _, _, mIssues_of (by decide +kernel), by decide +kernel, rfl, rfl⟩,
   ⟨(wC { item := some wI }), 0, ⟨0, 0, 0, false, 0, 0⟩, _, _, mIssues_of (by decide +kernel), by decide +kernel, rfl, rfl⟩,
   ⟨(wC { item := some wI }), 0, ⟨0, 0, 0, false, 0, 0⟩, _, _, mIssues_of (by decide +kernel), by decide +kernel, rfl, rfl⟩,
   ⟨(wC { item := some wI }), 0, ⟨0, 0, 0, false, 0, 0⟩, _, _, mIssues_of (by decide +kernel), by decide +kernel, rfl, rfl, by decide +kernel⟩⟩

/-- `Obligations.ComparisonsIssue`: for each of its clauses a state and operands that meet its hypotheses. -/
theorem witness_comparisons_issue :
    (∃ (s : State), ∃ (c : Nat), ∃ (f : FmtMR), ∃ (x : CoreSt), ∃ (r : MRes),
    s.MIssues c (f.word 0x13) ∧ f.fits = true ∧ x = s.coreOf c ∧ r = (
      let (n, bad) := (x.reg f.a).expIn f.real
      x.toD f.dst (mkCtl bad n) 0)) ∧
    (∃ (s : State), ∃ (c : Nat), ∃ (f : FmtMR), ∃ (x : CoreSt), ∃ (r : MRes),
    s.MIssues c (f.word 0x14) ∧ f.fits = true ∧ x = s.coreOf c ∧ r = (
      let (n, bad) := (x.reg f.a).expIn f.real
      let d := (x.reg f.dst).asR
      x.toD f.dst (mkCtl (bad || d.bad) (min d.x n)) 0)) ∧
    (∃ (s : State), ∃ (c : Nat), ∃ (f : FmtMR), ∃ (x : CoreSt), ∃ (r : MRes),
    s.MIssues c (f.word 0x15) ∧ f.fits = true ∧ x = s.coreOf c ∧ r = (
      let b := (x.reg f.b).asR
      let n := clampN b.x.toNat 0 (if f.real then 47 else 23)
      x.shl f.dst (x.reg f.a) f.real b.bad n)) ∧
    (∃ (s : State), ∃ (c : Nat), ∃ (f : FmtMR), ∃ (x : CoreSt), ∃ (r : MRes),
    s.MIssues c (f.word 0x16) ∧ f.fits = true ∧ x = s.coreOf c ∧ r = (
      let a := (x.reg f.a).asR
      x.toD f.dst (mkCtl a.bad (rcpOf a.x).1) (b2n (rcpOf a.x).2))) ∧
    (∃ (s : State), ∃ (c : Nat), ∃ (f : FmtMR), ∃ (x : CoreSt), ∃ (r : MRes),
    s.MIssues c (f.word 0x17) ∧ f.fits = true ∧ x = s.coreOf c ∧ r = (
      let a := (x.reg f.a).asR
      x.toD f.dst (mkCtl a.bad (rsqOf a.x).1) (b2n (rsqOf a.x).2))) ∧
    (∃ (s : State), ∃ (c : Nat), ∃ (f : FmtMR), ∃ (x : CoreSt), ∃ (r : MRes),
    s.MIssues c (f.word 0x18) ∧ f.fits = true ∧ x = s.coreOf c ∧ r = (
      let a := (x.reg f.a).asR
      let b := (x.reg f.b).asR
      x.toD f.dst (if b.x < a.x then mkR (a.bad || b.bad) b.x b.r else mkR (a.bad || b.bad) a.x a.r) 0)) ∧
    (∃ (s : State), ∃ (c : Nat), ∃ (f : FmtMR), ∃ (x : CoreSt), ∃ (r : MRes),
    s.MIssues c (f.word 0x19) ∧ f.fits = true ∧ x = s.coreOf c ∧ r = (
      let a := (x.reg f.a).asR
      let b := (x.reg f.b).asR
      x.toD f.dst (if a.x < b.x then mkR (a.bad || b.bad) b.x b.r else mkR (a.bad || b.bad) a.x a.r) 0)) ∧
    (∃ (s : State), ∃ (c : Nat), ∃ (f : FmtMR), ∃ (x : CoreSt), ∃ (r : MRes),
    s.MIssues c (f.word 0x1A) ∧ f.fits = true ∧ x = s.coreOf c ∧ r = (
      { w := { flag := some (f.flag, condOf f.imm6 (x.reg f.a).asR.x (x.reg f.b).asR.x) } })) ∧
    (∃ (s : State), ∃ (c : Nat), ∃ (f : FmtMR), ∃ (x : CoreSt),
    s.MIssues c (f.word 0x1B) ∧ f.fits = true ∧ x = s.coreOf c ∧ f.real = true) ∧
    (∃ (s : State), ∃ (c : Nat), ∃ (f : FmtMR), ∃ (x : CoreSt),
    s.MIssues c (f.word 0x1B) ∧ f.fits = true ∧ x = s.coreOf c ∧ f.real = false ∧ f.imm6 = 0) ∧
    (∃ (s : State), ∃ (c : Nat), ∃ (f : FmtMR), ∃ (x : CoreSt),
    s.MIssues c (f.word 0x1B) ∧ f.fits = true ∧ x = s.coreOf c ∧ f.real = false ∧ f.imm6 = 1) ∧
    (∃ (s : State), ∃ (c : Nat), ∃ (f : FmtMR), ∃ (x : CoreSt), ∃ (r : MRes),
    s.MIssues c (f.word 0x1C) ∧ f.fits = true ∧ x = s.coreOf c ∧ r = ({ w := { flag := some (f.flag, (x.reg f.a).poisoned) } })) ∧
    (∃ (s : State), ∃ (c : Nat), ∃ (f : FmtMR), ∃ (x : CoreSt), ∃ (r : MRes),
    s.MIssues c (f.word 0x1D) ∧ f.fits = true ∧ x = s.coreOf c ∧ r = ({ w := { sr := some (clampN (x.reg f.a).asR.x.toNat 0 62) } })) ∧
    (∃ (s : State), ∃ (c : Nat), ∃ (f : FmtMI), ∃ (x : CoreSt), ∃ (r : MRes),
    s.MIssues c (f.word 0x1E) ∧ f.fits = true ∧ x = s.coreOf c ∧ r = (x.toD f.dst (mkCtl false (sext f.imm20 20)) 0)) ∧
    (∃ (s : State), ∃ (c : Nat), ∃ (f : FmtMI), ∃ (x : CoreSt), ∃ (r : MRes),
    s.MIssues c (f.word 0x1F) ∧ f.fits = true ∧ x = s.coreOf c ∧ r = (
      let d := (x.reg f.dst).asR
      if d.bad then x.toD f.dst (mkCtl true d.x) 0
      else if d.x < -(2 ^ 27) ∨ 2 ^ 27 ≤ d.x then { err := some 7 }
      else x.toD f.dst (mkCtl false (d.x * 2 ^ 20 + f.imm20)) 0) ∧ r.err = none) :=
  ⟨⟨(wC { item := some wI }), 0, ⟨0, 0, 0, false, 0, 0⟩, _, _, mIssues_of (by decide +kernel), by decide +kernel, rfl, rfl⟩,
   ⟨(wC { item := some wI }), 0, ⟨0, 0, 0, false, 0, 0⟩, _, _, mIssues_of (by decide +kernel), by decide +kernel, rfl, rfl⟩,
   ⟨(wC { item := some wI }), 0, ⟨0, 0, 0, false, 0, 0⟩, _, _, mIssues_of (by decide +kernel), by decide +kernel, rfl, rfl⟩,
   ⟨(wC { item := some wI }), 0, ⟨0, 0, 0, false, 0, 0⟩, _, _, mIssues_of (by decide +kernel), by decide +kernel, rfl, rfl⟩,
   ⟨(wC { item := some wI }), 0, ⟨0, 0, 0, false, 0, 0⟩, _, _, mIssues_of (by decide +kernel), by decide +kernel, rfl, rfl⟩,
   ⟨(wC { item := some wI }), 0, ⟨0, 0, 0, false, 0, 0⟩, _, _, mIssues_of (by decide +kernel), by decide +kernel, rfl, rfl⟩,
   ⟨(wC { item := some wI }), 0, ⟨0, 0, 0, false, 0, 0⟩, _, _, mIssues_of (by decide +kernel), by decide +kernel, rfl, rfl⟩,
   ⟨(wC { item := some wI }), 0, ⟨0, 0, 0, false, 0, 0⟩, _, _, mIssues_of (by decide +kernel), by decide +kernel, rfl, rfl⟩,
   ⟨(wC { item := some wI }), 0, ⟨0, 0, 0, true, 0, 0⟩, _, mIssues_of (by decide +kernel), by decide +kernel, rfl, by decide +kernel⟩,
   ⟨(wC { item := some wI }), 0, ⟨0, 0, 0, false, 0, 0⟩, _, mIssues_of (by decide +kernel), by decide +kernel, rfl, by decide +kernel, by decide +kernel⟩,
   ⟨(wC { item := some wI }), 0, ⟨0, 0, 0, false, 1, 0⟩, _, mIssues_of (by decide +kernel), by decide +kernel, rfl, by decide +kernel, by decide +kernel⟩,
   ⟨(wC { item := some wI }), 0, ⟨0, 0, 0, false, 0, 0⟩, _, _, mIssues_of (by decide +kernel), by decide +kernel, rfl, rfl⟩,
   ⟨(wC { item := some wI }), 0, ⟨0, 0, 0, false, 0, 0⟩, _, _, mIssues_of (by decide +kernel), by decide +kernel, rfl, rfl⟩,
   ⟨(wC { item := some wI }), 0, ⟨0, 0⟩, _, _, mIssues_of (by decide +kernel), by decide +kernel, rfl, rfl⟩,
   ⟨(wC { item := some wI }), 0, ⟨0, 0⟩, _, _, mIssues_of (by decide +kernel), by decide +kernel, rfl, rfl, by decide +kernel⟩⟩

/-- `Obligations.LoadsAndAddressesIssue`: for each of its clauses a state and operands that meet its hypotheses. -/
theorem witness_loads_and_addresses_issue :
    (∃ (s : State), ∃ (c : Nat), ∃ (f : FmtXL), ∃ (x : CoreSt), ∃ (r : XRes), ∃ (mw : MWrites),
    s.XIssues c (f.word 0) mw ∧ f.fits = true ∧ x = s.coreOf c ∧ r = ({ core := x })) ∧
    (∃ (s : State), ∃ (c : Nat), ∃ (f : FmtXL), ∃ (x : CoreSt), ∃ (r : XRes), ∃ (mw : MWrites),
    s.XIssues c (f.word 0x20) mw ∧ f.fits = true ∧ x = s.coreOf c ∧ r = (
      { core := x.postMod f.a (sext f.step 10), ds := [(x.phys f.d, x.load (x.a.getD f.a 0))] })) ∧
    (∃ (s : State), ∃ (c : Nat), ∃ (f : FmtXL), ∃ (x : CoreSt), ∃ (r : XRes), ∃ (mw : MWrites),
    s.XIssues c (f.word 0x21) mw ∧ f.fits = true ∧ x = s.coreOf c ∧ r = (
      { core := (x.store (x.a.getD f.a 0) (x.reg f.d)).postMod f.a (sext f.step 10) })) ∧
    (∃ (s : State), ∃ (c : Nat), ∃ (f : FmtXD), ∃ (x : CoreSt), ∃ (r : XRes), ∃ (mw : MWrites),
    s.XIssues c (f.word 0x22) mw ∧ f.fits = true ∧ x = s.coreOf c ∧ r = (
      { core := (x.postMod f.a1 (sext f.step1 5)).postMod f.a2 (sext f.step2 5)
        ds := [(x.phys f.d1, x.load (x.a.getD f.a1 0)), (x.phys f.d2, x.load (x.a.getD f.a2 0))] })) ∧
    (∃ (s : State), ∃ (c : Nat), ∃ (f : FmtXD), ∃ (x : CoreSt), ∃ (r : XRes), ∃ (mw : MWrites),
    s.XIssues c (f.word 0x23) mw ∧ f.fits = true ∧ x = s.coreOf c ∧ r = (
      { core := ((x.store (x.a.getD f.a2 0) (x.reg f.d2)).postMod f.a1 (sext f.step1 5)).postMod f.a2 (sext f.step2 5)
        ds := [(x.phys f.d1, x.load (x.a.getD f.a1 0))] })) ∧
    (∃ (s : State), ∃ (c : Nat), ∃ (f : FmtXA), ∃ (x : CoreSt), ∃ (r : XRes), ∃ (mw : MWrites),
    s.XIssues c (f.word 0x28) mw ∧ f.fits = true ∧ x = s.coreOf c ∧ r = ({ core := { x with a := setAt x.a f.idx (x.xaValue f) } })) ∧
    (∃ (s : State), ∃ (c : Nat), ∃ (f : FmtXA), ∃ (x : CoreSt), ∃ (r : XRes), ∃ (mw : MWrites),
    s.XIssues c (f.word 0x29) mw ∧ f.fits = true ∧ x = s.coreOf c ∧ r = ({ core := x.postMod f.idx (sext f.imm17 17) })) ∧
    (∃ (s : State), ∃ (c : Nat), ∃ (f : FmtXA), ∃ (x : CoreSt), ∃ (r : XRes), ∃ (mw : MWrites),
    s.XIssues c (f.word 0x2A) mw ∧ f.fits = true ∧ x = s.coreOf c ∧ r = ({ core := x, ds := [(x.phys f.d, mkCtl false (x.a.getD f.idx 0))] })) ∧
    (∃ (s : State), ∃ (c : Nat), ∃ (f : FmtXA), ∃ (x : CoreSt), ∃ (r : XRes), ∃ (mw : MWrites),
    s.XIssues c (f.word 0x2C) mw ∧ f.fits = true ∧ x = s.coreOf c ∧ r = ({ core := { x with cbBase := setAt x.cbBase f.idx (x.xaValue f) } })) ∧
    (∃ (s : State), ∃ (c : Nat), ∃ (f : FmtXA), ∃ (x : CoreSt), ∃ (r : XRes), ∃ (mw : MWrites),
    s.XIssues c (f.word 0x2D) mw ∧ f.fits = true ∧ x = s.coreOf c ∧ r = (
      let len := x.xaValue f
      let base := x.cbBase.getD f.idx 0
      let fold := fun (v b : Nat) => if b = f.idx + 1 ∧ len ≠ 0 then (base + (v + 2 ^ 15 - base) % 2 ^ 15 % len) % 2 ^ 15 else v
      { core := { x with cbLen := setAt x.cbLen f.idx len, a := List.zipWith fold x.a x.binds } })) ∧
    (∃ (s : State), ∃ (c : Nat), ∃ (f : FmtXA), ∃ (x : CoreSt), ∃ (r : XRes), ∃ (mw : MWrites),
    s.XIssues c (f.word 0x2E) mw ∧ f.fits = true ∧ x = s.coreOf c ∧ r = ({ core := { x with binds := setAt x.binds f.idx f.imm17 } })) ∧
    (∃ (s : State), ∃ (c : Nat), ∃ (f : FmtXE), ∃ (x : CoreSt), ∃ (r : XRes), ∃ (mw : MWrites),
    s.XIssues c (f.word 0x3B) mw ∧ f.fits = true ∧ x = s.coreOf c ∧ r = ({ core := { x with rrb := f.imm4 } })) :=
  ⟨⟨(wC { item := some wI, mw := some {} }), 0, ⟨0, 0, 0⟩, _, _, {}, xIssues_of (by decide +kernel), by decide +kernel, rfl, rfl⟩,
   ⟨(wC { item := some wI, mw := some {} }), 0, ⟨0, 0, 0⟩, _, _, {}, xIssues_of (by decide +kernel), by decide +kernel, rfl, rfl⟩,
   ⟨(wC { item := some wI, mw := some {} }), 0, ⟨0, 0, 0⟩, _, _, {}, xIssues_of (by decide +kernel), by decide +kernel, rfl, rfl⟩,
   ⟨(wC { item := some wI, mw := some {} }), 0, ⟨0, 0, 0, 0, 0, 0⟩, _, _, {}, xIssues_of (by decide +kernel), by decide +kernel, rfl, rfl⟩,
   ⟨(wC { item := some wI, mw := some {} }), 0, ⟨0, 0, 0, 0, 0, 0⟩, _, _, {}, xIssues_of (by decide +kernel), by decide +kernel, rfl, rfl⟩,
   ⟨(wC { item := some wI, mw := some {} }), 0, ⟨0, false, 0, 0⟩, _, _, {}, xIssues_of (by decide +kernel), by decide +kernel, rfl, rfl⟩,
   ⟨(wC { item := some wI, mw := some {} }), 0, ⟨0, false, 0, 0⟩, _, _, {}, xIssues_of (by decide +kernel), by decide +kernel, rfl, rfl⟩,
   ⟨(wC { item := some wI, mw := some {} }), 0, ⟨0, false, 0, 0⟩, _, _, {}, xIssues_of (by decide +kernel), by decide +kernel, rfl, rfl⟩,
   ⟨(wC { item := some wI, mw := some {} }), 0, ⟨0, false, 0, 0⟩, _, _, {}, xIssues_of (by decide +kernel), by decide +kernel, rfl, rfl⟩,
   ⟨(wC { item := some wI, mw := some {} }), 0, ⟨0, false, 0, 0⟩, _, _, {}, xIssues_of (by decide +kernel), by decide +kernel, rfl, rfl⟩,
   ⟨(wC { item := some wI, mw := some {} }), 0, ⟨0, false, 0, 0⟩, _, _, {}, xIssues_of (by decide +kernel), by decide +kernel, rfl, rfl⟩,
   ⟨(wC { item := some wI, mw := some {} }), 0, ⟨0, 0, 0⟩, _, _, {}, xIssues_of (by decide +kernel), by decide +kernel, rfl, rfl⟩⟩

/-- `Obligations.StreamsAndBranchesIssue`: for each of its clauses a state and operands that meet its hypotheses. -/
theorem witness_streams_and_branches_issue :
    (∃ (s : State), ∃ (c : Nat), ∃ (f : FmtXS), ∃ (x : CoreSt), ∃ (r : XRes), ∃ (mw : MWrites),
    s.XIssues c (f.word 0x30) mw ∧ f.fits = true ∧ x = s.coreOf c ∧ r = (
      let src := (x.reg f.d).v % 2 ^ 22
      let isOver := streamRange f.store ≤ src ∨ (f.store = 1 ∧ streamRange 1 < src + f.count)
      if isOver then { core := x, next := .err 5 }
      else if x.portFull then { core := x, next := .stall }
      else
        let b := x.binds.getD f.a 0
        let g : SGetD := {
          store := f.store, src := src, count := f.count, tag := f.tag, addr := x.a.getD f.a 0
          base := x.cbBase.getD (b - 1) 0, len := if b = 0 then 0 else x.cbLen.getD (b - 1) 0 }
        { core := { x with gets := x.gets ++ [g] } })) ∧
    (∃ (s : State), ∃ (c : Nat), ∃ (n : Nat), ∃ g,

    let x := s.coreOf c
    x.gets[n]? = some g) ∧
    (∃ (s : State), ∃ (u : State), ∃ (c : Nat), ∃ (slot : Nat), ∃ (b : Nat), ∃ (mask : Nat), ∃ (f : FmtXS), ∃ (mw : MWrites), ∃ (x : CoreSt), ∃ (g : SGetD), ∃ (ws : List (Nat × Nat)), ∃ (k : List (Nat × Nat) × Nat),
    s.XIssues c (f.word 0x31) mw ∧ f.fits = true ∧ s.sv.inject = none ∧ c < 32 ∧ x = s.coreOf c ∧ x.portFull = false ∧ slot = (x.reg f.d).v % 2 ^ 22 ∧ slot < 28672 ∧ b = x.binds.getD f.a 0 ∧ g = { store := 0, src := 0, count := (x.item.map WorkItem.els).getD 96, tag := f.tag, addr := x.a.getD f.a 0, base := x.cbBase.getD (b - 1) 0, len := if b = 0 then 0 else x.cbLen.getD (b - 1) 0 } ∧ ws = (List.range g.count).map (fun k => (x.load (g.at k)).sent) ∧ (∀ w ∈ ws, w.2 = 255 ∨ w.2 = tag48 w.1) ∧ mask = (s.jobOf ((x.item.map WorkItem.job).getD 0)).mask ∧ (∀ i, x.item = some i → s.kernelFault i = none) ∧ k = ((x.item.map (fun i => s.kernelWords i slot ws)).getD (ws, 0)) ∧ u = s.bumpBy Cnt.solKernel k.2 ∧ u.XIssues c (f.word 0x31) mw) ∧
    (∃ (s : State), ∃ (c : Nat), ∃ (f : FmtXS), ∃ (mw : MWrites),
    s.XIssues c (f.word 0x31) mw ∧ f.fits = true ∧ s.sv.inject = none ∧ (s.coreOf c).portFull = true ∧ ((s.coreOf c).reg f.d).v % 2 ^ 22 < 28672) ∧
    (∃ (s : State),
    s.rb Reg.TR_STATUS 1 = false) ∧
    (∃ (s : State), ∃ (c : Nat), ∃ (f : FmtXS), ∃ (x : CoreSt), ∃ (r : XRes), ∃ (mw : MWrites),
    s.XIssues c (f.word 0x32) mw ∧ f.fits = true ∧ x = s.coreOf c ∧ r = (
      if x.gets.any (fun g => f.all || g.tag == f.tag) then { core := x, next := .stall } else { core := x })) ∧
    (∃ (s : State), ∃ (c : Nat), ∃ (f : FmtXC), ∃ (x : CoreSt), ∃ (r : XRes), ∃ (mw : MWrites),
    s.XIssues c (f.word 0x38) mw ∧ f.fits = true ∧ x = s.coreOf c ∧ r = (
      let r := x.reg (f.count % 32)
      let n := if f.src then (if sext r.v 48 < 0 then 0 else r.v % 2 ^ 16) else f.count
      { core := x, next := if 2 ≤ x.loops.length then .err 4 else .loop n f.last f.rot })) ∧
    (∃ (s : State), ∃ (c : Nat), ∃ (f : FmtXB), ∃ (x : CoreSt), ∃ (r : XRes), ∃ (mw : MWrites),
    s.XIssues c (f.word 0x39) mw ∧ f.fits = true ∧ x = s.coreOf c ∧ r = (
      { core := x, next := if x.flags.getD f.flag false = f.sense then .jump f.target else .seq })) ∧
    (∃ (s : State), ∃ (c : Nat), ∃ (f : FmtXB), ∃ (x : CoreSt), ∃ (r : XRes), ∃ (mw : MWrites),
    s.XIssues c (f.word 0x3A) mw ∧ f.fits = true ∧ x = s.coreOf c ∧ r = ({ core := x, next := .jump f.target })) ∧
    (∃ (s : State), ∃ (c : Nat), ∃ (f : FmtXE), ∃ (x : CoreSt), ∃ (r : XRes), ∃ (mw : MWrites),
    s.XIssues c (f.word 0x3F) mw ∧ f.fits = true ∧ x = s.coreOf c ∧ r = (
      if !x.puts.isEmpty && !s.rb Reg.TR_STATUS 1 then { core := x, next := .stall }
      else { core := x, next := .fin ((x.reg f.d1).v % 2 ^ 32) ((x.reg f.d2).v % 2 ^ 8) })) :=
  ⟨⟨(wC { item := some wI, mw := some {} }), 0, ⟨0, 0, 1, 1, 0, false⟩, _, _, {}, xIssues_of (by decide +kernel), by decide +kernel, rfl, rfl⟩,
   ⟨wC { gets := [⟨0, 0, 1, 0, 0, 0, 0⟩] }, 0, 0, _, (Option.some_get (by decide +kernel)).symm⟩,
   ⟨{ wS.wr (Reg.SOL_JOB_W0 0) 0x80000 with sol := { cores := [(0, { item := some wI, mw := some {} })] } }, _, 0, _, _, _, ⟨0, 0, 1, 1, 0, false⟩, {}, _, _, _, _, xIssues_of (by decide +kernel), by decide +kernel, by decide +kernel, by decide +kernel, rfl, by decide +kernel, rfl, by decide +kernel, rfl, rfl, rfl, by decide +kernel, rfl, fun i h => (Option.some.inj h : wI = i) ▸ (by decide +kernel), rfl, rfl, xIssues_of (by decide +kernel)⟩,
   ⟨wC { item := some wI, mw := some {}, puts := List.replicate 8 ⟨0, 0, 0, []⟩ }, 0, ⟨0, 0, 1, 1, 0, false⟩, {}, xIssues_of (by decide +kernel), by decide +kernel, by decide +kernel, by decide +kernel, by decide +kernel⟩,
   ⟨wS, by decide +kernel⟩,
   ⟨(wC { item := some wI, mw := some {} }), 0, ⟨0, 0, 1, 1, 0, false⟩, _, _, {}, xIssues_of (by decide +kernel), by decide +kernel, rfl, rfl⟩,
   ⟨(wC { item := some wI, mw := some {} }), 0, ⟨false, false, 0, 0⟩, _, _, {}, xIssues_of (by decide +kernel), by decide +kernel, rfl, rfl⟩,
   ⟨(wC { item := some wI, mw := some {} }), 0, ⟨0, false, 0⟩, _, _, {}, xIssues_of (by decide +kernel), by decide +kernel, rfl, rfl⟩,
   ⟨(wC { item := some wI, mw := some {} }), 0, ⟨0, false, 0⟩, _, _, {}, xIssues_of (by decide +kernel), by decide +kernel, rfl, rfl⟩,
   ⟨(wC { item := some wI, mw := some {} }), 0, ⟨0, 0, 0⟩, _, _, {}, xIssues_of (by decide +kernel), by decide +kernel, rfl, rfl⟩⟩

/-- `Obligations.StripesAndRecordsComplete`: for each of its clauses a state and operands that meet its hypotheses. -/
theorem witness_stripes_and_records_complete :
    (∃ (s : State), ∃ (l : Nat),
    (decide (l < 4) && s.linkUp l) = true) ∧
    (∃ (s : State), ∃ (k : Nat),

    let l := 4 + k
    (decide (k < 2) && s.linkUp l) = true) ∧
    (∃ (s : State), ∃ (k : Nat), ∃ r, ∃ s1,
    s.takeRec (4 + k) 1 = some (r, s1)) ∧
    (∃ (s : State), ∃ (k : Nat), ∃ r, ∃ s1,
    s.takeRec (4 + k) 2 = some (r, s1)) ∧
    (∃ (s : State), ∃ (k : Nat), ∃ r, ∃ s1,
    s.takeRec (4 + k) 3 = some (r, s1)) ∧
    (∃ (s : State), ∃ (k : Nat), ∃ r, ∃ s1,
    s.takeRec (4 + k) 4 = some (r, s1)) ∧
    (∃ (s : State), ∃ (r : Nat),
    (decide (r < s.part.rows) && s.linkUp (r / 6)) = true) :=
  ⟨⟨wL 3, 3, by decide +kernel⟩,
   ⟨wL 5, 1, by decide +kernel⟩,
   ⟨(({ wS with links := [(5, { recs := [{ kind := 1, hdr := 0 }] })] } : State).setLinkState 5 2), 1, _, _, rfl⟩,
   ⟨(({ wS with links := [(5, { recs := [{ kind := 2, hdr := 0 }] })] } : State).setLinkState 5 2), 1, _, _, rfl⟩,
   ⟨(({ wS with links := [(5, { recs := [{ kind := 3, hdr := 0 }] })] } : State).setLinkState 5 2), 1, _, _, rfl⟩,
   ⟨(({ wS with links := [(5, { recs := [{ kind := 4, hdr := 0 }] })] } : State).setLinkState 5 2), 1, _, _, rfl⟩,
   ⟨wL 3, 23, by decide +kernel⟩⟩

/-- `Obligations.LinkMessagesComplete`: for each of its clauses a state and operands that meet its hypotheses. -/
theorem witness_link_messages_complete :
    (∃ (s : State), ∃ (l : Nat), ∃ (n : Nat),
    s.linkUp l = true ∧ (s.lnk l).unacked.any (fun m => m.seq == n) = true) ∧
    (∃ (s : State), ∃ (l : Nat), ∃ m, ∃ w_,

    let x := s.lnk l
    x.unacked = m :: w_ ∧ s.linkUp l = true) ∧
    (∃ (s : State), ∃ (l : Nat),
    s.linkUp l = true) ∧
    (∃ (s : State),
    s.isLead = false ∧ s.domOn 4 = true) ∧
    (∃ (s : State),
    s.isLead = false ∧ s.rb Reg.CX_TSTAT 31 = true) ∧
    (∃ (s : State), ∃ (l : Nat),
    (decide (l < 6) && s.part.hasLink l) = true) ∧
    (∃ (s : State), ∃ (u : State), ∃ (k : Nat), ∃ (op : Nat),
    k < 2 ∧ s.linkUp (4 + k) = true ∧ s.domOn 4 = true ∧ u = s.popMsg (4 + k) 0xB ∧ u.rf (Reg.CX_PORT (4 + k)) 1 0 = 1 ∧ u.isLead = false ∧ (op = 0x400 ∨ op = 0x401 ∨ op = 0x402 ∨ op = 0x406 ∨ op = 0x700 ∨ op = 0x800 ∨ op = 0x902)) ∧
    (∃ (s : State), ∃ (u : State), ∃ (k : Nat), ∃ (pkg : Nat),
    k < 2 ∧ s.linkUp (4 + k) = true ∧ s.domOn 4 = true ∧ u = s.popMsg (4 + k) 0xB ∧ u.rf (Reg.CX_PORT (4 + k)) 1 0 ≠ 1 ∧ 0 < pkg ∧ pkg < 4) :=
  ⟨⟨(wL 5).setLnk 5 { unacked := [{ seq := 7, typ := 0, sent := 0 }] }, 5, 7, by decide +kernel, by decide +kernel⟩,
   ⟨(wL 5).setLnk 5 { unacked := [{ seq := 7, typ := 0, sent := 0 }] }, 5, _, _, rfl, by decide +kernel⟩,
   ⟨wL 5, 5, by decide +kernel⟩,
   ⟨wM, by decide +kernel, by decide +kernel⟩,
   ⟨wM.pb Reg.CX_TSTAT 31 true, by decide +kernel, by decide +kernel⟩,
   ⟨wS, 0, by decide +kernel⟩,
   ⟨(wM.setLinkState 5 2).pf (Reg.CX_PORT 5) 1 0 1, _, 1, 0x902, by decide +kernel, by decide +kernel, by decide +kernel, rfl, by decide +kernel, by decide +kernel, by decide +kernel⟩,
   ⟨(wL 5).pf (Reg.CX_PORT 5) 1 0 2, _, 1, 3, by decide +kernel, by decide +kernel, by decide +kernel, rfl, by decide +kernel, by decide +kernel, by decide +kernel⟩⟩

/-- `Obligations.LinksComplete`: for each of its clauses a state and operands that meet its hypotheses. -/
theorem witness_links_complete :
    (∃ (s : State), ∃ (l : Nat), ∃ (attempts : List (List LaneTry)),
    (decide (l < 6) && s.part.hasLink l && s.linkState l == 1 && attempts != []) = true) ∧
    (∃ (s : State), ∃ (l : Nat),
    s.part.hasLink l = true ∧ l < 6 ∧ 1 ≤ s.linkState l ∧ s.linkState l ≤ 3) ∧
    (∃ (s : State), ∃ (l : Nat), ∃ (lane : Nat),
    (s.linkUp l && decide (lane < dataLanes l + spareLanes l ∧ s.laneRole l lane < 0xFE) && s.rf (Reg.AX_LANE l lane) 15 12 == 2) = true) ∧
    (∃ (s : State), ∃ (l : Nat),
    s.linkUp l = true) ∧
    (∃ (s : State), ∃ (l : Nat), ∃ w, ∃ rest,

    let x := s.lnk l
    x.swaps = w :: rest ∧ s.linkUp l = true) ∧
    (∃ (s : State), ∃ (l : Nat),
    s.linkUp l = true) ∧
    (∃ (s : State), ∃ (l : Nat), ∃ (lane : Nat), ∃ r,

    let x := s.lnk l
    x.retrain.find? (fun (r : Nat × Nat) => r.1 == lane) = some r ∧ s.linkUp l = true) ∧
    (∃ (s : State), ∃ (l : Nat),
    s.Reaches (Reg.AX_CTRL l)) ∧
    (∃ (s : State),
    s.Reaches Reg.CX_CFG) ∧
    (∃ (s : State), ∃ (u : State), ∃ (p : Pkt),
    s.Admits 0x030 p ∧ u = s.takeCmd 0x030 p ∧ p.is 1 = true ∧ s.linkOk (p.arg 0) = true) ∧
    (∃ (s : State), ∃ (u : State), ∃ (p : Pkt),
    s.Admits 0x031 p ∧ s.Room p ∧ u = s.takeCmd 0x031 p ∧ p.is 1 = true ∧ s.linkOk (p.arg 0) = true) ∧
    (∃ (s : State), ∃ (u : State), ∃ (p : Pkt),
    s.Admits 0x032 p ∧ s.Room p ∧ u = s.takeCmd 0x032 p ∧ p.is 2 = true ∧ s.linkOk (p.arg 0) = true ∧ (p.arg 1) < dataLanes (p.arg 0) + spareLanes (p.arg 0) ∧ s.laneRole (p.arg 0) (p.arg 1) < 0xFE) ∧
    (∃ (s : State), ∃ (u : State), ∃ (p : Pkt),
    s.Admits 0x033 p ∧ u = s.takeCmd 0x033 p ∧ p.is 1 = true ∧ p.arg 0 < 3 ∧ (p.arg 0 == 0 || decide (0 < s.part.casc)) = true) ∧
    (∃ (s : State), ∃ (u : State), ∃ (p : Pkt),
    s.Admits 0x034 p ∧ u = s.takeCmd 0x034 p ∧ p.is 2 = true ∧ s.linkOk (p.arg 0) = true ∧ p.arg 1 ≤ dataLanes (p.arg 0) + spareLanes (p.arg 0)) :=
  ⟨⟨wS.setLinkState 5 1, 5, [[⟨0, 0, 0⟩]], by decide +kernel⟩,
   ⟨wS.setLinkState 5 3, 5, by decide +kernel, by decide +kernel, by decide +kernel, by decide +kernel⟩,
   ⟨(wL 3).setLane 3 49 0 2, 3, 49, by decide +kernel⟩,
   ⟨wL 5, 5, by decide +kernel⟩,
   ⟨(wL 5).setLnk 5 { swaps := [⟨0, 0, 32, 5, false, false, none⟩] }, 5, _, _, rfl, by decide +kernel⟩,
   ⟨wL 5, 5, by decide +kernel⟩,
   ⟨(wL 5).setLnk 5 { retrain := [(0, 5)] }, 5, 0, _, (Option.some_get (by decide +kernel)).symm, by decide +kernel⟩,
   ⟨wS, 0, reaches_of (by decide +kernel)⟩,
   ⟨wS, reaches_of (by decide +kernel)⟩,
   ⟨wS, _, (wP [0] 0), admits_of (by decide +kernel), rfl, by decide +kernel, by decide +kernel⟩,
   ⟨wS, _, (wP [0] 0), admits_of (by decide +kernel), room_of (by decide +kernel), rfl, by decide +kernel, by decide +kernel⟩,
   ⟨wS.setLane 5 32 0 2, _, wP [5, 32] 0, admits_of (by decide +kernel), room_of (by decide +kernel), rfl, by decide +kernel, by decide +kernel, by decide +kernel, by decide +kernel⟩,
   ⟨wS, _, (wP [0] 0), admits_of (by decide +kernel), rfl, by decide +kernel, by decide +kernel, by decide +kernel⟩,
   ⟨wS, _, (wP [0, 0] 0), admits_of (by decide +kernel), rfl, by decide +kernel, by decide +kernel, by decide +kernel⟩⟩

/-- `Obligations.MonitorAdcComplete`: for each of its clauses a state and operands that meet its hypotheses. -/
theorem witness_monitor_adc_complete :
    (∃ (s : State), ∃ d,
    s.tb.tileDues.find? (fun (d : Nat × Nat × Nat × Bool) => d.1 == 10) = some d) ∧
    (∃ (s : State), ∃ (s0 : State), ∃ (s1 : State), ∃ (s2 : State), ∃ (q : Nat), ∃ (c : Nat), ∃ (nominal : Nat), ∃ (t : Nat), ∃ (v : Nat), ∃ (input : Int), ∃ (dev : Int),
    (s.maOf q).run = some (.entry c nominal, t) ∧ v = maCode (s.rb (Reg.MA_CFG q) 29) c input dev ∧ s0 = (s.advanceTo (t + 800)).setMa q { s.maOf q with run := none, idleFrom := max s.tick (t + 800) } ∧ s1 = s0.bumpBy (Cnt.monAdc q 3) (b2n (decide (nominal < t))) ∧ s2 = (if nominal < t ∧ s1.rb (Reg.MA_CFG q) 28 = true then s1.bump (Cnt.monAdc q 4)
      else (s1.maAccumulate q c v (decide (nominal < t))).maAlarm q c v)) ∧
    (∃ (s : State), ∃ (s0 : State), ∃ (s1 : State), ∃ (q : Nat), ∃ (c : Nat), ∃ (t : Nat), ∃ (a : Nat), ∃ (req : Nat), ∃ (v : Nat), ∃ (input : Int), ∃ (dev : Int), ∃ (b : Bool), ∃ (ref : Option CmdRef), ∃ (res : Word), ∃ r,
    (s.maOf q).run = some (.inject c, t) ∧ (s.maOf q).inj = some (a, req, b, ref) ∧ v = maCode (s.rb (Reg.MA_CFG q) 29) c input dev ∧ s0 = (s.advanceTo (t + 800)).setMa q { (s.maOf q).ran 1 0 with run := none, inj := none, idleFrom := max s.tick (t + 800) } ∧ res = toW (2 ^ 31 + b2n (decide (req + 96 < t)) * 2 ^ 30 + c * 2 ^ 12 + v) ∧ s1 = ((s0.wr (Reg.MA_INJ_RES q) res).bump (Cnt.monAdc q 5)).maAlarm q c v ∧ ref = some r) ∧
    (∃ (s : State), ∃ (s0 : State), ∃ (s1 : State), ∃ (q : Nat), ∃ (c : Nat), ∃ (t : Nat), ∃ (a : Nat), ∃ (req : Nat), ∃ (v : Nat), ∃ (input : Int), ∃ (dev : Int), ∃ (b : Bool), ∃ (ref : Option CmdRef), ∃ (res : Word),
    (s.maOf q).run = some (.inject c, t) ∧ (s.maOf q).inj = some (a, req, b, ref) ∧ v = maCode (s.rb (Reg.MA_CFG q) 29) c input dev ∧ s0 = (s.advanceTo (t + 800)).setMa q { (s.maOf q).ran 1 0 with run := none, inj := none, idleFrom := max s.tick (t + 800) } ∧ res = toW (2 ^ 31 + b2n (decide (req + 96 < t)) * 2 ^ 30 + c * 2 ^ 12 + v) ∧ s1 = ((s0.wr (Reg.MA_INJ_RES q) res).bump (Cnt.monAdc q 5)).maAlarm q c v ∧ ref = none) ∧
    (∃ (s : State), ∃ (u : State), ∃ (q : Nat), ∃ (dur : Nat), ∃ (t : Nat), ∃ r,
    (s.maOf q).run = some (.cal, t) ∧ u = ((s.advanceTo (t + min dur 64000)).setMa q { (s.maOf q).ran 0 1 with
      run := none, cal := none, needCal := false, lastCal := max s.tick (t + min dur 64000), idleFrom := max s.tick (t + min dur 64000) }).bump
        (Cnt.monAdc q 7) ∧ (s.maOf q).cal = some (some r)) ∧
    (∃ (s : State), ∃ (u : State), ∃ (q : Nat), ∃ (dur : Nat), ∃ (t : Nat),
    (s.maOf q).run = some (.cal, t) ∧ u = ((s.advanceTo (t + min dur 64000)).setMa q { (s.maOf q).ran 0 1 with
      run := none, cal := none, needCal := false, lastCal := max s.tick (t + min dur 64000), idleFrom := max s.tick (t + min dur 64000) }).bump
        (Cnt.monAdc q 7) ∧ (∀ r, (s.maOf q).cal ≠ some (some r))) ∧
    (∃ (s : State), ∃ (q : Nat),

    let p := s.rf (Reg.MA_CFG q) 15 8
    p ≠ 0 ∧ s.maUp q = true ∧ s.rb (Reg.MA_CFG q) 31 = true) ∧
    (∃ (s : State), ∃ (q : Nat),
    s.maUp q = true ∧ s.rb (Reg.MA_CFG q) 31 = true ∧ s.rb (Reg.MA_CFG q) 30 = true ∧ (s.maOf q).run = none ∧ (s.maOf q).inj = none ∧ (s.maOf q).cal = none ∧ (s.maOf q).seq = none ∧ (s.maOf q).pdown = false) ∧
    (∃ (s : State), ∃ (q : Nat),
    s.Reaches (Reg.MA_INJ q)) ∧
    (∃ (s : State), ∃ (q : Nat),
    s.Reaches (Reg.MA_CAL q)) ∧
    (∃ (s : State), ∃ (q : Nat),
    s.Reaches (Reg.MA_TAKE q)) ∧
    (∃ (s : State), ∃ (q : Nat),
    s.Reaches (Reg.MA_INJ_RES q)) ∧
    (∃ (s : State), ∃ (u : State), ∃ (p : Pkt), ∃ (q : Nat),
    s.Admits 0x880 p ∧ u = s.takeCmd 0x880 p ∧ p.is 4 = true ∧ p.arg 0 = q ∧ q < s.part.parcels ∧ q ≠ 0xFF ∧ u.domOn (8 + q / 2) = true) ∧
    (∃ (s : State), ∃ (u : State), ∃ (p : Pkt),
    s.Admits 0x881 p ∧ u = s.takeCmd 0x881 p ∧ p.is 3 = true ∧ p.arg 0 < s.part.parcels ∧ p.arg 1 < 16 ∧ u.domOn (8 + p.arg 0 / 2) = true) ∧
    (∃ (s : State), ∃ (u : State), ∃ (p : Pkt),
    s.Admits 0x882 p ∧ s.Room p ∧ u = s.takeCmd 0x882 p ∧ p.is 2 = true ∧ p.arg 0 < s.part.parcels ∧ p.arg 1 < 16 ∧ u.maUp (p.arg 0) = true ∧ (u.maOf (p.arg 0)).inj = none) ∧
    (∃ (s : State), ∃ (u : State), ∃ (p : Pkt), ∃ (q : Nat), ∃ (c : Nat),
    s.Admits 0x883 p ∧ p.is 2 = true ∧ p.arg 0 = q ∧ p.arg 1 = c ∧ q < s.part.parcels ∧ c < 16 ∧ (s.takeCmd 0x883 p).maUp q = true ∧ u = (s.takeCmd 0x883 p).maTake q (2 ^ c)) ∧
    (∃ (s : State), ∃ (u : State), ∃ (p : Pkt),
    s.Admits 0x884 p ∧ s.Room p ∧ u = s.takeCmd 0x884 p ∧ p.is 1 = true ∧ p.arg 0 < s.part.parcels ∧ u.maUp (p.arg 0) = true ∧ (u.maOf (p.arg 0)).cal = none) ∧
    (∃ (s : State), ∃ (u : State), ∃ (p : Pkt),
    s.Admits 0x885 p ∧ u = s.takeCmd 0x885 p ∧ p.is 1 = true ∧ (p.arg 0) < s.part.parcels) :=
  ⟨⟨{ wS with tb := { tileDues := [(10, 0, 0, false)] } }, _, (Option.some_get (by decide +kernel)).symm⟩,
   ⟨wS.setMa 7 { run := some (.entry 3 64, 64) }, _, _, _, 7, 3, 64, 64, _, 0, 0, by decide +kernel, rfl, rfl, rfl, rfl⟩,
   ⟨wS.setMa 7 { run := some (.inject 3, 64), inj := some (3, 0, false, some wRef) }, _, _, 7, 3, 64, 3, 0, _, 0, 0, false, some wRef, _, _, by decide +kernel, by decide +kernel, rfl, rfl, rfl, rfl, (Option.some_get (by decide +kernel)).symm⟩,
   ⟨wS.setMa 7 { run := some (.inject 3, 64), inj := some (3, 0, false, none) }, _, _, 7, 3, 64, 3, 0, _, 0, 0, false, none, _, by decide +kernel, by decide +kernel, rfl, rfl, rfl, rfl, by decide +kernel⟩,
   ⟨wS.setMa 7 { run := some (.cal, 64), cal := some (some wRef) }, _, 7, 0, 64, wRef, by decide +kernel, rfl, by decide +kernel⟩,
   ⟨wS.setMa 7 { run := some (.cal, 64), cal := some none }, _, 7, 0, 64, by decide +kernel, rfl, fun r h => nomatch (Option.some.inj h : none = some r)⟩,
   ⟨wS, 0, by decide +kernel, by decide +kernel, by decide +kernel⟩,
   ⟨(wS.pf (Reg.MA_CFG 7) 31 30 3).setMa 7 { pdown := false }, 7, by decide +kernel, by decide +kernel, by decide +kernel, by decide +kernel, by decide +kernel, by decide +kernel, by decide +kernel, by decide +kernel⟩,
   ⟨wS, 0, reaches_of (by decide +kernel)⟩,
   ⟨wS, 0, reaches_of (by decide +kernel)⟩,
   ⟨wS, 0, reaches_of (by decide +kernel)⟩,
   ⟨wS, 0, reaches_of (by decide +kernel)⟩,
   ⟨wS, _, (wP [0, 0, 0, 0] 0), _, admits_of (by decide +kernel), rfl, by decide +kernel, rfl, by decide +kernel, by decide +kernel, by decide +kernel⟩,
   ⟨wS, _, (wP [0, 0, 0] 0), admits_of (by decide +kernel), rfl, by decide +kernel, by decide +kernel, by decide +kernel, by decide +kernel⟩,
   ⟨wS, _, (wP [0, 0] 0), admits_of (by decide +kernel), room_of (by decide +kernel), rfl, by decide +kernel, by decide +kernel, by decide +kernel, by decide +kernel, by decide +kernel⟩,
   ⟨wS, _, (wP [0, 0] 0), _, _, admits_of (by decide +kernel), by decide +kernel, rfl, rfl, by decide +kernel, by decide +kernel, by decide +kernel, rfl⟩,
   ⟨wS, _, (wP [0] 0), admits_of (by decide +kernel), room_of (by decide +kernel), rfl, by decide +kernel, by decide +kernel, by decide +kernel, by decide +kernel⟩,
   ⟨wS, _, (wP [0] 0), admits_of (by decide +kernel), rfl, by decide +kernel, by decide +kernel⟩⟩

/-- `Obligations.SnapshotsComplete`: for each of its clauses a state and operands that meet its hypotheses. -/
theorem witness_snapshots_complete :
    (∃ (s : State),
    s.Reaches Reg.MON_SNAP_CTRL) ∧
    (∃ (s : State), ∃ d, ∃ s1,
    s.takeDue 2 = some (d, s1)) ∧
    (∃ (s : State), ∃ b0,
    (List.range 2).find? (fun b => s.bankState b == 1) = some b0) ∧
    (∃ (s : State),
    s.Reaches Reg.MON_SNAP_REL) ∧
    (∃ (s : State), ∃ (u : State), ∃ (p : Pkt),

    let sys := bitN p.flags 1
    let now := bitN p.flags 0
    let ok := decide (p.flags < 4) && (if now then p.params.length == 0 else p.params.length == 3 && s.ptpOk p.params 0)
    s.Admits 0x800 p ∧ s.Room p ∧ u = s.takeCmd 0x800 p ∧ ok = true ∧ (!sys || s.isLead) = true) ∧
    (∃ (s : State), ∃ (u : State), ∃ (p : Pkt),
    s.Admits 0x801 p ∧ u = s.takeCmd 0x801 p ∧ p.is 1 = true ∧ p.arg 0 < 4) ∧
    (∃ (s : State), ∃ (u : State), ∃ (p : Pkt),
    s.Admits 0x802 p ∧ u = s.takeCmd 0x802 p ∧ p.is 1 = true ∧ p.arg 0 < 2) ∧
    (∃ (s : State), ∃ (u : State), ∃ (p : Pkt),
    s.Admits 0x803 p ∧ u = s.takeCmd 0x803 p ∧ p.is 2 = true ∧ p.arg 0 < 2 ∧ 16 ≤ (p.arg 1) ∧ (p.arg 1) < 32 ∧ s.ringFunc (p.arg 1) = some 9) :=
  ⟨⟨wS, reaches_of (by decide +kernel)⟩,
   ⟨{ wS with tb := { dues := [⟨2, 0, false, [], false⟩] } }, _, _, rfl⟩,
   ⟨wS.setBankState 1 1, _, (Option.some_get (by decide +kernel)).symm⟩,
   ⟨wS, reaches_of (by decide +kernel)⟩,
   ⟨wS, _, wP [] 3, admits_of (by decide +kernel), room_of (by decide +kernel), rfl, by decide +kernel, by decide +kernel⟩,
   ⟨wS, _, (wP [0] 0), admits_of (by decide +kernel), rfl, by decide +kernel, by decide +kernel⟩,
   ⟨wS, _, (wP [0] 0), admits_of (by decide +kernel), rfl, by decide +kernel, by decide +kernel⟩,
   ⟨wS.pf (Reg.RING_CFG 31) 31 24 0x89, _, wP [1, 31] 0, admits_of (by decide +kernel), rfl, by decide +kernel, by decide +kernel, by decide +kernel, by decide +kernel, by decide +kernel⟩⟩

/-- `Obligations.RecordersComplete`: for each of its clauses a state and operands that meet its hypotheses. -/
theorem witness_recorders_complete :
    (∃ (s : State), ∃ (rec : Nat), ∃ (code : Nat), ∃ (src : Nat),
    s.recPresent rec = true ∧ code < 256 ∧ src ≤ 4) ∧
    (∃ (s : State), ∃ (s1 : State), ∃ d,
    s.takeDue 11 = some (d, s1)) ∧
    (∃ (s : State), ∃ (t : Nat), ∃ (at_ : Nat), ∃ (late : Bool),
    t < 4 ∧ s.tb.tileDues.find? (fun d => d.1 == 11 && d.2.1 == t) = some (11, t, at_, late)) ∧
    (∃ (s : State),
    s.Reaches Reg.REC_MARK) ∧
    (∃ (s : State), ∃ (r : Nat),
    s.Reaches (recCtrlReg r)) ∧
    (∃ (s : State), ∃ (r : Nat),
    s.Reaches (recCtrlReg r)) ∧
    (∃ (s : State), ∃ (r : Nat),

    let x := s.recOf r
    x.testing = true) ∧
    (∃ (s : State), ∃ (t : Nat),
    s.Reaches (Reg.REC_T_CTRL t)) ∧
    (∃ (s : State), ∃ (r : Nat),
    s.recPresent r = true ∧ s.recEnabled r = true) ∧
    (∃ (s : State), ∃ (u : State), ∃ (p : Pkt),
    s.Admits 0x840 p ∧ u = s.takeCmd 0x840 p ∧ p.is 3 = true ∧ s.recPresent (p.arg 0) = true ∧ p.arg 1 < 256 ∧ p.arg 2 < 16 ∧ u.recEnabled (p.arg 0) = true) ∧
    (∃ (s : State), ∃ (u : State), ∃ (p : Pkt),

    let r := fld (wordAt p.params 0) 10 8
    let offs := p.params.drop 2
    let ok := p.flags == 0 && decide (1 ≤ (p.arg 1) ∧ (p.arg 1) ≤ 12) && p.params.length == 2 + (p.arg 1) && s.recPresent r &&
    offs.all (fun w => listOk r w && decide (w.toNat < 2 ^ 28 ∧ w.toNat % 4 = 0))
    s.Admits 0x841 p ∧ u = s.takeCmd 0x841 p ∧ ok = true) ∧
    (∃ (s : State), ∃ (u : State), ∃ (p : Pkt),
    s.Admits 0x842 p ∧ u = s.takeCmd 0x842 p ∧ p.is 2 = true ∧ s.recPresent (p.arg 0) = true) ∧
    (∃ (s : State), ∃ (u : State), ∃ (p : Pkt),
    s.Admits 0x843 p ∧ u = s.takeCmd 0x843 p ∧ p.is 1 = true) ∧
    (∃ (s : State), ∃ (u : State), ∃ (p : Pkt),
    s.Admits 0x844 p ∧ u = s.takeCmd 0x844 p ∧ p.is 1 = true ∧ s.recPresent (p.arg 0) = true) :=
  ⟨⟨wS, 0, 0, 0, by decide +kernel, by decide +kernel, by decide +kernel⟩,
   ⟨{ wS with tb := { dues := [⟨11, 0, false, [], false⟩] } }, _, _, rfl⟩,
   ⟨{ wS with tb := { tileDues := [(11, 3, 0, false)] } }, 3, 0, false, by decide +kernel, by decide +kernel⟩,
   ⟨wS, reaches_of (by decide +kernel)⟩,
   ⟨wS, 0, reaches_of (by decide +kernel)⟩,
   ⟨wS, 0, reaches_of (by decide +kernel)⟩,
   ⟨wS.setRec 4 { testing := true }, 4, by decide +kernel⟩,
   ⟨wS, 0, reaches_of (by decide +kernel)⟩,
   ⟨wS, 0, by decide +kernel, by decide +kernel⟩,
   ⟨wS, _, (wP [0, 0, 0] 0), admits_of (by decide +kernel), rfl, by decide +kernel, by decide +kernel, by decide +kernel, by decide +kernel, by decide +kernel⟩,
   ⟨wS, _, wP [0x40F, 1, 0x08FFFFFC] 0, admits_of (by decide +kernel), rfl, by decide +kernel⟩,
   ⟨wS, _, (wP [0, 0] 0), admits_of (by decide +kernel), rfl, by decide +kernel, by decide +kernel⟩,
   ⟨wS, _, (wP [0] 0), admits_of (by decide +kernel), rfl, by decide +kernel⟩,
   ⟨wS, _, (wP [0] 0), admits_of (by decide +kernel), rfl, by decide +kernel, by decide +kernel⟩⟩

/-- `Obligations.PowerChangesComplete`: for each of its clauses a state and operands that meet its hypotheses. -/
theorem witness_power_changes_complete :
    (∃ (s : State), ∃ (e : PwEntry),
    s.pw.orders.find? (fun x => x.scope == 4) = some e) ∧
    (∃ (s : State), ∃ (t : Nat), ∃ (e : PwEntry),
    t < 4 ∧ s.pw.orders.find? (fun x => x.scope == t) = some e) ∧
    (∃ (s : State), ∃ (scope : Nat), ∃ e,
    s.pw.entries.find? (fun e => e.scope == scope && e.delayFrom.isSome) = some e) ∧
    (∃ (s : State), ∃ (scope : Nat), ∃ (d : Nat), ∃ (n : Nat), ∃ (at_ : Nat), ∃ (e : PwEntry),
    s.pw.entries.find? (fun e => e.scope == scope) = some e ∧ e.delayFrom = some d ∧ s.askBlocks e = .delay n at_) ∧
    (∃ (s : State), ∃ (scope : Nat), ∃ e,
    s.pw.entries.find? (fun e => e.scope == scope && e.delayFrom.isNone) = some e) ∧
    (∃ (src : Nat),
    3 ≤ src ∧ src ≤ 5) ∧
    (∃ (s : State), ∃ (scope : Nat), ∃ w,
    s.pw.wakes.find? (fun w => w.scope == scope) = some w) ∧
    (∃ (s : State), ∃ (scope : Nat), ∃ w,
    s.pw.wakes.find? (fun w => w.scope == scope) = some w ∧
    (w.step == 1 || w.step == 2 || w.step == 5 || w.step == 6) = true ∧ ¬ (scope = 4 ∧ 5 ≤ w.step)) ∧
    (∃ (s : State), ∃ (scope : Nat), ∃ w,
    s.pw.wakes.find? (fun w => w.scope == scope && w.step == 8) = some w) ∧
    (∃ (s : State),
    (s.pkgState = 2 ∨ s.pkgState = 3 ∨ s.pkgState = 4) ∧ s.domOn 2 = false ∧ s.pw.refclkLost = false) :=
  ⟨⟨{ wS with pw := { orders := [{ scope := 4, target := 3, start := 0 }] } }, _, (Option.some_get (by decide +kernel)).symm⟩,
   ⟨{ wS with pw := { orders := [{ scope := 3, target := 1, start := 0 }] } }, 3, _, by decide +kernel, (Option.some_get (by decide +kernel)).symm⟩,
   ⟨{ wS with pw := { entries := [{ scope := 3, target := 1, start := 0, delayFrom := some 0 }] } }, 3, _, (Option.some_get (by decide +kernel)).symm⟩,
   ⟨{ (wS.pf Reg.PW_STAT 11 0 0x492).pf (Reg.DMA_STAT 31) 31 28 1 with pw := { entries := [{ scope := 4, target := 3, start := 0, delayFrom := some 0 }] } }, 4, 0, 8, 1, { scope := 4, target := 3, start := 0, delayFrom := some 0 }, by decide +kernel, by decide +kernel, by decide +kernel⟩,
   ⟨{ wS with pw := { entries := [{ scope := 3, target := 1, start := 0 }] } }, 3, _, (Option.some_get (by decide +kernel)).symm⟩,
   ⟨5, by decide +kernel, by decide +kernel⟩,
   ⟨{ wS with pw := { wakes := [{ scope := 3, step := 1, stepStart := 0, start := 0, source := 0, seen := 0 }] } }, 3, _, (Option.some_get (by decide +kernel)).symm⟩,
   ⟨{ wS with pw := { wakes := [{ scope := 3, step := 6, stepStart := 0, start := 0, source := 0, seen := 0 }] } }, 3, _, (Option.some_get (by decide +kernel)).symm, by decide +kernel, by decide +kernel⟩,
   ⟨{ wS with pw := { wakes := [{ scope := 4, step := 8, stepStart := 0, start := 0, source := 0, seen := 0 }] } }, 4, _, (Option.some_get (by decide +kernel)).symm⟩,
   ⟨(wS.setPkg 4).setDom 2 false, by decide +kernel, by decide +kernel, by decide +kernel⟩⟩

/-- `Obligations.PowerCommandsComplete`: for each of its clauses a state and operands that meet its hypotheses. -/
theorem witness_power_commands_complete :
    (∃ (s : State), ∃ d,
    s.tb.tileDues.find? (fun (d : Nat × Nat × Nat × Bool) => d.1 == 9) = some d) ∧
    (∃ (s : State), ∃ (p : Nat), ∃ t,
    (s.txOf p).blankEnd = some t) ∧
    (∃ (s : State),
    s.Reaches Reg.PW_DOORBELL) ∧
    (∃ (s : State),
    s.Reaches Reg.PW_PAD_REL) ∧
    (∃ (s : State), ∃ (u : State), ∃ (p : Pkt),
    s.Admits 0x900 p ∧ u = s.takeCmd 0x900 p ∧ p.is 0 = true) ∧
    (∃ (s : State), ∃ (u : State), ∃ (u1 : State), ∃ (p : Pkt),
    s.Admits 0x901 p ∧ s.Room p ∧ u = s.takeCmd 0x901 p ∧ p.flags = 1 ∧ p.params.length = 2 ∧ 0 < p.arg 0 ∧ p.arg 0 < 2 ^ s.part.tiles ∧ p.arg 1 ≤ 2 ∧ (bitsSet (p.arg 0) 4).any (fun t => u.scopeBusy t || u.pw.pends.any (fun x => x.tile == t)) = false ∧ p.ref 0x901 0 ∉ s.host.accepted ∧ u1 = State.accept (u.orderTiles ((bitsSet (p.arg 0) 4).map (fun t => (t, p.arg 1))) (p.ref 0x901 0)) 0x901 p 0 []) ∧
    (∃ (s : State), ∃ (u : State), ∃ (p : Pkt),
    s.Admits 0x902 p ∧ s.Room p ∧ u = s.takeCmd 0x902 p ∧ p.flags = 0 ∧ p.params.length = 0 ∧ (s.dev = 2 ∨ s.dev = 3) ∧ u.scopeBusy 4 = false) ∧
    (∃ (s : State), ∃ (u : State), ∃ (p : Pkt),
    s.Admits 0x903 p ∧ u = s.takeCmd 0x903 p ∧ p.is 0 = true) ∧
    (∃ (s : State), ∃ (u : State), ∃ (p : Pkt),

    let ts := (bitsSet (p.arg 0) 4).filter (fun t => s.tileState t == 6)
    let failed := if (p.arg 0) = 0 then s.pkgState == 4 else ts != []
    s.Admits 0x904 p ∧ s.Room p ∧ u = s.takeCmd 0x904 p ∧ p.is 1 = true ∧ (p.arg 0) < 2 ^ s.part.tiles ∧ failed = true ∧ ((p.arg 0) == 0 || s.dev != 7) = true) ∧
    (∃ (s : State), ∃ (u : State), ∃ (p : Pkt),
    s.Admits 0x905 p ∧ u = s.takeCmd 0x905 p ∧ p.is 1 = true ∧ p.arg 0 < 2 ^ s.part.rows) ∧
    (∃ (s : State), ∃ (u : State), ∃ (p : Pkt),
    s.Admits 0x906 p ∧ u = s.takeCmd 0x906 p ∧ p.is 1 = true ∧ p.arg 0 < 2 ^ 20) ∧
    (∃ (s : State), ∃ (u : State), ∃ (p : Pkt),
    s.Admits 0x907 p ∧ u = s.takeCmd 0x907 p ∧ p.is 6 = true) ∧
    (∃ (s : State), ∃ (u : State), ∃ (p : Pkt),

    let ok := (List.range 96).all (fun q => !bit (wordAt p.params (q / 32)) (q % 32) || decide (q < s.part.paths))
    s.Admits 0x908 p ∧ u = s.takeCmd 0x908 p ∧ p.is 4 = true ∧ ok = true) :=
  ⟨⟨{ wS with tb := { tileDues := [(9, 0, 0, false)] } }, _, (Option.some_get (by decide +kernel)).symm⟩,
   ⟨wS.setTx 95 { blankEnd := some 5 }, 95, _, (Option.some_get (by decide +kernel)).symm⟩,
   ⟨wS, reaches_of (by decide +kernel)⟩,
   ⟨wS, reaches_of (by decide +kernel)⟩,
   ⟨wS, _, (wP [] 0), admits_of (by decide +kernel), rfl, by decide +kernel⟩,
   ⟨wS, _, _, wP [15, 2] 1, admits_of (by decide +kernel), room_of (by decide +kernel), rfl, by decide +kernel, by decide +kernel, by decide +kernel, by decide +kernel, by decide +kernel, by decide +kernel, by decide +kernel, rfl⟩,
   ⟨wS, _, (wP [] 0), admits_of (by decide +kernel), room_of (by decide +kernel), rfl, by decide +kernel, by decide +kernel, by decide +kernel, by decide +kernel⟩,
   ⟨wS, _, (wP [] 0), admits_of (by decide +kernel), rfl, by decide +kernel⟩,
   ⟨wS.setTileState 3 6, _, wP [8] 0, admits_of (by decide +kernel), room_of (by decide +kernel), rfl, by decide +kernel, by decide +kernel, by decide +kernel, by decide +kernel⟩,
   ⟨wS, _, (wP [0] 0), admits_of (by decide +kernel), rfl, by decide +kernel, by decide +kernel⟩,
   ⟨wS, _, (wP [0] 0), admits_of (by decide +kernel), rfl, by decide +kernel, by decide +kernel⟩,
   ⟨wS, _, (wP [0, 0, 0, 0, 0, 0] 0), admits_of (by decide +kernel), rfl, by decide +kernel⟩,
   ⟨wS, _, (wP [0, 0, 0, 0] 0), admits_of (by decide +kernel), rfl, by decide +kernel, by decide +kernel⟩⟩

/-- `Obligations.IdDeviceIdentifiesThePart`: for each of its clauses a state and operands that meet its hypotheses. -/
theorem witness_id_device_identifies_the_part :
    ∃ (s : State), ∃ (u : State),
    u = s.egressRun ∧ u.pcieUp = true ∧ u.tb.hiCap = [] ∧ u.rd 0 = resetWord u.part 0 :=
  ⟨wS, _, rfl, by decide +kernel, by decide +kernel, by decide +kernel⟩

/-- `Obligations.GridOriginIsNotWrittenInService`: for each of its clauses a state and operands that meet its hypotheses. -/
theorem witness_grid_origin_is_not_written_in_service :
    (∃ (s : State), ∃ (u : State), ∃ (p : Pkt),
    s.Canonical ∧ s.Admits 0x106 p ∧ s.isLead = true ∧ p.is 3 = true ∧ p.arg 0 < 2 ^ 16 ∧ p.arg 2 < 1000000000 ∧ u = (s.takeCmd 0x106 p).setOrigin (p.arg 0 * 2 ^ 32 + p.arg 1) (p.arg 2)) ∧
    (∃ (s : State),
    s.Canonical ∧ s.pcieUp = true ∧ s.domOn 2 = true ∧ s.isLead = true ∧ s.dev ≠ 4) ∧
    (∃ (s : State), ∃ (p : Pkt),
    s.Taken 0x106 p ∧ s.dev = 4 ∧ p.is 3 = true ∧ p.arg 0 < 2 ^ 16 ∧ p.arg 2 < 1000000000) ∧
    (∃ (s : State), ∃ (a : Nat),
    s.Canonical ∧ s.pcieUp = true ∧ s.domOn 2 = true ∧ s.dev = 4 ∧ (a = Reg.TB_GRID_ORG_SEC_LO ∨ a = Reg.TB_GRID_ORG_SEC_HI ∨ a = Reg.TB_GRID_ORG_NS)) :=
  ⟨⟨wS, _, (wP [0, 0, 0] 0), canonical_of (by decide +kernel), admits_of (by decide +kernel), by decide +kernel, by decide +kernel, by decide +kernel, by decide +kernel, rfl⟩,
   ⟨wS, canonical_of (by decide +kernel), by decide +kernel, by decide +kernel, by decide +kernel, by decide +kernel⟩,
   ⟨wDev 4, wP [0xFFFF, 0, 999999999] 0, taken_of (by decide +kernel), by decide +kernel, by decide +kernel, by decide +kernel, by decide +kernel⟩,
   ⟨wDev 4, Reg.TB_GRID_ORG_NS, canonical_of (by decide +kernel), by decide +kernel, by decide +kernel, by decide +kernel, by decide +kernel⟩⟩

/-- `Obligations.RejectedCommandsHaveNoSideEffect`: for each of its clauses a state and operands that meet its hypotheses. -/
theorem witness_rejected_commands_have_no_side_effect :
    (∃ (s : State), ∃ (p : Pkt),
    s.Taken 0x103 p ∧ (p.is 1 = false ∨ 1 < p.arg 0)) ∧
    (∃ (s : State), ∃ (p : Pkt),
    s.Taken 0x200 p ∧ (p.is 1 = false ∨ 3 ≤ p.arg 0)) ∧
    (∃ (s : State), ∃ (p : Pkt),
    s.Taken 0x305 p ∧ (p.is 2 = false ∨ 2 ≤ p.arg 0 ∨ 2 ≤ p.arg 1)) ∧
    (∃ (s : State), ∃ (p : Pkt),
    s.Taken 0x504 p ∧ (p.is 2 = false ∨ s.part.paths ≤ p.arg 0)) ∧
    (∃ (s : State), ∃ (p : Pkt),
    s.Taken 0x882 p ∧ (p.is 2 = false ∨ s.part.parcels ≤ p.arg 0 ∨ 16 ≤ p.arg 1)) ∧
    (∃ (s : State), ∃ (p : Pkt),
    s.Taken 0x102 p ∧ s.stepOk p = true ∧ (s.dev = 4 ∨ s.dev = 7 ∨ s.dev = 8)) ∧
    (∃ (s : State), ∃ (p : Pkt),
    s.Taken 0x200 p ∧ p.is 1 = true ∧ p.arg 0 < 3 ∧ s.dev ≠ 2 ∧ s.dev ≠ 3) ∧
    (∃ (s : State), ∃ (p : Pkt),
    s.Taken 0x043 p ∧ p.is 4 = true ∧ s.chkAt (p.arg 0) (p.arg 1) = true ∧ p.arg 1 < 256 ∧ p.arg 2 < 256 ∧ p.arg 3 < 2 ∧ s.dev ≠ 5) ∧
    (∃ (s : State), ∃ (p : Pkt),
    s.Admits 0x103 p ∧ p.is 1 = true ∧ p.arg 0 ≤ 1 ∧ s.isLead = false) ∧
    (∃ (s : State), ∃ (p : Pkt),
    s.Admits 0x402 p ∧ p.is 1 = true ∧ p.arg 0 < 64 ∧ s.isLead = false) ∧
    (∃ (s : State), ∃ (p : Pkt),
    s.Admits 0x702 p ∧ p.is 1 = true ∧ p.arg 0 < 2 ∧ s.isLead = false) ∧
    (∃ (s : State), ∃ (t : State), ∃ (p : Pkt), ∃ (op : Nat), ∃ (code : Nat), ∃ (ws : List Word), ∃ a,
    s.Canonical ∧ p.mb < 8 ∧ t = (s.takeCmd op p).reply p code ws ∧ (a < 0xD00000 ∨ 0xD10000 ≤ a)) :=
  ⟨⟨wS, wP [2] 0, taken_of (by decide +kernel), by decide +kernel⟩,
   ⟨wS, (wP [3] 0), taken_of (by decide +kernel), by decide +kernel⟩,
   ⟨wS, (wP [2, 2] 0), taken_of (by decide +kernel), by decide +kernel⟩,
   ⟨wS, wP [96, 0] 0, taken_of (by decide +kernel), by decide +kernel⟩,
   ⟨wS, (wP [0, 16] 0), taken_of (by decide +kernel), by decide +kernel⟩,
   ⟨wDev 8, wP [0, 0, 999999999] 0, taken_of (by decide +kernel), by decide +kernel, by decide +kernel⟩,
   ⟨wDev 4, wP [2] 0, taken_of (by decide +kernel), by decide +kernel, by decide +kernel, by decide +kernel, by decide +kernel⟩,
   ⟨wS, wP [0x19, 95, 255, 1] 0, taken_of (by decide +kernel), by decide +kernel, by decide +kernel, by decide +kernel, by decide +kernel, by decide +kernel, by decide +kernel⟩,
   ⟨wM, wP [1] 0, admits_of (by decide +kernel), by decide +kernel, by decide +kernel, by decide +kernel⟩,
   ⟨wM, wP [63] 0, admits_of (by decide +kernel), by decide +kernel, by decide +kernel, by decide +kernel⟩,
   ⟨wM, wP [1] 0, admits_of (by decide +kernel), by decide +kernel, by decide +kernel, by decide +kernel⟩,
   ⟨wS, _, (wP [] 0), 0, 0, [], 0x100, canonical_of (by decide +kernel), by decide +kernel, rfl, by decide +kernel⟩⟩

/-- `Obligations.SlotsHoldTheWordAndItsTag`: for each of its clauses a state and operands that meet its hypotheses. -/
theorem witness_slots_hold_the_word_and_its_tag :
    (∃ (s : State), ∃ (t : State), ∃ (a : Nat), ∃ (v : Nat), ∃ b,
    s.Canonical ∧ v < 2 ^ 48 ∧ t = s.writeSlot a v ∧ (b < a ∨ a + 7 ≤ b)) ∧
    (∃ (s : State), ∃ (o : Nat), ∃ (lo : Word),
    s.Canonical ∧ s.pcieUp = true ∧ s.domOn 7 = true ∧ o % 8 = 0 ∧ ((0x10000 ≤ o ∧ o < 0x20000) ∨ (0x4100000 ≤ o ∧ o < 0x4100000 + 28672 * 0x300 ∧ s.rb Reg.TR_STATUS 1 = false)) ∧ Sparse.get (fun _ => none) s.tr.lows (s.barPhys (barWindow o).1 (barWindow o).2) = some lo) :=
  ⟨⟨wS, _, 0, 0, 8, canonical_of (by decide +kernel), by decide +kernel, rfl, by decide +kernel⟩,
   ⟨{ wS with tr := { lows := [(wS.barPhys (barWindow 0x1FFF8).1 (barWindow 0x1FFF8).2, some 5)] } }, 0x1FFF8, _, canonical_of (by decide +kernel), by decide +kernel, by decide +kernel, by decide +kernel, by decide +kernel, (Option.some_get (by decide +kernel)).symm⟩⟩

/-- `Obligations.RequantisationChecksTheResidue`: for each of its clauses a state and operands that meet its hypotheses. -/
theorem witness_requantisation_checks_the_residue :
    (∃ (s : State), ∃ (c : Nat), ∃ (f : FmtMQ), ∃ (a : AccW), ∃ (k : Nat),
    s.MIssues c (f.word 5) ∧ f.fits = true ∧ a = (s.coreOf c).accOf f.acc ∧ k = (s.coreOf c).shift f.k ∧ f.real = true ∧ a.ri ≠ 15 ∧ (requant a.i a.ri k f.rnd).2.2 = false) ∧
    (∃ (s : State), ∃ (c : Nat), ∃ (f : FmtMQ), ∃ (a : AccW), ∃ (k : Nat),
    s.MIssues c (f.word 5) ∧ f.fits = true ∧ a = (s.coreOf c).accOf f.acc ∧ k = (s.coreOf c).shift f.k ∧ f.real = true ∧ a.ri ≠ 15 ∧ (requant a.i a.ri k f.rnd).2.2 = true) ∧
    (∃ (s : State), ∃ (c : Nat), ∃ (f : FmtMQ), ∃ (a : AccW), ∃ (k : Nat),
    s.MIssues c (f.word 5) ∧ f.fits = true ∧ a = (s.coreOf c).accOf f.acc ∧ k = (s.coreOf c).shift f.k ∧ f.real = false ∧ a.poisoned = false ∧ ((requant a.i a.ri k f.rnd).2.2 = false ∨ (requant a.q a.rq k f.rnd).2.2 = false)) ∧
    (∃ (s : State), ∃ (c : Nat), ∃ (f : FmtMQ), ∃ (a : AccW), ∃ (k : Nat),
    s.MIssues c (f.word 5) ∧ f.fits = true ∧ a = (s.coreOf c).accOf f.acc ∧ k = (s.coreOf c).shift f.k ∧ f.real = false ∧ a.poisoned = false ∧ (requant a.i a.ri k f.rnd).2.2 = true ∧ (requant a.q a.rq k f.rnd).2.2 = true) ∧
    (∃ (s : State), ∃ (c : Nat), ∃ (f : FmtMR), ∃ (a : OpR),
    s.MIssues c (f.word 0x12) ∧ f.fits = true ∧ a = ((s.coreOf c).reg f.a).asR ∧ f.real = true ∧ a.bad = false ∧ (requant a.x a.r f.imm6 true).2.2 = false) ∧
    (∃ (s : State), ∃ (c : Nat), ∃ (f : FmtMR), ∃ (a : OpR),
    s.MIssues c (f.word 0x12) ∧ f.fits = true ∧ a = ((s.coreOf c).reg f.a).asR ∧ f.real = true ∧ a.bad = false ∧ (requant a.x a.r f.imm6 true).2.2 = true) ∧
    (∃ (s : State), ∃ (c : Nat), ∃ (f : FmtMR), ∃ (a : OpC),
    s.MIssues c (f.word 0x12) ∧ f.fits = true ∧ a = ((s.coreOf c).reg f.a).asC ∧ f.real = false ∧ a.bad = false ∧ ((requant a.i a.ri f.imm6 true).2.2 = false ∨ (requant a.q a.rq f.imm6 true).2.2 = false)) ∧
    (∃ (s : State), ∃ (c : Nat), ∃ (f : FmtMR), ∃ (a : OpC),
    s.MIssues c (f.word 0x12) ∧ f.fits = true ∧ a = ((s.coreOf c).reg f.a).asC ∧ f.real = false ∧ a.bad = false ∧ (requant a.i a.ri f.imm6 true).2.2 = true ∧ (requant a.q a.rq f.imm6 true).2.2 = true) ∧
    (∃ (s : State), ∃ (c : Nat), ∃ (f : FmtMP), ∃ (a : OpC), ∃ (b : OpC), ∃ (k : Nat), ∃ (z : (Int × Nat) × (Int × Nat)),
    s.MIssues c (f.word 4) ∧ f.fits = true ∧ a = ((s.coreOf c).reg f.x).asC ∧ b = ((s.coreOf c).reg f.y).asC ∧ k = (s.coreOf c).shift f.k ∧ a.bad = false ∧ b.bad = false ∧ z = cmul a b f.cj ∧ ((requant z.1.1 z.1.2 k f.rnd).2.2 = false ∨ (requant z.2.1 z.2.2 k f.rnd).2.2 = false)) ∧
    (∃ (s : State), ∃ (c : Nat), ∃ (f : FmtMP), ∃ (a : OpC), ∃ (b : OpC), ∃ (k : Nat), ∃ (z : (Int × Nat) × (Int × Nat)),
    s.MIssues c (f.word 4) ∧ f.fits = true ∧ a = ((s.coreOf c).reg f.x).asC ∧ b = ((s.coreOf c).reg f.y).asC ∧ k = (s.coreOf c).shift f.k ∧ a.bad = false ∧ b.bad = false ∧ z = cmul a b f.cj ∧ (requant z.1.1 z.1.2 k f.rnd).2.2 = true ∧ (requant z.2.1 z.2.2 k f.rnd).2.2 = true) :=
  ⟨⟨wC { item := some wI, acc := [{ i := 3 }] }, 0, ⟨0, 0, true, 0, false, false⟩, _, _, mIssues_of (by decide +kernel), by decide +kernel, rfl, rfl, by decide +kernel, by decide +kernel, by decide +kernel⟩,
   ⟨(wC { item := some wI }), 0, ⟨0, 0, true, 0, false, false⟩, _, _, mIssues_of (by decide +kernel), by decide +kernel, rfl, rfl, by decide +kernel, by decide +kernel, by decide +kernel⟩,
   ⟨wC { item := some wI, acc := [{ q := 3 }] }, 0, ⟨0, 0, false, 0, false, false⟩, _, _, mIssues_of (by decide +kernel), by decide +kernel, rfl, rfl, by decide +kernel, by decide +kernel, by decide +kernel⟩,
   ⟨(wC { item := some wI }), 0, ⟨0, 0, false, 0, false, false⟩, _, _, mIssues_of (by decide +kernel), by decide +kernel, rfl, rfl, by decide +kernel, by decide +kernel, by decide +kernel, by decide +kernel⟩,
   ⟨wC { item := some wI, d := [{ v := 3, real := true }] }, 0, ⟨0, 0, 0, true, 0, 0⟩, _, mIssues_of (by decide +kernel), by decide +kernel, rfl, by decide +kernel, by decide +kernel, by decide +kernel⟩,
   ⟨wC { item := some wI, d := [{ v := 3, ri := 3, real := true }] }, 0, ⟨0, 0, 0, true, 0, 0⟩, _, mIssues_of (by decide +kernel), by decide +kernel, rfl, by decide +kernel, by decide +kernel, by decide +kernel⟩,
   ⟨wC { item := some wI, d := [{ v := 3 }] }, 0, ⟨0, 0, 0, false, 0, 0⟩, _, mIssues_of (by decide +kernel), by decide +kernel, rfl, by decide +kernel, by decide +kernel, by decide +kernel⟩,
   ⟨(wC { item := some wI }), 0, ⟨0, 0, 0, false, 0, 0⟩, _, mIssues_of (by decide +kernel), by decide +kernel, rfl, by decide +kernel, by decide +kernel, by decide +kernel, by decide +kernel⟩,
   ⟨wC { item := some wI, d := [{ v := 3, ri := 1 }] }, 0, ⟨0, 0, 0, false, 0, false⟩, _, _, _, _, mIssues_of (by decide +kernel), by decide +kernel, rfl, rfl, rfl, by decide +kernel, by decide +kernel, rfl, by decide +kernel⟩,
   ⟨(wC { item := some wI }), 0, ⟨0, 0, 0, false, 0, false⟩, _, _, _, _, mIssues_of (by decide +kernel), by decide +kernel, rfl, rfl, rfl, by decide +kernel, by decide +kernel, rfl, by decide +kernel, by decide +kernel⟩⟩

/-- `Obligations.ResiduesFollowTheArithmetic`: for each of its clauses a state and operands that meet its hypotheses. -/
theorem witness_residues_follow_the_arithmetic :
    (∃ (s : State), ∃ (c : Nat), ∃ (f : FmtMA),
    (s.coreOf c).Tagged ∧ f.fits = true ∧ s.MIssues c (f.word 1)) ∧
    (∃ (s : State), ∃ (c : Nat), ∃ (f : FmtMA),
    (s.coreOf c).Tagged ∧ f.fits = true ∧ s.MIssues c (f.word 2)) ∧
    (∃ (s : State), ∃ (c : Nat), ∃ (f : FmtMA),
    (s.coreOf c).Tagged ∧ f.fits = true ∧ s.MIssues c (f.word 3)) ∧
    (∃ (s : State), ∃ (c : Nat), ∃ (f : FmtMP),
    (s.coreOf c).Tagged ∧ f.fits = true ∧ s.MIssues c (f.word 4)) ∧
    (∃ (s : State), ∃ (c : Nat), ∃ (f : FmtMQ),
    (s.coreOf c).Tagged ∧ f.fits = true ∧ s.MIssues c (f.word 5)) ∧
    (∃ (s : State), ∃ (c : Nat), ∃ (f : FmtMR),
    (s.coreOf c).Tagged ∧ f.fits = true ∧ s.MIssues c (f.word 6)) ∧
    (∃ (s : State), ∃ (c : Nat), ∃ (f : FmtMR),
    (s.coreOf c).Tagged ∧ f.fits = true ∧ s.MIssues c (f.word 7)) ∧
    (∃ (s : State), ∃ (c : Nat), ∃ (f : FmtMR),
    (s.coreOf c).Tagged ∧ f.fits = true ∧ s.MIssues c (f.word 8)) ∧
    (∃ (s : State), ∃ (c : Nat), ∃ (f : FmtMR),
    (s.coreOf c).Tagged ∧ f.fits = true ∧ s.MIssues c (f.word 9)) ∧
    (∃ (s : State), ∃ (c : Nat), ∃ (f : FmtMR),
    (s.coreOf c).Tagged ∧ f.fits = true ∧ s.MIssues c (f.word 0xA)) ∧
    (∃ (s : State), ∃ (c : Nat), ∃ (f : FmtMR),
    (s.coreOf c).Tagged ∧ f.fits = true ∧ s.MIssues c (f.word 0xB)) ∧
    (∃ (s : State), ∃ (c : Nat), ∃ (f : FmtMR),
    (s.coreOf c).Tagged ∧ f.fits = true ∧ s.MIssues c (f.word 0xC)) ∧
    (∃ (s : State), ∃ (c : Nat), ∃ (f : FmtMR),
    (s.coreOf c).Tagged ∧ f.fits = true ∧ s.MIssues c (f.word 0xD)) ∧
    (∃ (s : State), ∃ (c : Nat), ∃ (f : FmtMR),
    (s.coreOf c).Tagged ∧ f.fits = true ∧ s.MIssues c (f.word 0x11)) ∧
    (∃ (s : State), ∃ (c : Nat), ∃ (f : FmtMR),
    (s.coreOf c).Tagged ∧ f.fits = true ∧ s.MIssues c (f.word 0x12)) :=
  ⟨⟨(wC { item := some wI }), 0, ⟨0, 1, 0, 0, 0, false, false, false⟩, tagged_of (by decide +kernel), by decide +kernel, mIssues_of (by decide +kernel)⟩,
   ⟨(wC { item := some wI }), 0, ⟨0, 1, 0, 0, 0, false, false, false⟩, tagged_of (by decide +kernel), by decide +kernel, mIssues_of (by decide +kernel)⟩,
   ⟨(wC { item := some wI }), 0, ⟨0, 1, 0, 0, 0, false, false, false⟩, tagged_of (by decide +kernel), by decide +kernel, mIssues_of (by decide +kernel)⟩,
   ⟨(wC { item := some wI }), 0, ⟨0, 0, 0, false, 0, false⟩, tagged_of (by decide +kernel), by decide +kernel, mIssues_of (by decide +kernel)⟩,
   ⟨(wC { item := some wI }), 0, ⟨0, 0, false, 0, false, false⟩, tagged_of (by decide +kernel), by decide +kernel, mIssues_of (by decide +kernel)⟩,
   ⟨(wC { item := some wI }), 0, ⟨0, 0, 0, false, 0, 0⟩, tagged_of (by decide +kernel), by decide +kernel, mIssues_of (by decide +kernel)⟩,
   ⟨(wC { item := some wI }), 0, ⟨0, 0, 0, false, 0, 0⟩, tagged_of (by decide +kernel), by decide +kernel, mIssues_of (by decide +kernel)⟩,
   ⟨(wC { item := some wI }), 0, ⟨0, 0, 0, false, 0, 0⟩, tagged_of (by decide +kernel), by decide +kernel, mIssues_of (by decide +kernel)⟩,
   ⟨(wC { item := some wI }), 0, ⟨0, 0, 0, false, 0, 0⟩, tagged_of (by decide +kernel), by decide +kernel, mIssues_of (by decide +kernel)⟩,
   ⟨(wC { item := some wI }), 0, ⟨0, 0, 0, false, 0, 0⟩, tagged_of (by decide +kernel), by decide +kernel, mIssues_of (by decide +kernel)⟩,
   ⟨(wC { item := some wI }), 0, ⟨0, 0, 0, false, 0, 0⟩, tagged_of (by decide +kernel), by decide +kernel, mIssues_of (by decide +kernel)⟩,
   ⟨(wC { item := some wI }), 0, ⟨0, 0, 0, false, 0, 0⟩, tagged_of (by decide +kernel), by decide +kernel, mIssues_of (by decide +kernel)⟩,
   ⟨(wC { item := some wI }), 0, ⟨0, 0, 0, false, 0, 0⟩, tagged_of (by decide +kernel), by decide +kernel, mIssues_of (by decide +kernel)⟩,
   ⟨(wC { item := some wI }), 0, ⟨0, 0, 0, false, 0, 0⟩, tagged_of (by decide +kernel), by decide +kernel, mIssues_of (by decide +kernel)⟩,
   ⟨(wC { item := some wI }), 0, ⟨0, 0, 0, false, 0, 0⟩, tagged_of (by decide +kernel), by decide +kernel, mIssues_of (by decide +kernel)⟩⟩

/-- `Obligations.RateStaysWithinItsLimits`: for each of its clauses a state and operands that meet its hypotheses. -/
theorem witness_rate_stays_within_its_limits :
    (∃ (s : State), ∃ (t : State), ∃ (w : Word), ∃ (r : Int),
    s.Canonical ∧ s.Reaches Reg.TB_RATE_ADJ ∧ s.isLead = true ∧ s.rb Reg.TB_STATUS 1 = false ∧ r = (s.rate : Int) + sext w.toNat 32 ∧ exec (.tbRateAdjWrite w) s = .next t ∧ 0xA000000000 - 68719477 ≤ r ∧ r ≤ 0xA000000000 + 68719477) ∧
    (∃ (s : State), ∃ (t : State), ∃ (w : Word), ∃ (r : Int),
    s.Canonical ∧ s.Reaches Reg.TB_RATE_ADJ ∧ s.isLead = true ∧ s.rb Reg.TB_STATUS 1 = false ∧ r = (s.rate : Int) + sext w.toNat 32 ∧ exec (.tbRateAdjWrite w) s = .next t ∧ r < 0xA000000000 - 68719477) ∧
    (∃ (s : State), ∃ (t : State), ∃ (w : Word), ∃ (r : Int),
    s.Canonical ∧ s.Reaches Reg.TB_RATE_ADJ ∧ s.isLead = true ∧ s.rb Reg.TB_STATUS 1 = false ∧ r = (s.rate : Int) + sext w.toNat 32 ∧ exec (.tbRateAdjWrite w) s = .next t ∧ 0xA000000000 + 68719477 < r) ∧
    (∃ (s : State),
    s.Reaches Reg.TB_RATE_ADJ ∧ s.isLead = true ∧ s.rb Reg.TB_STATUS 1 = true) ∧
    (∃ (s : State),
    s.Reaches Reg.TB_RATE_ADJ ∧ s.isLead = false) :=
  ⟨⟨wS, _, 0, _, canonical_of (by decide +kernel), reaches_of (by decide +kernel), by decide +kernel, by decide +kernel, rfl, rfl, by decide +kernel, by decide +kernel⟩,
   ⟨wS, _, 0x80000000, _, canonical_of (by decide +kernel), reaches_of (by decide +kernel), by decide +kernel, by decide +kernel, rfl, rfl, by decide +kernel⟩,
   ⟨wS, _, 0x7FFFFFFF, _, canonical_of (by decide +kernel), reaches_of (by decide +kernel), by decide +kernel, by decide +kernel, rfl, rfl, by decide +kernel⟩,
   ⟨wS.pb Reg.TB_STATUS 1 true, reaches_of (by decide +kernel), by decide +kernel, by decide +kernel⟩,
   ⟨wM, reaches_of (by decide +kernel), by decide +kernel⟩⟩

/-- `Obligations.MSlotChangesItsCoreAlone`: for each of its clauses a state and operands that meet its hypotheses. -/
theorem witness_m_slot_changes_its_core_alone :
    (∃ (s : State), ∃ (t : State), ∃ (c : Nat), ∃ (g : FmtMA), ∃ (f : FmtMR), ∃ d,
    s.Canonical ∧ Sparse.wf (fun _ => ({} : CoreSt)) s.sol.cores = true ∧ ((s.MIssues c (g.word 1) ∧ g.fits = true ∧ exec (.mCmac c g) s = .next t) ∨ (s.MIssues c (g.word 2) ∧ g.fits = true ∧ exec (.mDmac c g) s = .next t) ∨
    (s.MIssues c (g.word 3) ∧ g.fits = true ∧ exec (.mMulw c g) s = .next t) ∨ (s.MIssues c (f.word 0) ∧ f.fits = true ∧ exec (.mNop c f) s = .next t) ∨
    (s.MIssues c (f.word 8) ∧ f.fits = true ∧ exec (.mAdd c f) s = .next t) ∨ (s.MIssues c (f.word 9) ∧ f.fits = true ∧ exec (.mSub c f) s = .next t) ∨
    (s.MIssues c (f.word 0xA) ∧ f.fits = true ∧ exec (.mNeg c f) s = .next t) ∨ (s.MIssues c (f.word 0xB) ∧ f.fits = true ∧ exec (.mConj c f) s = .next t)) ∧ d ≠ c) ∧
    (∃ (s : State), ∃ (t : State), ∃ (c : Nat), ∃ (g : FmtMA), ∃ (f : FmtMR), ∃ a,
    s.Canonical ∧ Sparse.wf (fun _ => ({} : CoreSt)) s.sol.cores = true ∧ ((s.MIssues c (g.word 1) ∧ g.fits = true ∧ exec (.mCmac c g) s = .next t) ∨ (s.MIssues c (g.word 2) ∧ g.fits = true ∧ exec (.mDmac c g) s = .next t) ∨
    (s.MIssues c (g.word 3) ∧ g.fits = true ∧ exec (.mMulw c g) s = .next t) ∨ (s.MIssues c (f.word 0) ∧ f.fits = true ∧ exec (.mNop c f) s = .next t) ∨
    (s.MIssues c (f.word 8) ∧ f.fits = true ∧ exec (.mAdd c f) s = .next t) ∨ (s.MIssues c (f.word 9) ∧ f.fits = true ∧ exec (.mSub c f) s = .next t) ∨
    (s.MIssues c (f.word 0xA) ∧ f.fits = true ∧ exec (.mNeg c f) s = .next t) ∨ (s.MIssues c (f.word 0xB) ∧ f.fits = true ∧ exec (.mConj c f) s = .next t)) ∧ a ≠ Cnt.solKernel) :=
  ⟨⟨(wC { item := some wI }), _, 0, ⟨0, 1, 0, 0, 0, false, false, false⟩, ⟨0, 0, 0, false, 0, 0⟩, 1, canonical_of (by decide +kernel), by decide +kernel, .inl ⟨mIssues_of (by decide +kernel), by decide +kernel, rfl⟩, by decide⟩,
   ⟨(wC { item := some wI }), _, 0, ⟨0, 1, 0, 0, 0, false, false, false⟩, ⟨0, 0, 0, false, 0, 0⟩, 0, canonical_of (by decide +kernel), by decide +kernel, .inl ⟨mIssues_of (by decide +kernel), by decide +kernel, rfl⟩, by decide⟩⟩

/-- `Obligations.DacAndPressFollowTheirRules`: for each of its clauses a state and operands that meet its hypotheses. -/
theorem witness_dac_and_press_follow_their_rules :
    (∃ (v : Int),
    (dacCode v).2 = false) ∧
    (∃ (v : Int),
    8388096 ≤ v) ∧
    (∃ (v : Int),
    v ≤ -8389120) ∧
    (∃ (cfg : Word),
    bit cfg 31 = false) ∧
    (∃ (cfg : Word), ∃ (coefs : List Word), ∃ (x : Sig), ∃ (qs : List Sig), ∃ (n : Int), ∃ (z : Cx), ∃ (y : Cx),
    bit cfg 31 = true ∧ z = cxDot ((pressTerms cfg x qs n).map (fun (t : Nat × Cx) => (slotCx coefs t.1, t.2))) ∧ y = (pressSample cfg coefs x qs n).1 ∧ z.bad = false) ∧
    (∃ (cfg : Word), ∃ (coefs : List Word), ∃ (x : Sig), ∃ (qs : List Sig), ∃ (n : Int), ∃ (z : Cx), ∃ (y : Cx),
    bit cfg 31 = true ∧ z = cxDot ((pressTerms cfg x qs n).map (fun (t : Nat × Cx) => (slotCx coefs t.1, t.2))) ∧ y = (pressSample cfg coefs x qs n).1 ∧ (∃ t ∈ pressTerms cfg x qs n, t.2.bad = true)) ∧
    (∃ (v : Int), ∃ (n : Nat),
    0 < n ∧ 0 ≤ v) :=
  ⟨⟨0, by decide +kernel⟩,
   ⟨8388096, by decide +kernel⟩,
   ⟨-8389120, by decide +kernel⟩,
   ⟨0, by decide +kernel⟩,
   ⟨0x80000000, [], fun _ => cx0, [], 0, _, _, by decide +kernel, rfl, rfl, by decide +kernel⟩,
   ⟨0x80000000, [], fun _ => { i := 0, q := 0, bad := true }, [], 0, _, _, by decide +kernel, rfl, rfl, by decide +kernel⟩,
   ⟨0, 1, by decide +kernel, by decide +kernel⟩⟩

/-- `Obligations.BeatsAndFramesGoByPriority`: for each of its clauses a state and operands that meet its hypotheses. -/
theorem witness_beats_and_frames_go_by_priority :
    (∃ (s : State), ∃ (cs : List Nat), ∃ (c : Nat),
    s.nextBeat cs = some c ∧ (∃ w ∈ cs, 1024 ≤ Sparse.get (fun _ => 0) s.dma.passed w)) ∧
    (∃ (s : State), ∃ (cs : List Nat), ∃ (c : Nat),
    s.nextBeat cs = some c ∧ (∀ w ∈ cs, Sparse.get (fun _ => 0) s.dma.passed w < 1024)) ∧
    (∃ (cs : List Nat),
    cs ≠ []) ∧
    (∃ (s : State), ∃ (t : State), ∃ (cs : List Nat), ∃ (c : Nat), ∃ w,
    s.Canonical ∧ cs.Nodup ∧ Sparse.wf (fun _ => 0) s.dma.passed = true ∧ t = s.grantBeat cs c ∧ w ∉ cs) ∧
    (∃ (s : State), ∃ (n : Nat), ∃ (start : Nat), ∃ (f : EgrFrame),
    s.egressNext n = some (start, f)) :=
  ⟨⟨{ wS with dma := { passed := [(31, 1024)] } }, [30, 31], 31, by decide +kernel, by decide +kernel⟩,
   ⟨wS, [30, 31], 30, by decide +kernel, by decide +kernel⟩,
   ⟨[31], by decide +kernel⟩,
   ⟨wS, _, [30, 31], 31, 0, canonical_of (by decide +kernel), by decide +kernel, by decide +kernel, rfl, by decide +kernel⟩,
   ⟨{ wS with fh := { egress := [⟨7, 3, 0, [], none, none⟩] } }, 7, 0, ⟨7, 3, 0, [], none, none⟩, by decide +kernel⟩⟩

end Sys2Proof.Tests
end

section
/-!
PROOFS. What a step keeps, from what every command keeps: the part, the commands behind the front, and the canonical form (R8, R12).
-/
namespace Sys2Proof.Machine

variable {r s t : State}

theorem Keeps.part (h : Keeps r s) : s.part = r.part := h.of.1

theorem Keeps.pending (h : Keeps r s) : s.pending = r.pending := h.of.2.1

theorem Keeps.canonical (h : Keeps r s) (hr : r.Canonical) : s.Canonical := by
  obtain ⟨_, _, hkeep⟩ := h.of
  obtain ⟨hlive, hstaged, hmem⟩ := hkeep ⟨hr.live, hr.staged, hr.mem⟩
  exact ⟨hlive, hstaged, hmem⟩

/-- A step keeps all but the front of the queue: of an empty queue that is the queue itself. -/
theorem step_keeps (h : step s = .next t) : Keeps { s with pending := s.pending.tail } t := by
  cases hq : s.pending with
  | nil =>
    have hs : { s with pending := [] } = s := by rw [← hq]
    have ht : s.idle = t := by simpa [step, hq] using h
    rw [List.tail_nil, hs, ← ht]
    exact State.idle_keeps Keeps.refl
  | cons c rest => exact exec_keeps c t (by simpa [step, hq] using h)

end Sys2Proof.Machine
end

section
/-!
PROOFS. Every command answers a next state: none faults and none is refused (log entry 9).
-/
namespace Sys2Proof.Machine

variable {t : State}

/-- A meaning that answers a next state. -/
def Answers (o : Out) : Prop := ∃ t, o = .next t

theorem Answers.next : Answers (.next t) := ⟨t, rfl⟩

theorem Answers.ite {c : Prop} [Decidable c] {a b : Out} (ha : Answers a) (hb : Answers b) : Answers (if c then a else b) := by
  split <;> assumption

/-! ### Commands that look at what waits among conditions -/

theorem execRecorderTrigger_answers (rec : Nat) (s : State) : Answers (execRecorderTrigger rec s) := by
  refine .ite ?_ ?_
  · split <;> exact .next
  · split <;> exact .next

theorem execCaptureMessage_answers (r : Nat) (bs : List Byte) (s : State) : Answers (execCaptureMessage r bs s) := by
  refine .ite .next ?_
  dsimp only
  split <;> exact .next

theorem execLaneMessage_answers (l : Nat) (confirm : Bool) (logical spare at_ : Nat) (s : State) :
    Answers (execLaneMessage l confirm logical spare at_ s) := by
  refine .ite .next (.ite .next ?_)
  split
  · exact .ite .next .next
  · exact .next

theorem execCascSliceTimeout_answers (j i : Nat) (s : State) : Answers (execCascSliceTimeout j i s) := by
  refine .ite .next ?_
  split
  · exact .next
  · exact .ite .next .next

theorem execLinkTrain_answers (l : Nat) (attempts : List (List LaneTry)) (lat : Nat) (nearer : Bool) (s : State) :
    Answers (execLinkTrain l attempts lat nearer s) := by
  refine .ite .next ?_
  dsimp only
  split
  · exact .next
  · exact .ite .next .next
  · exact .ite .next .next

theorem execAlignMessage_answers (l : Nat) (m : AlignMsg) (s : State) : Answers (execAlignMessage l m s) := by
  refine .ite .next ?_
  split
  · exact .next
  · exact .ite .next (.ite .next (.ite .next .next))
  · exact .ite .next .next
  · exact .next

theorem execSnapshotFire_answers (s : State) : Answers (execSnapshotFire s) := by
  rw [execSnapshotFire]
  split
  · exact .next
  · dsimp only
    split <;> exact .next

theorem execPrachOccasion_answers (k : Nat) (adc : List (List Int)) (s : State) : Answers (execPrachOccasion k adc s) := by
  rw [execPrachOccasion]
  split
  · exact .next
  · refine .ite .next ?_
    split <;> exact .next

theorem execWorkItemStart_answers (c : Nat) (s : State) : Answers (execWorkItemStart c s) := by
  rw [execWorkItemStart]
  dsimp only
  split
  · exact .next
  · refine .ite .next ?_
    split <;> exact .next

theorem execMonitorConversionDone_answers (q : Nat) (input dev : Int) (s : State) :
    Answers (execMonitorConversionDone q input dev s) := by
  rw [execMonitorConversionDone]
  dsimp only
  split
  · exact .next
  · split <;> exact .next
  · exact .next

theorem execCarrierSwitch_answers (c : Nat) (s : State) : Answers (execCarrierSwitch c s) := by
  rw [execCarrierSwitch]
  split
  · exact .next
  · refine .ite .next (.ite .next (.ite ?_ (.ite ?_ ?_)))
    · split <;> exact .next
    · split <;> exact .next
    · split <;> exact .next

/-! ### Every command -/

/-- No command faults or is refused: most meanings are a next state as they stand; the others branch, by conditions and by what waits in the
state, and each branch is one. -/
theorem exec_answers (c : Instr) (s : State) : Answers (exec c s) := by
  cases c
  -- one condition
  case carryFwdDone | crossingOverflow | dlSymbol | fomMeasure | laneFailure | portLinkDown | pwTile | recTestDone | sensorConversion
    | srsEstimate | timeMessage | ulSymbol | wakeMessage | xSput => exact .ite .next .next
  -- a chain of conditions
  case calOccasion | cascStripe | ecpriMessage | gridBoundary | jobDeadline | ppsOutRise | tileStripe =>
    exact .ite .next (.ite .next .next)
  case calCycleStart => exact .ite .next (.ite .next (.ite .next (.ite .next .next)))
  case frameReceive => exact .ite .next (.ite .next (.ite .next (.ite .next (.ite .next (.ite .next (.ite .next .next))))))
  -- what waits in the state, if anything does
  case cascEstimateRecord => rw [exec, execCascEstimateRecord]; split <;> exact .next
  case cascLayerRecord => rw [exec, execCascLayerRecord]; split <;> exact .next
  case cascPartialRecord => rw [exec, execCascPartialRecord]; split <;> exact .next
  case cascPartialTimeout => rw [exec, execCascPartialTimeout]; split <;> exact .next
  case configCapture => rw [exec, execConfigCapture]; split <;> exact .next
  case configCommit => rw [exec, execConfigCommit]; split <;> exact .next
  case cplaneWindowClose => rw [exec, execCplaneWindowClose]; dsimp only; split <;> exact .next
  case monitorCalDone => rw [exec, execMonitorCalDone]; dsimp only; split <;> exact .next
  case monitorSequence => rw [exec, execMonitorSequence]; split <;> exact .next
  case sgetArrival => rw [exec, execSgetArrival]; dsimp only; split <;> exact .next
  case timeStepApply => rw [exec, execTimeStepApply]; split <;> exact .next
  case trellisCfgApply => rw [exec, execTrellisCfgApply]; split <;> exact .next
  case ulEgress => rw [exec, execUlEgress]; split <;> exact .next
  case weightCommitEval => rw [exec, execWeightCommitEval]; split <;> exact .next
  case weightCommitReeval => rw [exec, execWeightCommitReeval]; split <;> exact .next
  case workItemTimeout => rw [exec, execWorkItemTimeout]; split <;> exact .next
  -- what waits, then conditions
  case failRecordPost => rw [exec, execFailRecordPost]; dsimp only; split; exacts [.next, .ite .next .next]
  case jobRelease => rw [exec, execJobRelease]; split; exacts [.next, .ite .next .next]
  case laneRetrain => rw [exec, execLaneRetrain]; dsimp only; split; exacts [.next, .ite .next .next]
  case laneSwap => rw [exec, execLaneSwap]; dsimp only; split; exacts [.next, .ite .next (.ite .next .next)]
  case msgResendTimeout => rw [exec, execMsgResendTimeout]; dsimp only; split; exacts [.next, .ite .next (.ite .next .next)]
  case nullCalcDone => rw [exec, execNullCalcDone]; split; exacts [.next, .ite .next .next]
  case snapshotLatch => rw [exec, execSnapshotLatch]; split; exacts [.next, .ite .next .next]
  case weightRetire => rw [exec, execWeightRetire]; split; exacts [.next, .ite .next .next]
  case weightSwitch => rw [exec, execWeightSwitch]; split; exacts [.next, .ite .next .next]
  case cascSliceRecord => rw [exec, execCascSliceRecord]; split; exacts [.next, .ite .next (.ite .next .next)]
  case commitMessage => rw [exec]; unfold execCommitMessage; split; exacts [.next, .ite .next .next]
  -- what waits among conditions
  case recorderTrigger rec => exact execRecorderTrigger_answers rec s
  case captureMessage r bs => exact execCaptureMessage_answers r bs s
  case laneMessage l confirm logical spare at_ => exact execLaneMessage_answers l confirm logical spare at_ s
  case cascSliceTimeout j i => exact execCascSliceTimeout_answers j i s
  case linkTrain l attempts lat nearer => exact execLinkTrain_answers l attempts lat nearer s
  case alignMessage l m => exact execAlignMessage_answers l m s
  case snapshotFire => exact execSnapshotFire_answers s
  case prachOccasion k adc => exact execPrachOccasion_answers k adc s
  case workItemStart c => exact execWorkItemStart_answers c s
  case monitorConversionDone q input dev => exact execMonitorConversionDone_answers q input dev s
  case carrierSwitch c => exact execCarrierSwitch_answers c s
  all_goals exact .next

end Sys2Proof.Machine
end

section
/-!
PROOFS. Host accesses to BAR0 (R8-R13, R540), by what the offset names: a register that takes the write, its staged view, an absent unit, or
a block whose domain is off.
-/
namespace Sys2Proof.Machine

variable {s u : State} {r : RegRow} {i j a l o m be : Nat} {w : Word}

/-! ### Words -/

@[simp] theorem maskW_full (w : Word) : maskW w 0xFFFFFFFF = w := BitVec.and_allOnes
@[simp] theorem maskW_zero (w : Word) : maskW w 0 = 0 := BitVec.and_zero

@[simp] theorem mergeW_full (old w : Word) : mergeW old w 0xFFFFFFFF = w := by simp [mergeW]

theorem enableMask_all : enableMask 15 = 0xFFFFFFFF := rfl

/-! ### What a host access comes to while the function is up or down -/

theorem State.mgmt_of_pcieUp (h : s.pcieUp = true) : s.domOn 1 = true := by
  unfold State.pcieUp at h
  exact (Bool.and_eq_true_iff.mp h).2

theorem exec_registerWrite_up (h : s.pcieUp = true) (ho : o < 0x10000000) :
    exec (.registerWrite o w be) s = .next (s.writeBar0 o w be).forwardLocks := by
  simp [exec, execRegisterWrite, h, ho]

theorem exec_registerRead_up (hu : u = s.egressRun) (h : u.pcieUp = true) (ho : o < 0x10000000) :
    exec (.registerRead false o be) s = .next (u.readBar0 o (enableMask be)) := by
  simp [exec, execRegisterRead, ← hu, h, ho]

theorem exec_registerWrite_down (h : s.pcieUp = false) : exec (.registerWrite o w be) s = .next s := by
  simp [exec, execRegisterWrite, h]

theorem exec_storeSlotWrite_down (h : s.pcieUp = false) : exec (.storeSlotWrite o w be) s = .next s := by
  simp [exec, execStoreSlotWrite, h]

theorem exec_registerRead_down {b : Bool} (h : s.egressRun.pcieUp = false) :
    exec (.registerRead b o be) s = .next s.egressRun := by
  simp [exec, execRegisterRead, h]

/-! ### Offsets where no block answers -/

theorem writeBar0_absent (hm : s.domOn 1 = true) (hsec : ¬ (0x09000000 ≤ o ∧ o < 0x0A000000)) (hl : stagedToLive (o / 4 * 4) = none)
    (hp : s.part.has (placeOf (o / 4 * 4)).1 = false) : s.writeBar0 o w be = s := by
  have hsec' : ¬ (0x09000000 ≤ o / 4 * 4 ∧ o / 4 * 4 < 0x0A000000) := by omega
  simp [State.writeBar0, State.writeBits, hm, hsec', hl, hp]

theorem readBar0_absent (hl : stagedToLive (o / 4 * 4) = none) (hp : s.part.has (placeOf (o / 4 * 4)).1 = false) :
    s.readBar0 o m = s.answer 0 := by
  simp [State.readBar0, hl, hp]

theorem writeBar0_off (hm : s.domOn 1 = true) (ho : o < 0x09000000) (hl : stagedToLive (o / 4 * 4) = none)
    (hp : s.part.has (placeOf (o / 4 * 4)).1 = true) (hd : s.domOn (domainOf (o / 4 * 4)) = false) :
    s.writeBar0 o w be = s.offAccess := by
  have hsec : ¬ (0x09000000 ≤ o / 4 * 4 ∧ o / 4 * 4 < 0x0A000000) := by omega
  cases hr : regAt (o / 4 * 4) <;> simp [State.writeBar0, State.writeBits, hm, hsec, hl, hp, hd, hr]

theorem readBar0_off (hm : s.domOn 1 = true) (hl : stagedToLive (o / 4 * 4) = none)
    (hp : s.part.has (placeOf (o / 4 * 4)).1 = true) (hd : s.domOn (domainOf (o / 4 * 4)) = false) :
    s.readBar0 o m = (s.answer 0).offAccess := by
  simp [State.readBar0, hm, hl, hp, hd]

/-! ### Offsets of a register -/

/-- `a` is the live offset of element `i`, `j` of the row `r`. -/
structure LiveReg (a : Nat) (r : RegRow) (i j : Nat) : Prop where
  aligned : a / 4 * 4 = a
  notSecure : ¬ (0x09000000 ≤ a ∧ a < 0x0A000000)
  notStaged : stagedToLive a = none
  row : regAt a = some (r, i, j)

/-- A write of the register is not discarded: it has writable fields, no rule refuses it and it has no error flag. -/
structure State.TakesWrite (s : State) (a : Nat) (r : RegRow) (i : Nat) : Prop where
  allowed : s.refuses r.name i (placeOf a).1 = false
  writable : ¬ (r.rw = 0 ∧ r.stg = 0 ∧ r.w1c = 0 ∧ r.wo = 0)
  unflagged : errFlag r.name i (placeOf a).1 = none

/-- The hub's blocks are on every part and no tile fault loses them. -/
theorem State.reaches_hub (hm : s.domOn 1 = true) (hp : (placeOf a).1 = .hub) (hd : s.domOn (domainOf a) = true)
    (hn : domainOf a < 8) : s.Reaches a where
  mgmt := hm
  present := by rw [hp]; rfl
  powered := hd
  answers := by simp [State.lostTo, Nat.not_le.mpr hn]

theorem State.Reaches.writeBar0 (h : s.Reaches a) (hr : LiveReg a r i j) (ht : s.TakesWrite a r i) :
    s.writeBar0 a w be = s.writeReg r i j a (enableMask be) w := by
  unfold State.writeBar0 State.writeBits
  simp [hr.aligned, hr.notSecure, hr.notStaged, hr.row, h.mgmt, h.present, h.powered, h.answers, ht.allowed, ht.writable, ht.unflagged]

theorem State.Reaches.writeBar0_staged (h : s.Reaches l) (hr : LiveReg l r i j) (hf : s.refuses r.name i (placeOf l).1 = false)
    (ha : a / 4 * 4 = a) (hs : stagedToLive a = some l) (hal : a ≠ l) (hsec : ¬ (0x09000000 ≤ a ∧ a < 0x0A000000)) :
    s.writeBar0 a w be = s.writeStaged r l (enableMask be) w := by
  unfold State.writeBar0 State.writeBits
  simp [ha, hsec, hs, hal, hr.row, h.mgmt, h.present, h.powered, h.answers, hf]

/-- The mailbox registers that read 0 where the host does not reach the mailbox (R420). -/
def hostMboxRegs : List String := ["MB_H2D_STAT", "MB_D2H_STAT", "MB_ACK", "MB_CTRL", "MB_EVT"]

theorem State.Reaches.readBar0 (h : s.Reaches a) (hr : LiveReg a r i j) (hn : r.name ∉ hostMboxRegs) :
    s.readBar0 a m = (s.answer 0).readReg r i a m (placeOf a).1 := by
  simp only [hostMboxRegs, List.mem_cons, List.not_mem_nil, or_false] at hn
  simp [State.readBar0, hr.aligned, hr.notStaged, hr.row, h.mgmt, h.present, h.powered, h.answers, hn]

end Sys2Proof.Machine
end

section
/-!
PROOFS. What a write or a read of one register does, by its access codes (R10, R12, R13).
-/
namespace Sys2Proof.Machine

variable {s u : State} {r : RegRow} {i j a l o m be : Nat} {w : Word}

/-! ### Fields by access code -/

@[simp] theorem and_word_full (x : Word) : x &&& 0xFFFFFFFF#32 = x := BitVec.and_allOnes

theorem poke_rw (hr : regAt a = some (r, i, j)) (hstg : r.stg = 0) (hw1c : r.w1c = 0) :
    s.poke a w = s.wr a (maskW (s.rd a) (0xFFFFFFFF - r.rw) ||| maskW w r.rw) := by
  simp [State.poke, hr, hstg, hw1c]

/-- The staged registers whose write is noted for the next commit (R350, and the eAxC table). -/
def notedRegs : List String := ["TX_GAIN", "TX_DELAY", "RX_GAIN", "RX_DELAY", "FH_EAXC_KEY", "FH_EAXC_ENT"]

theorem stage_eq_swr (hr : regAt a = some (r, i, j)) (hn : r.name ∉ notedRegs) : s.stage a w = s.swr a (maskW w r.stg) := by
  simp only [notedRegs, List.mem_cons, List.not_mem_nil, or_false, not_or] at hn
  obtain ⟨h1, h2, h3, h4, h5, h6⟩ := hn
  simp [State.stage, hr, h1, h2, h3, h4, h5, h6]

theorem poke_stg (hr : regAt a = some (r, i, j)) (hrw : r.rw = 0) (hw1c : r.w1c = 0) (hstg : r.stg ≠ 0) :
    s.poke a w = (s.wr a (s.rd a)).stage a w := by
  simp [State.poke, hr, hrw, hw1c, hstg]

theorem State.rd_wr_self (h : s.Canonical) (a b : Nat) : (s.wr a (s.rd a)).rd b = s.rd b := by
  rcases eq_or_ne b a with rfl | hb
  · exact State.rd_wr_same h b (s.rd b)
  · exact State.rd_wr_ne h (s.rd a) hb

/-! ### Writes -/

/-- The value that a write of the enabled bits gives the fields of a register, over what they hold (R8). -/
def State.merged (s : State) (r : RegRow) (a m : Nat) (w : Word) : Word :=
  mergeW (maskW (s.rd a) r.rw ||| maskW (s.srd a) r.stg) w m

/-- A register of no pair whose write acts whatever bytes it enables. -/
theorem writeReg_plain (hlo : r.name ∉ pairLos) (hhi : r.name ∉ pairHis) (horg : r.name ≠ "TB_GRID_ORG_SEC_LO")
    (hact : actingBits r.name = none) :
    s.writeReg r i j a m w = s.writeUnit (placeOf a).1 r.name i j a (s.merged r a m w) := by
  have hring : r.name ≠ "RING_BASE_LO" := fun h => hlo (h ▸ by decide)
  simp [State.writeReg, State.merged, mergeW, hlo, hhi, horg, hact, hring]

/-- A write of a _LO register is kept (R13). -/
theorem writeReg_lo (hlo : r.name ∈ pairLos) (hring : r.name ≠ "RING_BASE_LO") :
    s.writeReg r i j a 0xFFFFFFFF w = s.latchLo a w := by
  simp [State.writeReg, hlo, hring]

/-- A write of a staged _HI register writes both halves of its pair (R13). -/
theorem writeReg_hi (hlo : r.name ∉ pairLos) (hhi : r.name ∈ pairHis) (hstg : r.stg ≠ 0) :
    s.writeReg r i j a 0xFFFFFFFF w =
      (s.writeUnit (placeOf a).1 r.name i j (a - 4) (s.lastLo (a - 4) (s.srd (a - 4)))).writeUnit (placeOf a).1 r.name i j a w := by
  have hring : r.name ≠ "RING_BASE_LO" := fun h => hlo (h ▸ by decide)
  simp [State.writeReg, hlo, hhi, hring, hstg]

/-- A write in the staged view of a register of no pair stages it (R12). -/
theorem writeStaged_plain (hstg : r.stg ≠ 0) (hlo : r.name ∉ pairLos) (hhi : r.name ∉ pairHis) :
    s.writeStaged r a 0xFFFFFFFF w = s.stage a w := by
  simp [State.writeStaged, hstg, hlo, hhi]

/-! ### Reads -/

theorem readReg_plain {pl : Place} (hrun : s.readRun r.name i pl = none) (hcap : s.tb.hiCap = []) (hlo : r.name ∉ readLos) :
    s.readReg r i a 0xFFFFFFFF pl = s.answer ((s.stagedRead a).getD (s.peek a)) := by
  simp [State.readReg, hrun, hcap, hlo]

/-- A read of a _LO register captures its _HI (R13). -/
theorem readReg_lo {pl : Place} (hrun : s.readRun r.name i pl = none) (hcap : s.tb.hiCap = []) (hlo : r.name ∈ readLos) :
    s.readReg r i a 0xFFFFFFFF pl = { s.answer ((s.stagedRead a).getD (s.peek a)) with
      tb := { s.tb with hiCap := [(a + 4, s.peek (a + 4))] } } := by
  simp [State.readReg, hrun, hcap, hlo]

/-- The next read of a captured _HI returns what was captured (R13). -/
theorem readReg_captured {pl : Place} (hrun : s.readRun r.name i pl = none) (hcap : s.tb.hiCap = [(a, w)]) :
    s.readReg r i a 0xFFFFFFFF pl = State.answer { s with tb := { s.tb with hiCap := [] } } w := by
  simp [State.readReg, hrun, hcap]

theorem peekLive_hub (hp : (placeOf a).1 = .hub) : s.peekLive a = (s.computedHub a).getD (s.rd a) := by
  have hhas : s.part.has .hub = true := rfl
  simp [State.peekLive, hp, hhas]

theorem peek_live (hs : stagedToLive a = none) : s.peek a = s.peekLive a := by
  simp [State.peek, hs]

/-- A read in the staged view gives the staged value of the STG fields and the live value of the others (R12). -/
theorem peek_staged (hs : stagedToLive a = some l) (hr : regAt l = some (r, i, j)) (hp : s.part.has (placeOf l).1 = true) :
    s.peek a = maskW (s.srd l) r.stg ||| maskW (s.peekLive l) (0xFFFFFFFF - r.stg) := by
  simp [State.peek, hs, hr, hp]

theorem State.Reaches.readBar0_staged (h : s.Reaches l) (hr : LiveReg l r i j) (ha : a / 4 * 4 = a) (hs : stagedToLive a = some l)
    (hal : a ≠ l) (hn : r.name ∉ hostMboxRegs) (hcap : s.tb.hiCap = []) (hlo : r.name ∉ readLos) :
    s.readBar0 a 0xFFFFFFFF = s.answer ((s.stagedRead a).getD (s.peek a)) := by
  simp only [hostMboxRegs, List.mem_cons, List.not_mem_nil, or_false] at hn
  simp [State.readBar0, ha, hs, hal, hr.row, h.mgmt, h.present, h.powered, h.answers, hn, hcap, hlo]

end Sys2Proof.Machine
end

section
/-!
PROOFS. A host's accesses to the registers that the statements name (R8-R13, R540).
-/
namespace Sys2Proof.Machine

variable {s u : State} {c : Nat} {w : Word}

/-! ### The registers -/

theorem idDevice_live : LiveReg Reg.ID_DEVICE { name := "ID_DEVICE", off := 0x0, ro := 0xFFFFFFFF } 0 0 :=
  ⟨rfl, by decide, rfl, rfl⟩

theorem countLo_live : LiveReg Reg.TB_COUNT_LO { name := "TB_COUNT_LO", off := 0x100008, ro := 0xFFFFFFFF } 0 0 :=
  ⟨rfl, by decide, rfl, rfl⟩

theorem countHi_live : LiveReg Reg.TB_COUNT_HI { name := "TB_COUNT_HI", off := 0x10000C, ro := 0xFFFFFFFF } 0 0 :=
  ⟨rfl, by decide, rfl, rfl⟩

theorem holdCfg_live : LiveReg Reg.TB_HOLD_CFG { name := "TB_HOLD_CFG", off := 0x100050, reset := 0x103E8, rw := 0x1FFFF } 0 0 :=
  ⟨rfl, by decide, rfl, rfl⟩

/-- The row of FH_WIN_CLOSE, one register a carrier. -/
def winCloseRow : RegRow :=
  { name := "FH_WIN_CLOSE", off := 0x200090, strideA := 0x10, countA := 4, reset := 0x9C40, stg := 0xFFFFF }

theorem winClose_live (hc : c < 4) : LiveReg (Reg.FH_WIN_CLOSE c) winCloseRow c 0 := by
  interval_cases c <;> exact ⟨rfl, by decide, rfl, rfl⟩

theorem txNcoLo_live : LiveReg (Reg.TX_NCO_LO 0) { name := "TX_NCO_LO", off := 0x8, stg := 0xFFFFFFFF } 0 0 :=
  ⟨rfl, by decide, rfl, rfl⟩

theorem txNcoHi_live : LiveReg (Reg.TX_NCO_HI 0) { name := "TX_NCO_HI", off := 0xC, stg := 0xFFFF } 0 0 :=
  ⟨rfl, by decide, rfl, rfl⟩

theorem winClose_place (hc : c < 4) : (placeOf (Reg.FH_WIN_CLOSE c)).1 = .hub := by interval_cases c <;> rfl

theorem winClose_domain (hc : c < 4) : domainOf (Reg.FH_WIN_CLOSE c) = 3 := by interval_cases c <;> rfl

theorem winClose_staged (hc : c < 4) : stagedToLive (Reg.FH_WIN_CLOSE c + 0x100000) = some (Reg.FH_WIN_CLOSE c) := by
  interval_cases c <;> rfl

theorem peekLive_winClose (hc : c < 4) : s.peekLive (Reg.FH_WIN_CLOSE c) = s.rd (Reg.FH_WIN_CLOSE c) := by
  have hstored : s.computedHub (Reg.FH_WIN_CLOSE c) = none := by interval_cases c <;> rfl
  rw [peekLive_hub (winClose_place hc), hstored]
  rfl

/-! ### Which of them answer -/

theorem State.reaches_timeBase {a : Nat} (h : s.pcieUp = true) (hd : s.domOn 2 = true) (hp : (placeOf a).1 = .hub)
    (ha : domainOf a = 2) : s.Reaches a :=
  State.reaches_hub (State.mgmt_of_pcieUp h) hp (ha ▸ hd) (by omega)

theorem State.reaches_winClose (h : s.pcieUp = true) (hd : s.domOn 3 = true) (hc : c < 4) : s.Reaches (Reg.FH_WIN_CLOSE c) :=
  State.reaches_hub (State.mgmt_of_pcieUp h) (winClose_place hc) (winClose_domain hc ▸ hd) (by rw [winClose_domain hc]; decide)

theorem State.reaches_path0 {a : Nat} (h : s.pcieUp = true) (hd : s.domOn 8 = true) (hl : s.lostTo (Reg.TX_NCO_LO 0) = false)
    (hp : (placeOf a).1 = .path 0) (ha : domainOf a = 8) : s.Reaches a where
  mgmt := State.mgmt_of_pcieUp h
  present := by rw [hp]; cases s.part <;> rfl
  powered := ha ▸ hd
  answers := by
    have hlo : domainOf (Reg.TX_NCO_LO 0) = 8 := rfl
    rw [State.lostTo, hlo] at hl
    rw [State.lostTo, ha, hl]

/-! ### Writes -/

theorem registerWrite_holdCfg (h : s.pcieUp = true) (hd : s.domOn 2 = true) (be : Nat) :
    exec (.registerWrite Reg.TB_HOLD_CFG w be) s = .next ((s.wr Reg.TB_HOLD_CFG
      (maskW (s.rd Reg.TB_HOLD_CFG) (0xFFFFFFFF - 0x1FFFF) |||
        maskW (mergeW (maskW (s.rd Reg.TB_HOLD_CFG) 0x1FFFF) w (enableMask be)) 0x1FFFF)).restartSync.forwardLocks) := by
  have hwrite : ∀ v, s.writeUnit (placeOf Reg.TB_HOLD_CFG).1 "TB_HOLD_CFG" 0 0 Reg.TB_HOLD_CFG v =
      (s.poke Reg.TB_HOLD_CFG v).restartSync := fun _ => rfl
  rw [exec_registerWrite_up h (by decide), (State.reaches_timeBase h hd rfl rfl).writeBar0 holdCfg_live ⟨rfl, by decide, rfl⟩,
    writeReg_plain (by decide) (by decide) (by decide) (by decide), hwrite, poke_rw holdCfg_live.row rfl rfl]
  simp [State.merged]

theorem winClose_takes (hc : c < 4) : s.TakesWrite (Reg.FH_WIN_CLOSE c) winCloseRow c where
  allowed := by rw [winClose_place hc]; rfl
  writable := by decide
  unflagged := by rw [winClose_place hc]; rfl

/-- A write of FH_WIN_CLOSE at its live offset writes its staged value and gives its live value back to it. -/
theorem registerWrite_winClose (h : s.pcieUp = true) (hd : s.domOn 3 = true) (hc : c < 4) :
    exec (.registerWrite (Reg.FH_WIN_CLOSE c) w 15) s = .next
      ((s.wr (Reg.FH_WIN_CLOSE c) (s.rd (Reg.FH_WIN_CLOSE c))).swr (Reg.FH_WIN_CLOSE c) (maskW w 0xFFFFF)).forwardLocks := by
  have hwrite : ∀ v, s.writeUnit .hub winCloseRow.name c 0 (Reg.FH_WIN_CLOSE c) v = s.poke (Reg.FH_WIN_CLOSE c) v := fun _ => rfl
  rw [exec_registerWrite_up h (by simp only [Reg.FH_WIN_CLOSE]; omega),
    (State.reaches_winClose h hd hc).writeBar0 (winClose_live hc) (winClose_takes hc), enableMask_all,
    writeReg_plain (by decide) (by decide) (by decide) (by decide), winClose_place hc, hwrite,
    poke_stg (winClose_live hc).row rfl rfl (by decide), stage_eq_swr (winClose_live hc).row (by decide)]
  simp [State.merged, winCloseRow]

theorem registerWrite_winClose_staged (h : s.pcieUp = true) (hd : s.domOn 3 = true) (hc : c < 4) :
    exec (.registerWrite (Reg.FH_WIN_CLOSE c + 0x100000) w 15) s =
      .next (s.swr (Reg.FH_WIN_CLOSE c) (maskW w 0xFFFFF)).forwardLocks := by
  have hoff : Reg.FH_WIN_CLOSE c = 0x200090 + 0x10 * c := rfl
  rw [exec_registerWrite_up h (by omega), (State.reaches_winClose h hd hc).writeBar0_staged (winClose_live hc) (winClose_takes hc).allowed
    (by omega) (winClose_staged hc) (by omega) (by omega), enableMask_all,
    writeStaged_plain (by decide) (by decide) (by decide), stage_eq_swr (winClose_live hc).row (by decide)]
  rfl

theorem registerWrite_txNcoLo (h : s.pcieUp = true) (hd : s.domOn 8 = true) (hl : s.lostTo (Reg.TX_NCO_LO 0) = false) :
    exec (.registerWrite (Reg.TX_NCO_LO 0) w 15) s = .next (s.latchLo (Reg.TX_NCO_LO 0) w).forwardLocks := by
  rw [exec_registerWrite_up h (by decide), (State.reaches_path0 h hd hl rfl rfl).writeBar0 txNcoLo_live ⟨rfl, by decide, rfl⟩,
    enableMask_all, writeReg_lo (by decide) (by decide)]

/-- A write of TX_NCO_HI stages both halves: the low one as last written. -/
theorem registerWrite_txNcoHi (h : s.pcieUp = true) (hd : s.domOn 8 = true) (hl : s.lostTo (Reg.TX_NCO_LO 0) = false) :
    exec (.registerWrite (Reg.TX_NCO_HI 0) w 15) s = .next ((s.poke (Reg.TX_NCO_LO 0)
      (s.lastLo (Reg.TX_NCO_LO 0) (s.srd (Reg.TX_NCO_LO 0)))).poke (Reg.TX_NCO_HI 0) w).forwardLocks := by
  rw [exec_registerWrite_up h (by decide), (State.reaches_path0 h hd hl rfl rfl).writeBar0 txNcoHi_live ⟨rfl, by decide, rfl⟩,
    enableMask_all, writeReg_hi (by decide) (by decide) (by decide)]
  rfl

theorem poke_txNco_staged (l : Word) : ((s.poke (Reg.TX_NCO_LO 0) l).poke (Reg.TX_NCO_HI 0) w).staged =
    ((s.stage (Reg.TX_NCO_LO 0) l).stage (Reg.TX_NCO_HI 0) w).staged := by
  simp only [poke_stg txNcoLo_live.row rfl rfl (by decide), poke_stg txNcoHi_live.row rfl rfl (by decide),
    stage_eq_swr txNcoLo_live.row (by decide), stage_eq_swr txNcoHi_live.row (by decide)]
  rfl

/-! ### Reads -/

theorem registerRead_idDevice (hu : u = s.egressRun) (h : u.pcieUp = true) (hcap : u.tb.hiCap = []) :
    exec (.registerRead false Reg.ID_DEVICE 15) s = .next (u.answer (u.rd Reg.ID_DEVICE)) := by
  have hm := State.mgmt_of_pcieUp h
  have hcap0 : (u.answer 0).tb.hiCap = [] := hcap
  have hreach : u.Reaches Reg.ID_DEVICE := State.reaches_hub hm rfl hm (by decide)
  rw [exec_registerRead_up hu h (by decide), enableMask_all, hreach.readBar0 idDevice_live (by decide),
    readReg_plain rfl hcap0 (by decide), peek_live idDevice_live.notStaged, peekLive_hub rfl]
  rfl

theorem registerRead_winClose (hu : u = s.egressRun) (h : u.pcieUp = true) (hd : u.domOn 3 = true) (hc : c < 4)
    (hcap : u.tb.hiCap = []) :
    exec (.registerRead false (Reg.FH_WIN_CLOSE c) 15) s = .next (u.answer (u.rd (Reg.FH_WIN_CLOSE c))) := by
  have hoff : Reg.FH_WIN_CLOSE c = 0x200090 + 0x10 * c := rfl
  have hcap0 : (u.answer 0).tb.hiCap = [] := hcap
  have hstaged : (u.answer 0).stagedRead (Reg.FH_WIN_CLOSE c) = none := by interval_cases c <;> rfl
  rw [exec_registerRead_up hu h (by omega), enableMask_all, (State.reaches_winClose h hd hc).readBar0 (winClose_live hc) (by decide),
    winClose_place hc, readReg_plain rfl hcap0 (by decide), peek_live (winClose_live hc).notStaged, hstaged,
    peekLive_winClose hc]
  rfl

theorem registerRead_winClose_staged (hu : u = s.egressRun) (h : u.pcieUp = true) (hd : u.domOn 3 = true) (hc : c < 4)
    (hcap : u.tb.hiCap = []) :
    exec (.registerRead false (Reg.FH_WIN_CLOSE c + 0x100000) 15) s = .next
      (u.answer (maskW (u.srd (Reg.FH_WIN_CLOSE c)) 0xFFFFF ||| maskW (u.rd (Reg.FH_WIN_CLOSE c)) (0xFFFFFFFF - 0xFFFFF))) := by
  have hoff : Reg.FH_WIN_CLOSE c = 0x200090 + 0x10 * c := rfl
  have hreach := State.reaches_winClose h hd hc
  have hstaged : u.stagedRead (Reg.FH_WIN_CLOSE c + 0x100000) = none := by interval_cases c <;> rfl
  rw [exec_registerRead_up hu h (by omega), enableMask_all, hreach.readBar0_staged (winClose_live hc) (by omega) (winClose_staged hc)
    (by omega) (by decide) hcap (by decide), hstaged, peek_staged (winClose_staged hc) (winClose_live hc).row hreach.present,
    peekLive_winClose hc]
  rfl

/-- A read of the count captures its high word (R13). -/
theorem registerRead_countLo (hu : u = s.egressRun) (h : u.pcieUp = true) (hd : u.domOn 2 = true) (hcap : u.tb.hiCap = []) :
    exec (.registerRead false Reg.TB_COUNT_LO 15) s = .next { u.answer (toW u.tick) with
      tb := { u.tb with hiCap := [(Reg.TB_COUNT_HI, toW (u.tick / 2 ^ 32))] } } := by
  have hcap0 : (u.answer 0).tb.hiCap = [] := hcap
  rw [exec_registerRead_up hu h (by decide), enableMask_all, (State.reaches_timeBase h hd rfl rfl).readBar0 countLo_live (by decide),
    readReg_lo rfl hcap0 (by decide)]
  rfl

theorem registerRead_countHi (hu : u = s.egressRun) (h : u.pcieUp = true) (hd : u.domOn 2 = true)
    (hcap : u.tb.hiCap = [(Reg.TB_COUNT_HI, w)]) :
    exec (.registerRead false Reg.TB_COUNT_HI 15) s =
      .next (State.answer { u with tb := { u.tb with hiCap := [] } } w) := by
  have hcap0 : (u.answer 0).tb.hiCap = [(Reg.TB_COUNT_HI, w)] := hcap
  rw [exec_registerRead_up hu h (by decide), enableMask_all, (State.reaches_timeBase h hd rfl rfl).readBar0 countHi_live (by decide),
    readReg_captured rfl hcap0]
  rfl

end Sys2Proof.Machine
end

section
/-!
PROOFS. Host accesses to BAR2 (R8, R14, R154, R155, R157, R540), by the window and the cell that the offset names.
-/
namespace Sys2Proof.Machine

variable {s u : State} {o off be k : Nat} {w : Word}

/-! ### What a host access comes to -/

theorem exec_storeSlotWrite_on (h : s.pcieUp = true) (hd : s.domOn 7 = true) :
    exec (.storeSlotWrite o w be) s = .next (s.writeBar2 o w be).1 := by
  simp [exec, execStoreSlotWrite, h, hd]

theorem exec_storeSlotWrite_off (h : s.pcieUp = true) (hd : s.domOn 7 = false) :
    exec (.storeSlotWrite o w be) s = .next s.offAccess := by
  simp [exec, execStoreSlotWrite, h, hd]

theorem exec_registerRead_bar2 (hu : u = s.egressRun) (h : u.pcieUp = true) (hd : u.domOn 7 = true) :
    exec (.registerRead true o 15) s = .next (u.answer (u.readBar2 o)) := by
  simp [exec, execRegisterRead, ← hu, h, hd, enableMask_all]

theorem exec_registerRead_bar2_off (hu : u = s.egressRun) (h : u.pcieUp = true) (hd : u.domOn 7 = false) :
    exec (.registerRead true o be) s = .next (u.answer 0).offAccess := by
  simp [exec, execRegisterRead, ← hu, h, hd]

/-! ### Words of the stores -/

theorem mergeBits_full (old : Nat) (v : Word) : mergeBits old v.toNat 0xFFFFFFFF = v.toNat := by
  simp [mergeBits, toW]

/-- The high half of a slot holds 16 bits of the word: a full write of it leaves nothing of what it held (R14). -/
theorem mergeBits_half {old new : Nat} (hold : old < 2 ^ 16) (hnew : new < 2 ^ 16) : mergeBits old new 0xFFFF = new := by
  have hgone : old &&& 0xFFFF0000 = 0 := by
    refine Nat.eq_of_testBit_eq fun i => ?_
    rw [Nat.testBit_and, show 0xFFFF0000 = 0xFFFF <<< 16 from rfl, Nat.testBit_shiftLeft, Nat.zero_testBit]
    by_cases hi : i < 16
    · simp [Nat.not_le.mpr hi]
    · simp [Nat.testBit_lt_two_pow (hold.trans_le (Nat.pow_le_pow_right (by decide) (Nat.not_lt.mp hi)))]
  have hkept : new &&& 0xFFFF = new := by
    rw [show 0xFFFF = 2 ^ 16 - 1 from rfl, Nat.and_two_pow_sub_one_eq_mod, Nat.mod_eq_of_lt hnew]
  have holdW : old % 2 ^ 32 = old := Nat.mod_eq_of_lt (by omega)
  have hnewW : new % 2 ^ 32 = new := Nat.mod_eq_of_lt (by omega)
  simp only [mergeBits, toW, BitVec.toNat_or, BitVec.toNat_and, BitVec.toNat_ofNat, holdW, hnewW]
  norm_num [hgone, hkept]

theorem memNat_two (a : Nat) : s.memNat a 2 < 2 ^ 16 := by
  have h0 := (s.memByte a).isLt
  have h1 := (s.memByte (a + 1)).isLt
  simp only [State.memNat, List.range, List.range.loop, List.foldl]
  omega

/-! ### Frames of the writes of memory -/

/-- What a slot's bytes go through, one byte at a time: a relation that every byte written keeps, the slot written keeps. -/
theorem writeSlot_rel {R : State → State → Prop} (hR : ∀ (x y : State) (a : Nat) (b : Byte), R x y → R (x.setByte a b) (y.setByte a b))
    (h : R s u) (a v : Nat) : R (s.writeSlot a v) (u.writeSlot a v) := by
  have hbytes : ∀ (l : List Nat) (x y : State), R x y → R (x.forEach l fun z k => z.setByte (a + k) (BitVec.ofNat 8 (v / 2 ^ (8 * k))))
      (y.forEach l fun z k => z.setByte (a + k) (BitVec.ofNat 8 (v / 2 ^ (8 * k)))) := by
    intro l
    induction l with
    | nil => exact fun _ _ h => h
    | cons k l ih => exact fun x y h => ih _ _ (hR x y _ _ h)
  exact hR _ _ _ _ (hbytes _ _ _ h)

/-- The memory after a slot is written is a function of the memory before. -/
theorem writeSlot_mem_congr (h : s.tr.mem = u.tr.mem) (a v : Nat) : (s.writeSlot a v).tr.mem = (u.writeSlot a v).tr.mem :=
  writeSlot_rel (R := fun x y => x.tr.mem = y.tr.mem) (fun _ _ _ _ h => by rw [State.setByte, State.setByte, h]) h a v

/-- A slot written leaves the register stores alone. -/
theorem writeSlot_regs (s : State) (a v : Nat) : (s.writeSlot a v).live = s.live ∧ (s.writeSlot a v).staged = s.staged :=
  writeSlot_rel (u := s) (R := fun x _ => x.live = s.live ∧ x.staged = s.staged) (fun _ _ _ _ h => h) ⟨rfl, rfl⟩ a v

theorem markDirty_below (h : o < wsBase 0) : s.markDirty o = s := by
  simp [State.markDirty, Nat.not_le.mpr h]

/-! ### Writes and reads by window -/

/-- A window of a live copy is read-only: the write is counted and sets wr_live (R155). -/
theorem writeBar2_live (ho : (barWindow (o / 4 * 4)).1 = 2) :
    s.writeBar2 o w be = ((s.bump (Cnt.trCommit 4)).pb Reg.TR_STATUS 8 true, .discarded) := by
  simp [State.writeBar2, ho]

/-- A frozen window of an idle copy takes no write: it is counted and sets wr_pend (R157). -/
theorem writeBar2_frozen (ho : barWindow (o / 4 * 4) = (1, off)) (hcell : barCell 1 off ≠ .none) (hf : s.rb Reg.TR_STATUS 1 = true) :
    s.writeBar2 o w be = ((s.bump (Cnt.trCommit 3)).pb Reg.TR_STATUS 9 true, .frozen) := by
  cases hc : barCell 1 off with
  | none => exact absurd hc hcell
  | word mask => simp [State.writeBar2, ho, hc, hf]
  | slot => simp [State.writeBar2, ho, hc, hf]

/-- The low half of a slot of the channel store is kept until the high half is written (R155). -/
theorem writeBar2_slot_low (ho : barWindow (o / 4 * 4) = (0, o)) (hcell : barCell 0 o = .slot) (halign : o / 8 * 8 = o) :
    (s.writeBar2 o w 15).1 =
      { s with tr := { s.tr with lows := Sparse.set (fun _ => none) s.tr.lows o (some w) } } := by
  simp [State.writeBar2, ho, hcell, halign, State.barPhys, enableMask_all, mergeBits_full, toW]

/-- The high half writes the slot, with the low half that was kept (R155). -/
theorem writeBar2_slot_high {lo : Word} (ho : barWindow (o / 4 * 4) = (0, o)) (hcell : barCell 0 o = .slot) (hhalf : o / 8 * 8 + 4 = o)
    (hlow : Sparse.get (fun _ => none) s.tr.lows (o / 8 * 8) = some lo) :
    (s.writeBar2 o w 15).1 =
      (State.writeSlot { s with tr := { s.tr with lows := Sparse.set (fun _ => none) s.tr.lows (o / 8 * 8) none } } (o / 8 * 8)
        (w.toNat % 2 ^ 16 * 2 ^ 32 + lo.toNat)).markDirty (o / 8 * 8) := by
  have hne : o ≠ o / 8 * 8 := by omega
  have hhigh : mergeBits (s.memNat o 2) (w.toNat % 65536) 0xFFFF = w.toNat % 65536 :=
    mergeBits_half (memNat_two o) (Nat.mod_lt _ (by decide))
  simp [State.writeBar2, ho, hcell, State.barPhys, hne, hlow, enableMask_all, hhigh]

theorem readBar2_word (ho : barWindow (o / 4 * 4) = (k, off)) (hcell : barCell k off ≠ .none) :
    s.readBar2 o = toW (s.memNat (s.barPhys k off) 4) := by
  cases hc : barCell k off with
  | none => exact absurd hc hcell
  | word mask => simp [State.readBar2, ho, hc]
  | slot => simp [State.readBar2, ho, hc]

/-! ### The cells that the statement names -/

/-- The halves of a slot of the channel store's noise area (R171). -/
theorem noise_cell (ho : off / 4 * 4 = off) (hlo : 0x10000 ≤ off) (hhi : off < 0x20000) :
    barWindow (off / 4 * 4) = (0, off) ∧ barCell 0 off = .slot := by
  have hnot : ¬ off < 0x10000 := by omega
  refine ⟨?_, ?_⟩
  · rw [ho, barWindow, if_pos (by omega)]
  · rw [barCell, if_pos rfl, if_neg hnot, if_pos hhi]

/-- The entries at the head of a weight-store window (R153, R154). -/
theorem idle_cell (hk : k < 0xA000) : barWindow ((0x04000000 + 4 * k) / 4 * 4) = (1, 4 * k) ∧ barCell 1 (4 * k) ≠ .none := by
  have ho : (0x04000000 + 4 * k) / 4 * 4 = 0x04000000 + 4 * k := by omega
  refine ⟨?_, ?_⟩
  · rw [ho, barWindow, if_neg (by omega), if_pos (by omega), Nat.add_sub_cancel_left]
  · rw [barCell, if_neg (by decide), if_pos (by decide), if_pos (by omega)]
    exact BarCell.noConfusion

theorem live_cell (hk : k < 0xA000) : barWindow ((0x08000000 + 4 * k) / 4 * 4) = (2, 4 * k) ∧ barCell 2 (4 * k) ≠ .none := by
  have ho : (0x08000000 + 4 * k) / 4 * 4 = 0x08000000 + 4 * k := by omega
  refine ⟨?_, ?_⟩
  · rw [ho, barWindow, if_neg (by omega), if_neg (by omega), if_pos (by omega), Nat.add_sub_cancel_left]
  · rw [barCell, if_neg (by decide), if_pos (by decide), if_pos (by omega)]
    exact BarCell.noConfusion

end Sys2Proof.Machine
end

section
/-!
PROOFS. Registers at reset (R11, R81).
-/
namespace Sys2Proof.Machine

/-- Nothing is listed in the live store at reset, so every register reads as its table says. -/
theorem rd_reset (a : Nat) : State.reset.rd a = resetWord .el9600 a := rfl

/-- The reset values of the firmware's comparators 0-31 and the host's 32-63 (R81). -/
theorem resetWord_cmpCtrl (p : Part) {n : Nat} (hn : n < 64) :
    resetWord p (Reg.TB_CMP_CTRL n) = if n < 32 then 0x001F0020 else 0x001F0000 := by
  have hoff : Reg.TB_CMP_CTRL n = 0x10010C + 0x10 * n := rfl
  have hplace : placeOf (Reg.TB_CMP_CTRL n) = (.hub, Reg.TB_CMP_CTRL n) := if_pos (by omega)
  have hnum : (Reg.TB_CMP_CTRL n - 0x10010C) / 0x10 = n := by omega
  have hspecial : resetSpecial p (Reg.TB_CMP_CTRL n) = some (if n < 32 then 0x001F0020 else 0x001F0000) := by
    simp (disch := omega) only [resetSpecial, hplace, hnum, if_neg, if_pos]
  have hhub : p.has .hub = true := rfl
  by_cases hlow : n < 32 <;> simp [resetWord, hplace, hhub, hspecial, hlow, toW]

end Sys2Proof.Machine
end

section
/-!
PROOFS. The statements of the scope: invariants of the step, completion, register and store accesses, and reset values.
-/
namespace Sys2Proof.Machine

/-- Settles O3: a step's canonical form is that of the queue's rest, which shares every store with the state. -/
theorem stepKeepsCanonical : Obligations.StepKeepsCanonical := by
  intro s t hs h
  have hrest : ({ s with pending := s.pending.tail } : State).Canonical := ⟨hs.live, hs.staged, hs.mem⟩
  exact ⟨(step_keeps h).canonical hrest, (step_keeps h).part⟩

/-- Settles O9, each clause by the lemma of its access: a register that takes it, the captured half of a pair, or no block that answers. -/
theorem registerAccessesComplete : Obligations.RegisterAccessesComplete := by
  refine ⟨?_, ?_, ?_, ?_, ?_, ?_, ?_, ?_, ?_, ?_, ?_, ?_⟩
  · intro s w be h hd _
    exact registerWrite_holdCfg h hd be
  · intro s c w h hd hc hs
    have hback : (s.wr (Reg.FH_WIN_CLOSE c) (s.rd (Reg.FH_WIN_CLOSE c))).Canonical := hs.wr _ _
    refine ⟨_, registerWrite_winClose h hd hc, State.srd_swr_same hback _ _, fun a => State.rd_wr_self hs _ a, fun a ha => ?_⟩
    exact State.srd_swr_ne hback _ ha
  · intro s c w h hd hc
    exact registerWrite_winClose_staged h hd hc
  · intro s u c hu h hd hc hcap
    exact ⟨registerRead_winClose hu h hd hc hcap, registerRead_winClose_staged hu h hd hc hcap⟩
  · intro s w h hd hl
    exact registerWrite_txNcoLo h hd hl
  · intro s w h hd hl
    exact ⟨_, registerWrite_txNcoHi h hd hl, poke_txNco_staged _⟩
  · intro s x hx h hd hcap
    exact ⟨_, registerRead_countLo hx h hd hcap, rfl, rfl⟩
  · intro s x w hx h hd hcap
    exact ⟨_, registerRead_countHi hx h hd hcap, rfl, rfl⟩
  · intro s u a be w hu ha hl hps hpu hsec
    refine ⟨fun h => ?_, fun h => ?_⟩
    · rw [exec_registerWrite_up h ha, writeBar0_absent (State.mgmt_of_pcieUp h) hsec hl hps]
    · rw [exec_registerRead_up hu h ha, readBar0_absent hl hpu]
  · intro s a be w h ha hl hp hd
    rw [exec_registerWrite_up h (by omega), writeBar0_off (State.mgmt_of_pcieUp h) ha hl hp hd]
  · intro s u a be hu h ha hl hp hd
    rw [exec_registerRead_up hu h (by omega), readBar0_off (State.mgmt_of_pcieUp h) hl hp hd]
  · intro s a be w b h
    exact ⟨exec_registerWrite_down h, exec_storeSlotWrite_down h, exec_registerRead_down⟩

/-- Settles O10, each clause by the lemma of its window: a slot's halves, a read-only or a frozen window, a read, and a domain that is off. -/
theorem storeAccessesComplete : Obligations.StoreAccessesComplete := by
  refine ⟨?_, ?_, ?_, ?_, ?_, ?_⟩
  · intro s k w h hd hk
    obtain ⟨hwin, hcell⟩ := noise_cell (off := 0x10000 + 8 * k) (by omega) (by omega) (by omega)
    rw [exec_storeSlotWrite_on h hd, writeBar2_slot_low hwin hcell (by omega)]
  · intro s k w lo h hd hk hlow
    obtain ⟨hwin, hcell⟩ := noise_cell (off := 0x10004 + 8 * k) (by omega) (by omega) (by omega)
    have hslot : (0x10004 + 8 * k) / 8 * 8 = 0x10000 + 8 * k := by omega
    have hbelow : 0x10000 + 8 * k < wsBase 0 := by simp only [wsBase]; omega
    refine ⟨_, exec_storeSlotWrite_on h hd, ?_⟩
    rw [writeBar2_slot_high hwin hcell (by omega) (hslot ▸ hlow), hslot, markDirty_below hbelow]
    obtain ⟨hlive, hstaged⟩ := writeSlot_regs
      { s with tr := { s.tr with lows := Sparse.set (fun _ => none) s.tr.lows (0x10000 + 8 * k) none } }
      (0x10000 + 8 * k) (w.toNat % 2 ^ 16 * 2 ^ 32 + lo.toNat)
    exact ⟨writeSlot_mem_congr rfl _ _, hlive, hstaged⟩
  · intro s k w h hd hk
    rw [exec_storeSlotWrite_on h hd, writeBar2_live (congrArg Prod.fst (live_cell hk).1)]
  · intro s k w h hd hk hfrozen
    obtain ⟨hwin, hcell⟩ := idle_cell hk
    rw [exec_storeSlotWrite_on h hd, writeBar2_frozen hwin hcell hfrozen]
  · intro s u k hu h hd hk
    obtain ⟨hlive, hliveCell⟩ := live_cell (k := k) (by omega)
    obtain ⟨hidle, hidleCell⟩ := idle_cell (k := k) (by omega)
    rw [exec_registerRead_bar2 hu h hd, exec_registerRead_bar2 hu h hd, readBar2_word hlive hliveCell, readBar2_word hidle hidleCell]
    exact ⟨rfl, rfl⟩
  · intro s u o be w hu
    exact ⟨exec_storeSlotWrite_off, exec_registerRead_bar2_off hu⟩

/-- Settles O5: the stores are empty at reset, which is canonical over any reset values. -/
theorem resetIsCanonical : Obligations.ResetIsCanonical :=
  ⟨⟨Sparse.wf_nil, Sparse.wf_nil, Sparse.wf_nil⟩, rfl⟩

/-- Settles O49: by part and by field, and the read by what a read of the register gives. -/
theorem idDeviceIdentifiesThePart : Obligations.IdDeviceIdentifiesThePart := by
  refine ⟨rfl, rfl, rfl, ?_, rfl, rfl, rfl, ?_⟩
  · intro p
    cases p <;> decide
  · intro s u hu h hcap hid
    rw [← hid]
    exact registerRead_idDevice hu h hcap

/-- Settles O50: the stores are empty, so each register reads as the reset value of its table. -/
theorem resetHoldsTheStatedValues : Obligations.ResetHoldsTheStatedValues := by
  refine ⟨rfl, rfl, rfl, rfl, rfl, rfl, rfl, rfl, rfl, rfl, rfl, rfl, rfl, rfl, ?_, ?_, ?_, ?_⟩
  · intro n hn
    rw [rd_reset, resetWord_cmpCtrl _ (by omega), if_pos hn]
  · intro n hn hlo
    rw [rd_reset, resetWord_cmpCtrl _ hn, if_neg (by omega)]
  · decide
  · decide

/-- Settles O58: every command answers, and what answers keeps the queue and the part. -/
theorem everyCommandCompletes : Obligations.EveryCommandCompletes := by
  intro c s
  obtain ⟨t, h⟩ := exec_answers c s
  exact ⟨t, h, (exec_keeps c t h).pending, (exec_keeps c t h).part⟩

end Sys2Proof.Machine
end

section
/-!
PROOFS. The statements about the array and its links: check points and faults (R394-R416), stripes and records (R361-R372), and the messages
between dies and packages (R366, R367, R379, R383).
-/
namespace Sys2Proof.Machine

variable {s : State} {k : Nat}

/-! ### When a command acts -/

/-- Selvedge judges checks and losses in every state from STANDBY on, while the management domain is on. -/
theorem State.not_below_standby (hdev : 2 ≤ s.dev) (hdom : s.domOn 1 = true) : ¬ (s.dev < 2 ∨ (!s.domOn 1) = true) := by
  simp only [hdom, Bool.not_true, Bool.false_eq_true, or_false]
  omega

theorem Part.tiles_le_four (p : Part) : p.tiles ≤ 4 := by
  cases p <;> decide

/-- A row of the table of R28, on a tile of the part or on the hub, is a crossing. -/
theorem crossing_present {p : Part} {row die : Nat} (hrow : row < 8) (hdie : die < p.tiles ∨ die = 4) :
    ¬ (8 ≤ row ∨ 5 ≤ die ∨ (die < 4 ∧ p.tiles ≤ die)) := by
  have := p.tiles_le_four
  omega

/-- A CTRL message arrives over a cascade port whose link is up, while the links' domain is on. -/
theorem State.ctrl_arrives (hk : k < 2) (hup : s.linkUp (4 + k) = true) (hdom : s.domOn 4 = true) :
    ¬ (2 ≤ k ∨ (!s.linkUp (4 + k)) = true ∨ (!s.domOn 4) = true) := by
  simp [hk, hup, hdom]

/-! ### CTRL messages by the direction they come from (R367) -/

/-- A member takes over a copy of the lead's command and passes it on down the chain (R188, R352). -/
theorem ctrlMessage_copy {op : Nat} (ws : List Word) (hk : k < 2) (hup : s.linkUp (4 + k) = true) (hdom : s.domOn 4 = true)
    (hport : (s.popMsg (4 + k) 0xB).rf (Reg.CX_PORT (4 + k)) 1 0 = 1) (hlead : (s.popMsg (4 + k) 0xB).isLead = false)
    (hgo : op ≠ opGo) (habandon : op ≠ opAbandon) (hresult : ¬ (op = 0x7F0 ∨ op = 0x7F1)) :
    exec (.ctrlMessage k (.word op ws)) s = .next (((s.popMsg (4 + k) 0xB).passOn 2 op ws).ctrlCopy op ws) := by
  have hmember : (((s.popMsg (4 + k) 0xB).rf (Reg.CX_PORT (4 + k)) 1 0 == 1) = true ∧ (!(s.popMsg (4 + k) 0xB).isLead) = true) := by
    simp [hport, hlead]
  refine congrArg Host.Outcome.next ((if_neg (State.ctrl_arrives hk hup hdom)).trans ((if_pos hmember).trans ?_))
  exact (if_neg hgo).trans ((if_neg habandon).trans (if_neg hresult))

/-- What a member tells of its state is noted and goes on towards the lead (R180, R380). -/
theorem ctrlMessage_state {pkg : Nat} (dev avail : Nat) (hk : k < 2) (hup : s.linkUp (4 + k) = true) (hdom : s.domOn 4 = true)
    (hport : (s.popMsg (4 + k) 0xB).rf (Reg.CX_PORT (4 + k)) 1 0 ≠ 1) (hlow : 0 < pkg) (hhigh : pkg < 4) :
    exec (.ctrlMessage k (.state pkg dev avail)) s =
      .next (((s.popMsg (4 + k) 0xB).hearState pkg dev avail).passState 1 pkg dev avail) := by
  have hdown : ¬ ((s.popMsg (4 + k) 0xB).rf (Reg.CX_PORT (4 + k)) 1 0 == 1) = true := by simpa using hport
  refine congrArg Host.Outcome.next ((if_neg (State.ctrl_arrives hk hup hdom)).trans ?_)
  refine (if_neg fun h => hdown h.1).trans ((if_neg hdown).trans ?_)
  exact congrArg (State.passState · 1 pkg dev avail) (if_pos ⟨hlow, hhigh⟩)

/-! ### The statements -/

/-- Settles O20: an event by the condition on which it acts, a command by the way its judgement ends. -/
theorem selvedgeComplete : Obligations.SelvedgeComplete := by
  refine ⟨?_, ?_, ?_, ?_, ?_, ?_, ?_, ?_, ?_, ?_, ?_, ?_⟩
  · intro s seen hdev hdom
    exact congrArg Host.Outcome.next (if_neg (State.not_below_standby hdev hdom))
  · intro s q hdom hdev
    exact congrArg Host.Outcome.next (if_pos ⟨hdom, hdev⟩)
  · intro s kind unit pass t htest
    simp only [exec, execSelfTestDone, htest]
  · intro s w h
    exact congrArg Host.Outcome.next (access_reaches h)
  · intro s i hinject
    simp only [exec, execInjectionDone, hinject]
  · rintro s _ p h rfl hlen hunit
    exact congrArg Host.Outcome.next (command_ok h (by simp [hlen, hunit]) rfl rfl rfl)
  · rintro s _ p key h hroom rfl hlen hunit hfault
    have hvalid : (p.is 2 && s.unitPresent (p.arg 0) (p.arg 1) && s.faulted (p.arg 0) (p.arg 1)) = true := by
      simp [hlen, hunit, hfault]
    refine congrArg Host.Outcome.next ?_
    split_ifs with hbusy hparent
    · exact command_status h hvalid rfl rfl (if_pos hbusy)
    · exact command_status h hvalid rfl rfl ((if_neg hbusy).trans (if_pos hparent))
    · exact command_accepted h hroom hvalid rfl rfl ((if_neg hbusy).trans (if_neg hparent))
  · rintro s _ p h rfl hlen hunit hfault
    exact congrArg Host.Outcome.next (command_ok h (by simp [hlen, hunit, hfault]) rfl rfl rfl)
  · rintro s _ p h hroom rfl hlen hchk hunit hwords hmode
    have hvalid : (p.is 4 && s.chkAt (p.arg 0) (p.arg 1) && decide (p.arg 1 < 256 ∧ p.arg 2 < 256 ∧ p.arg 3 < 2)) = true := by
      simp [hlen, hchk, hunit, hwords, hmode]
    refine congrArg Host.Outcome.next ?_
    split_ifs with hbusy
    · exact command_status h hvalid rfl rfl (if_pos hbusy)
    · exact command_accepted h hroom hvalid rfl rfl (if_neg hbusy)
  · rintro s _ p h rfl hlen hmask
    exact congrArg Host.Outcome.next (command_ok h (by simp [hlen, hmask]) rfl rfl rfl)
  · intro s n hdev hdom
    exact congrArg Host.Outcome.next (if_neg (State.not_below_standby hdev hdom))
  · intro s row die unit n hrow hdie
    refine ⟨_, _, if_neg (crossing_present hrow hdie), fun h => if_pos h, fun h => if_neg h, fun h => if_pos h, fun h => ?_, fun h => ?_⟩
    · exact (if_neg (by omega)).trans (if_pos h)
    · exact (if_neg (by omega)).trans (if_neg (by omega))

/-- Settles O41: a stripe by the link that is up, a record by the one that was taken from what has come. -/
theorem stripesAndRecordsComplete : Obligations.StripesAndRecordsComplete := by
  refine ⟨?_, ?_, ?_, ?_, ?_, ?_, ?_⟩
  · intro s l tile hdr slots badLanes hup
    exact (if_neg (Bool.not_not_eq.mpr hup)).trans (apply_ite Host.Outcome.next _ _ _).symm
  · intro s k hdr payload l hup
    exact (if_neg (Bool.not_not_eq.mpr hup)).trans (apply_ite Host.Outcome.next _ _ _).symm
  · intro s k r s1 hrec
    simp only [exec, execCascLayerRecord, hrec]
  · intro s k r s1 hrec
    simp only [exec, execCascPartialRecord, hrec]
  · intro s k r s1 hrec
    simp only [exec, execCascEstimateRecord, hrec]
  · intro s k r s1 hrec
    simp only [exec, execCascSliceRecord, hrec]
    exact (if_congr Iff.rfl rfl (apply_ite Host.Outcome.next _ _ _).symm).trans (apply_ite Host.Outcome.next _ _ _).symm
  · intro s r bs hup
    refine (if_neg (Bool.not_not_eq.mpr hup)).trans ?_
    dsimp only
    generalize List.filter _ (List.range 32) = rings
    cases rings <;> rfl

/-- Settles O42: the link and relay messages by the condition on which they act, the others message by message. -/
theorem linkMessagesComplete : Obligations.LinkMessagesComplete := by
  refine ⟨?_, ?_, ?_, ?_, ?_, ?_, ?_, ?_, ?_⟩
  · intro s l n hup hsent
    exact congrArg Host.Outcome.next (if_pos ⟨hup, hsent⟩)
  · intro s l m rest
    dsimp only
    intro holdest hup
    simp only [exec, execMsgResendTimeout, holdest]
    exact (if_neg (Bool.not_not_eq.mpr hup)).trans (apply_ite Host.Outcome.next _ _ _).symm
  · intro s l w hup
    exact congrArg Host.Outcome.next (if_pos hup)
  · intro s pkgs tiles hlead hdom
    exact if_neg (by simp [hlead, hdom])
  · intro s lead m hlead hsync
    exact if_neg (by simp [hlead, hsync])
  · intro s m
    cases m with
    | locks pkg bits => rfl
    | relay t sec ns => exact (apply_ite Host.Outcome.next _ _ _).symm
  · intro s l m hlink
    refine (if_neg (Bool.not_not_eq.mpr hlink)).trans ?_
    cases m with
    | tile => rfl
    | number pkg fromLead => simp only [apply_ite Host.Outcome.next]
    | follow sec ns rate offset delay => exact (apply_ite Host.Outcome.next _ _ _).symm
    | chain len small => rfl
  · rintro s _ k op ws hk hup hdom rfl hport hlead hop
    have hgo : op ≠ opGo := by rw [opGo]; omega
    have habandon : op ≠ opAbandon := by rw [opAbandon]; omega
    exact ctrlMessage_copy ws hk hup hdom hport hlead hgo habandon (by omega)
  · rintro s _ k pkg dev avail hk hup hdom rfl hport hlow hhigh
    exact ctrlMessage_state dev avail hk hup hdom hport hlow hhigh

end Sys2Proof.Machine
end

section
/-!
PROOFS. The time base: events when their conditions hold (R56-R73).
-/
namespace Sys2Proof.Machine

variable {s : State} {n src : Nat}

/-! ### When an event comes about -/

theorem not_comparator_fires (h : 64 ≤ n ∨ s.armed n = false ∨ s.domOn 2 = false) :
    ¬ (n < 64 ∧ s.armed n = true ∧ s.domOn 2 = true) := by
  rintro ⟨hn, harmed, hdom⟩
  rcases h with h | h | h
  · exact absurd hn (Nat.not_lt.mpr h)
  · exact Bool.false_ne_true (h.symm.trans harmed)
  · exact Bool.false_ne_true (h.symm.trans hdom)

theorem not_sync_times_out (h : s.rb Reg.TB_HOLD_CFG 16 = false ∨ s.rb Reg.TB_STATUS 1 = true ∨ s.domOn 2 = false) :
    ¬ (s.rb Reg.TB_HOLD_CFG 16 = true ∧ (!s.rb Reg.TB_STATUS 1) = true ∧ s.domOn 2 = true) := by
  rintro ⟨hen, hhold, hdom⟩
  rcases h with h | h | h
  · exact Bool.false_ne_true (h.symm.trans hen)
  · exact Bool.false_ne_true ((congrArg not h).symm.trans hhold)
  · exact Bool.false_ne_true (h.symm.trans hdom)

theorem pps_out_runs (hruns : s.ppsRuns = true) (hdom : s.domOn 2 = true) : ¬ ((!s.ppsRuns) = true ∨ (!s.domOn 2) = true) := by
  simp [hruns, hdom]

/-- The grid boundaries are those of the sources 0x01-0x0A (R61). -/
theorem grid_source (hlow : 1 ≤ src) (hhigh : src ≤ 10) (hdom : s.domOn 2 = true) :
    ¬ (src = 0 ∨ 10 < src ∨ (!s.domOn 2) = true) := by
  simp only [hdom, Bool.not_true, Bool.false_eq_true, or_false]
  omega

/-! ### PPS_OUT and the grid, ahead of their tick and on it -/

/-- PPS_OUT rises at its tick; the tile-bound lines that have not fired ahead of it fire with it (R31, R72). -/
theorem ppsOutRise_now (hruns : s.ppsRuns = true) (hdom : s.domOn 2 = true) :
    exec (.ppsOutRise false) s = .next (((State.fireAhead { s.advanceTo (s.ppsTickOf s.nextPps) with
      tb := { (s.advanceTo (s.ppsTickOf s.nextPps)).tb with
        ppsOut := true, ppsRise := (s.advanceTo (s.ppsTickOf s.nextPps)).tick } } 0x0C s.nextPps (s.ppsTickOf s.nextPps)).fireHubRoutes
          0x0C).markSrc 0x0C s.nextPps) :=
  if_neg (pps_out_runs hruns hdom)

theorem ppsOutRise_ahead (hruns : s.ppsRuns = true) (hdom : s.domOn 2 = true) :
    exec (.ppsOutRise true) s = .next (if s.aheadLines 0x0C s.nextPps = [] then s
      else (s.advanceTo (s.ppsTickOf s.nextPps - 1600)).fireAhead 0x0C s.nextPps (s.ppsTickOf s.nextPps)) :=
  if_neg (pps_out_runs hruns hdom)

theorem gridBoundary_now (hlow : 1 ≤ src) (hhigh : src ≤ 10) (hdom : s.domOn 2 = true) :
    exec (.gridBoundary src false) s = .next ((((s.advanceTo (s.tickReaching (s.gridTime (s.nextBound src)))).fireAhead src
      (s.nextBound src) (s.tickReaching (s.gridTime (s.nextBound src)))).fireHubRoutes src).markSrc src (s.nextBound src)) :=
  if_neg (grid_source hlow hhigh hdom)

theorem gridBoundary_ahead (hlow : 1 ≤ src) (hhigh : src ≤ 10) (hdom : s.domOn 2 = true) :
    exec (.gridBoundary src true) s = .next (if s.aheadLines src (s.nextBound src) = [] then s
      else (s.advanceTo (s.tickReaching (s.gridTime (s.nextBound src)) - 1600)).fireAhead src (s.nextBound src)
        (s.tickReaching (s.gridTime (s.nextBound src)))) :=
  if_neg (grid_source hlow hhigh hdom)

/-! ### The statement -/

/-- Settles O7: each event by the condition on which it comes about. -/
theorem timeEventsComplete : Obligations.TimeEventsComplete := by
  refine ⟨?_, ?_, ?_, ?_, ?_, ?_, ?_, ?_, ?_, ?_, ?_, ?_, ?_, ?_, ?_, ?_, ?_⟩
  · intro s n hn harmed hdom
    exact congrArg Host.Outcome.next (if_pos ⟨hn, harmed, hdom⟩)
  · intro s n h
    exact congrArg Host.Outcome.next (if_neg (not_comparator_fires h))
  · intro s hen hhold hdom
    exact congrArg Host.Outcome.next (if_pos ⟨hen, congrArg not hhold, hdom⟩)
  · intro s h
    exact congrArg Host.Outcome.next (if_neg (not_sync_times_out h))
  · rintro s _ rfl
    refine congrArg Host.Outcome.next ?_
    cases hstop : s.rb Reg.TB_SYNCE_CFG 9
    · exact if_neg Bool.false_ne_true
    · exact if_pos rfl
  · rintro s _ rfl
    rfl
  · rintro s _ rfl
    refine ⟨fun hfrozen => ?_, fun hfrozen => ?_⟩
    · exact congrArg (fun u => Host.Outcome.next (State.fireHubRoutes u 0x0B)) (if_pos hfrozen)
    · exact congrArg (fun u => Host.Outcome.next (State.fireHubRoutes u 0x0B)) (if_neg (by simp [hfrozen]))
  · intro s hin
    exact congrArg Host.Outcome.next (if_pos hin)
  · intro s hin
    exact congrArg Host.Outcome.next (if_neg (by simp [hin]))
  · rintro s _ k _ hruns hdom hk rfl rfl
    rw [hk]
    refine ⟨ppsOutRise_now hruns hdom, fun hlines => ?_, fun hlines => ?_⟩
    · exact (ppsOutRise_ahead hruns hdom).trans (congrArg Host.Outcome.next (if_neg hlines))
    · exact (ppsOutRise_ahead hruns hdom).trans (congrArg Host.Outcome.next (if_pos hlines))
  · intro s ahead h
    exact if_pos (by simpa using h)
  · rintro s _ hout rfl
    exact congrArg Host.Outcome.next (if_pos hout)
  · intro s hout
    exact congrArg Host.Outcome.next (if_neg (by simp [hout]))
  · intro s harm
    exact congrArg Host.Outcome.next (if_pos harm)
  · intro s harm
    exact congrArg Host.Outcome.next (if_neg (by simp [harm]))
  · rintro s src _ _ hlow hhigh hdom rfl rfl
    refine ⟨gridBoundary_now hlow hhigh hdom, fun hlines => ?_, fun hlines => ?_⟩
    · exact (gridBoundary_ahead hlow hhigh hdom).trans (congrArg Host.Outcome.next (if_neg hlines))
    · exact (gridBoundary_ahead hlow hhigh hdom).trans (congrArg Host.Outcome.next (if_pos hlines))
  · intro s src ahead h
    exact if_pos (by simpa using h)

end Sys2Proof.Machine
end

section
/-!
PROOFS. Bits of a register after one of them is written, and what the messages between packages leave alone.
-/
namespace Sys2Proof.Machine

variable {s : State} {a b : Nat}

/-! ### Bits -/

theorem b2n_lt_two (v : Bool) : b2n v < 2 := by
  cases v <;> decide

theorem b2n_beq_one (v : Bool) : (b2n v == 1) = v := by
  cases v <;> rfl

/-- A bit that is written reads as written: it stands between the bits above it and those below it. -/
theorem bit_putFld_same (w : Word) (hb : b < 32) (v : Bool) : bit (putFld w b b (b2n v)) b = v := by
  have hpow : 2 ^ 32 = 2 ^ (b + 1) * 2 ^ (31 - b) := by rw [← pow_add]; congr 1; omega
  have hhigh : w.toNat / 2 ^ (b + 1) < 2 ^ (31 - b) := Nat.div_lt_of_lt_mul (hpow ▸ w.isLt)
  have hlow : w.toNat % 2 ^ b < 2 ^ b := Nat.mod_lt _ (Nat.two_pow_pos b)
  have hv : b2n v % 2 ^ (b + 1 - b) = b2n v := by
    rw [Nat.add_sub_cancel_left, pow_one, Nat.mod_eq_of_lt (b2n_lt_two v)]
  have hsplit : w.toNat / 2 ^ (b + 1) * 2 ^ (b + 1) + b2n v * 2 ^ b + w.toNat % 2 ^ b =
      w.toNat % 2 ^ b + 2 ^ b * (b2n v + 2 * (w.toNat / 2 ^ (b + 1))) := by ring
  have hfits : w.toNat / 2 ^ (b + 1) * 2 ^ (b + 1) + b2n v * 2 ^ b + w.toNat % 2 ^ b < 2 ^ 32 := by
    have hbelow : b2n v * 2 ^ b + w.toNat % 2 ^ b < 2 ^ (b + 1) := by
      have hone : b2n v * 2 ^ b ≤ 1 * 2 ^ b := Nat.mul_le_mul_right _ (Nat.le_of_lt_succ (b2n_lt_two v))
      rw [pow_succ]
      omega
    calc _ < (w.toNat / 2 ^ (b + 1) + 1) * 2 ^ (b + 1) := by linarith
      _ ≤ 2 ^ (31 - b) * 2 ^ (b + 1) := Nat.mul_le_mul_right _ hhigh
      _ = 2 ^ 32 := by rw [hpow, Nat.mul_comm]
  simp only [bit, putFld, hv, BitVec.toNat_ofNat]
  rw [Nat.mod_eq_of_lt hfits, hsplit, Nat.add_mul_div_left _ _ (Nat.two_pow_pos b), Nat.div_eq_of_lt hlow, Nat.zero_add,
    Nat.add_mul_mod_self_left, Nat.mod_eq_of_lt (b2n_lt_two v), b2n_beq_one]

theorem State.Canonical.pb (h : s.Canonical) (a b : Nat) (v : Bool) : (s.pb a b v).Canonical := h.wr _ _

theorem State.rb_pb_same (h : s.Canonical) (a : Nat) (hb : b < 32) (v : Bool) : (s.pb a b v).rb a b = v := by
  rw [State.rb, State.pb, State.pf, State.rd_wr_same h, bit_putFld_same _ hb]

theorem State.rd_pb_ne (h : s.Canonical) {c : Nat} (hc : c ≠ a) (v : Bool) : (s.pb a b v).rd c = s.rd c :=
  State.rd_wr_ne h _ hc

/-! ### Messages between packages -/

/-- A message that is sent waits on its link, and changes nothing else. -/
theorem State.sendMsg_eq (s : State) (l typ spec : Nat) (ws : List Word) : ∃ x, s.sendMsg l typ spec ws = { s with links := x } := by
  unfold State.sendMsg
  dsimp only
  split
  · exact ⟨_, rfl⟩
  · exact ⟨s.links, rfl⟩

/-- Relaying the lead's time changes the links alone (R379). -/
theorem State.relayTime_eq (s : State) (kind : Nat) (ws : List Word) : ∃ x, s.relayTime kind ws = { s with links := x } := by
  unfold State.relayTime
  split
  · split
    · exact ⟨s.links, rfl⟩
    · exact s.sendMsg_eq _ _ _ _
  · exact ⟨s.links, rfl⟩

@[simp] theorem State.relayTime_tick (s : State) (kind : Nat) (ws : List Word) : (s.relayTime kind ws).tick = s.tick := by
  obtain ⟨x, e⟩ := s.relayTime_eq kind ws
  rw [e]

@[simp] theorem State.relayTime_tb (s : State) (kind : Nat) (ws : List Word) : (s.relayTime kind ws).tb = s.tb := by
  obtain ⟨x, e⟩ := s.relayTime_eq kind ws
  rw [e]

@[simp] theorem State.rd_relayTime (s : State) (kind : Nat) (ws : List Word) (a : Nat) : (s.relayTime kind ws).rd a = s.rd a := by
  obtain ⟨x, e⟩ := s.relayTime_eq kind ws
  rw [e]
  rfl

theorem State.Canonical.relayTime (h : s.Canonical) (kind : Nat) (ws : List Word) : (s.relayTime kind ws).Canonical :=
  (State.relayTime_keeps kind ws Keeps.refl).canonical h

/-- Forwarding the locks changes the links and what was last told of the locks (R165). -/
theorem State.forwardLocks_eq (s : State) : ∃ x t, s.forwardLocks = { s with links := x, tr := t } := by
  unfold State.forwardLocks
  split
  · split
    · exact ⟨s.links, s.tr, rfl⟩
    · obtain ⟨x, e⟩ := State.sendMsg_eq { s with tr := { s.tr with sentLocks := s.trLocks } } _ _ _ _
      exact ⟨x, _, e⟩
  · exact ⟨s.links, s.tr, rfl⟩

@[simp] theorem State.forwardLocks_staged (s : State) : s.forwardLocks.staged = s.staged := by
  obtain ⟨x, t, e⟩ := s.forwardLocks_eq
  rw [e]

@[simp] theorem State.forwardLocks_tb (s : State) : s.forwardLocks.tb = s.tb := by
  obtain ⟨x, t, e⟩ := s.forwardLocks_eq
  rw [e]

@[simp] theorem State.rd_forwardLocks (s : State) (a : Nat) : s.forwardLocks.rd a = s.rd a := by
  obtain ⟨x, t, e⟩ := s.forwardLocks_eq
  rw [e]
  rfl

end Sys2Proof.Machine
end

section
/-!
PROOFS. The passage of time on an empty queue (R40, R90).
-/
namespace Sys2Proof.Machine

variable {s : State}

/-- With no frame queued, no port sends. -/
theorem State.egressRun_empty (h : s.fh.egress = []) : s.egressRun = s := by
  have hports : ∀ (l : List Nat), s.forEach l (fun u n => u.egressPort n u.fh.egress.length) = s := by
    intro l
    induction l with
    | nil => rfl
    | cons n l ih =>
      have hport : s.egressPort n s.fh.egress.length = s := by rw [h]; rfl
      exact (congrArg (fun u => State.forEach u l fun u n => u.egressPort n u.fh.egress.length) hport).trans ih
  exact hports _

theorem step_idle (h : s.pending = []) : step s = .next s.idle := by
  rw [step, h]

/-- Settles O2: what a tick is, and that it brings nothing to count and nothing to send where no sample is on its way and no frame waits. -/
theorem idleStepIsOneTick : Obligations.IdleStepIsOneTick := by
  refine ⟨fun s h => step_idle h, fun s h hquiet hframes => ?_⟩
  have hmax : max s.tick (s.tick + 1) = s.tick + 1 := Nat.max_eq_right (Nat.le_succ _)
  rw [step_idle h, State.idle, State.advanceTo_quiet hquiet, hmax]
  exact congrArg Host.Outcome.next (State.egressRun_empty hframes)

end Sys2Proof.Machine
end

section
/-!
PROOFS. The rate word: its limits, and local time as it bends (R41-R43, R68, R380).
-/
namespace Sys2Proof.Machine

variable {s : State}

/-- The rate word that an adjustment by `d` gives (R41, R43). -/
def State.adjustedRate (s : State) (d : Int) : Nat := clampN ((s.rate : Int) + d).toNat rateMin rateMax

/-! ### The limits -/

theorem clampN_ge {v lo hi : Nat} (h : lo ≤ hi) : lo ≤ clampN v lo hi := by
  unfold clampN
  split_ifs <;> omega

theorem clampN_le {v lo hi : Nat} (h : lo ≤ hi) : clampN v lo hi ≤ hi := by
  unfold clampN
  split_ifs <;> omega

theorem rateMin_le_rateMax : rateMin ≤ rateMax := by decide

theorem adjustedRate_inside {d : Int} (hlow : (rateMin : Int) ≤ s.rate + d) (hhigh : (s.rate : Int) + d ≤ rateMax) :
    (s.adjustedRate d : Int) = s.rate + d := by
  unfold State.adjustedRate clampN
  split_ifs <;> omega

theorem adjustedRate_below {d : Int} (h : (s.rate : Int) + d < rateMin) : s.adjustedRate d = rateMin := by
  have hpos : 0 < rateMin := by decide
  exact if_pos (by omega)

theorem adjustedRate_above {d : Int} (h : (rateMax : Int) < s.rate + d) : s.adjustedRate d = rateMax := by
  have := rateMin_le_rateMax
  exact (if_neg (by omega)).trans (if_pos (by omega))

/-! ### Reads of a pair, and time on a new rate -/

theorem State.rdPair_wrPair (h : s.Canonical) {lo hi v : Nat} (hne : lo ≠ hi) (hv : v < 2 ^ 64) : (s.wrPair lo hi v).rdPair lo hi = v := by
  rw [State.rdPair, State.wrPair, State.rd_wr_ne (h.wr _ _) _ hne, State.rd_wr_same h, State.rd_wr_same (h.wr _ _)]
  simp only [toW, BitVec.toNat_ofNat]
  omega

theorem State.Canonical.setRateAt (h : s.Canonical) (n r : Nat) : (s.setRateAt n r).Canonical :=
  (State.setRateAt_keeps n r Keeps.refl).canonical h

theorem State.rate_setRateAt (h : s.Canonical) (n : Nat) {r : Nat} (hr : r < 2 ^ 64) : (s.setRateAt n r).rate = r :=
  State.rdPair_wrPair (s := { s with tb := _ }) ⟨h.live, h.staged, h.mem⟩ (by decide) hr

theorem State.rd_setRateAt_ne (h : s.Canonical) (n r : Nat) {a : Nat} (hlo : a ≠ Reg.TB_RATE_LO) (hhi : a ≠ Reg.TB_RATE_HI) :
    (s.setRateAt n r).rd a = s.rd a := by
  have hc : ∀ tb, ({ s with tb := tb } : State).Canonical := fun _ => ⟨h.live, h.staged, h.mem⟩
  exact (State.rd_wr_ne ((hc _).wr _ _) _ hhi).trans (State.rd_wr_ne (hc _) _ hlo)

/-- The rate bends on the next tick, and the members are told (R42, R43, R379). -/
def State.bendRate (s : State) (d : Int) : State :=
  (s.setRateAt (s.tick + 1) (s.adjustedRate d)).relayTime 0 [toW (s.adjustedRate d), toW (s.adjustedRate d / 2 ^ 32)]

theorem bendRate_rate (h : s.Canonical) (d : Int) : (s.bendRate d).rate = s.adjustedRate d := by
  have hfits : s.adjustedRate d < 2 ^ 64 := (clampN_le rateMin_le_rateMax).trans_lt (by decide)
  rw [State.bendRate, State.rate, State.rdPair, State.rd_relayTime, State.rd_relayTime]
  exact State.rate_setRateAt h _ hfits

theorem bendRate_status (h : s.Canonical) (d : Int) (b : Nat) : (s.bendRate d).rb Reg.TB_STATUS b = s.rb Reg.TB_STATUS b := by
  rw [State.bendRate, State.rb, State.rd_relayTime, State.rd_setRateAt_ne h _ _ (by decide) (by decide), State.rb]

theorem State.Canonical.bendRate (h : s.Canonical) (d : Int) : (s.bendRate d).Canonical :=
  State.Canonical.relayTime (h.setRateAt _ _) _ _

/-- From the base count on, local time runs at the rate word (R42). -/
theorem timeAt_from_base {n : Nat} (h : s.tb.baseCount = n) (k : Nat) : s.timeAt (n + k) = s.tb.baseTime + k * s.rate := by
  rw [State.timeAt, h, if_pos (Nat.le_add_right n k), Nat.add_sub_cancel_left]

/-! ### An adjustment outside holdover -/

/-- The sum of the rate word and an adjustment lies outside the limits. -/
def State.rateClamps (s : State) (d : Int) : Prop := (s.rate : Int) + d < rateMin ∨ (rateMax : Int) < s.rate + d

/-- rate_clamp is set where the sum lay outside the limits, and nothing else follows but the bend. -/
theorem adjustRate_cases (d : Int) (h : s.rb Reg.TB_STATUS 1 = false) :
    (s.rateClamps d ∧ s.adjustRate d = (s.bendRate d).pb Reg.TB_STATUS 3 true) ∨
      (¬ s.rateClamps d ∧ s.adjustRate d = s.bendRate d) := by
  have hrun : ¬ s.rb Reg.TB_STATUS 1 = true := by simp [h]
  by_cases hclamp : s.rateClamps d
  · exact .inl ⟨hclamp, (if_neg hrun).trans (if_pos (by simpa [State.rateClamps] using hclamp))⟩
  · exact .inr ⟨hclamp, (if_neg hrun).trans (if_neg (by simpa [State.rateClamps] using hclamp))⟩

theorem adjustRate_rate (h : s.Canonical) (d : Int) (hrun : s.rb Reg.TB_STATUS 1 = false) :
    (s.adjustRate d).rate = s.adjustedRate d := by
  obtain ⟨-, e⟩ | ⟨-, e⟩ := adjustRate_cases d hrun <;> rw [e]
  · rw [State.rate, State.rdPair, State.rd_pb_ne (h.bendRate d) (by decide), State.rd_pb_ne (h.bendRate d) (by decide)]
    exact bendRate_rate h d
  · exact bendRate_rate h d

/-- The base of local time after an adjustment is the time that the next tick has on the old rate (R42). -/
theorem adjustRate_time (d : Int) (hrun : s.rb Reg.TB_STATUS 1 = false) :
    (s.adjustRate d).tick = s.tick ∧ (s.adjustRate d).tb.baseCount = s.tick + 1 ∧
      (s.adjustRate d).tb.baseTime = s.timeAt (s.tick + 1) := by
  obtain ⟨-, e⟩ | ⟨-, e⟩ := adjustRate_cases d hrun <;> simp [e, State.bendRate, State.setRateAt, State.wrPair]

theorem adjustRate_clamped (h : s.Canonical) {d : Int} (hrun : s.rb Reg.TB_STATUS 1 = false) (hd : s.rateClamps d) :
    (s.adjustRate d).rb Reg.TB_STATUS 3 = true := by
  obtain ⟨-, e⟩ | ⟨hn, -⟩ := adjustRate_cases d hrun
  · rw [e, State.rb_pb_same (h.bendRate d) _ (by decide)]
  · exact absurd hd hn

theorem adjustRate_unclamped (h : s.Canonical) {d : Int} (hrun : s.rb Reg.TB_STATUS 1 = false) (hd : ¬ s.rateClamps d) :
    (s.adjustRate d).rb Reg.TB_STATUS 3 = s.rb Reg.TB_STATUS 3 := by
  obtain ⟨hc, -⟩ | ⟨-, e⟩ := adjustRate_cases d hrun
  · exact absurd hc hd
  · rw [e, bendRate_status h]

/-! ### The statement -/

theorem tbRateAdjWrite_reaches (h : s.Reaches Reg.TB_RATE_ADJ) (w : Word) :
    exec (.tbRateAdjWrite w) s = .next (if s.isLead then s.adjustRate (sext w.toNat 32) else s) :=
  congrArg Host.Outcome.next (access_reaches h)

/-- Settles O56: the rate word and the flag by where the sum lies, the time by the base that the adjustment sets. -/
theorem rateStaysWithinItsLimits : Obligations.RateStaysWithinItsLimits := by
  refine ⟨?_, ?_, ?_⟩
  · rintro s t w _ hs h hlead hrun rfl hexec
    rw [tbRateAdjWrite_reaches h, if_pos hlead] at hexec
    obtain rfl := Host.Outcome.next.inj hexec
    obtain ⟨htick, hcount, hbase⟩ := adjustRate_time (sext w.toNat 32) hrun
    have hmin : (rateMin : Int) = 0xA000000000 - 68719477 := by decide
    have hmax : (rateMax : Int) = 0xA000000000 + 68719477 := by decide
    simp only [adjustRate_rate hs _ hrun]
    refine ⟨clampN_ge rateMin_le_rateMax, clampN_le rateMin_le_rateMax, fun hlow hhigh => ?_, fun hlow => ?_, fun hhigh => ?_,
      htick, hcount, hbase, fun k => ?_⟩
    · have hin : ¬ s.rateClamps (sext w.toNat 32) := by
        unfold State.rateClamps
        omega
      exact ⟨adjustedRate_inside (hmin ▸ hlow) (hmax ▸ hhigh), adjustRate_unclamped hs hrun hin⟩
    · have hout : (s.rate : Int) + sext w.toNat 32 < rateMin := hmin ▸ hlow
      exact ⟨adjustedRate_below hout, adjustRate_clamped hs hrun (.inl hout)⟩
    · have hout : (rateMax : Int) < s.rate + sext w.toNat 32 := hmax ▸ hhigh
      exact ⟨adjustedRate_above hout, adjustRate_clamped hs hrun (.inr hout)⟩
    · rw [timeAt_from_base hcount, hbase, adjustRate_rate hs _ hrun]
  · intro s w h hlead hhold
    rw [tbRateAdjWrite_reaches h, if_pos hlead]
    exact congrArg Host.Outcome.next (if_pos hhold)
  · intro s w h hmember
    rw [tbRateAdjWrite_reaches h, if_neg (by simp [hmember])]

end Sys2Proof.Machine
end

section
/-!
PROOFS. The grid origin (R13, R64, R380): its registers, and TIME_GRID.
-/
namespace Sys2Proof.Machine

variable {s : State} {k be a : Nat} {w : Word}

/-! ### What follows a change of the origin -/

@[simp] theorem State.rd_retime (s old : State) (a : Nat) : (s.retime old).rd a = s.rd a := rfl

@[simp] theorem State.rd_relayOrigin (s : State) (a : Nat) : s.relayOrigin.rd a = s.rd a := State.rd_relayTime s _ _ a

/-- TIME_GRID's values stand in the three registers: the seconds in two, as the packet brings them (R64). -/
theorem setOrigin_rd (h : s.Canonical) {hi lo : Nat} (hlo : lo < 2 ^ 32) (ns : Nat) :
    (s.setOrigin (hi * 2 ^ 32 + lo) ns).rd Reg.TB_GRID_ORG_SEC_LO = toW lo ∧
      (s.setOrigin (hi * 2 ^ 32 + lo) ns).rd Reg.TB_GRID_ORG_SEC_HI = toW hi ∧
      (s.setOrigin (hi * 2 ^ 32 + lo) ns).rd Reg.TB_GRID_ORG_NS = toW ns := by
  have hsecLo : toW (hi * 2 ^ 32 + lo) = toW lo := by
    refine BitVec.eq_of_toNat_eq ?_
    simp only [toW, BitVec.toNat_ofNat]
    omega
  have hsecHi : (hi * 2 ^ 32 + lo) / 2 ^ 32 = hi := by omega
  have hc := h.wr Reg.TB_GRID_ORG_SEC_LO (toW lo)
  have hc2 := hc.wr Reg.TB_GRID_ORG_SEC_HI (toW hi)
  simp only [State.setOrigin, State.rd_relayOrigin, State.rd_retime, State.wrPair, hsecLo, hsecHi]
  refine ⟨?_, ?_, State.rd_wr_same hc2 _ _⟩
  · rw [State.rd_wr_ne hc2 _ (by decide), State.rd_wr_ne hc _ (by decide), State.rd_wr_same h]
  · rw [State.rd_wr_ne hc2 _ (by decide), State.rd_wr_same hc]

/-! ### A write of one of its registers, by what the block does with it -/

theorem writeOrigin_service (h : s.dev = 4) : s.writeOrigin k w = s.pb Reg.TB_STATUS 9 true := if_pos h

/-- The low seconds wait for the high ones (R13). -/
theorem writeOrigin_secLo (hdev : s.dev ≠ 4) (hlead : s.isLead = true) : s.writeOrigin 0 w = s.latchLo Reg.TB_GRID_ORG_SEC_LO w :=
  (if_neg hdev).trans (if_neg (by simp [hlead]))

theorem writeOrigin_secHi (hdev : s.dev ≠ 4) (hlead : s.isLead = true) :
    s.writeOrigin 1 w = (((s.wr Reg.TB_GRID_ORG_SEC_LO (s.lastLo Reg.TB_GRID_ORG_SEC_LO (s.rd Reg.TB_GRID_ORG_SEC_LO))).wr
      Reg.TB_GRID_ORG_SEC_HI (toW (fld w 15 0))).retime s).relayOrigin :=
  (if_neg hdev).trans (if_neg (by simp [hlead]))

theorem writeOrigin_ns (hdev : s.dev ≠ 4) (hlead : s.isLead = true) :
    s.writeOrigin 2 w = ((s.wr Reg.TB_GRID_ORG_NS w).retime s).relayOrigin :=
  (if_neg hdev).trans (if_neg (by simp [hlead]))

/-- The value last written to a _LO register is the one that was kept (R13). -/
theorem lastLo_latchLo (s : State) (a : Nat) (w now : Word) : (s.latchLo a w).lastLo a now = w := by
  have hgone : (s.tb.loLatch.filter (fun (x : Nat × Word) => x.1 ≠ a)).find? (fun x => x.1 == a) = none := by
    simp
  rw [State.lastLo, State.latchLo, List.find?_append, hgone]
  simp

theorem State.lastLo_congr {t : State} (h : t.tb = s.tb) (a : Nat) (now : Word) : t.lastLo a now = s.lastLo a now := by
  rw [State.lastLo, State.lastLo, h]

/-! ### A host's write of one of its registers -/

/-- The rows of the origin's registers: the low seconds, the high seconds and the nanoseconds. -/
def originRow : Nat → RegRow
  | 0 => { name := "TB_GRID_ORG_SEC_LO", off := 0x100080, reset := 0x12D53D93, rw := 0xFFFFFFFF }
  | 1 => { name := "TB_GRID_ORG_SEC_HI", off := 0x100084, rw := 0xFFFF }
  | _ => { name := "TB_GRID_ORG_NS", off := 0x100088, rw := 0xFFFFFFFF }

theorem originRow_live (hk : k < 3) : LiveReg (Reg.TB_GRID_ORG_SEC_LO + 4 * k) (originRow k) 0 0 := by
  interval_cases k <;> exact ⟨rfl, by decide, rfl, rfl⟩

theorem origin_place (hk : k < 3) : (placeOf (Reg.TB_GRID_ORG_SEC_LO + 4 * k)).1 = .hub := by interval_cases k <;> rfl

theorem origin_domain (hk : k < 3) : domainOf (Reg.TB_GRID_ORG_SEC_LO + 4 * k) = 2 := by interval_cases k <;> rfl

/-- A register whose discarded writes set a flag: a write of it is tried with the flag clear, and the flag then shows whether it was set
before or by the write. -/
theorem State.Reaches.writeBar0_flagged {r : RegRow} {i j f b : Nat} (h : s.Reaches a) (hr : LiveReg a r i j)
    (hallow : s.refuses r.name i (placeOf a).1 = false) (hwrite : ¬ (r.rw = 0 ∧ r.stg = 0 ∧ r.w1c = 0 ∧ r.wo = 0))
    (hflag : errFlag r.name i (placeOf a).1 = some (f, b)) :
    s.writeBar0 a w be = ((s.pb f b false).writeReg r i j a (enableMask be) w).pb f b
      (s.rb f b || ((s.pb f b false).writeReg r i j a (enableMask be) w).rb f b) := by
  unfold State.writeBar0 State.writeBits
  simp [hr.aligned, hr.notSecure, hr.notStaged, hr.row, h.mgmt, h.present, h.powered, h.answers, hallow, hwrite, hflag]

/-- Where a member may write the origin it is only to have the write discarded with its flag (R64, R380). -/
theorem origin_allowed (hk : k < 3) (h : s.isLead = true ∨ s.dev = 4) : s.refuses (originRow k).name 0 .hub = false := by
  have hrefuse : s.refuses (originRow k).name 0 .hub = (!s.isLead && s.dev != 4) := by interval_cases k <;> rfl
  rw [hrefuse]
  rcases h with h | h <;> simp [h]

/-- The value that a write of the enabled bytes gives the register `k` of the origin, over what was last written to it (R8, R13). -/
def State.originValue (s : State) (k m : Nat) (w : Word) : Word :=
  let a := Reg.TB_GRID_ORG_SEC_LO + 4 * k
  let old := maskW (s.rd a) (originRow k).rw ||| maskW (s.srd a) (originRow k).stg
  mergeW (if k = 0 then s.lastLo a old else old) w m

theorem originValue_full : s.originValue k 0xFFFFFFFF w = w := mergeW_full _ _

theorem writeReg_origin (hk : k < 3) (m : Nat) :
    s.writeReg (originRow k) 0 0 (Reg.TB_GRID_ORG_SEC_LO + 4 * k) m w = s.writeOrigin k (s.originValue k m w) := by
  interval_cases k <;> rfl

theorem registerWrite_origin (h : s.pcieUp = true) (hd : s.domOn 2 = true) (hk : k < 3) (hmay : s.isLead = true ∨ s.dev = 4) {t : State}
    (ht : t = (s.pb Reg.TB_STATUS 9 false).writeOrigin k ((s.pb Reg.TB_STATUS 9 false).originValue k (enableMask be) w)) :
    exec (.registerWrite (Reg.TB_GRID_ORG_SEC_LO + 4 * k) w be) s =
      .next (t.pb Reg.TB_STATUS 9 (s.rb Reg.TB_STATUS 9 || t.rb Reg.TB_STATUS 9)).forwardLocks := by
  have hplace := origin_place hk
  have hflag : errFlag (originRow k).name 0 .hub = some (Reg.TB_STATUS, 9) := by interval_cases k <;> rfl
  have hwrite : ¬ ((originRow k).rw = 0 ∧ (originRow k).stg = 0 ∧ (originRow k).w1c = 0 ∧ (originRow k).wo = 0) := by
    interval_cases k <;> decide
  rw [exec_registerWrite_up h (by simp only [Reg.TB_GRID_ORG_SEC_LO]; omega),
    (State.reaches_timeBase h hd hplace (origin_domain hk)).writeBar0_flagged (originRow_live hk) (hplace ▸ origin_allowed hk hmay) hwrite
      (hplace ▸ hflag), writeReg_origin hk, ← ht]

/-- Before the write the flag is clear: role, state and the other registers are those of the block. -/
theorem clearedStatus_role (h : s.Canonical) :
    (s.pb Reg.TB_STATUS 9 false).dev = s.dev ∧ (s.pb Reg.TB_STATUS 9 false).isLead = s.isLead := by
  rw [State.dev, State.rf, State.isLead, State.rb, State.rd_pb_ne h (by decide), State.rd_pb_ne h (by decide)]
  exact ⟨rfl, rfl⟩

/-- In SERVICE a write of the origin sets its flag, on a lead and on a member (R64). -/
theorem registerWrite_origin_service (hs : s.Canonical) (h : s.pcieUp = true) (hd : s.domOn 2 = true) (hk : k < 3) (hdev : s.dev = 4) :
    exec (.registerWrite (Reg.TB_GRID_ORG_SEC_LO + 4 * k) w be) s = .next
      ((((s.pb Reg.TB_STATUS 9 false).pb Reg.TB_STATUS 9 true).pb Reg.TB_STATUS 9 true).forwardLocks) := by
  obtain ⟨hdev', -⟩ := clearedStatus_role hs
  have hset : ((s.pb Reg.TB_STATUS 9 false).pb Reg.TB_STATUS 9 true).rb Reg.TB_STATUS 9 = true :=
    State.rb_pb_same (hs.pb _ _ _) _ (by decide) true
  rw [registerWrite_origin h hd hk (.inr hdev) (writeOrigin_service (hdev'.trans hdev)).symm, hset, Bool.or_true]

/-- A whole write on a lead out of SERVICE: the origin takes it, and beside it only the status register can change. -/
theorem registerWrite_origin_lead {u : State} (hs : s.Canonical) (h : s.pcieUp = true) (hd : s.domOn 2 = true) (hk : k < 3)
    (hlead : s.isLead = true) (hu : u = (s.pb Reg.TB_STATUS 9 false).writeOrigin k w) :
    ∃ t, exec (.registerWrite (Reg.TB_GRID_ORG_SEC_LO + 4 * k) w 15) s = .next t ∧ (∀ a, a ≠ Reg.TB_STATUS → t.rd a = u.rd a) ∧
      t.tb = u.tb := by
  have hc : u.Canonical := hu ▸ (State.writeOrigin_keeps k w Keeps.refl).canonical (hs.pb _ _ _)
  have hvalue : u = (s.pb Reg.TB_STATUS 9 false).writeOrigin k ((s.pb Reg.TB_STATUS 9 false).originValue k (enableMask 15) w) := by
    rw [enableMask_all, originValue_full, hu]
  refine ⟨_, registerWrite_origin h hd hk (.inl hlead) hvalue, fun a ha => ?_, ?_⟩
  · rw [State.rd_forwardLocks, State.rd_pb_ne hc ha]
  · rw [State.forwardLocks_tb, State.pb_tb]

/-! ### The statement -/

theorem timeGrid_valid {p : Pkt} (hlen : p.is 3 = true) (hsec : p.arg 0 < 2 ^ 16) (hns : p.arg 2 < 1000000000) :
    (p.is 3 && decide (p.arg 0 < 2 ^ 16 ∧ p.arg 2 < 1000000000)) = true := by
  rw [hlen, decide_eq_true (And.intro hsec hns)]
  rfl

/-- Settles O51: on a lead out of SERVICE by the register that is written, in SERVICE by the flag alone. -/
theorem gridOriginIsNotWrittenInService : Obligations.GridOriginIsNotWrittenInService := by
  refine ⟨?_, ?_, ?_, ?_⟩
  · rintro s _ p hs h hlead hlen hsec hns rfl
    have htaken : (s.takeCmd 0x106 p).Canonical := (State.takeCmd_keeps 0x106 p Keeps.refl).canonical hs
    exact ⟨congrArg Host.Outcome.next (command_ok h (timeGrid_valid hlen hsec hns) rfl hlead rfl),
      setOrigin_rd htaken (wordAt p.params 1).isLt _⟩
  · intro s w hs h hd hlead hdev
    have hu : (s.pb Reg.TB_STATUS 9 false).Canonical := hs.pb _ _ _
    obtain ⟨hdev', hlead'⟩ := clearedStatus_role hs
    rw [hlead] at hlead'
    rw [← hdev'] at hdev
    refine ⟨?_, ?_, ?_⟩
    · obtain ⟨t, hexec, hrd, -⟩ := registerWrite_origin_lead (w := w) hs h hd (k := 2) (by decide) hlead rfl
      refine ⟨t, hexec, ?_⟩
      rw [hrd _ (by decide), writeOrigin_ns hdev hlead', State.rd_relayOrigin, State.rd_retime, State.rd_wr_same hu]
    · obtain ⟨t, hexec, hrd, -⟩ := registerWrite_origin_lead (w := w) hs h hd (k := 1) (by decide) hlead rfl
      refine ⟨t, hexec, ?_, ?_⟩ <;>
        rw [hrd _ (by decide), writeOrigin_secHi hdev hlead', State.rd_relayOrigin, State.rd_retime]
      · rw [State.rd_wr_same (hu.wr _ _)]
      · rw [State.rd_wr_ne (hu.wr _ _) _ (by decide), State.rd_wr_same hu, State.rd_pb_ne hs (by decide)]
        exact State.lastLo_congr (State.pb_tb _ _ _ _) _ _
    · obtain ⟨t, hexec, -, htb⟩ := registerWrite_origin_lead (w := w) hs h hd (k := 0) (by decide) hlead rfl
      refine ⟨t, hexec, ?_⟩
      rw [State.lastLo_congr htb, writeOrigin_secLo hdev hlead', lastLo_latchLo]
  · intro s p h hdev hlen hsec hns
    have hrefused : (acceptedIn 0x106 s.dev && true) = false := by rw [hdev]; decide
    exact congrArg Host.Outcome.next (command_state_conflict h (timeGrid_valid hlen hsec hns) hrefused)
  · intro s a be w hs h hd hdev ha
    obtain ⟨k, hk, rfl⟩ : ∃ k, k < 3 ∧ a = Reg.TB_GRID_ORG_SEC_LO + 4 * k := by
      rcases ha with rfl | rfl | rfl
      · exact ⟨0, by decide, rfl⟩
      · exact ⟨1, by decide, rfl⟩
      · exact ⟨2, by decide, rfl⟩
    have hc : ((s.pb Reg.TB_STATUS 9 false).pb Reg.TB_STATUS 9 true).Canonical := (hs.pb _ _ _).pb _ _ _
    refine ⟨_, registerWrite_origin_service hs h hd hk hdev, ?_, fun b hb => ?_, ?_, ?_⟩
    · rw [State.rb, State.rd_forwardLocks]
      exact State.rb_pb_same hc _ (by decide) true
    · rw [State.rd_forwardLocks, State.rd_pb_ne hc hb, State.rd_pb_ne (hs.pb _ _ _) hb, State.rd_pb_ne hs hb]
    · simp only [State.forwardLocks_staged, State.pb_staged]
    · simp only [State.forwardLocks_tb, State.pb_tb]

end Sys2Proof.Machine
end

section
/-!
PROOFS. Accesses to the time base's registers that do more than read or write them (R43, R44, R55, R61, R64, R67, R71, R73, R75, R76).
-/
namespace Sys2Proof.Machine

variable {s : State}

/-! ### Reads that do something -/

/-- A read of TB_NOW_NS captures its tick's time in the other registers (R44). -/
theorem tbNowNsRead_reaches (h : s.Reaches Reg.TB_NOW_NS) : exec .tbNowNsRead s = .next (State.answer (State.wr (State.wrPair
    ((s.wr Reg.TB_NOW_NS (toW (nanoOf s.now))).wr Reg.TB_NOW_FRAC (toW (fracOf s.now))) Reg.TB_NOW_SEC_LO Reg.TB_NOW_SEC_HI
    (secOf s.now % 2 ^ 48)) Reg.TB_NOW_EPOCH (toW (s.epoch + b2n (s.rb Reg.TB_STATUS 1) * 256 + b2n (s.rb Reg.TB_STATUS 2) * 512)))
    (toW (nanoOf s.now))) :=
  congrArg Host.Outcome.next (accessRead_reaches h)

theorem tbLateCntRead_reaches (h : s.Reaches Reg.TB_LATE_CNT) :
    exec .tbLateCntRead s = .next ((s.answer (s.rd Reg.TB_LATE_CNT)).wr Reg.TB_LATE_CNT 0) :=
  congrArg Host.Outcome.next (accessRead_reaches h)

/-- The state that a read of TB_TXTS_W3 leaves: the oldest timestamp's fourth word answered, 0 where there is none, and removed (R67). -/
def State.popTxts (s : State) : State :=
  State.answer { s with tb := { s.tb with txts := s.tb.txts.tail } } (wordAt (s.tb.txts.headD []) 3)

theorem txtsPop_reaches {u : State} (hu : u = s.egressRun) (h : u.Reaches Reg.TB_TXTS_W3) :
    exec .txtsPop s = .next (u.answer 0).popTxts := by
  rw [exec, execTxtsPop, ← hu, accessRead_reaches h]
  rfl

theorem popTxts_cases (s : State) : s.popTxts.host.readData = wordAt (s.tb.txts.headD []) 3 ∧ s.popTxts.tb.txts = s.tb.txts.tail ∧
    s.popTxts.live = s.live :=
  ⟨rfl, rfl, rfl⟩

/-- The state that a read of TB_PPSIN_NS leaves: the capture in its registers, frozen (R71). -/
def State.ppsRead (s : State) : State :=
  let s1 := ((s.wr Reg.TB_PPSIN_NS (toW (nanoOf s.tb.ppsTime))).wr Reg.TB_PPSIN_SEC_LO (toW (secOf s.tb.ppsTime))).wr Reg.TB_PPSIN_SEC_HI
    (ppsHi s.tb.ppsTime s.tb.ppsEpoch s.tb.ppsNew)
  State.answer { s1 with tb := { s1.tb with ppsFrozen := true, ppsNew := false } } (toW (nanoOf s.tb.ppsTime))

theorem ppsinNsRead_reaches (h : s.Reaches Reg.TB_PPSIN_NS) : exec .ppsinNsRead s = .next s.ppsRead :=
  congrArg Host.Outcome.next (accessRead_reaches h)

/-! ### The statement -/

/-- Settles O6: each access by what its block does with it. -/
theorem timeRegisterAccessesComplete : Obligations.TimeRegisterAccessesComplete := by
  refine ⟨?_, ?_, ?_, ?_, ?_, ?_, ?_, ?_, ?_, ?_, ?_, ?_⟩
  · intro s w h
    exact tbRateAdjWrite_reaches h w
  · intro s h
    exact tbNowNsRead_reaches h
  · intro s h
    exact tbLateCntRead_reaches h
  · intro s n w h
    exact ⟨congrArg Host.Outcome.next (access_reaches h), congrArg Host.Outcome.next (access_reaches h)⟩
  · intro s l w h hl
    exact congrArg Host.Outcome.next ((access_reaches h).trans (if_neg (Nat.not_le.mpr hl)))
  · intro s w h
    exact congrArg Host.Outcome.next (access_reaches h)
  · intro s k w h
    exact congrArg Host.Outcome.next (access_reaches h)
  · intro s u e es hu h htxts
    refine ⟨_, txtsPop_reaches hu h, ?_⟩
    simpa [htxts] using popTxts_cases (u.answer 0)
  · intro s u hu h htxts
    refine ⟨_, txtsPop_reaches hu h, ?_⟩
    simpa [htxts, wordAt] using popTxts_cases (u.answer 0)
  · intro s w h
    exact ⟨congrArg Host.Outcome.next (access_reaches h), congrArg Host.Outcome.next (access_reaches h)⟩
  · intro s w h
    exact congrArg Host.Outcome.next (access_reaches h)
  · intro s h
    exact ⟨_, ppsinNsRead_reaches h, rfl, rfl, rfl, rfl⟩

end Sys2Proof.Machine
end

section
/-!
PROOFS. The Chiast time commands (R43, R50, R55, R64, R68, R69, R72-R74).
-/
namespace Sys2Proof.Machine

variable {s : State} {p : Pkt}

/-! ### Taking a packet leaves the time base alone -/

@[simp] theorem State.irq_tick (s : State) (v : Nat) : (s.irq v).tick = s.tick := rfl

theorem State.tick_ite {c : Prop} [Decidable c] {a b : State} {t : Nat} (ha : a.tick = t) (hb : b.tick = t) :
    (if c then a else b).tick = t := by
  split <;> assumption

@[simp] theorem State.ackWords_tick (s : State) (m n code : Nat) : (s.ackWords m n code).tick = s.tick := by
  unfold State.ackWords
  dsimp only
  refine State.tick_ite rfl (State.tick_ite ?_ ?_)
  · rw [State.irq_tick, State.pf_tick, State.pf_tick, State.setMbox_tick]
  · rw [State.pf_tick, State.pf_tick, State.setMbox_tick]

@[simp] theorem State.takeCmd_tick (s : State) (op : Nat) (p : Pkt) : (s.takeCmd op p).tick = s.tick := by
  unfold State.takeCmd
  dsimp only
  rw [State.bump_tick, State.ackWords_tick]
  split_ifs <;> rfl

/-! ### The statement -/

/-- A step is taken when every reachable package has told of a state that accepts it (R49), and is left pending. -/
theorem timeStep_pending (h : s.Admits 0x102 p) (hparam : s.stepOk p = true) (hlead : s.isLead = true) (hvisit : s.rb Reg.TB_STEP_INFO 8 = false)
    (hready : ((List.range (s.reach - 1)).all (fun k => s.tb.peers.any (fun (x : Nat × Nat) => x.1 == k + 1 && acceptedIn 0x102 x.2))) = true) :
    exec (.timeStep p) s = .next (State.pb { s.takeCmd 0x102 p with tb := { (s.takeCmd 0x102 p).tb with
      pendStep := some { ref := p.ref 0x102 0, quiet := p.quiet, relative := (stepOf p).1, ns := (stepOf p).2 } } } Reg.TB_STEP_INFO 8 true) :=
  congrArg Host.Outcome.next (command_later h hparam (by rw [hready, Bool.or_true]) (by rw [hvisit, hlead]; rfl) rfl)

/-- Settles O8: each command by the way its judgement ends, the step by when it is applied. -/
theorem timeCommandsComplete : Obligations.TimeCommandsComplete := by
  refine ⟨?_, ?_, ?_, ?_, ?_, ?_, ?_, ?_, ?_, ?_, ?_⟩
  · rintro s _ p h rfl hlen
    exact congrArg Host.Outcome.next (command_ok h hlen rfl rfl rfl)
  · rintro s _ p h rfl hlen hhold hlead
    exact ⟨_, rfl, congrArg Host.Outcome.next (command_ok h hlen rfl (by rw [hhold, hlead]; rfl) rfl)⟩
  · rintro s _ p h rfl hlen harg hlead
    exact ⟨_, rfl, congrArg Host.Outcome.next (command_ok h (by simp [hlen, harg]) rfl hlead rfl)⟩
  · rintro s _ p h rfl hlen hline hptp
    have hvalid : (p.is 5 && decide (p.arg 0 < 32) && s.ptpOk p.params 1) = true := by simp [hlen, hline, hptp]
    refine ⟨fun hfree => ?_, fun n hfree => ?_⟩
    · exact congrArg Host.Outcome.next (command_status h hvalid rfl rfl (by rw [hfree]))
    · exact congrArg Host.Outcome.next (command_ok h hvalid rfl rfl (by rw [hfree]))
  · rintro s _ p h rfl hlen hcmp harmed
    exact congrArg Host.Outcome.next (command_ok h (by simp [hlen, hcmp, harmed]) rfl rfl rfl)
  · rintro s _ p h rfl hlen hsec hns hlead
    exact congrArg Host.Outcome.next (command_ok h (timeGrid_valid hlen hsec hns) rfl hlead rfl)
  · rintro s _ p h rfl hlen hptp
    have hvalid : (p.is 3 && s.ptpOk p.params 0) = true := by simp [hlen, hptp]
    refine congrArg Host.Outcome.next ?_
    split_ifs with hzero <;> exact command_ok h hvalid rfl rfl rfl
  · rintro s _ p h rfl hlen hen hforce hwidth
    have hvalid : (p.is 4 && decide (p.arg 0 ≤ 1 ∧ p.arg 1 ≤ 1 ∧ p.arg 2 < 2 ^ 20)) = true := by
      rw [hlen, decide_eq_true (And.intro hen (And.intro hforce hwidth))]
      rfl
    exact congrArg Host.Outcome.next (command_ok h hvalid rfl rfl rfl)
  · intro s p h hparam hlead hvisit hready
    exact ⟨_, timeStep_pending h hparam hlead hvisit hready, rfl, State.takeCmd_tick s 0x102 p⟩
  · intro s u v st at_ hpend hu hat hv
    have htarget : (if st.relative then (u.now : Int) + st.ns * (nsU : Int) else st.ns * (nsU : Int)).toNat = at_ := by
      rw [hat]
      cases st.relative <;> simp
    simp only [exec, execTimeStepApply, hpend, ← hu, htarget]
    rw [hv]
  · intro s hpend
    simp only [exec, execTimeStepApply, hpend]

end Sys2Proof.Machine
end

section
/-!
PROOFS. The transmit path's events and the front-end bus (R31, R243-R258).
-/
namespace Sys2Proof.Machine

/-- Settles O34: each event by the condition on which it acts, or by what waits in its queue. -/
theorem transmitEventsComplete : Obligations.TransmitEventsComplete := by
  refine ⟨?_, ?_, ?_, ?_, ?_, ?_, ?_, ?_, ?_, ?_, ?_⟩
  · intro s tile line target m hmsg
    simp only [exec, execTriggerMessage, hmsg]
  · intro s r t late rest hdue hon hcommit
    simp only [exec, execLoadStrobe, hdue]
    exact congrArg Host.Outcome.next (if_neg (by simp [hon, hcommit]))
  · intro s p hrange hon
    exact congrArg Host.Outcome.next (if_pos ⟨hrange, hon⟩)
  · intro s p w h
    exact congrArg Host.Outcome.next (access_reaches h)
  · intro s c at_
    dsimp only
    intro hnew hswitch
    refine congrArg Host.Outcome.next (if_neg ?_)
    rintro (hpast | hnone)
    · exact hnew hpast
    · simp [hswitch] at hnone
  · intro s p t hahead hblank hend hrise hlow
    exact congrArg Host.Outcome.next (if_pos ⟨hahead, hblank, hend, hrise, by rw [hlow]; rfl⟩)
  · intro s r w h
    exact congrArg Host.Outcome.next (access_reaches h)
  · intro s r t rest hdue
    simp only [exec, execFeWriteRelease, hdue]
  · intro s r t e rest hruns hqueue hidle hagc htrig
    refine ⟨_, rfl, ?_⟩
    simp only [exec, execFeFrameStart, hruns, hqueue, hidle, hagc, htrig, Bool.false_eq_true, if_false]
  · intro s r rdata padOk e
    dsimp only
    intro hactive
    cases hagc : e.agc <;> simp only [exec, execFeFrameEnd, hactive, hagc]
  · intro s r h
    exact congrArg Host.Outcome.next (accessRead_reaches h)

end Sys2Proof.Machine
end

section
/-!
PROOFS. The carrier commands and a carrier's switch (R122, R135-R142).
-/
namespace Sys2Proof.Machine

variable {s u : State} {c t : Nat}

/-! ### What a carrier awaits next (R135) -/

/-- The state at a switch: the captured values are live, and a reconfiguration slot begins (R135). -/
def State.switchedTo (u : State) (c : Nat) (w : CarSwitch) (rest : List CarSwitch) : State :=
  let s1 := (((u.wr (Reg.CAR_CFG c) w.vals.cfg).wr (Reg.CAR_OFS c) w.vals.ofs).wr (Reg.CAR_ADV c) w.vals.adv).wr (Reg.CAR_F0 c) w.vals.f0
  s1.setCar c { u.car c with
    switches := rest
    reconfEnd := some (s1.slotBoundaryFrom (cfgMu w.vals.cfg) (cfgExt w.vals.cfg) (w.time + 1))
    old := if (u.car c).old.any (fun o => o.time == w.time) then (u.car c).old else some { time := w.time, vals := u.carLive c } }

/-- A carrier in a reconfiguration slot is listed, so its record is read back whatever the other entries are. -/
theorem State.car_setCar (s : State) (c : Nat) {x : CarSt} (hx : x.reconfEnd.isSome = true) : (s.setCar c x).car c = x := by
  have hlisted : x ≠ {} := by
    rintro rfl
    exact Bool.false_ne_true hx
  rw [State.car, State.setCar, Sparse.set, if_neg hlisted, Sparse.get_ins_same]

theorem State.switchedTo_car (u : State) (c : Nat) (w : CarSwitch) (rest : List CarSwitch) :
    ((u.switchedTo c w rest).car c).switches = rest ∧ ((u.switchedTo c w rest).car c).reconfEnd = some (State.slotBoundaryFrom
      ((((u.wr (Reg.CAR_CFG c) w.vals.cfg).wr (Reg.CAR_OFS c) w.vals.ofs).wr (Reg.CAR_ADV c) w.vals.adv).wr (Reg.CAR_F0 c) w.vals.f0)
      (cfgMu w.vals.cfg) (cfgExt w.vals.cfg) (w.time + 1)) := by
  unfold State.switchedTo
  dsimp only
  rw [State.car_setCar]
  · exact ⟨rfl, rfl⟩
  · rfl

theorem carrierSwitch_switch {w : CarSwitch} {rest : List CarSwitch} (hc : c < 4) (hnext : s.carNextEvent c = some (0, t))
    (hu : u = s.advanceTo (s.tickReaching t)) (hw : (u.car c).switches = w :: rest) :
    exec (.carrierSwitch c) s = .next (((u.switchedTo c w rest).when (!(u.car c).old.any (fun o => o.time == w.time))
      (fun x => x.bump (Cnt.seCarrier c 2))).showCar c true) := by
  subst hu
  simp only [exec, execCarrierSwitch, hnext, if_neg (Nat.not_le.mpr hc), hw]
  rfl

theorem carrierSwitch_reconfEnd (hc : c < 4) (hnext : s.carNextEvent c = some (1, t)) (hu : u = s.advanceTo (s.tickReaching t)) :
    exec (.carrierSwitch c) s = .next ((u.setCar c { u.car c with reconfEnd := none }).showCar c false) := by
  subst hu
  simp only [exec, execCarrierSwitch, hnext, if_neg (Nat.not_le.mpr hc)]
  rfl

theorem carrierSwitch_proc {p : Nat × Word} {rest : List (Nat × Word)} (hc : c < 4) (hnext : s.carNextEvent c = some (2, t))
    (hu : u = s.advanceTo (s.tickReaching t)) (hp : (u.car c).proc = p :: rest) :
    exec (.carrierSwitch c) s =
      .next ((u.wr (Reg.CAR_PROC c) p.2).setCar c { u.car c with proc := rest, procOld := some (t, u.rd (Reg.CAR_PROC c)) }) := by
  subst hu
  simp only [exec, execCarrierSwitch, hnext, if_neg (Nat.not_le.mpr hc), hp]
  rfl

theorem carrierSwitch_srs {p : Nat × Word × Word} {rest : List (Nat × Word × Word)} (hc : c < 4) (hnext : s.carNextEvent c = some (3, t))
    (hu : u = s.advanceTo (s.tickReaching t)) (hp : (u.car c).srs = p :: rest) :
    exec (.carrierSwitch c) s = .next (((u.wr (Reg.CAR_SRS_PER c) p.2.1).wr (Reg.CAR_SRS_SYM c) p.2.2).setCar c { u.car c with
      srs := rest, srsOld := some (t, u.rd (Reg.CAR_SRS_PER c), u.rd (Reg.CAR_SRS_SYM c)) }) := by
  subst hu
  simp only [exec, execCarrierSwitch, hnext, if_neg (Nat.not_le.mpr hc), hp]
  rfl

/-! ### The statement -/

/-- Settles O12: a command by the values in range that its judgement asks for, the carrier's event by what it awaits next. -/
theorem carrierCommandsComplete : Obligations.CarrierCommandsComplete := by
  refine ⟨?_, ?_, ?_, ?_, ?_, ?_, ?_, ?_, ?_, ?_⟩
  · rintro s _ p h rfl hlen hcar hfftLow hfftHigh hfreq hdl hul hblocks
    exact congrArg Host.Outcome.next (command_ok h (by simp [hlen, hcar, hfftLow, hfftHigh, hfreq, hdl, hul, hblocks]) rfl rfl rfl)
  · rintro s _ p h rfl hlen hcar hoffset
    exact congrArg Host.Outcome.next (command_ok h (by simp [hlen, hcar, hoffset]) rfl rfl rfl)
  · rintro s _ p h rfl hlen
    exact congrArg Host.Outcome.next (command_ok h hlen rfl rfl rfl)
  · rintro s _ p h rfl hlen hcode
    exact congrArg Host.Outcome.next (command_ok h (by simp [hlen, hcode]) rfl rfl rfl)
  · rintro s _ p h rfl hlen hcar
    exact congrArg Host.Outcome.next (command_ok h (by simp [hlen, hcar]) rfl rfl rfl)
  · intro s w h
    exact congrArg Host.Outcome.next (access_reaches h)
  · intro s u c t w rest hc hnext hw hu
    have hcar : (u.car c).switches = w :: rest := by rw [hu, State.car, State.advanceTo_cars]; exact hw
    obtain ⟨hrest, hend⟩ := u.switchedTo_car c w rest
    exact ⟨u.switchedTo c w rest, carrierSwitch_switch hc hnext hu hcar, rfl, rfl, hrest, hend⟩
  · intro s u c t p rest hc hnext hu hp
    exact carrierSwitch_proc hc hnext hu hp
  · intro s u c t p rest hc hnext hu hp
    exact carrierSwitch_srs hc hnext hu hp
  · intro s u c t hc hnext hu
    exact carrierSwitch_reconfEnd hc hnext hu

end Sys2Proof.Machine
end

section
/-!
PROOFS. What the judgement of buffered sections and the passage of words through a check point leave alone (R102, R109, R394, R410).
-/
namespace Sys2Proof.Machine

variable {s u : State}

/-! ### Judging the C-plane changes registers, buffered sections and waiting failure records -/

/-- From `s` to `t` only the register store, the buffered sections and the failure records that wait have changed. -/
def JudgedOnly (s t : State) : Prop := ∃ l d w, t = { s with live := l, fh := { s.fh with data := d, waiting := w } }

theorem JudgedOnly.refl (s : State) : JudgedOnly s s := ⟨s.live, s.fh.data, s.fh.waiting, rfl⟩

theorem JudgedOnly.wr (h : JudgedOnly s u) (a : Nat) (x : Word) : JudgedOnly s (u.wr a x) := by
  obtain ⟨l, d, w, rfl⟩ := h
  exact ⟨_, d, w, rfl⟩

theorem JudgedOnly.pf (h : JudgedOnly s u) (a hi lo v : Nat) : JudgedOnly s (u.pf a hi lo v) := h.wr _ _

theorem JudgedOnly.pb (h : JudgedOnly s u) (a b : Nat) (v : Bool) : JudgedOnly s (u.pb a b v) := h.wr _ _

theorem JudgedOnly.bump (h : JudgedOnly s u) (a : Nat) : JudgedOnly s (u.bump a) := h.wr _ _

theorem JudgedOnly.data (h : JudgedOnly s u) (d : List USec) : JudgedOnly s { u with fh := { u.fh with data := d } } := by
  obtain ⟨l, d', w, rfl⟩ := h
  exact ⟨l, d, w, rfl⟩

theorem JudgedOnly.waiting {f : FhSt} (h : JudgedOnly s u) (hf : u.fh = f) (w : List (List Word)) :
    JudgedOnly s { u with fh := { f with waiting := w } } := by
  subst hf
  obtain ⟨l, d, w', rfl⟩ := h
  exact ⟨l, d, w, rfl⟩

theorem JudgedOnly.countReason (h : JudgedOnly s u) (entry : Option Nat) (reason : Nat) : JudgedOnly s (u.countReason entry reason) := by
  unfold State.countReason
  split
  · exact h.bump _
  · split
    · exact h.bump _
    · exact h

theorem JudgedOnly.failRecord (h : JudgedOnly s u) (hdr : SecHdr) (reason : Nat) (dl cplane : Bool) (start num detail : Nat) :
    JudgedOnly s (u.failRecord hdr reason dl cplane start num detail) := by
  unfold State.failRecord
  split
  · exact h
  · dsimp only
    split
    · exact ((h.pf _ _ _ _).bump _).pb _ _ _
    · exact ((h.pf _ _ _ _).bump _).waiting (State.bump_fh _ _) _

theorem JudgedOnly.rejectPrbs (h : JudgedOnly s u) (entry : Nat) (hdr : SecHdr) (reason : Nat) (dl cplane : Bool) (prbs : List Nat) :
    JudgedOnly s (u.rejectPrbs entry hdr reason dl cplane prbs) :=
  (h.countReason _ _).failRecord _ _ _ _ _ _ _

theorem JudgedOnly.showBuf (h : JudgedOnly s u) : JudgedOnly s u.showBuf := (h.pf _ _ _ _).pf _ _ _ _

theorem JudgedOnly.forEach {α : Type} {f : State → α → State} (hf : ∀ u x, JudgedOnly s u → JudgedOnly s (f u x)) :
    ∀ (l : List α) {u : State}, JudgedOnly s u → JudgedOnly s (u.forEach l f)
  | [], _, h => h
  | x :: l, u, h => JudgedOnly.forEach hf l (hf u x h)

theorem State.judgeCplane_eq (s : State) (pick : USec → Bool) : JudgedOnly s (s.judgeCplane pick) := by
  refine JudgedOnly.showBuf (JudgedOnly.forEach (fun u x h => ?_) _ (.refl s))
  dsimp only
  split
  · exact h.data _
  · exact (h.data _).rejectPrbs _ _ _ _ _ _

@[simp] theorem State.judgeCplane_tick (s : State) (pick : USec → Bool) : (s.judgeCplane pick).tick = s.tick := by
  obtain ⟨l, d, w, h⟩ := s.judgeCplane_eq pick
  rw [h]

@[simp] theorem State.judgeCplane_lastDl (s : State) (pick : USec → Bool) : (s.judgeCplane pick).fh.lastDl = s.fh.lastDl := by
  obtain ⟨l, d, w, h⟩ := s.judgeCplane_eq pick
  rw [h]

/-! ### Words that are resolved and checked change registers alone -/

theorem LiveOnly.refl (s : State) : LiveOnly s s := ⟨s.live, rfl⟩

theorem LiveOnly.countResolved (h : LiveOnly s u) (c : Nat) (rs : List Resolved) : LiveOnly s (u.countResolved c rs) :=
  (h.bumpBy _ _).bumpBy _ _

theorem LiveOnly.countCheck (h : LiveOnly s u) (chk unit fails bad : Nat) : LiveOnly s (u.countCheck chk unit fails bad) := by
  unfold State.countCheck
  split_ifs
  · exact (h.bumpBy _ _).bumpBy _ _
  · exact h.bumpBy _ _
  · exact h.bumpBy _ _
  · exact h.bumpBy _ _
  · exact h.bumpBy _ _
  · exact h

/-- Where no injection runs, words pass a check point as they are (R410). -/
theorem State.injectWords_idle (h : u.sv.inject = none) (chk unit : Nat) (ws : List Cx) :
    u.injectWords chk unit ws = (u.countCheck chk unit 0 (ws.filter Cx.bad).length, ws) := by
  simp [State.injectWords, State.injectLeft, h]

end Sys2Proof.Machine
end

section
/-!
PROOFS. Symbols, PRACH occasions and sounding occasions (R103, R130-R134, R144-R149, R158, R164, R174-R176).
-/
namespace Sys2Proof.Machine

variable {s u : State}

/-! ### When a symbol is processed (R103, R130, R131) -/

theorem engines_on (heng : s.domOn 5 = true) (hstore : s.domOn 7 = true) : ¬ ((!s.domOn 5) = true ∨ (!s.domOn 7) = true) := by
  simp [heng, hstore]

/-- A symbol is processed once, on a carrier that has its direction, with the engines and stores powered. -/
theorem symbol_due {c l air last : Nat} {cfg : Word} {on : Bool} (hc : c < 4) (hon : on = true) (hl : l < symsPerSlot (cfgExt cfg))
    (heng : s.domOn 5 = true) (hstore : s.domOn 7 = true) (hlast : last ≤ air) :
    ¬ (4 ≤ c ∨ (!on) = true ∨ symsPerSlot (cfgExt cfg) ≤ l ∨ (!s.domOn 5) = true ∨ (!s.domOn 7) = true ∨ air + 1 ≤ last) := by
  simp only [hon, heng, hstore, Bool.not_true, Bool.false_eq_true, false_or]
  omega

/-- The state in which a downlink symbol is formed: its U-plane window has closed, its C-plane is judged, and it is not formed again. -/
def State.dlClosed (s : State) (c : Nat) (n : Int) (l air : Nat) : State :=
  let s1 := (s.advanceTo (s.tickReaching ((s.window c air true false).2.toNat))).judgeCplane
    (fun u => u.car == c && u.slot == n && u.sym == l)
  { s1 with fh := { s1.fh with lastDl := Sparse.set (fun _ => 0) s1.fh.lastDl c (air + 1) } }

theorem State.dlClosed_lastDl (s : State) (c : Nat) (n : Int) (l air : Nat) :
    (s.dlClosed c n l air).fh.lastDl = Sparse.set (fun _ => 0) s.fh.lastDl c (air + 1) := by
  simp only [State.dlClosed, State.judgeCplane_lastDl, State.advanceTo_fh]

theorem State.dlClosed_tick (s : State) (c : Nat) (n : Int) (l air : Nat) :
    (s.dlClosed c n l air).tick = max s.tick (s.tickReaching ((s.window c air true false).2.toNat)) := by
  simp only [State.dlClosed, State.judgeCplane_tick, State.advanceTo_tick]

theorem dlSymbol_due {u : State} {c l air : Nat} {n : Int} {v : CarVals} (hv : v = s.carNamed c n l) (hair : air = s.airOf v.cfg n l)
    (hdue : ¬ (4 ≤ c ∨ (!cfgDl v.cfg) = true ∨ symsPerSlot (cfgExt v.cfg) ≤ l ∨ (!s.domOn 5) = true ∨ (!s.domOn 7) = true ∨
      air + 1 ≤ Sparse.get (fun _ => 0) s.fh.lastDl c)) (hu : s.dlClosed c n l air = u) :
    exec (.dlSymbol c n l) s = .next ((((if u.inReconf c air then u else u.formDl c n l air v).dropUsed c true n l).showBuf).bump
      (Cnt.seCarrier c 0)) := by
  subst hv hair
  simp only [exec, execDlSymbol, if_neg hdue, ← hu, State.dlClosed]

/-! ### PRACH occasions (R133, R158) -/

/-- From `s` to `t` only registers have changed, and `n` more sections of words wait for egress. -/
def EgressAdded (n : Nat) (s t : State) : Prop :=
  ∃ l x, t = { s with live := l, fh := { s.fh with ul := x } } ∧ x.length = s.fh.ul.length + n

theorem EgressAdded.refl (s : State) : EgressAdded 0 s s := ⟨s.live, s.fh.ul, rfl, rfl⟩

theorem EgressAdded.trans_live {n : Nat} {t : State} (h : EgressAdded n s u) (ht : LiveOnly u t) : EgressAdded n s t := by
  obtain ⟨l, x, rfl, hlen⟩ := h
  obtain ⟨l', rfl⟩ := ht
  exact ⟨l', x, rfl, hlen⟩

theorem EgressAdded.append {n : Nat} (h : EgressAdded n s u) (x : UlSec) :
    EgressAdded (n + 1) s { u with fh := { u.fh with ul := u.fh.ul ++ [x] } } := by
  obtain ⟨l, y, rfl, hlen⟩ := h
  exact ⟨l, y ++ [x], rfl, by rw [List.length_append, hlen]; rfl⟩

theorem EgressAdded.forEach {α : Type} {f : State → α → State} (hf : ∀ n u x, EgressAdded n s u → EgressAdded (n + 1) s (f u x)) :
    ∀ (l : List α) {n : Nat} {u : State}, EgressAdded n s u → EgressAdded (n + l.length) s (u.forEach l f)
  | [], _, _, h => h
  | x :: l, n, u, h => by
    rw [List.length_cons, Nat.add_comm l.length 1, ← Nat.add_assoc]
    exact EgressAdded.forEach hf l (hf n u x h)

theorem EgressAdded.repeat {f : State → Nat → State} (hf : ∀ n u x, EgressAdded n s u → EgressAdded (n + 1) s (f u x)) (k : Nat) :
    EgressAdded k s (s.forEach (List.range k) f) := by
  have h := EgressAdded.forEach hf (List.range k) (.refl s)
  rwa [List.length_range, Nat.zero_add] at h

/-- At the start of an occasion the beam of its first PRB is latched, and with no injection running it is latched as it stands (R133, R158). -/
theorem prachOccasion_start {k : Nat} {r : Resolved} {o : PrachOcc} {rest : List PrachOcc} {adc : List (List Int)}
    (hfirst : Sparse.get (fun _ => []) s.fh.prach k = o :: rest) (hon : ¬ ((!s.domOn 5) = true ∨ (!s.domOn 7) = true))
    (hlatched : o.latched = none) (hu : u = (s.advanceTo (s.tickReaching o.start)).feedAll adc) (hidle : u.sv.inject = none)
    (hr : r = u.resolveVec (u.storeFor o.start).1 (u.storeFor o.start).2 (u.trVals o.start).fb o.sec (o.sec.prbs.headD 0)) :
    ∃ t, LiveOnly u t ∧ exec (.prachOccasion k adc) s = .next { t with fh := { t.fh with
      prach := Sparse.set (fun _ => []) t.fh.prach k ({ o with latched := some ((r.addr.map u.weights).getD []) } :: rest) } } := by
  have hcount := (LiveOnly.refl u).countResolved o.sec.car [r]
  have hquiet : (u.countResolved o.sec.car [r]).sv.inject = none := by
    obtain ⟨l, h⟩ := hcount
    rw [h]
    exact hidle
  refine ⟨_, hcount.countCheck 2 0 0 (((r.addr.map u.weights).getD []).filter Cx.bad).length, ?_⟩
  simp only [exec, execPrachOccasion, hfirst, if_neg hon, hlatched, ← hu, ← hr, State.injectWords_idle hquiet]

theorem prachOccasion_end {k : Nat} {o : PrachOcc} {rest : List PrachOcc} {ws : List Cx} {adc : List (List Int)}
    (hfirst : Sparse.get (fun _ => []) s.fh.prach k = o :: rest) (hon : ¬ ((!s.domOn 5) = true ∨ (!s.domOn 7) = true))
    (hlatched : o.latched = some ws)
    (hu : u = (s.advanceTo (s.tickReaching (o.stop + s.ulCompAt o.sec.car o.start * nsU) + ulLatency)).feedAll adc) :
    ∃ t, EgressAdded o.reps u t ∧ exec (.prachOccasion k adc) s = .next (State.bump { t with fh := { t.fh with
      prach := Sparse.set (fun _ => []) t.fh.prach k rest } } (Cnt.sePrach k 0)) := by
  simp only [exec, execPrachOccasion, hfirst, if_neg hon, hlatched, ← hu]
  refine ⟨_, EgressAdded.repeat (fun n v r h => ?_) o.reps, rfl⟩
  exact (h.trans_live (LiveOnly.forEach (fun _ _ hlive => hlive.bumpBy _ _) _ (.refl v))).append _

/-! ### The statement -/

/-- Settles O15: a symbol by when it is due, an occasion by what waits first. -/
theorem symbolEventsComplete : Obligations.SymbolEventsComplete := by
  refine ⟨?_, ?_, ?_, ?_, ?_, ?_⟩
  · rintro s c l air n _ hc rfl hdl hl heng hstore rfl hlast
    exact ⟨_, _, dlSymbol_due rfl rfl (symbol_due hc hdl hl heng hstore hlast) rfl, rfl, s.dlClosed_lastDl c n l _, s.dlClosed_tick c n l _⟩
  · rintro s _ c l air fin n adc _ hc rfl hul hl heng hstore rfl hlast rfl rfl
    exact if_neg (symbol_due hc hul hl heng hstore hlast)
  · rintro s _ w rest hheld rfl
    simp only [exec, execCascPartialTimeout, hheld, List.contains_iff_mem]
  · rintro s u k o rest ws adc hfirst heng hstore hlatched hu hidle hws
    obtain ⟨_, ⟨l, rfl⟩, hexec⟩ := prachOccasion_start hfirst (engines_on heng hstore) hlatched hu hidle rfl
    exact ⟨_, hexec, rfl, rfl, by rw [hws]⟩
  · rintro s u k o rest ws adc hfirst heng hstore hlatched hu
    obtain ⟨_, ⟨l, x, rfl, hlen⟩, hexec⟩ := prachOccasion_end hfirst (engines_on heng hstore) hlatched hu
    exact ⟨_, hexec, rfl, rfl, hlen⟩
  · rintro s _ c n hc heng hstore hul hslot rfl
    exact if_neg (by simp [hc, heng, hstore, hul, hslot])

end Sys2Proof.Machine
end

section
/-!
PROOFS. Frames, eCPRI messages and egress (R84, R86-R89, R91, R99-R102, R106-R109, R112).
-/
namespace Sys2Proof.Machine

/-- Settles O27: each event by the condition on which it comes about, or by what waits for it. -/
theorem fronthaulEventsComplete : Obligations.FronthaulEventsComplete := by
  refine ⟨?_, ?_, ?_, ?_, ?_, ?_, ?_⟩
  · intro s n hn hdom hport hen
    exact congrArg Host.Outcome.next (if_pos ⟨hn, hdom, hport, hen⟩)
  · intro s n hup
    exact if_neg (by simp [hup])
  · intro s n bs hup
    refine (if_neg (by simp [hup])).trans ?_
    simp only [apply_ite Host.Outcome.next] <;> rfl
  · intro s m hup
    refine (if_neg (by simp [hup])).trans ?_
    exact (apply_ite Host.Outcome.next _ _ _).symm
  · intro s c u0 rest
    dsimp only
    intro hwait
    simp only [exec, execCplaneWindowClose, hwait]
  · intro s x rest hul
    simp only [exec, execUlEgress, hul]
  · intro s ws rest hwait hfunc hstate hitems
    simp only [exec, execFailRecordPost, hwait]
    exact if_pos ⟨hfunc, hstate, hitems⟩

end Sys2Proof.Machine
end

section
/-!
PROOFS. The fronthaul's registers and commands (R83-R85, R92, R104, R105, R109, R113, R114, R116-R119).
-/
namespace Sys2Proof.Machine

/-- Settles O28: a register access by what its block does with it, a command by the values in range that its judgement asks for. -/
theorem fronthaulCommandsComplete : Obligations.FronthaulCommandsComplete := by
  refine ⟨?_, ?_, ?_, ?_, ?_, ?_, ?_, ?_, ?_, ?_, ?_, ?_⟩
  · intro s w h
    exact congrArg Host.Outcome.next (access_reaches h)
  · intro s w h
    exact congrArg Host.Outcome.next (access_reaches h)
  · intro s h
    exact congrArg Host.Outcome.next (accessRead_reaches h)
  · intro s h
    exact congrArg Host.Outcome.next (accessRead_reaches h)
  · rintro s _ p h rfl hlen hmode
    exact congrArg Host.Outcome.next (command_ok h (by simp [hlen, hmode]) rfl rfl rfl)
  · rintro s u p n first count ok h rfl hok
    exact congrArg Host.Outcome.next (command_ok h hok rfl rfl rfl)
  · rintro s u p ok h rfl hok
    exact congrArg Host.Outcome.next (command_ok h hok rfl rfl rfl)
  · rintro s u p ok h rfl hok
    exact congrArg Host.Outcome.next (command_ok h hok rfl rfl rfl)
  · rintro s _ p h rfl hflags hlen hindex
    exact congrArg Host.Outcome.next (command_ok h (decide_eq_true ⟨hflags, hlen, hindex⟩) rfl rfl rfl)
  · rintro s _ p h rfl hlen
    exact congrArg Host.Outcome.next (command_ok h hlen rfl rfl rfl)
  · rintro s _ p h rfl hlen hen hlow hhigh
    exact congrArg Host.Outcome.next (command_ok h (by simp [hlen, hen, hlow, hhigh]) rfl rfl rfl)
  · rintro s _ p h rfl hlen hen htype
    exact congrArg Host.Outcome.next (command_ok h (by rw [hlen, decide_eq_true (And.intro hen htype)]; rfl) rfl rfl rfl)

end Sys2Proof.Machine
end

section
/-!
PROOFS. The arbiter of the fabric, and a channel beyond the 32 of the part (R473, R476).
-/
namespace Sys2Proof.Machine

/-- Channel 1 is granted a beat while channel 0, the last one granted, waits at a lower priority, and channel 64 asks too, at priority 0. The part
has channels 0-31; where channel 64 would have its DMA_MODE, it has the preemption counter of channel 0. -/
def beyondChannels : State :=
  { ((State.reset.wr (Reg.RING_CFG 0) 0x00040000).wr (Reg.DMA_STAT 64) 0x10000000).wr (Reg.DMA_MODE 64) 0x00FFFFFF with
    dma := { granted := [(0, 1)], last := 0 } }

theorem beyondChannels_canonical : beyondChannels.Canonical := by
  obtain ⟨hlive, hstaged, hmem⟩ := ((resetIsCanonical.1.wr (Reg.RING_CFG 0) 0x00040000).wr (Reg.DMA_STAT 64) 0x10000000).wr
    (Reg.DMA_MODE 64) 0x00FFFFFF
  exact ⟨hlive, hstaged, hmem⟩

theorem prioOf_beyondChannels : beyondChannels.prioOf 1 = 0 ∧ beyondChannels.prioOf 64 = 0 := by
  decide

/-- The preemption of channel 0 is counted, and the count makes channel 64 one of lower priority: it has waited. -/
theorem passed_beyondChannels : Sparse.get (fun _ => 0) (beyondChannels.grantBeat [0, 1, 64] 1).dma.passed 64 = 1 := by
  decide

/-- Refutes O60: the clause on a grant lets any number ask as a channel. Channel 64 has the priority 0 of channel 1 before channel 1 is granted its
beat, and yet has waited after it: the count of channel 0's preemption is written where channel 64's priority is read. -/
theorem not_beatsAndFramesGoByPriority : ¬ Obligations.BeatsAndFramesGoByPriority := by
  rintro ⟨-, -, hgrant, -, -⟩
  obtain ⟨hself, hother⟩ := prioOf_beyondChannels
  obtain ⟨-, -, -, hidle, -⟩ := hgrant beyondChannels _ [0, 1, 64] 1 beyondChannels_canonical (by decide) rfl rfl
  have hwait := hidle 64 (by decide) (.inr (by rw [hself, hother]))
  exact absurd (passed_beyondChannels.symm.trans hwait) (by decide)

end Sys2Proof.Machine
end

section
/-!
PROOFS. The Trellis: commits of the weight store, its configuration, its commands and null vectors (R147, R149, R152, R156-R161, R165, R166, R168, R295).
-/
namespace Sys2Proof.Machine

/-- Settles O22: an event by what waits for it, a command by the way its judgement ends. -/
theorem trellisComplete : Obligations.TrellisComplete := by
  refine ⟨?_, ?_, ?_, ?_, ?_, ?_, ?_, ?_, ?_, ?_, ?_, ?_, ?_, ?_, ?_, ?_, ?_⟩
  · intro s w h
    exact congrArg Host.Outcome.next (access_reaches h)
  · intro s d s1 hdue
    simp only [exec, execWeightCommitEval, hdue]
  · intro s d hdefer
    simp only [exec, execWeightCommitReeval, hdefer]
  · intro s e hcommit hswitched
    simp only [exec, execWeightSwitch, hcommit]
    exact if_neg (by simp [hswitched])
  · intro s e hcommit hswitched
    simp only [exec, execWeightRetire, hcommit]
    exact if_neg (by simp [hswitched])
  · intro s hcopying
    exact if_neg (by simp [hcopying])
  · intro s x hnext
    simp only [exec, execTrellisCfgApply, hnext]
  · rintro s _ p now ok h hroom rfl hvalid hlead
    refine congrArg Host.Outcome.next ?_
    split_ifs with hnow
    · exact command_accepted h hroom hvalid rfl hlead rfl
    · cases hfree : (s.takeCmd 0x300 p).freeCmp with
      | none => exact command_status h hvalid rfl hlead (by rw [hfree])
      | some n => exact command_accepted h hroom hvalid rfl hlead (by rw [hfree])
  · rintro s _ p h rfl hlen hlock
    exact congrArg Host.Outcome.next (command_ok h (by simp [hlen, hlock]) rfl rfl rfl)
  · rintro s _ p h hroom rfl hlen htarget hcount hfits hring hidle
    have hvalid : (p.is 4 && decide (p.arg 0 < 4 ∧ 1 ≤ p.arg 2 ∧ p.arg 1 + p.arg 2 ≤ (bfTarget (p.arg 0)).2.2) && s.loadRing (p.arg 3)) = true := by
      simp [hlen, htarget, hcount, hfits, hring]
    exact congrArg Host.Outcome.next (command_accepted h hroom hvalid rfl rfl (if_neg (by simp [hidle])))
  · rintro s _ p h rfl hlen hlow hhigh
    exact congrArg Host.Outcome.next (command_ok h (by simp [hlen, hlow, hhigh]) rfl rfl rfl)
  · rintro s _ p h rfl hlen hen hbeam
    exact congrArg Host.Outcome.next (command_ok h (by simp [hlen, hen, hbeam]) rfl rfl rfl)
  · rintro s _ p h rfl hlen hmode hcarry
    exact congrArg Host.Outcome.next (command_ok h (by simp [hlen, hmode, hcarry]) rfl rfl rfl)
  · rintro s _ p fits h rfl hlen hcar hfits
    exact congrArg Host.Outcome.next (command_ok h (by simp [hlen, hcar, ← hfits, fits]) rfl rfl rfl)
  · rintro s _ p h rfl hlen
    exact congrArg Host.Outcome.next (command_ok h hlen rfl rfl rfl)
  · rintro s _ p ok h hroom rfl hvalid
    refine congrArg Host.Outcome.next ?_
    split_ifs with hfew
    · exact command_status h hvalid rfl rfl (if_pos hfew)
    · exact command_accepted h hroom hvalid rfl rfl (if_neg hfew)
  · intro s vecs vals r rest hrefs hpending
    simp only [exec, execNullCalcDone, hrefs]
    exact if_neg (by simp [hpending])

end Sys2Proof.Machine
end

section
/-!
PROOFS. The Solver's jobs: release, work items, deadlines and slices, and the Solver's commands (R172, R178-R184, R187-R191, R195).
-/
namespace Sys2Proof.Machine

/-- Settles O21: an event by the condition on which it acts, a command by the way its judgement ends. -/
theorem solverJobsComplete : Obligations.SolverJobsComplete := by
  refine ⟨?_, ?_, ?_, ?_, ?_, ?_, ?_, ?_, ?_, ?_, ?_, ?_, ?_, ?_⟩
  · intro s j v h
    exact congrArg Host.Outcome.next (access_reaches h)
  · intro s d s1 hdue
    simp only [exec, execJobRelease, hdue]
    exact (apply_ite Host.Outcome.next _ _ _).symm
  · intro s c j i rest able hhead hable s1 x htodo again s2
    simp only [exec, execWorkItemStart, hhead]
    have hopen : ¬ (!able) = true := by simp [hable]
    have hitems : ((s.startJob j).jobOf j).todo = i :: rest := htodo
    refine (if_neg hopen).trans ?_
    simp only [hitems] <;> rfl
  · intro s c i hitem hc
    simp only [exec, execWorkItemTimeout, hitem]
    exact congrArg Host.Outcome.next (if_pos hc)
  · intro s j hj hactive hpending target s1
    refine (if_neg (by simp [hj, hactive, hpending])).trans ?_
    exact (apply_ite Host.Outcome.next _ _ _).symm
  · intro s j i x hj hreach hactive
    refine (if_neg (by simp [hj, hreach, hactive])).trans ?_
    cases x.remote.find? (fun r => r.1 == i) with
    | some r => rfl
    | none => exact (apply_ite Host.Outcome.next _ _ _).symm
  · rintro s _ p ok h rfl hok hlead
    exact congrArg Host.Outcome.next (command_ok h hok rfl hlead rfl)
  · rintro s _ p ok h hroom rfl hok hlead
    refine congrArg Host.Outcome.next ?_
    dsimp only
    cases hslot : (if p.arg 0 = 0xFF then (List.range 64).find? (fun j => (s.takeCmd 0x401 p).jobState j == 0) else some (p.arg 0)) with
    | none => exact command_status h hok rfl hlead (by rw [hslot])
    | some j =>
      by_cases hactive : (s.takeCmd 0x401 p).jobActive j = true
      · refine Eq.trans ?_ (if_pos hactive).symm
        exact command_status h hok rfl hlead (by rw [hslot]; exact if_pos hactive)
      · refine Eq.trans ?_ (if_neg hactive).symm
        exact command_accepted h hroom hok rfl hlead (by rw [hslot]; exact if_neg hactive)
  · rintro s _ p h rfl hlen hj hlead
    exact congrArg Host.Outcome.next (command_ok h (by simp [hlen, hj]) rfl hlead rfl)
  · rintro s _ p h rfl hlen hj
    exact congrArg Host.Outcome.next (command_ok h (by simp [hlen, hj]) rfl rfl rfl)
  · rintro s _ p ok h hroom rfl hok
    refine congrArg Host.Outcome.next ?_
    split_ifs with hbusy
    · exact command_status h hok rfl rfl (if_pos hbusy)
    · exact command_accepted h hroom hok rfl rfl (if_neg hbusy)
  · rintro s _ p pass h rfl hlen hc hop
    have hok : (p.is 2 && decide (p.arg 0 < 32 ∧ p.arg 1 < 2)) = true := by simp [hlen, hc, hop]
    refine congrArg Host.Outcome.next ?_
    dsimp only
    split_ifs with hout hpass
    · exact command_ok h hok rfl rfl rfl
    · exact command_ok h hok rfl rfl rfl
    · exact command_status h hok rfl rfl rfl
  · rintro s _ p h rfl hlen hmode hlead
    exact congrArg Host.Outcome.next (command_ok h (by simp [hlen, hmode]) rfl hlead rfl)
  · rintro s _ p h rfl hlen hfits
    exact congrArg Host.Outcome.next (command_ok h (by simp [hlen, hfits]) rfl rfl rfl)

end Sys2Proof.Machine
end

section
/-!
PROOFS. Words of a solver core: the range of their components (R7), residues modulo 15 and what saturation and requantisation make of them
(R202, R221, R222).
-/
namespace Sys2Proof.Machine

/-! ### The range of a component -/

/-- The values of an `n`-bit two's-complement number (R7). -/
def InBits (n : Nat) (v : Int) : Prop := -(2 ^ (n - 1)) ≤ v ∧ v < 2 ^ (n - 1)

theorem InBits.mono {m n : Nat} {v : Int} (h : InBits m v) (hmn : m ≤ n) : InBits n v := by
  have hpow : (2 : Int) ^ (m - 1) ≤ 2 ^ (n - 1) := pow_le_pow_right₀ (by norm_num) (by omega)
  exact ⟨(neg_le_neg hpow).trans h.1, h.2.trans_le hpow⟩

theorem two_pow_eq_double {n : Nat} (hn : 0 < n) : (2 : Nat) ^ n = 2 * 2 ^ (n - 1) := by
  rw [← pow_succ', Nat.sub_add_cancel hn]

theorem sext_inBits {n : Nat} (hn : 0 < n) (v : Nat) : InBits n (sext v n) := by
  have hlt : v % 2 ^ n < 2 ^ n := Nat.mod_lt _ (by positivity)
  rw [two_pow_eq_double hn] at hlt
  have hcast : ((2 ^ (n - 1) : Nat) : Int) = 2 ^ (n - 1) := by push_cast; rfl
  simp only [InBits, sext, ← hcast, two_pow_eq_double hn]
  split_ifs <;> omega

theorem satN_inBits (v : Int) (n : Nat) : InBits n (satN v n) := by
  have hpos : 0 < 2 ^ (n - 1) := by positivity
  have hcast : ((2 ^ (n - 1) : Nat) : Int) = 2 ^ (n - 1) := by push_cast; rfl
  simp only [InBits, satN, ← hcast]
  split_ifs <;> omega

theorem wrapN_lt (v : Int) (n : Nat) : wrapN v n < 2 ^ n := by
  have hpos : 0 < 2 ^ n := by positivity
  have := Int.emod_lt_of_pos v (b := ((2 ^ n : Nat) : Int)) (by omega)
  simp only [wrapN]
  omega

/-- A value in range is read back from its low bits. -/
theorem sext_wrapN {n : Nat} (hn : 0 < n) {v : Int} (h : InBits n v) : sext (wrapN v n) n = v := by
  have hpos : 0 < 2 ^ (n - 1) := by positivity
  have hcast : ((2 ^ (n - 1) : Nat) : Int) = 2 ^ (n - 1) := by push_cast; rfl
  obtain ⟨hlo, hhi⟩ := h
  rw [← hcast] at hlo hhi
  have hlt : wrapN v n < 2 ^ n := wrapN_lt v n
  rw [two_pow_eq_double hn] at hlt
  have hmod : wrapN v n % (2 * 2 ^ (n - 1)) = wrapN v n := Nat.mod_eq_of_lt hlt
  simp only [sext, two_pow_eq_double hn, hmod]
  simp only [wrapN, two_pow_eq_double hn]
  by_cases hneg : v < 0
  · have hrem : v % ((2 * 2 ^ (n - 1) : Nat) : Int) = v + (2 * 2 ^ (n - 1) : Nat) := by
      rw [← Int.add_emod_right, Int.emod_eq_of_lt (by omega) (by omega)]
    rw [hrem]
    split_ifs <;> omega
  · have hrem : v % ((2 * 2 ^ (n - 1) : Nat) : Int) = v := Int.emod_eq_of_lt (by omega) (by omega)
    rw [hrem]
    split_ifs <;> omega

theorem sext_mod (v n : Nat) : sext (v % 2 ^ n) n = sext v n := by
  simp only [sext, Nat.mod_mod]

/-- The components of a packed word (R143). -/
theorem sext_packCx {i q : Int} (hi : InBits 24 i) (hq : InBits 24 q) :
    sext (packCx i q / 2 ^ 24) 24 = i ∧ sext (packCx i q) 24 = q := by
  have hlt := wrapN_lt q 24
  have hhigh : packCx i q / 2 ^ 24 = wrapN i 24 := by simp only [packCx]; omega
  have hlow : packCx i q % 2 ^ 24 = wrapN q 24 := by simp only [packCx]; omega
  exact ⟨by rw [hhigh, sext_wrapN (by decide) hi], by rw [← sext_mod, hlow, sext_wrapN (by decide) hq]⟩

/-! ### Residues -/

theorem residue_cast (v : Int) : (residue v : Int) = v % 15 := by
  simp only [residue]
  omega

theorem residue_mod (v : Int) : residue v % 15 = residue v := by
  simp only [residue]
  omega

theorem residue_add (a b : Int) : residue (a + b) = rAdd (residue a) (residue b) := by
  simp only [residue, rAdd]
  omega

theorem residue_sub (a b : Int) : residue (a - b) = rSub (residue a) (residue b) := by
  simp only [residue, rSub]
  omega

theorem residue_neg (a : Int) : residue (-a) = rNeg (residue a) := by
  simp only [residue, rNeg]
  omega

theorem residue_mul (a b : Int) : residue (a * b) = rMul (residue a) (residue b) := by
  apply Int.ofNat_inj.mp
  rw [residue_cast, rMul]
  push_cast
  rw [residue_cast, residue_cast, Int.mul_emod]

/-- Powers of two repeat after four, modulo 15. -/
theorem two_pow_mod_fifteen (n : Nat) : 2 ^ (n % 4) % 15 = 2 ^ n % 15 := by
  conv_rhs => rw [← Nat.div_add_mod n 4, pow_add, pow_mul, Nat.mul_mod, Nat.pow_mod]
  norm_num

theorem rShl_eq (a n : Nat) : rShl a n = a * 2 ^ n % 15 := by
  rw [rShl, Nat.mul_mod, two_pow_mod_fifteen, ← Nat.mul_mod]

theorem residue_shl (a : Int) (n : Nat) : residue (a * 2 ^ n) = rShl (residue a) n := by
  apply Int.ofNat_inj.mp
  rw [residue_cast, rShl_eq]
  push_cast
  rw [residue_cast]
  exact ((Int.mod_modEq a 15).mul_right _).symm

/-! ### Saturation -/

theorem satR_inBits (v : Int) (r n : Nat) : InBits n (satR v r n).1 := by
  simp only [satR]
  split_ifs with hin
  · exact hin ▸ satN_inBits v n
  · exact satN_inBits v n

/-- A component that saturates has the residue of its limit (R221). -/
theorem satR_residue {v : Int} {r : Nat} (h : r = residue v) (n : Nat) : (satR v r n).2.1 = residue (satR v r n).1 := by
  simp only [satR]
  split_ifs
  · exact h
  · rfl

/-! ### Requantisation -/

/-- R222: a value is kept * 2^k + dropped, and so is its residue. -/
theorem residue_split (v : Int) (k : Nat) :
    (residue (v / ((2 ^ k : Nat) : Int)) * 2 ^ k + residue (v - v / ((2 ^ k : Nat) : Int) * ((2 ^ k : Nat) : Int))) % 15 = residue v := by
  apply Int.ofNat_inj.mp
  push_cast
  rw [residue_cast, residue_cast, residue_cast]
  have hsum : v / 2 ^ k * 2 ^ k + (v - v / 2 ^ k * 2 ^ k) = v := add_sub_cancel _ _
  have hparts := ((Int.mod_modEq (v / 2 ^ k) 15).mul_right (2 ^ k)).add (Int.mod_modEq (v - v / 2 ^ k * 2 ^ k) 15)
  rwa [hsum] at hparts

/-- The check of a requantisation as R222 states it. -/
theorem requant_pass_iff_split (v : Int) (r k : Nat) (fl : Bool) : (requant v r k fl).2.2 = true ↔
    r % 15 = (residue (v / ((2 ^ k : Nat) : Int)) * 2 ^ k + residue (v - v / ((2 ^ k : Nat) : Int) * ((2 ^ k : Nat) : Int))) % 15 := by
  simp only [requant, decide_eq_true_iff, shrI, rAdd, rShl_eq, Nat.mod_add_mod]

theorem requant_pass_iff (v : Int) (r k : Nat) (fl : Bool) : (requant v r k fl).2.2 = true ↔ r % 15 = residue v := by
  rw [requant_pass_iff_split, residue_split]

theorem requant_pass {v : Int} {r : Nat} (h : r = residue v) (k : Nat) (fl : Bool) : (requant v r k fl).2.2 = true := by
  rw [requant_pass_iff, h, residue_mod]

/-- Rounding up adds 1 to the value and to its residue. -/
theorem requant_residue (v : Int) (r k : Nat) (fl : Bool) : (requant v r k fl).2.1 = residue (requant v r k fl).1 := by
  simp only [requant]
  generalize (!fl && k != 0 && _ : Bool) = up
  cases up
  · rfl
  · exact (residue_add _ 1).symm

/-- Rounding toward minus infinity brings a value no further from 0 than its range. -/
theorem requant_floor_inBits {n : Nat} {v : Int} (h : InBits n v) (r k : Nat) : InBits n (requant v r k true).1 := by
  have hkept : (requant v r k true).1 = v / 2 ^ k := by simp [requant, shrI]
  have hone : (1 : Int) ≤ 2 ^ k := one_le_pow₀ (by norm_num)
  have hbound : (0 : Int) < 2 ^ (n - 1) := by positivity
  obtain ⟨hlo, hhi⟩ := h
  rw [hkept]
  constructor
  · rw [Int.le_ediv_iff_mul_le (by positivity)]
    nlinarith
  · exact Int.ediv_lt_of_lt_mul (by positivity) (by nlinarith)

/-! ### Accumulation -/

/-- What an accumulation starts from carries its residue (R201). -/
theorem base_residue {n : Int} {r : Nat} {clr : Bool} (h : clr = false → r = residue n) :
    (if clr then 0 else r) = residue (if clr then 0 else n) := by
  cases clr
  · exact h rfl
  · rfl

theorem accAdd_residue {a p : Int} {ra rp : Nat} {clr : Bool} (ha : clr = false → ra = residue a) (hp : rp = residue p) (ng : Bool) :
    (accAdd clr ng a ra p rp).2 = residue (accAdd clr ng a ra p rp).1 := by
  refine satR_residue ?_ 96
  rw [base_residue ha, hp]
  cases ng
  · exact (residue_add _ _).symm
  · exact (residue_sub _ _).symm

end Sys2Proof.Machine
end

section
/-!
PROOFS. Residues through the M slot (R200-R202, R221-R223, R391): operands that carry theirs give words and accumulators that carry theirs.
-/
namespace Sys2Proof.Machine

variable {x : CoreSt} {w : DWord} {a b : OpC} {u v : OpR}

/-! ### Operands -/

/-- An operand in complex view that is not poisoned carries its residues. -/
def OpC.Carries (a : OpC) : Prop := a.bad = false → a.ri = residue a.i ∧ a.rq = residue a.q

/-- An operand in real view that is not poisoned carries its residue. -/
def OpR.Carries (a : OpR) : Prop := a.bad = false → a.r = residue a.x

theorem DWord.Tagged.asC (h : w.Tagged) : w.asC.Carries := by
  intro hgood
  obtain ⟨hclean, hview⟩ : w.poisoned = false ∧ w.real = false := Bool.or_eq_false_iff.mp hgood
  obtain hbad | ⟨hreal, -⟩ | ⟨-, hres⟩ := h
  · exact absurd hbad (by simp [hclean])
  · exact absurd hreal (by simp [hview])
  · exact hres

theorem DWord.Tagged.asR (h : w.Tagged) : w.asR.Carries := by
  intro hgood
  obtain ⟨hclean, hview⟩ : w.poisoned = false ∧ (!w.real) = false := Bool.or_eq_false_iff.mp hgood
  obtain hbad | ⟨-, hres⟩ | ⟨hcomplex, -⟩ := h
  · exact absurd hbad (by simp [hclean])
  · exact hres
  · exact absurd hview (by simp [hcomplex])

theorem DWord.asC_inBits (w : DWord) : InBits 24 w.asC.i ∧ InBits 24 w.asC.q :=
  ⟨sext_inBits (by decide) _, sext_inBits (by decide) _⟩

theorem DWord.asR_inBits (w : DWord) : InBits 48 w.asR.x := sext_inBits (by decide) _

/-! ### Words -/

/-- A complex word of components in range, with their residues where it is not poisoned. -/
theorem mkC_tagged {bad : Bool} {i q : Int} {ri rq : Nat} (hi : InBits 24 i) (hq : InBits 24 q)
    (h : bad = false → ri = residue i ∧ rq = residue q) : (mkC bad i q ri rq).Tagged := by
  cases bad with
  | true => exact .inl rfl
  | false =>
    obtain ⟨hvi, hvq⟩ := sext_packCx hi hq
    exact .inr (.inr ⟨rfl, (h rfl).1.trans (congrArg residue hvi.symm), (h rfl).2.trans (congrArg residue hvq.symm)⟩)

/-- A real word of a value in range, with its residue where it is not poisoned. -/
theorem mkR_tagged {bad : Bool} {n : Int} {r : Nat} (hn : InBits 48 n) (h : bad = false → r = residue n) : (mkR bad n r).Tagged := by
  cases bad with
  | true => exact .inl rfl
  | false => exact .inr (.inl ⟨rfl, (h rfl).trans (congrArg residue (sext_wrapN (by decide) hn).symm)⟩)

/-- Two components held to 24 bits make a word that carries its residues (R202, R221). -/
theorem mkC_satR_tagged {bad : Bool} {i q : Int} {ri rq : Nat} (h : bad = false → ri = residue i ∧ rq = residue q) :
    (mkC bad (satR i ri 24).1 (satR q rq 24).1 (satR i ri 24).2.1 (satR q rq 24).2.1).Tagged := by
  exact mkC_tagged (satR_inBits _ _ _) (satR_inBits _ _ _) fun hgood => ⟨satR_residue (h hgood).1 24, satR_residue (h hgood).2 24⟩

/-- A value held to 48 bits makes a word that carries its residue (R202, R221). -/
theorem mkR_satR_tagged {bad : Bool} {n : Int} {r : Nat} (h : bad = false → r = residue n) :
    (mkR bad (satR n r 48).1 (satR n r 48).2.1).Tagged := by
  exact mkR_tagged (satR_inBits _ _ _) fun hgood => satR_residue (h hgood) 48

/-! ### Accumulators -/

theorem AccW.Tagged.residues {a : AccW} (h : a.Tagged) (hclean : a.poisoned = false) : a.ri = residue a.i ∧ a.rq = residue a.q := by
  obtain ⟨hi, hq⟩ : (a.ri == 15) = false ∧ (a.rq == 15) = false := Bool.or_eq_false_iff.mp hclean
  exact ⟨h.1.resolve_left (by simpa using hi), h.2.resolve_left (by simpa using hq)⟩

theorem AccW.zero_tagged : ({} : AccW).Tagged := ⟨.inr rfl, .inr rfl⟩

/-- A component of an accumulator as it is stored: poisoned, or with its residue. -/
theorem seal_or_residue {bad : Bool} {r : Nat} {n : Int} (h : bad = false → r = residue n) :
    (if bad then 15 else r) = 15 ∨ (if bad then 15 else r) = residue n := by
  cases bad with
  | true => exact .inl rfl
  | false => exact .inr (h rfl)

/-- The poison of an accumulation is that of its operands, and of the old accumulator where it is not cleared (R223). -/
theorem acc_not_poisoned {bad clr old : Bool} (h : (bad || (!clr && old)) = false) : bad = false ∧ (clr = false → old = false) := by
  obtain ⟨hop, hold⟩ := Bool.or_eq_false_iff.mp h
  exact ⟨hop, fun hclr => by simpa [hclr] using hold⟩

theorem macC_tagged {acc : AccW} {bad : Bool} {i q : Int} {ri rq : Nat} (hacc : acc.Tagged)
    (h : bad = false → ri = residue i ∧ rq = residue q) (clr ng : Bool) : (macC acc clr ng bad i ri q rq).Tagged := by
  refine ⟨seal_or_residue fun hgood => ?_, seal_or_residue fun hgood => ?_⟩ <;>
    obtain ⟨hop, hold⟩ := acc_not_poisoned hgood
  · exact accAdd_residue (fun hclr => (hacc.residues (hold hclr)).1) (h hop).1 ng
  · exact accAdd_residue (fun hclr => (hacc.residues (hold hclr)).2) (h hop).2 ng

/-! ### Products -/

/-- The residues of a complex product follow its products and sums (R391). -/
theorem cmul_residues (ha : a.Carries) (hb : b.Carries) (cj : Bool) (h : (a.bad || b.bad) = false) :
    (cmul a b cj).1.2 = residue (cmul a b cj).1.1 ∧ (cmul a b cj).2.2 = residue (cmul a b cj).2.1 := by
  obtain ⟨hna, hnb⟩ := Bool.or_eq_false_iff.mp h
  obtain ⟨hai, haq⟩ := ha hna
  obtain ⟨hbi, hbq⟩ := hb hnb
  cases cj <;> simp [cmul, residue_add, residue_sub, residue_mul, hai, haq, hbi, hbq]

/-- The products of DMAC, component by component. -/
theorem mul_residues (ha : a.Carries) (hb : b.Carries) (h : (a.bad || b.bad) = false) :
    rMul a.ri b.ri = residue (a.i * b.i) ∧ rMul a.rq b.rq = residue (a.q * b.q) := by
  obtain ⟨hna, hnb⟩ := Bool.or_eq_false_iff.mp h
  obtain ⟨hai, haq⟩ := ha hna
  obtain ⟨hbi, hbq⟩ := hb hnb
  exact ⟨by rw [hai, hbi, residue_mul], by rw [haq, hbq, residue_mul]⟩

theorem mul_residue (hu : u.Carries) (hv : v.Carries) (h : (u.bad || v.bad) = false) : rMul u.r v.r = residue (u.x * v.x) := by
  obtain ⟨hnu, hnv⟩ := Bool.or_eq_false_iff.mp h
  rw [hu hnu, hv hnv, residue_mul]

/-! ### Results -/

theorem CoreSt.Tagged.asC (h : x.Tagged) (n : Nat) : (x.reg n).asC.Carries := (h.regs n).asC

theorem CoreSt.Tagged.asR (h : x.Tagged) (n : Nat) : (x.reg n).asR.Carries := (h.regs n).asR

theorem toD_tagged (h : w.Tagged) (dst n : Nat) : (x.toD dst w n).Tagged where
  noFail := rfl
  noErr := rfl
  word := by
    rintro _ ⟨⟩
    exact h
  sums := by simp [CoreSt.toD]

/-- A result that writes accumulators alone. -/
theorem accs_tagged {l : List (Nat × AccW)} (h : ∀ y ∈ l, y.2.Tagged) : ({ w := { accs := l } } : MRes).Tagged where
  noFail := rfl
  noErr := rfl
  word := by simp
  sums := h

/-- A requantisation that passes its check and writes a word that carries its residues. -/
theorem checked_tagged (h : w.Tagged) (dst n : Nat) (checked : Bool) {fail : Bool} (hpass : fail = false) :
    ({ x.toD dst w n with checked := checked, fail := fail } : MRes).Tagged where
  noFail := hpass
  noErr := rfl
  word := (toD_tagged (x := x) h dst n).word
  sums := (toD_tagged (x := x) h dst n).sums

theorem MRes.Tagged.ite {p : Prop} [Decidable p] {r₁ r₂ : MRes} (h₁ : r₁.Tagged) (h₂ : r₂.Tagged) : (if p then r₁ else r₂).Tagged := by
  split_ifs
  · exact h₁
  · exact h₂

/-- The check that a requantisation of two components makes (R222, R223). -/
theorem quantC_fail (dst k : Nat) (rnd bad : Bool) (i q : Int) (ri rq : Nat) :
    (x.quantC dst k rnd bad i ri q rq).fail = (!bad && !((requant i ri k rnd).2.2 && (requant q rq k rnd).2.2)) := rfl

/-- A check is made where nothing is poisoned (R223). -/
theorem check_passes {bad pass : Bool} (h : bad = false → pass = true) : (!bad && !pass) = false := by
  cases bad with
  | true => rfl
  | false => rw [h rfl]; rfl

/-- A requantisation of components that carry their residues passes its check (R222). -/
theorem quantC_passes {bad : Bool} {i q : Int} {ri rq : Nat} (h : bad = false → ri = residue i ∧ rq = residue q) (dst k : Nat) (rnd : Bool) :
    (x.quantC dst k rnd bad i ri q rq).fail = false := by
  rw [quantC_fail]
  refine check_passes fun hgood => ?_
  rw [requant_pass (h hgood).1, requant_pass (h hgood).2, Bool.and_self]

theorem quantC_tagged {bad : Bool} {i q : Int} {ri rq : Nat} (h : bad = false → ri = residue i ∧ rq = residue q) (dst k : Nat) (rnd : Bool) :
    (x.quantC dst k rnd bad i ri q rq).Tagged := by
  exact checked_tagged (mkC_satR_tagged fun _ => ⟨requant_residue i ri k rnd, requant_residue q rq k rnd⟩) _ _ _ (quantC_passes (x := x) h dst k rnd)

theorem addSub_tagged (h : x.Tagged) (f : FmtMR) (sub : Bool) : (x.addSub f sub).Tagged := by
  refine MRes.Tagged.ite (toD_tagged (mkR_satR_tagged fun hgood => ?_) _ _) (toD_tagged (mkC_satR_tagged fun hgood => ?_) _ _) <;>
    obtain ⟨ha, hb⟩ := Bool.or_eq_false_iff.mp hgood
  · rw [h.asR _ ha, h.asR _ hb]
    cases sub
    · exact (residue_add _ _).symm
    · exact (residue_sub _ _).symm
  · obtain ⟨hai, haq⟩ := h.asC _ ha
    obtain ⟨hbi, hbq⟩ := h.asC _ hb
    rw [hai, haq, hbi, hbq]
    cases sub
    · exact ⟨(residue_add _ _).symm, (residue_add _ _).symm⟩
    · exact ⟨(residue_sub _ _).symm, (residue_sub _ _).symm⟩

theorem shl_tagged (h : w.Tagged) (dst : Nat) (real bad : Bool) (n : Nat) : (x.shl dst w real bad n).Tagged := by
  refine MRes.Tagged.ite (toD_tagged (mkR_satR_tagged fun hgood => ?_) _ _) (toD_tagged (mkC_satR_tagged fun hgood => ?_) _ _)
  · rw [residue_shl, h.asR (Bool.or_eq_false_iff.mp hgood).1]
  · obtain ⟨hi, hq⟩ := h.asC (Bool.or_eq_false_iff.mp hgood).1
    rw [residue_shl, residue_shl, hi, hq]
    exact ⟨rfl, rfl⟩

end Sys2Proof.Machine
end

section
/-!
PROOFS. The statements about residues: every result carries its own (R200-R202, R221-R223, R391), and every requantisation checks them (R222).
-/
namespace Sys2Proof.Machine

variable {s : State} {c word : Nat} {fits : Bool} {x : CoreSt}

/-! ### The results of RDQ, SHR, CMPY and NEG by name -/

/-- What RDQ computes (R202, R222). -/
def CoreSt.rdq (x : CoreSt) (f : FmtMQ) : MRes :=
  let a := x.accOf f.acc
  let k := x.shift f.k
  let r :=
    if f.real then
      let bad := a.ri == 15
      let (v, xr, pass) := requant a.i a.ri k f.rnd
      let (w, y, n) := satR v xr 48
      { x.toD f.dst (mkR bad w y) n with checked := !bad, fail := !bad && !pass }
    else x.quantC f.dst k f.rnd a.poisoned a.i a.ri a.q a.rq
  { r with w := { r.w with accs := if f.clr then [(f.acc, {})] else [] } }

theorem exec_mRdq (s : State) (c : Nat) (f : FmtMQ) :
    exec (.mRdq c f) s = .next (s.mIssue c (f.word 5) f.fits fun x => x.rdq f) := rfl

/-- What SHR computes (R202, R222). -/
def CoreSt.shr (x : CoreSt) (f : FmtMR) : MRes :=
  if f.real then
    let a := (x.reg f.a).asR
    let (v, r, pass) := requant a.x a.r f.imm6 true
    { x.toD f.dst (mkR a.bad v r) 0 with checked := !a.bad, fail := !a.bad && !pass }
  else
    let a := (x.reg f.a).asC
    x.quantC f.dst f.imm6 true a.bad a.i a.ri a.q a.rq

theorem exec_mShr (s : State) (c : Nat) (f : FmtMR) :
    exec (.mShr c f) s = .next (s.mIssue c (f.word 0x12) f.fits fun x => x.shr f) := rfl

/-- What CMPY computes (R200, R202, R222). -/
def CoreSt.cmpy (x : CoreSt) (f : FmtMP) : MRes :=
  let a := (x.reg f.x).asC
  let b := (x.reg f.y).asC
  let z := cmul a b f.cj
  x.quantC f.dst (x.shift f.k) f.rnd (a.bad || b.bad) z.1.1 z.1.2 z.2.1 z.2.2

theorem exec_mCmpy (s : State) (c : Nat) (f : FmtMP) :
    exec (.mCmpy c f) s = .next (s.mIssue c (f.word 4) f.fits fun x => x.cmpy f) := rfl

/-- What NEG computes (R202, R221). -/
def CoreSt.neg (x : CoreSt) (f : FmtMR) : MRes :=
  if f.real then
    let a := (x.reg f.a).asR
    let (v, r, n) := satR (-a.x) (rNeg a.r) 48
    x.toD f.dst (mkR a.bad v r) n
  else
    let a := (x.reg f.a).asC
    let (vi, ri, ni) := satR (-a.i) (rNeg a.ri) 24
    let (vq, rq, nq) := satR (-a.q) (rNeg a.rq) 24
    x.toD f.dst (mkC a.bad vi vq ri rq) (ni + nq)

theorem exec_mNeg (s : State) (c : Nat) (f : FmtMR) :
    exec (.mNeg c f) s = .next (s.mIssue c (f.word 0x0A) f.fits fun x => x.neg f) := rfl

theorem rdq_err (x : CoreSt) (f : FmtMQ) : (x.rdq f).err = none := by
  unfold CoreSt.rdq
  split_ifs <;> rfl

theorem shr_err (x : CoreSt) (f : FmtMR) : (x.shr f).err = none := by
  unfold CoreSt.shr
  split_ifs <;> rfl

theorem rdq_fail_real {f : FmtMQ} (h : f.real = true) : (x.rdq f).fail =
    (!((x.accOf f.acc).ri == 15) && !(requant (x.accOf f.acc).i (x.accOf f.acc).ri (x.shift f.k) f.rnd).2.2) := by
  simp only [CoreSt.rdq, h, if_true]

theorem rdq_fail_complex {f : FmtMQ} (h : f.real = false) : (x.rdq f).fail =
    (!(x.accOf f.acc).poisoned && !((requant (x.accOf f.acc).i (x.accOf f.acc).ri (x.shift f.k) f.rnd).2.2 &&
      (requant (x.accOf f.acc).q (x.accOf f.acc).rq (x.shift f.k) f.rnd).2.2)) := by
  simp only [CoreSt.rdq, h, Bool.false_eq_true, if_false, quantC_fail]

theorem shr_fail_real {f : FmtMR} (h : f.real = true) : (x.shr f).fail =
    (!(x.reg f.a).asR.bad && !(requant (x.reg f.a).asR.x (x.reg f.a).asR.r f.imm6 true).2.2) := by
  simp only [CoreSt.shr, h, if_true]

theorem shr_fail_complex {f : FmtMR} (h : f.real = false) : (x.shr f).fail =
    (!(x.reg f.a).asC.bad && !((requant (x.reg f.a).asC.i (x.reg f.a).asC.ri f.imm6 true).2.2 &&
      (requant (x.reg f.a).asC.q (x.reg f.a).asC.rq f.imm6 true).2.2)) := by
  simp only [CoreSt.shr, h, Bool.false_eq_true, if_false, quantC_fail]

/-! ### Residues -/

/-- What a result writes to accumulators beside its word. -/
theorem withAccs_tagged {r : MRes} {l : List (Nat × AccW)} (h : r.Tagged) (hl : ∀ y ∈ l, y.2.Tagged) :
    ({ r with w := { r.w with accs := l } } : MRes).Tagged where
  noFail := h.noFail
  noErr := h.noErr
  word := h.word
  sums := hl

theorem rdq_tagged (h : x.Tagged) (f : FmtMQ) : (x.rdq f).Tagged := by
  refine withAccs_tagged (MRes.Tagged.ite ?_ ?_) ?_
  · have hres := requant_residue (x.accOf f.acc).i (x.accOf f.acc).ri (x.shift f.k) f.rnd
    refine checked_tagged (mkR_satR_tagged fun _ => hres) _ _ _ (check_passes fun hgood => ?_)
    exact requant_pass ((h.accs f.acc).1.resolve_left (by simpa using hgood)) (x.shift f.k) f.rnd
  · exact quantC_tagged (h.accs _).residues _ _ _
  · cases f.clr
    · simp
    · simpa using AccW.zero_tagged

theorem shr_tagged (h : x.Tagged) (f : FmtMR) : (x.shr f).Tagged := by
  refine MRes.Tagged.ite ?_ ?_
  · have hres := requant_residue (x.reg f.a).asR.x (x.reg f.a).asR.r f.imm6 true
    have hin := requant_floor_inBits (x.reg f.a).asR_inBits (x.reg f.a).asR.r f.imm6
    refine checked_tagged (mkR_tagged hin fun _ => hres) _ _ _ (check_passes fun hgood => ?_)
    exact requant_pass (h.asR f.a hgood) f.imm6 true
  · exact quantC_tagged (h.asC _) _ _ _

theorem cmpy_tagged (h : x.Tagged) (f : FmtMP) : (x.cmpy f).Tagged :=
  quantC_tagged (cmul_residues (h.asC _) (h.asC _) f.cj) _ _ _

/-- MULW's accumulator: the product in I, and Q as it was or cleared (R200, R201). -/
theorem mulw_tagged {acc : AccW} {u v : OpR} (hacc : acc.Tagged) (hu : u.Carries) (hv : v.Carries) (clr ng : Bool) :
    AccW.Tagged {
      i := (accAdd clr ng acc.i acc.ri (u.x * v.x) (rMul u.r v.r)).1
      q := if clr then 0 else acc.q
      ri := if u.bad || v.bad || (!clr && acc.poisoned) then 15 else (accAdd clr ng acc.i acc.ri (u.x * v.x) (rMul u.r v.r)).2
      rq := if u.bad || v.bad || (!clr && acc.poisoned) then 15 else if clr then 0 else acc.rq } := by
  refine ⟨seal_or_residue fun hgood => ?_, seal_or_residue fun hgood => ?_⟩ <;>
    obtain ⟨hop, hold⟩ := acc_not_poisoned hgood
  · exact accAdd_residue (fun hclr => (hacc.residues (hold hclr)).1) (mul_residue hu hv hop) ng
  · exact base_residue fun hclr => (hacc.residues (hold hclr)).2

theorem cplx_tagged {u : OpR} (h : u.Carries) : (mkC u.bad (satR u.x u.r 24).1 0 (satR u.x u.r 24).2.1 0).Tagged :=
  mkC_tagged (satR_inBits _ _ _) ⟨by decide, by decide⟩ fun hgood => ⟨satR_residue (h hgood) 24, rfl⟩

theorem conj_tagged {w : DWord} (h : w.Tagged) :
    (mkC w.asC.bad w.asC.i (satR (-w.asC.q) (rNeg w.asC.rq) 24).1 w.asC.ri (satR (-w.asC.q) (rNeg w.asC.rq) 24).2.1).Tagged := by
  refine mkC_tagged w.asC_inBits.1 (satR_inBits _ _ _) fun hgood => ?_
  obtain ⟨hi, hq⟩ := h.asC hgood
  exact ⟨hi, satR_residue (by rw [hq, residue_neg]) 24⟩

theorem neg_tagged (h : x.Tagged) (f : FmtMR) : (x.neg f).Tagged := by
  refine MRes.Tagged.ite (toD_tagged (mkR_satR_tagged fun hgood => ?_) _ _) (toD_tagged (mkC_satR_tagged fun hgood => ?_) _ _)
  · rw [h.asR _ hgood, residue_neg]
  · obtain ⟨hi, hq⟩ := h.asC _ hgood
    rw [hi, hq, residue_neg, residue_neg]
    exact ⟨rfl, rfl⟩

/-- An M-slot instruction whose result carries its residues issues with it. -/
theorem issued_tagged {f : CoreSt → MRes} (h : s.MIssues c word) (hf : fits = true) (ht : (f (s.coreOf c)).Tagged) :
    ∃ r : MRes, r.Tagged ∧ (Host.Outcome.next (s.mIssue c word fits f) : Out) = .next (s.mDone c r) :=
  ⟨_, ht, congrArg Host.Outcome.next (mIssue_done h hf ht.noErr ht.noFail)⟩

/-- Settles O55: each result is made of operations on components that carry their residues to their results. -/
theorem residuesFollowTheArithmetic : Obligations.ResiduesFollowTheArithmetic := by
  refine ⟨?_, ?_, ?_, ?_⟩
  · intro s c f ht hf
    refine ⟨fun h => issued_tagged h hf (accs_tagged (List.forall_mem_singleton.mpr ?_)),
      fun h => issued_tagged h hf (accs_tagged (List.forall_mem_cons.mpr ⟨?_, List.forall_mem_singleton.mpr ?_⟩)),
      fun h => issued_tagged h hf (accs_tagged (List.forall_mem_singleton.mpr ?_))⟩
    · exact macC_tagged (ht.accs _) (cmul_residues (ht.asC _) (ht.asC _) f.cj) _ _
    · exact macC_tagged (ht.accs _) (mul_residues (ht.asC _) (ht.asC _)) _ _
    · refine macC_tagged ?_ (mul_residues (ht.asC _) (ht.asC _)) _ _
      split_ifs
      · exact macC_tagged (ht.accs _) (mul_residues (ht.asC _) (ht.asC _)) _ _
      · exact ht.accs _
    · exact mulw_tagged (ht.accs _) (ht.asR _) (ht.asR _) f.clr f.ng
  · intro s c f ht hf h
    exact issued_tagged h hf (cmpy_tagged ht f)
  · intro s c f ht hf h
    exact issued_tagged h hf (rdq_tagged ht f)
  · intro s c f ht hf
    refine ⟨?_, ?_, ?_, ?_, ?_, ?_, ?_, ?_, ?_, ?_⟩ <;> refine fun h => issued_tagged h hf ?_
    · exact toD_tagged (cplx_tagged (ht.asR _)) _ _
    · exact toD_tagged (mkR_tagged ((DWord.asC_inBits _).1.mono (by decide)) fun hgood => (ht.asC _ hgood).1) _ _
    · exact addSub_tagged ht f false
    · exact addSub_tagged ht f true
    · exact neg_tagged ht f
    · exact toD_tagged (conj_tagged (ht.regs _)) _ _
    · exact toD_tagged (mkC_tagged (DWord.asC_inBits _).2 (DWord.asC_inBits _).1 fun hgood => (ht.asC _ hgood).symm) _ _
    · exact toD_tagged (ht.regs _) _ _
    · exact shl_tagged (ht.regs _) _ _ _ _
    · exact shr_tagged ht f

/-! ### The check -/

/-- An instruction that checks one component, of an operand that is not poisoned, goes on or fails with cause 1 (R222, R223, R232). -/
theorem issue_by_check {f : CoreSt → MRes} {bad pass : Bool} (h : s.MIssues c word) (hf : fits = true) (he : (f (s.coreOf c)).err = none)
    (hfail : (f (s.coreOf c)).fail = (!bad && !pass)) (hgood : bad = false) :
    (pass = false → (Host.Outcome.next (s.mIssue c word fits f) : Out) = .next (s.coreFail c 1)) ∧
    (pass = true → ∃ r, (Host.Outcome.next (s.mIssue c word fits f) : Out) = .next (s.mDone c r)) := by
  rw [mIssue_of_issues h hf, he, hfail, hgood]
  refine ⟨?_, ?_⟩ <;> rintro rfl
  · rfl
  · exact ⟨_, rfl⟩

/-- The same for two components, each with its check. -/
theorem issue_by_checks {f : CoreSt → MRes} {bad p q : Bool} (h : s.MIssues c word) (hf : fits = true) (he : (f (s.coreOf c)).err = none)
    (hfail : (f (s.coreOf c)).fail = (!bad && !(p && q))) (hgood : bad = false) :
    (p = false ∨ q = false → (Host.Outcome.next (s.mIssue c word fits f) : Out) = .next (s.coreFail c 1)) ∧
    (p = true → q = true → ∃ r, (Host.Outcome.next (s.mIssue c word fits f) : Out) = .next (s.mDone c r)) := by
  obtain ⟨hstop, hgo⟩ := issue_by_check h hf he hfail hgood
  exact ⟨fun hpq => hstop (Bool.and_eq_false_iff.mpr hpq), fun hp hq => hgo (Bool.and_eq_true_iff.mpr ⟨hp, hq⟩)⟩

/-- Settles O54: the check by R222's split of the value, and each instruction by the check of its components. -/
theorem requantisationChecksTheResidue : Obligations.RequantisationChecksTheResidue := by
  refine ⟨requant_pass_iff_split, fun v r fl => requant_pass_iff v r 0 fl, ?_, ?_, ?_, ?_, ?_⟩
  · rintro s c f _ _ h hf rfl rfl hreal hgood
    exact issue_by_check h hf (rdq_err _ f) (rdq_fail_real hreal) (by simpa using hgood)
  · rintro s c f _ _ h hf rfl rfl hcomplex hgood
    exact issue_by_checks h hf (rdq_err _ f) (rdq_fail_complex hcomplex) hgood
  · rintro s c f _ h hf rfl hreal hgood
    exact issue_by_check h hf (shr_err _ f) (shr_fail_real hreal) hgood
  · rintro s c f _ h hf rfl hcomplex hgood
    exact issue_by_checks h hf (shr_err _ f) (shr_fail_complex hcomplex) hgood
  · rintro s c f _ _ _ _ h hf rfl rfl rfl hgood hgood' rfl
    exact issue_by_checks (f := fun x => x.cmpy f) h hf rfl (quantC_fail _ _ _ _ _ _ _ _) (Bool.or_eq_false_iff.mpr ⟨hgood, hgood'⟩)

end Sys2Proof.Machine
end

section
/-!
PROOFS. What the solver core's instructions do when they can issue (R199-R220, R225-R228).
-/
namespace Sys2Proof.Machine

variable {s : State} {c word : Nat} {fits : Bool} {x : CoreSt}

/-! ### The two slots -/

/-- A result that is no program error and fails no check. -/
structure MRes.Clean (r : MRes) : Prop where
  noErr : r.err = none
  noFail : r.fail = false

theorem MRes.Clean.ite {p : Prop} [Decidable p] {r₁ r₂ : MRes} (h₁ : r₁.Clean) (h₂ : r₂.Clean) : (if p then r₁ else r₂).Clean := by
  split_ifs
  · exact h₁
  · exact h₂

theorem toD_clean (dst : Nat) (w : DWord) (n : Nat) : (x.toD dst w n).Clean := ⟨rfl, rfl⟩

theorem addSub_clean (f : FmtMR) (sub : Bool) : (x.addSub f sub).Clean := .ite (toD_clean _ _ _) (toD_clean _ _ _)

theorem shl_clean (dst : Nat) (w : DWord) (real bad : Bool) (n : Nat) : (x.shl dst w real bad n).Clean := .ite (toD_clean _ _ _) (toD_clean _ _ _)

theorem neg_clean (f : FmtMR) : (x.neg f).Clean := .ite (toD_clean _ _ _) (toD_clean _ _ _)

/-- An M-slot instruction whose result is clean issues with it. -/
theorem mIssue_result {f : CoreSt → MRes} {r : MRes} (h : s.MIssues c word) (hf : fits = true) (hx : x = s.coreOf c) (hr : r = f x)
    (hclean : (f x).Clean) : (Host.Outcome.next (s.mIssue c word fits f) : Out) = .next (s.mDone c r) := by
  subst hx hr
  exact congrArg Host.Outcome.next (mIssue_done h hf hclean.noErr hclean.noFail)

/-- An X-slot instruction ends its bundle with its result. -/
theorem xIssue_result {f : CoreSt → XRes} {r : XRes} {mw : MWrites} (h : s.XIssues c word mw) (hf : fits = true) (hx : x = s.coreOf c)
    (hr : r = f x) : (Host.Outcome.next (s.xIssue c word fits f) : Out) = .next (s.endBundle c mw r) := by
  subst hx hr
  exact congrArg Host.Outcome.next (xIssue_done h hf)

/-! ### The statements about the M slot, and about loads and addresses -/

/-- Settles O36: each result is clean, and RDQ's and CMPY's where the check passes. -/
theorem multipliesIssue : Obligations.MultipliesIssue := by
  refine ⟨?_, ?_, ?_, ?_, ?_, ?_⟩
  · intro s c f r h hf hr
    exact mIssue_result h hf rfl hr ⟨rfl, rfl⟩
  · intro s c f x r h hf hx hr
    exact mIssue_result h hf hx hr ⟨rfl, rfl⟩
  · intro s c f x r h hf hx hr
    exact mIssue_result h hf hx hr ⟨rfl, rfl⟩
  · intro s c f x r h hf hx hr
    exact mIssue_result h hf hx hr ⟨rfl, rfl⟩
  · intro s c f x r h hf hx hr hpass
    exact mIssue_result h hf hx hr ⟨rfl, hr ▸ hpass⟩
  · intro s c f x r h hf hx hr hpass
    exact mIssue_result h hf hx hr ⟨rdq_err x f, hr ▸ hpass⟩

/-- Settles O37: each result is clean, and SHR's where the check passes. -/
theorem conversionsIssue : Obligations.ConversionsIssue := by
  refine ⟨?_, ?_, ?_, ?_, ?_, ?_, ?_, ?_, ?_, ?_, ?_, ?_, ?_⟩ <;> intro s c f x r h hf hx hr
  · exact mIssue_result h hf hx hr (toD_clean _ _ _)
  · exact mIssue_result h hf hx hr (toD_clean _ _ _)
  · exact mIssue_result h hf hx hr (addSub_clean f false)
  · exact mIssue_result h hf hx hr (addSub_clean f true)
  · exact mIssue_result h hf hx hr (neg_clean f)
  · exact mIssue_result h hf hx hr (toD_clean _ _ _)
  · exact mIssue_result h hf hx hr (toD_clean _ _ _)
  · exact mIssue_result h hf hx hr (toD_clean _ _ _)
  · exact mIssue_result h hf hx hr (toD_clean _ _ _)
  · exact mIssue_result h hf hx hr (toD_clean _ _ _)
  · exact mIssue_result h hf hx hr (toD_clean _ _ _)
  · exact mIssue_result h hf hx hr (shl_clean _ _ _ _ _)
  · exact fun hpass => mIssue_result h hf hx hr ⟨shr_err x f, hr ▸ hpass⟩

/-- What MOVIH computes can be a program error and fails no check (R228). -/
theorem movih_noFail (x : CoreSt) (f : FmtMI) :
    (if (x.reg f.dst).asR.bad then x.toD f.dst (mkCtl true (x.reg f.dst).asR.x) 0
      else if (x.reg f.dst).asR.x < -(2 ^ 27) ∨ 2 ^ 27 ≤ (x.reg f.dst).asR.x then { err := some 7 }
      else x.toD f.dst (mkCtl false ((x.reg f.dst).asR.x * 2 ^ 20 + f.imm20)) 0 : MRes).fail = false := by
  split_ifs <;> rfl

/-- What TST computes; an ordering condition in complex view gives `free` (R208, log entry 7). -/
def CoreSt.tst (x : CoreSt) (f : FmtMR) (free : Bool) : MRes :=
  let a := (x.reg f.a).asC
  let zero := a.i == 0 && a.q == 0
  let v := if f.real then condOf f.imm6 (x.reg f.a).asR.x 0
    else if f.imm6 = 0 then zero else if f.imm6 = 1 then !zero else free
  { w := { flag := some (f.flag, v) } }

/-- A form of TST that the rules give draws no free flag. -/
theorem exec_mTst_stated {f : FmtMR} (h : (f.real || decide (f.imm6 < 2)) = true) :
    exec (.mTst c f) s = .next (s.mIssue c (f.word 0x1B) f.fits fun x => x.tst f false) := by
  simp only [exec, execMTst, h, if_true, CoreSt.tst]

/-- Settles O38: each result is clean, and MOVIH's where it is no program error. -/
theorem comparisonsIssue : Obligations.ComparisonsIssue := by
  refine ⟨?_, ?_, ?_, ?_, ?_, ?_, ?_, ?_, ?_, ?_, ?_, ?_, ?_⟩
  · intro s c f x r h hf hx hr
    exact mIssue_result h hf hx hr (toD_clean _ _ _)
  · intro s c f x r h hf hx hr
    exact mIssue_result h hf hx hr (toD_clean _ _ _)
  · intro s c f x r h hf hx hr
    exact mIssue_result h hf hx hr (shl_clean _ _ _ _ _)
  · intro s c f x r h hf hx hr
    exact mIssue_result h hf hx hr (toD_clean _ _ _)
  · intro s c f x r h hf hx hr
    exact mIssue_result h hf hx hr (toD_clean _ _ _)
  · intro s c f x r h hf hx hr
    exact mIssue_result h hf hx hr (toD_clean _ _ _)
  · intro s c f x r h hf hx hr
    exact mIssue_result h hf hx hr (toD_clean _ _ _)
  · intro s c f x r h hf hx hr
    exact mIssue_result h hf hx hr ⟨rfl, rfl⟩
  · rintro s c f _ h hf rfl
    refine ⟨fun hreal => ?_, fun hcomplex h0 => ?_, fun hcomplex h1 => ?_⟩
    · rw [exec_mTst_stated (by simp [hreal])]
      exact mIssue_result h hf rfl (by simp [CoreSt.tst, hreal]) ⟨rfl, rfl⟩
    · rw [exec_mTst_stated (by simp [h0])]
      exact mIssue_result h hf rfl (by simp [CoreSt.tst, hcomplex, h0]) ⟨rfl, rfl⟩
    · rw [exec_mTst_stated (by simp [h1])]
      exact mIssue_result h hf rfl (by simp [CoreSt.tst, hcomplex, h1]) ⟨rfl, rfl⟩
  · intro s c f x r h hf hx hr
    exact mIssue_result h hf hx hr ⟨rfl, rfl⟩
  · intro s c f x r h hf hx hr
    exact mIssue_result h hf hx hr ⟨rfl, rfl⟩
  · intro s c f x r h hf hx hr
    exact mIssue_result h hf hx hr (toD_clean _ _ _)
  · intro s c f x r h hf hx hr hfits
    exact mIssue_result h hf hx hr ⟨hr ▸ hfits, movih_noFail x f⟩

/-- Settles O39: each ends its bundle with its result. -/
theorem loadsAndAddressesIssue : Obligations.LoadsAndAddressesIssue := by
  refine ⟨?_, ?_, ?_, ?_, ?_, ?_, ?_, ?_, ?_, ?_, ?_, ?_⟩ <;>
    exact fun _ _ _ _ _ _ h hf hx hr => xIssue_result h hf hx hr

section

variable {f : FmtXS} {mw : MWrites}

/-! ### SPUT (R182, R186, R219, R224) -/

/-- The E words at a that SPUT reads, as the stream port sends them. -/
def CoreSt.sputWords (x : CoreSt) (f : FmtXS) : List (Nat × Nat) :=
  let e := (x.item.map WorkItem.els).getD 96
  let b := x.binds.getD f.a 0
  let g : SGetD := {
    store := 0, src := 0, count := e, tag := f.tag, addr := x.a.getD f.a 0
    base := x.cbBase.getD (b - 1) 0, len := if b = 0 then 0 else x.cbLen.getD (b - 1) 0 }
  (List.range e).map (fun k => (x.load (g.at k)).sent)

/-- The vector slot that SPUT names. -/
def CoreSt.sputSlot (x : CoreSt) (f : FmtXS) : Nat := (x.reg f.d).v % 2 ^ 22

/-- Some word's residues do not match its tag (R224). -/
def mistagged (ws : List (Nat × Nat)) : Bool := ws.any (fun w => w.2 != 255 && w.2 != tag48 w.1)

/-- The port takes the descriptor now, so its words are checked. -/
def State.sputOpen (s : State) (c : Nat) (f : FmtXS) : Bool :=
  let x := s.coreOf c
  x.mw.isSome && !x.portFull && decide (x.sputSlot f < 28672) && f.fits && legalX (f.word 0x31) &&
    !(s.bundle x.pc).any (fun h => h / 2 ^ 32 != f.word 0x31)

/-- The vector that a default kernel sends, or the words as they are; and the components that saturated (R186). -/
def State.sputMade (s : State) (c : Nat) (f : FmtXS) : List (Nat × Nat) × Nat :=
  match (s.coreOf c).item with
  | some i => s.kernelWords i ((s.coreOf c).sputSlot f) ((s.coreOf c).sputWords f)
  | none => ((s.coreOf c).sputWords f, 0)

/-- The core's default kernel has a fault, and its items end without a vector (R185). -/
def State.sputFaulted (s : State) (c : Nat) : Bool := (s.coreOf c).item.any (fun i => (s.kernelFault i).isSome)

/-- What SPUT of core `c` does to it, where no failure is injected. -/
def State.sputResult (s : State) (c : Nat) (f : FmtXS) (x : CoreSt) : XRes :=
  let y := s.coreOf c
  let mask := (s.jobOf ((y.item.map WorkItem.job).getD 0)).mask
  if 28672 ≤ y.sputSlot f then { core := x, next := .err 5 }
  else if x.portFull then { core := x, next := .stall }
  else if s.sputFaulted c then { core := x }
  else { core := { x with puts := x.puts ++ [{
    job := (x.item.map WorkItem.job).getD 0, sub := (x.item.map WorkItem.sub).getD 0, slot := y.sputSlot f
    words := (s.sputMade c f).1.zipIdx.map (fun (w : (Nat × Nat) × Nat) => if bitN mask w.2 then w.1 else (0, 0)) }] } }

/-- SPUT where no failure is injected. -/
theorem exec_xSput (hcalm : s.sv.inject = none) : exec (.xSput c f) s = .next (
    if s.sputOpen c f && mistagged ((s.coreOf c).sputWords f) then s.coreFail c 1
    else (s.when (s.sputOpen c f && !s.sputFaulted c && decide (c < 32)) (fun u => u.bumpBy Cnt.solKernel (s.sputMade c f).2)).xIssue c
      (f.word 0x31) f.fits (s.sputResult c f)) := by
  have hinj : s.injected 0x30 c = (none, s) := by simp [State.injected, hcalm]
  have hjudge : (s.sputOpen c f && (mistagged ((s.coreOf c).sputWords f) || (none : Option Nat) == some 0)) =
      (s.sputOpen c f && mistagged ((s.coreOf c).sputWords f)) := by simp
  rw [apply_ite Host.Outcome.next]
  simp only [exec, execXSput, hinj, ite_self]
  exact if_congr (iff_of_eq (congrArg (· = true) hjudge)) rfl rfl

theorem sputMade_eq (s : State) (c : Nat) (f : FmtXS) : s.sputMade c f =
    ((s.coreOf c).item.map (fun i => s.kernelWords i ((s.coreOf c).sputSlot f) ((s.coreOf c).sputWords f))).getD
      ((s.coreOf c).sputWords f, 0) := by
  unfold State.sputMade
  cases (s.coreOf c).item <;> rfl

theorem coreOf_bumpBy (s : State) (a n c : Nat) : (s.bumpBy a n).coreOf c = s.coreOf c := by
  unfold State.bumpBy
  split_ifs <;> rfl

theorem sputOpen_of_issues (h : s.XIssues c (f.word 0x31) mw) (hf : f.fits = true) :
    s.sputOpen c f = (!(s.coreOf c).portFull && decide ((s.coreOf c).sputSlot f < 28672)) := by
  have hheld : (s.bundle (s.coreOf c).pc).any (fun v => v / 2 ^ 32 != f.word 0x31) = false := by
    cases hb : s.bundle (s.coreOf c).pc with
    | none => rfl
    | some v => simp only [Option.any_some, h.held v hb, bne_self_eq_false]
  simp only [State.sputOpen, h.after, hf, h.legal, hheld, Option.isSome_some, Bool.true_and, Bool.and_true, Bool.not_false]

/-- SPUT sends its words, and the counter of its kernel's saturations is apart from what it does to the core. -/
theorem exec_xSput_sends {u : State} (h : s.XIssues c (f.word 0x31) mw) (hf : f.fits = true) (hcalm : s.sv.inject = none)
    (hroom : (s.coreOf c).portFull = false) (hslot : (s.coreOf c).sputSlot f < 28672)
    (htags : mistagged ((s.coreOf c).sputWords f) = false) (hwhole : s.sputFaulted c = false)
    (hu : u = s.bumpBy Cnt.solKernel (s.sputMade c f).2) (hissues : u.XIssues c (f.word 0x31) mw) :
    exec (.xSput c f) s = .next (u.endBundle c mw (s.sputResult c f (u.coreOf c))) := by
  have hopen : s.sputOpen c f = true := by simp [sputOpen_of_issues h hf, hroom, hslot]
  simp only [exec_xSput hcalm, hopen, htags, hwhole, h.core, State.when]
  exact congrArg Host.Outcome.next (hu ▸ xIssue_done hissues hf)

/-- SPUT waits while the port is full (R220). -/
theorem exec_xSput_waits (h : s.XIssues c (f.word 0x31) mw) (hf : f.fits = true) (hcalm : s.sv.inject = none)
    (hfull : (s.coreOf c).portFull = true) (hslot : (s.coreOf c).sputSlot f < 28672) :
    exec (.xSput c f) s = .next (s.endBundle c mw { core := s.coreOf c, next := .stall }) := by
  have hclosed : s.sputOpen c f = false := by simp [sputOpen_of_issues h hf, hfull]
  have hresult : s.sputResult c f (s.coreOf c) = { core := s.coreOf c, next := .stall } :=
    (if_neg hslot.not_ge).trans (if_pos hfull)
  simp only [exec_xSput hcalm, hclosed, State.when]
  exact congrArg Host.Outcome.next (hresult ▸ xIssue_done h hf)

theorem sputResult_sent {x : CoreSt} (hslot : (s.coreOf c).sputSlot f < 28672) (hroom : x.portFull = false) (hwhole : s.sputFaulted c = false) :
    s.sputResult c f x = { core := { x with puts := x.puts ++ [{
      job := (x.item.map WorkItem.job).getD 0, sub := (x.item.map WorkItem.sub).getD 0, slot := (s.coreOf c).sputSlot f
      words := (s.sputMade c f).1.zipIdx.map (fun (w : (Nat × Nat) × Nat) =>
        if bitN (s.jobOf (((s.coreOf c).item.map WorkItem.job).getD 0)).mask w.2 then w.1 else (0, 0)) }] } } :=
  (if_neg hslot.not_ge).trans ((if_neg (by simp [hroom])).trans (if_neg (by simp [hwhole])))

end

/-! ### The statement about streams and branches -/

/-- Settles O40: each row ends its bundle with its result; SPUT's words are checked first, and a stream transfer lands outside the bundle. -/
theorem streamsAndBranchesIssue : Obligations.StreamsAndBranchesIssue := by
  refine ⟨?_, ?_, ?_, ?_, ?_, ?_, ?_, ?_, ?_, ?_⟩
  · intro s c f x r mw h hf hx hr
    exact xIssue_result h hf hx hr
  · intro s c n g x hg
    simp only [exec, execSgetArrival]
    rw [hg]
  · rintro s u c slot _ mask f mw x _ ws k h hf hcalm hc hx hroom hslot hin rfl rfl hws htags hmask hwhole hk hu hissues
    subst hx hslot hws hmask
    obtain rfl : k = s.sputMade c f := hk.trans (sputMade_eq s c f).symm
    have hright : mistagged ((s.coreOf c).sputWords f) = false := by
      rw [mistagged, List.any_eq_false]
      intro w hw
      obtain e | e := htags w hw <;> simp [e]
    have hfault : s.sputFaulted c = false := by
      rw [State.sputFaulted]
      cases hitem : (s.coreOf c).item with
      | none => rfl
      | some i => simp [hwhole i hitem]
    have hcore : u.coreOf c = s.coreOf c := hu ▸ coreOf_bumpBy _ _ _ _
    rw [exec_xSput_sends h hf hcalm hroom hin hright hfault hu hissues, sputResult_sent hin (hcore ▸ hroom) hfault, hcore]
    rfl
  · intro s c f mw h hf hcalm hfull hslot
    exact exec_xSput_waits h hf hcalm hfull hslot
  · intro s c hopen
    exact congrArg Host.Outcome.next (if_neg (by simp [hopen]))
  · intro s c f x r mw h hf hx hr
    exact xIssue_result h hf hx hr
  · intro s c f x r mw h hf hx hr
    exact xIssue_result h hf hx hr
  · intro s c f x r mw h hf hx hr
    exact xIssue_result h hf hx hr
  · intro s c f x r mw h hf hx hr
    exact xIssue_result h hf hx hr
  · intro s c f x r mw h hf hx hr
    exact xIssue_result h hf hx hr

end Sys2Proof.Machine
end

section
/-!
PROOFS. Rounding to nearest, the codes and currents of the DAC (R234, R242), and the sum of the Press (R268, R270).
-/
namespace Sys2Proof.Machine

/-! ### Rounding to nearest, ties away from zero (R234) -/

theorem roundShift_nonneg {v : Int} {n : Nat} (hn : 0 < n) (hv : 0 ≤ v) : roundShift v n = (v + 2 ^ (n - 1)) / 2 ^ n := by
  rw [roundShift, if_neg hn.ne', if_pos hv]

theorem roundShift_neg (v : Int) {n : Nat} (hn : 0 < n) : roundShift (-v) n = -roundShift v n := by
  rcases lt_trichotomy v 0 with hneg | rfl | hpos
  · simp only [roundShift, hn.ne', if_false, if_neg (not_le.mpr hneg), if_pos (Int.neg_nonneg.mpr hneg.le), Int.neg_neg]
  · have hhalf : (2 : Int) ^ (n - 1) < 2 ^ n := pow_lt_pow_right₀ (by norm_num) (by omega)
    simp [roundShift_nonneg hn le_rfl, Int.ediv_eq_zero_of_lt (by positivity) hhalf]
  · have hminus : ¬ 0 ≤ -v := by omega
    simp only [roundShift, hn.ne', if_false, if_neg hminus, if_pos hpos.le, Int.neg_neg]

/-- A value that is not negative is rounded by at most half a unit up and by less than that down. -/
theorem roundShift_near_of_nonneg {v : Int} {n : Nat} (hn : 0 < n) (hv : 0 ≤ v) :
    2 * (2 ^ n * roundShift v n - v) ≤ 2 ^ n ∧ -(2 ^ n) < 2 * (2 ^ n * roundShift v n - v) := by
  have hdouble : (2 : Int) ^ n = 2 * 2 ^ (n - 1) := by exact_mod_cast two_pow_eq_double hn
  have hle := Int.mul_ediv_self_le (x := v + 2 ^ (n - 1)) (k := 2 ^ n) (by positivity)
  have hlt := Int.lt_mul_ediv_self_add (x := v + 2 ^ (n - 1)) (k := 2 ^ n) (by positivity)
  rw [roundShift_nonneg hn hv]
  constructor <;> linarith

/-- The mirror image: a value that is not positive is rounded by at most half a unit down and by less than that up. -/
theorem roundShift_near_of_nonpos {v : Int} {n : Nat} (hn : 0 < n) (hv : v ≤ 0) :
    2 * (2 ^ n * roundShift v n - v) < 2 ^ n ∧ -(2 ^ n) ≤ 2 * (2 ^ n * roundShift v n - v) := by
  obtain ⟨hup, hdown⟩ := roundShift_near_of_nonneg hn (Int.neg_nonneg.mpr hv)
  rw [roundShift_neg v hn] at hup hdown
  constructor <;> linarith

theorem roundShift_near (v : Int) {n : Nat} (hn : 0 < n) :
    2 * (2 ^ n * roundShift v n - v) ≤ 2 ^ n ∧ -(2 ^ n) ≤ 2 * (2 ^ n * roundShift v n - v) := by
  rcases le_total 0 v with hv | hv
  · exact (roundShift_near_of_nonneg hn hv).imp_right le_of_lt
  · exact (roundShift_near_of_nonpos hn hv).imp_left le_of_lt

/-- Holding a value to `n` bits is the nearer of the limits beyond them. -/
theorem satN_eq_max_min (v : Int) (n : Nat) : satN v n = max (-(2 ^ (n - 1))) (min (2 ^ (n - 1) - 1) v) := by
  have hpos : (0 : Int) < 2 ^ (n - 1) := by positivity
  simp only [satN, Nat.cast_pow, Nat.cast_ofNat]
  split_ifs <;> omega

/-! ### The code and the currents of the DAC (R234, R242) -/

theorem dacCode_fst (v : Int) : (dacCode v).1 = max (-8192) (min 8191 (roundShift v 10)) := satN_eq_max_min _ 14

theorem dacCode_snd (v : Int) : (dacCode v).2 = true ↔ (dacCode v).1 ≠ roundShift v 10 := bne_iff_ne

/-- The rounding of the DAC input, in numbers that `omega` reads. -/
theorem dacRound_near (v : Int) :
    (2 * (1024 * roundShift v 10 - v) ≤ 1024 ∧ -1024 ≤ 2 * (1024 * roundShift v 10 - v)) ∧
    (0 ≤ v → -1024 < 2 * (1024 * roundShift v 10 - v)) ∧ (v ≤ 0 → 2 * (1024 * roundShift v 10 - v) < 1024) :=
  have hten : 0 < 10 := by decide
  ⟨roundShift_near v hten, fun hv => (roundShift_near_of_nonneg hten hv).2, fun hv => (roundShift_near_of_nonpos hten hv).1⟩

theorem dacCode_inRange (v : Int) : -8192 ≤ (dacCode v).1 ∧ (dacCode v).1 ≤ 8191 := by
  rw [dacCode_fst]
  omega

theorem dacCode_clips_iff (v : Int) : (dacCode v).2 = true ↔ 8388096 ≤ v ∨ v ≤ -8389120 := by
  obtain ⟨⟨hup, hdown⟩, hpos, hneg⟩ := dacRound_near v
  rw [dacCode_snd, dacCode_fst]
  omega

theorem dacCode_of_not_clipped {v : Int} (h : (dacCode v).2 = false) : (dacCode v).1 = roundShift v 10 := by
  by_contra hne
  simp [(dacCode_snd v).mpr hne] at h

theorem dacCode_above {v : Int} (hv : 8388096 ≤ v) : dacCode v = (8191, true) := by
  obtain ⟨_, hpos, _⟩ := dacRound_near v
  refine Prod.ext ?_ ((dacCode_clips_iff v).mpr (.inl hv))
  rw [dacCode_fst]
  omega

theorem dacCode_below {v : Int} (hv : v ≤ -8389120) : dacCode v = (-8192, true) := by
  obtain ⟨_, _, hneg⟩ := dacRound_near v
  refine Prod.ext ?_ ((dacCode_clips_iff v).mpr (.inr hv))
  rw [dacCode_fst]
  omega

theorem dacCurrents_fst (r : Nat) (code : Int) :
    16384 * (dacCurrents r (64 * code)).1 = (ifsOf r : Int) * 2 ^ 20 * (8192 + code) := by
  rw [dacCurrents]
  ring

theorem dacCurrents_sum (r : Nat) (code64 : Int) :
    (dacCurrents r code64).1 + (dacCurrents r code64).2 = (ifsOf r : Int) * 2 ^ 20 :=
  add_sub_cancel _ _

/-- The differential current, from IP and the sum of the two. -/
theorem dacCurrents_diff (r : Nat) (code : Int) :
    8192 * ((dacCurrents r (64 * code)).1 - (dacCurrents r (64 * code)).2) = (ifsOf r : Int) * 2 ^ 20 * code := by
  linear_combination dacCurrents_fst r code - 8192 * dacCurrents_sum r (64 * code)

/-! ### The output of the Press (R268, R270) -/

theorem foldl_cxAdd_cxMul_bad (l : List (Cx × Cx)) (a : Cx) :
    (l.foldl (fun acc p => cxAdd acc (cxMul p.1 p.2)) a).bad = (a.bad || l.any fun p => p.1.bad || p.2.bad) := by
  induction l generalizing a with
  | nil => simp
  | cons p l ih =>
    rw [List.foldl_cons, ih]
    simp [cxAdd, cxMul, Bool.or_assoc]

/-- A sum of products is poisoned exactly where a factor is. -/
theorem cxDot_bad (l : List (Cx × Cx)) : (cxDot l).bad = l.any fun p => p.1.bad || p.2.bad :=
  (foldl_cxAdd_cxMul_bad l cx0).trans (Bool.false_or _)

theorem cxSat_bad (w : Nat) (a : Cx) : (cxSat w a).1.bad = a.bad := by
  cases h : a.bad <;> simp [cxSat, h, cxBad]

theorem cxSat_of_clean (w : Nat) {a : Cx} (h : a.bad = false) : (cxSat w a).1 = { i := satN a.i w, q := satN a.q w } := by
  simp [cxSat, h]

variable {cfg : Word} {coefs : List Word} {x : Sig} {qs : List Sig} {n : Int}

theorem pressSample_off (h : bit cfg 31 = false) : pressSample cfg coefs x qs n = (x n, 0) := by
  rw [pressSample, h]
  rfl

theorem pressSample_on (h : bit cfg 31 = true) : (pressSample cfg coefs x qs n).1 =
    (cxSat 24 (cxRound 20 (cxDot ((pressTerms cfg x qs n).map fun t => (slotCx coefs t.1, t.2))))).1 := by
  rw [pressSample, if_pos h]
  dsimp only
  split_ifs <;> rfl

theorem pressSample_on_bad (h : bit cfg 31 = true) : (pressSample cfg coefs x qs n).1.bad =
    (cxDot ((pressTerms cfg x qs n).map fun t => (slotCx coefs t.1, t.2))).bad := by
  rw [pressSample_on h, cxSat_bad]
  rfl

theorem pressSample_on_clean (h : bit cfg 31 = true) {z : Cx}
    (hz : z = cxDot ((pressTerms cfg x qs n).map fun t => (slotCx coefs t.1, t.2))) (hclean : z.bad = false) :
    (pressSample cfg coefs x qs n).1 = { i := satN (roundShift z.i 20) 24, q := satN (roundShift z.q 20) 24 } := by
  subst hz
  rw [pressSample_on h]
  exact cxSat_of_clean 24 hclean

theorem pressSample_on_poisoned (h : bit cfg 31 = true) {t : Nat × Cx} (ht : t ∈ pressTerms cfg x qs n) (hbad : t.2.bad = true) :
    (pressSample cfg coefs x qs n).1.bad = true := by
  rw [pressSample_on_bad h, cxDot_bad, List.any_map, List.any_eq_true]
  exact ⟨t, ht, by simp [hbad]⟩

/-! ### The statement -/

/-- Settles O59: the code by how far its rounding moves the value, the Press by the clean or poisoned sum of its terms. -/
theorem dacAndPressFollowTheirRules : Obligations.DacAndPressFollowTheirRules := by
  refine ⟨?_, ?_, ?_, ?_, ?_, ?_, ?_, ?_, ?_, ?_⟩
  · intro v
    obtain ⟨hlow, hhigh⟩ := dacCode_inRange v
    refine ⟨hlow, hhigh, dacCode_clips_iff v, fun hheld => ?_⟩
    obtain ⟨⟨hup, hdown⟩, hpos, hneg⟩ := dacRound_near v
    rw [dacCode_of_not_clipped hheld]
    exact ⟨hup, hdown, by omega, by omega⟩
  · intro v hv
    exact dacCode_above hv
  · intro v hv
    exact dacCode_below hv
  · exact dacCode_above (by norm_num)
  · decide
  · intro r code
    exact ⟨dacCurrents_fst r code, dacCurrents_sum r (64 * code), dacCurrents_diff r code⟩
  · decide
  · intro cfg coefs x qs n h
    exact pressSample_off h
  · rintro cfg coefs x qs n z _ h hz rfl
    refine ⟨(pressSample_on_bad h).trans (congrArg Cx.bad hz.symm), fun hclean => ?_, fun ⟨t, ht, hbad⟩ => pressSample_on_poisoned h ht hbad⟩
    rw [pressSample_on_clean h hz hclean]
    exact ⟨satN_eq_max_min _ 24, satN_eq_max_min _ 24⟩
  · intro v n hn
    obtain ⟨hup, hdown⟩ := roundShift_near v hn
    exact ⟨hup, hdown, roundShift_neg v hn, fun hv => (roundShift_near_of_nonneg hn hv).2⟩

end Sys2Proof.Machine
end

section
/-!
PROOFS. The transmit commands (R235-R259, R540): on units whose tiles are powered, and on a row's front-end bus.
-/
namespace Sys2Proof.Machine

variable {s : State} {op r : Nat} {p : Pkt} {valid : Bool}

theorem State.onPaths_powered {ps : List Nat} {f : State → State × Verdict} (h : ps.all s.pathOn = true) : s.onPaths ps f = f s :=
  if_pos h

theorem State.onRows_powered {rs : List Nat} {f : State → State × Verdict} (h : rs.all s.rowOn = true) : s.onRows rs f = f s :=
  if_pos h

/-- A command that queues a frame on a row's bus fails while the bus is down and finds no room in a full queue (R256, R257); otherwise
it ends as its frame does. -/
theorem command_queues_frame {queued : State → State × Verdict} {done : State} (h : s.Admits op p) (hv : valid = true)
    (hdone : s.command op p valid true true queued = done) :
    (s.command op p valid true true fun u =>
      if u.busDown r then (u, .status stITEM [])
      else if 64 ≤ (u.rowOf r).queue.length then (u, .status stRESOURCE [])
      else queued u) =
    if (s.takeCmd op p).busDown r then (s.takeCmd op p).reply p stITEM []
    else if 64 ≤ ((s.takeCmd op p).rowOf r).queue.length then (s.takeCmd op p).reply p stRESOURCE []
    else done := by
  by_cases hdown : (s.takeCmd op p).busDown r = true
  · rw [if_pos hdown]
    exact command_status h hv rfl rfl (if_pos hdown)
  rw [if_neg hdown]
  by_cases hfull : 64 ≤ ((s.takeCmd op p).rowOf r).queue.length
  · rw [if_pos hfull]
    exact command_status h hv rfl rfl ((if_neg hdown).trans (if_pos hfull))
  rw [if_neg hfull, ← hdone, command_admitted h hv rfl rfl, command_admitted h hv rfl rfl, if_neg hdown, if_neg hfull]

/-- Settles O35: each command by the values in range that its judgement asks for, and by the tiles or the bus that it needs. -/
theorem transmitCommandsComplete : Obligations.TransmitCommandsComplete := by
  refine ⟨?_, ?_, ?_, ?_, ?_, ?_, ?_, ?_, ?_, ?_⟩
  · rintro s _ p h rfl hlen hpath hon
    exact congrArg Host.Outcome.next (command_ok h (by simp [hlen, hpath]) rfl rfl (State.onPaths_powered hon))
  · rintro s _ p h rfl hlen hpath hword hon
    exact congrArg Host.Outcome.next (command_ok h (by rw [hlen, hpath, decide_eq_true hword]; rfl) rfl rfl (State.onPaths_powered hon))
  · rintro s _ p h rfl hlen hpath hrange hnyq hon
    exact congrArg Host.Outcome.next (command_ok h (by simp [hlen, hpath, hrange, hnyq]) rfl rfl (State.onPaths_powered hon))
  · rintro s _ p h rfl hlen hmask hen hblank hon
    exact congrArg Host.Outcome.next (command_ok h (by simp [hlen, hmask, hen, hblank]) rfl rfl (State.onPaths_powered hon))
  · rintro s _ p h rfl hlen hpath hforce hon
    exact congrArg Host.Outcome.next (command_ok h (by simp [hlen, hpath, hforce]) rfl rfl (State.onPaths_powered hon))
  · rintro s _ p h rfl hlen hrow
    have hv : (p.is 3 && decide (p.arg 0 < s.part.rows)) = true := by simp [hlen, hrow]
    exact congrArg Host.Outcome.next (command_queues_frame h hv (command_ok h hv rfl rfl rfl))
  · rintro s _ p h hroom rfl hlen hrow
    have hv : (p.is 2 && decide (p.arg 0 < s.part.rows)) = true := by simp [hlen, hrow]
    exact congrArg Host.Outcome.next (command_queues_frame h hv (command_accepted h hroom hv rfl rfl rfl))
  · intro s u p
    dsimp only
    rintro h rfl hflags hleast hpairs hfew hcar hen hlast hentries
    exact congrArg Host.Outcome.next (command_ok h
      (by rw [hflags, decide_eq_true ⟨hleast, hpairs, hfew, hcar, hen, hlast, hentries⟩]; rfl) rfl rfl rfl)
  · rintro s _ p h rfl hlen hrow hduplex hgap hon
    exact congrArg Host.Outcome.next (command_ok h (by rw [hlen, hrow, decide_eq_true (And.intro hduplex hgap)]; rfl) rfl rfl
      (State.onRows_powered hon))
  · rintro s _ p h rfl hlen hpath
    exact congrArg Host.Outcome.next (command_ok h (by simp [hlen, hpath]) rfl rfl rfl)

end Sys2Proof.Machine
end

section
/-!
PROOFS. Observation captures, and the loops of the Press and of the canceller that they feed (R276-R284, R288-R294).
-/
namespace Sys2Proof.Machine

/-- Settles O29: a capture by what its row takes, an update or a hold's end by the condition on which it acts. -/
theorem observationComplete : Obligations.ObservationComplete := by
  refine ⟨?_, ?_, ?_, ?_, ?_, ?_, ?_⟩
  · intro s r h hr hruns hquiet havail hfree hen hhost hready hclear
    simp only [exec, execOrxCaptureStart, hfree, hhost]
    refine congrArg Host.Outcome.next ((if_neg ?_).trans (if_pos ?_))
    · simp [hr, hruns, hquiet, havail, hen]
    · simp [hready, hclear]
  · intro s r o delay c hcap hkind
    refine congrArg Host.Outcome.next ?_
    rw [hcap]
    exact if_neg (not_not_intro hkind)
  · intro s p x hready hst havail
    exact congrArg Host.Outcome.next (if_neg (by simp [x, hready, hst, havail]))
  · rintro s _ p t hhold hst rfl
    refine congrArg Host.Outcome.next ?_
    rw [hhold]
    exact if_pos hst
  · intro s r o adc delay c0 hcap hkind
    refine congrArg Host.Outcome.next ?_
    rw [hcap]
    exact if_neg (not_not_intro hkind)
  · intro s p x hready hst havail
    exact congrArg Host.Outcome.next (if_neg (by simp [x, hready, hst, havail]))
  · intro s p t hhold hst
    refine congrArg Host.Outcome.next ?_
    rw [hhold]
    exact if_pos hst

end Sys2Proof.Machine
end

section
/-!
PROOFS. The commands of the Press, of the canceller, of SBFD bands and of the observation receivers (R267, R278, R281, R284, R286, R287, R291, R294).
-/
namespace Sys2Proof.Machine

variable {s : State} {op : Nat} {p : Pkt} {valid : Bool}

/-- A command that tests a condition as it executes is, at the state that has taken its packet, the command of the branch taken. -/
theorem command_ite {cond : State → Prop} [∀ u, Decidable (cond u)] {yes no : State → State × Verdict} (h : s.Admits op p)
    (hv : valid = true) :
    s.command op p valid true true (fun u => if cond u then yes u else no u) =
      if cond (s.takeCmd op p) then s.command op p valid true true yes else s.command op p valid true true no := by
  split_ifs with hcond
  · rw [command_admitted h hv rfl rfl, command_admitted h hv rfl rfl, if_pos hcond]
  · rw [command_admitted h hv rfl rfl, command_admitted h hv rfl rfl, if_neg hcond]

/-- An action on paths fails where one of them or its row is faulted (R285, R408); otherwise it ends as it does on powered paths. -/
theorem command_acts_unfaulted {ps : List Nat} {act : State → State} (h : s.Admits op p) (hv : valid = true)
    (hon : ps.all (s.takeCmd op p).pathOn = true) :
    (s.command op p valid true true fun u =>
      if u.anyFaulted ps then (u, .status stITEM []) else u.onPaths ps fun u => (act u, .ok [])) =
    if (s.takeCmd op p).anyFaulted ps then (s.takeCmd op p).reply p stITEM []
    else (act (s.takeCmd op p)).reply p stOK [] :=
  (command_ite h hv).trans
    (if_congr Iff.rfl (command_status h hv rfl rfl rfl) (command_ok h hv rfl rfl (State.onPaths_powered hon)))

/-- Settles O30: each command by the values in range that its judgement asks for, by the tiles that it needs, and by the way its judgement ends. -/
theorem pressCommandsComplete : Obligations.PressCommandsComplete := by
  refine ⟨?_, ?_, ?_, ?_, ?_, ?_, ?_, ?_, ?_, ?_, ?_, ?_, ?_⟩
  · rintro s _ p h rfl hlen hpath hon
    exact congrArg Host.Outcome.next (command_ok h (by simp [hlen, hpath]) rfl rfl (State.onPaths_powered hon))
  · rintro s _ p path first h rfl hflags hleast hmost hwords hlast hpath hon
    exact congrArg Host.Outcome.next (command_ok h
      (by rw [hflags, decide_eq_true ⟨hleast, hmost, hwords, hlast, hpath⟩]; rfl) rfl rfl (State.onPaths_powered hon))
  · rintro s _ p h rfl hlen hmask hact hon
    exact congrArg Host.Outcome.next (command_acts_unfaulted h (by simp [hlen, hmask, hact]) hon)
  · rintro s _ p h rfl hlen hpath hon
    exact congrArg Host.Outcome.next (command_ok h (by simp [hlen, hpath]) rfl rfl (State.onPaths_powered hon))
  · rintro s _ p h rfl hlen hpath
    exact congrArg Host.Outcome.next (command_ok h (by simp [hlen, hpath]) rfl rfl rfl)
  · rintro s _ p h hroom rfl hlen hmask
    have hvalid : (p.is 3 && s.maskOk p) = true := by simp [hlen, hmask]
    refine congrArg Host.Outcome.next ((command_ite h hvalid).trans (if_congr Iff.rfl (command_status h hvalid rfl rfl rfl) ?_))
    refine (command_ite h hvalid).trans (if_congr Iff.rfl (command_status h hvalid rfl rfl rfl) ?_)
    split
    next st hrefuse => exact command_status h hvalid rfl rfl (by rw [hrefuse])
    next hrefuse => exact command_accepted h hroom hvalid rfl rfl (by rw [hrefuse])
  · rintro s _ p h rfl hlen hmask hon
    have hvalid : (p.is 3 && s.maskOk p) = true := by simp [hlen, hmask]
    refine congrArg Host.Outcome.next ?_
    dsimp only
    split_ifs with hall
    · exact command_ok h hvalid rfl rfl ((State.onPaths_powered hon).trans (congrArg (Prod.mk _) (if_pos hall)))
    · exact command_status h hvalid rfl rfl ((State.onPaths_powered hon).trans (congrArg (Prod.mk _) (if_neg hall)))
  · rintro s _ p h rfl hlen hpath hon
    exact congrArg Host.Outcome.next (command_ok h (by simp [hlen, hpath]) rfl rfl (State.onPaths_powered hon))
  · rintro s _ p h rfl hlen hmask hact hon
    exact congrArg Host.Outcome.next (command_acts_unfaulted h (by simp [hlen, hmask, hact]) hon)
  · rintro s _ p h rfl hlen hpath
    exact congrArg Host.Outcome.next (command_ok h (by simp [hlen, hpath]) rfl rfl rfl)
  · rintro s _ p h rfl hlen hcar hfits
    exact congrArg Host.Outcome.next (command_ok h (by simp [hlen, hcar, hfits]) rfl rfl rfl)
  · rintro s _ p h rfl hlen hrow hon
    exact congrArg Host.Outcome.next (command_ok h (by simp [hlen, hrow]) rfl rfl (State.onRows_powered hon))
  · rintro s _ p now h hroom rfl hlen hrow hpos hshort hlong hlow hhigh htime hring
    have hvalid : (p.is 7 && decide (p.arg 0 < s.part.rows ∧ p.arg 1 < 4 ∧ 10 ≤ p.arg 5 ∧ p.arg 5 ≤ 14 ∧ 16 ≤ p.arg 6 ∧ p.arg 6 < 32) &&
        (now || s.ptpOk p.params 2) && s.ringFunc (p.arg 6) == some 9) = true := by
      rw [hlen, decide_eq_true ⟨hrow, hpos, hshort, hlong, hlow, hhigh⟩, htime, hring]
      rfl
    refine congrArg Host.Outcome.next ((command_ite h hvalid).trans (if_congr Iff.rfl (command_status h hvalid rfl rfl rfl) ?_))
    refine (command_ite h hvalid).trans (if_congr Iff.rfl (command_status h hvalid rfl rfl rfl) ?_)
    refine (command_ite h hvalid).trans (if_congr Iff.rfl (command_accepted h hroom hvalid rfl rfl rfl) ?_)
    split
    next hfree => exact command_status h hvalid rfl rfl (by rw [hfree])
    next n hfree => exact command_accepted h hroom hvalid rfl rfl (by rw [hfree])

end Sys2Proof.Machine
end

section
/-!
PROOFS. The receive commands (R302-R307, R317, R326, R329, R330, R332, R333).
-/
namespace Sys2Proof.Machine

/-- Settles O33: each command by the values in range that its judgement asks for, and by the tiles that it needs. -/
theorem receiveCommandsComplete : Obligations.ReceiveCommandsComplete := by
  refine ⟨?_, ?_, ?_, ?_, ?_, ?_, ?_⟩
  · rintro s _ p h rfl hlen hpath hon
    exact congrArg Host.Outcome.next (command_ok h (by simp [hlen, hpath]) rfl rfl (State.onPaths_powered hon))
  · rintro s _ p h rfl hlen hpath hword hon
    exact congrArg Host.Outcome.next (command_ok h (by rw [hlen, hpath, decide_eq_true hword]; rfl) rfl rfl (State.onPaths_powered hon))
  · rintro s _ p h rfl hlen hmask hgate hen hon
    exact congrArg Host.Outcome.next (command_ok h (by simp [hlen, hmask, hgate, hen]) rfl rfl (State.onPaths_powered hon))
  · rintro s _ p h rfl hlen hpath hon
    exact congrArg Host.Outcome.next (command_ok h (by simp [hlen, hpath]) rfl rfl (State.onPaths_powered hon))
  · rintro s _ p path first h rfl hflags hleast hmost hwords hlast hpath hon
    exact congrArg Host.Outcome.next (command_ok h
      (by rw [hflags, decide_eq_true ⟨hleast, hmost, hwords, hlast, hpath⟩]; rfl) rfl rfl (State.onPaths_powered hon))
  · rintro s _ p h rfl hlen hpath hcount hrec hon
    exact congrArg Host.Outcome.next (command_ok h (by simp [hlen, hpath, hcount, hrec]) rfl rfl (State.onPaths_powered hon))
  · rintro s _ p h rfl hlen hpath
    exact congrArg Host.Outcome.next (command_ok h (by simp [hlen, hpath]) rfl rfl rfl)

end Sys2Proof.Machine
end

section
/-!
PROOFS. The cycles of array calibration, from their start over their occasions to their results (R341-R353, R358).
-/
namespace Sys2Proof.Machine

variable {s : State} {n : Int} {l : Nat}

/-! ### The start of a cycle -/

/-- A cycle waits, measures or computes (R358). -/
def State.cycleRuns (s : State) : Bool := decide (1 ≤ s.calState ∧ s.calState ≤ 3)

theorem State.cycleRuns_iff : s.cycleRuns = true ↔ 1 ≤ s.calState ∧ s.calState ≤ 3 := decide_eq_true_iff

/-- The scheduled start of a period (R345): its first multiple from the grid origin, after the last one, is reached. -/
def State.periodReached (s : State) : State :=
  let unit := s.rf Reg.CAL_SCHED 31 16 * 1000000 * nsU
  let n := max ((((s.now - s.gridOrigin) + unit - 1) / unit : Nat) : Int) (s.cal.lastStart + 1)
  let v := s.advanceTo (s.tickReaching (s.gridOrigin + n.toNat * unit))
  { v with cal := { v.cal with lastStart := n } }

/-- A lead changing no power state takes the start of a cycle (R352). -/
theorem cycleStart_taken (hlead : s.isLead = true) (hpw : s.pw.entries = []) : ¬ ((!s.isLead) = true ∨ s.pw.entries ≠ []) := by
  simp [hlead, hpw]

theorem calCycleStart_requested (hlead : s.isLead = true) (hpw : s.pw.entries = []) (hreq : s.cal.request = true)
    (hidle : s.cycleRuns = false) : exec .calCycleStart s = .next s.beginCycle :=
  (if_neg (cycleStart_taken hlead hpw)).trans (if_pos (congrArg₂ (· && !·) hreq hidle))

/-- Where no request is waiting for an idle cycle, the schedule starts one; a period reached while a cycle runs is a cycle missed. -/
theorem calCycleStart_scheduled (hlead : s.isLead = true) (hpw : s.pw.entries = []) (hreq : (s.cal.request && !s.cycleRuns) = false)
    (hen : s.rb Reg.CAL_CFG 31 = true) :
    exec .calCycleStart s = .next (
      if s.rf Reg.CAL_SCHED 31 16 = 0 then if s.cycleRuns then s else s.beginCycle
      else if s.cycleRuns then s.periodReached.bump (Cnt.cal 1) else s.periodReached.beginCycle) := by
  refine (if_neg (cycleStart_taken hlead hpw)).trans ((if_neg (Bool.eq_false_iff.mp hreq)).trans ?_)
  exact (if_neg (Bool.not_not_eq.mpr hen)).trans (apply_ite Host.Outcome.next _ _ _).symm

/-- In REF_FAIL no cycle begins: the request is dropped (R345). -/
theorem beginCycle_refFail (h : s.calState = 4) : s.beginCycle = { s with cal := { s.cal with request := false } } :=
  if_pos h

/-! ### Occasions -/

/-- The symbol of an occasion (R342): the waiting cycle's first eligible one of a slot later than the last that had one. -/
theorem calSymbol_iff : s.calSymbol n l = true ↔ s.calState = 1 ∧ s.calEligible n l = true ∧
    (∀ k, s.cal.lastSlot = some k → k < n) ∧ ∀ k, k < l → s.calEligible n k = false := by
  cases hlast : s.cal.lastSlot <;> simp [State.calSymbol, hlast] <;> tauto

theorem occasion_taken {m : Nat} (hl : l < m) (hsym : s.calSymbol n l = true) : ¬ (!(decide (l < m) && s.calSymbol n l)) = true := by
  simp [hl, hsym]

@[simp] theorem State.setCalState_cal (s : State) (v : Nat) : (s.setCalState v).cal = s.cal := by
  rw [State.setCalState, State.pf_cal]

@[simp] theorem State.when_pb_cal (s : State) (c : Bool) (a b : Nat) (v : Bool) : (s.when c fun u => u.pb a b v).cal = s.cal := by
  cases c
  · rfl
  · exact State.pb_cal s a b v

/-- What follows an occasion's measurements, the repeats, the next group or the calculation, leaves the slot that the occasion took. -/
theorem calMeasure_lastSlot (s : State) (n : Int) (t : Nat) (ms : List CalIn) : (s.calMeasure n t ms).cal.lastSlot = some n := by
  unfold State.calMeasure
  dsimp only
  generalize State.forEach _ (if (if s.rf Reg.CAL_STAT 27 22 < s.calAnts / 12 then 0 else 1) = 0 then _ else _) _ = u
  split_ifs with hrepeat hgroup
  · rw [State.when_pb_cal, State.bump_cal]
  · rw [State.pf_cal, State.when_pb_cal, State.bump_cal]
  · rw [State.setCalState_cal, State.when_pb_cal, State.bump_cal]

/-- Settles O14: a start by what asks for it, an occasion by the symbol it takes, the results by the state that they end. -/
theorem calibrationEventsComplete : Obligations.CalibrationEventsComplete := by
  refine ⟨?_, ?_, ?_, ?_, ?_, ?_, ?_, ?_, ?_⟩
  · intro s hlead hpw hreq hidle
    exact calCycleStart_requested hlead hpw hreq (decide_eq_false hidle)
  · intro s hlead hpw hreq hen hback hidle
    refine (calCycleStart_scheduled hlead hpw (by simp [hreq]) hen).trans (congrArg Host.Outcome.next ?_)
    exact (if_pos hback).trans (if_neg (mt State.cycleRuns_iff.mp hidle))
  · rintro s _ _ _ _ _ hlead hpw hen rfl hperiod rfl rfl rfl rfl
    refine ⟨fun hrun => ?_, fun hidle hreq => ?_⟩
    · have hruns := State.cycleRuns_iff.mpr hrun
      refine (calCycleStart_scheduled hlead hpw (by simp [hruns]) hen).trans (congrArg Host.Outcome.next ?_)
      exact (if_neg hperiod).trans (if_pos hruns)
    · refine (calCycleStart_scheduled hlead hpw (by simp [hreq]) hen).trans (congrArg Host.Outcome.next ?_)
      exact (if_neg hperiod).trans (if_neg (mt State.cycleRuns_iff.mp hidle))
  · intro s hfail
    rw [beginCycle_refFail hfail]
    exact ⟨rfl, rfl⟩
  · intro s n l ms hl hsym hpath
    exact (if_neg (occasion_taken hl hsym)).trans (if_pos (by simp [hpath]))
  · rintro s _ n l ms _ _ rfl hl hsym hpath rfl rfl
    exact (if_neg (occasion_taken hl hsym)).trans (if_neg (Bool.not_not_eq.mpr hpath))
  · intro s n l hsym
    exact calSymbol_iff.mp hsym
  · intro s n t0 ms
    exact calMeasure_lastSlot s n t0 ms
  · intro s hstate
    exact congrArg Host.Outcome.next (if_pos hstate)

end Sys2Proof.Machine
end

section
/-!
PROOFS. The interleaved converters of the receive paths and of the observation receivers, and their command (R308-R317, R332).
-/
namespace Sys2Proof.Machine

variable {s : State} {a : Nat}

/-- The slice that shadows a position is estimated while its converter rotates or is under retest (R310). -/
theorem spare_shadows {slice : Nat} (hpresent : s.adcPresent a = true) (hslice : slice ≠ 7) (hstate : s.adcState a = 1 ∨ s.adcState a = 5) :
    ¬ ((!s.adcPresent a) = true ∨ slice = 7 ∨ (!decide (s.adcState a = 1 ∨ s.adcState a = 5)) = true) := by
  simp [hpresent, hslice, hstate]

theorem spare_hands_over {ovl moment : Bool} (hpresent : s.adcPresent a = true) (hrot : s.adcState a = 1) (hovl : ovl = false)
    (hmoment : moment = true) (havail : s.adcAvail a = true) (hspare : s.adcSpare a ≠ 7) :
    ¬ ((!s.adcPresent a) = true ∨ s.adcState a ≠ 1 ∨ ovl = true ∨ (!moment) = true ∨ (!s.adcAvail a) = true ∨ s.adcSpare a = 7) := by
  simp [hpresent, hrot, hovl, hmoment, havail, hspare]

/-- A spare of a rotating converter times out while no overload has held it back since its shadow began (R312). -/
theorem spare_times_out {sp : Nat} {x : AdcSt} {held : Bool} (hpresent : s.adcPresent a = true) (hrot : s.adcState a = 1) (hspare : sp ≠ 7)
    (hconv : x.converged.isSome = false) (hheld : held = false) :
    ¬ ((!s.adcPresent a) = true ∨ s.adcState a ≠ 1 ∨ sp = 7 ∨ x.converged.isSome = true ∨ held = true) := by
  simp [hpresent, hrot, hspare, hconv, hheld]

/-- Settles O31: an event by the condition on which it acts, the command by the way its judgement ends. -/
theorem convertersComplete : Obligations.ConvertersComplete := by
  refine ⟨?_, ?_, ?_, ?_, ?_, ?_, ?_⟩
  · intro s a sets ref w_
    dsimp only
    intro hforeground hpresent
    refine congrArg Host.Outcome.next ?_
    rw [hforeground]
    exact if_neg (Bool.not_not_eq.mpr hpresent)
  · intro s a est x slice hpresent hslice hstate
    exact congrArg Host.Outcome.next (if_neg (spare_shadows hpresent hslice hstate))
  · intro s a tc
    dsimp only
    intro hconv hpresent hrot hovl hmoment havail hspare
    refine congrArg Host.Outcome.next ?_
    rw [hconv]
    exact if_neg (spare_hands_over hpresent hrot hovl hmoment havail hspare)
  · intro s a x sp held hpresent hrot hspare hconv hheld
    exact congrArg Host.Outcome.next (if_neg (spare_times_out hpresent hrot hspare hconv hheld))
  · intro s a slice check hpresent hslice hwhole hon
    exact congrArg Host.Outcome.next (if_neg (by simp [hpresent, hslice, hwhole, hon]))
  · intro s a k ref
    dsimp only
    intro hretest
    refine congrArg Host.Outcome.next ?_
    -- In a module of its own the statement's match is another matcher than the step's, which `rfl` identifies.
    rw [hretest] <;> rfl
  · rintro s _ p a h hroom rfl hlen htarget hact hslice
    have hvalid : (p.is (if p.arg 1 = 4 then 3 else 2) && s.adcTargetOk (p.arg 0) && decide (p.arg 1 ≤ 4) &&
        (p.arg 1 != 4 || (decide (p.arg 2 < 5) && bitN (s.adcFailed a) (p.arg 2)))) = true := by
      rw [hlen, htarget, decide_eq_true hact, hslice]
      rfl
    refine congrArg Host.Outcome.next ((command_ite h hvalid).trans (if_congr Iff.rfl (command_status h hvalid rfl rfl rfl) ?_))
    refine (command_ite h hvalid).trans (if_congr Iff.rfl (command_ok h hvalid rfl rfl rfl) ?_)
    refine (command_ite h hvalid).trans (if_congr Iff.rfl (command_ok h hvalid rfl rfl rfl) ?_)
    refine (command_ite h hvalid).trans (if_congr Iff.rfl (command_ok h hvalid rfl rfl rfl) ?_)
    refine (command_ite h hvalid).trans (if_congr Iff.rfl ?_ ?_)
    · refine (command_ite h hvalid).trans (if_congr Iff.rfl (command_status h hvalid rfl rfl rfl) ?_)
      refine (command_ite h hvalid).trans (if_congr Iff.rfl (command_status h hvalid rfl rfl rfl) ?_)
      exact command_accepted h hroom hvalid rfl rfl rfl
    · refine (command_ite h hvalid).trans (if_congr Iff.rfl (command_status h hvalid rfl rfl rfl) ?_)
      exact command_accepted h hroom hvalid rfl rfl rfl

end Sys2Proof.Machine
end

section
/-!
PROOFS. The commands of array calibration (R340, R341, R345, R350, R352, R353, R355).
-/
namespace Sys2Proof.Machine

variable {s : State} {op : Nat} {p : Pkt} {valid allowed : Bool}

/-- A command that is allowed, and answers a status on a condition that it tests as it executes, ends otherwise as it does without the test. -/
theorem command_status_or {cond : State → Prop} [∀ u, Decidable (cond u)] {code : Nat} {res : State → List Word}
    {rest : State → State × Verdict} {done : State} (h : s.Admits op p) (hv : valid = true) (ha : allowed = true)
    (hdone : s.command op p valid true allowed rest = done) :
    s.command op p valid true allowed (fun u => if cond u then (u, .status code (res u)) else rest u) =
      if cond (s.takeCmd op p) then (s.takeCmd op p).reply p code (res (s.takeCmd op p)) else done := by
  subst ha hdone
  exact (command_ite h hv).trans (if_congr Iff.rfl (command_status h hv rfl rfl rfl) rfl)

/-- Settles O13: each command by the values in range that its judgement asks for, and by the way its judgement ends. -/
theorem calibrationCommandsComplete : Obligations.CalibrationCommandsComplete := by
  refine ⟨?_, ?_, ?_, ?_, ?_, ?_, ?_⟩
  · intro s u p
    dsimp only
    rintro h rfl hlen hpath hant hpresent hstate hlead
    exact congrArg Host.Outcome.next (command_ok h (by simp [hlen, hpath, hant, hpresent]) hstate hlead rfl)
  · rintro s _ p h hroom rfl hlen hlast hpos hpresent hring hlead
    have hvalid : (p.is 3 && decide (p.arg 0 + p.arg 1 ≤ 384 ∧ 0 < p.arg 1) &&
        (List.range (p.arg 1)).all (fun k => !s.antAbsent (p.arg 0 + k)) && s.loadRing (p.arg 2)) = true := by
      rw [hlen, decide_eq_true ⟨hlast, hpos⟩, hpresent, hring]
      rfl
    exact congrArg Host.Outcome.next (command_status_or h hvalid hlead (command_accepted h hroom hvalid rfl hlead rfl))
  · rintro s _ p h rfl hlen hact hlead
    have hvalid : (p.is 1 && decide (p.arg 0 < 2)) = true := by simp [hlen, hact]
    refine congrArg Host.Outcome.next (command_status_or h hvalid hlead ?_)
    exact command_status_or h hvalid hlead (command_ok h hvalid rfl hlead rfl)
  · rintro s _ p h rfl hlen hlead
    exact congrArg Host.Outcome.next (command_status_or h hlen hlead (command_ok h hlen rfl hlead rfl))
  · rintro s _ p h hroom rfl hlen hinst hlead
    have hvalid : (p.is 1 && decide (p.arg 0 < 4)) = true := by simp [hlen, hinst]
    refine congrArg Host.Outcome.next (command_status_or h hvalid hlead ?_)
    split
    next st hrefuse => exact command_status h hvalid rfl hlead (by rw [hrefuse])
    next hrefuse => exact command_accepted h hroom hvalid rfl hlead (by rw [hrefuse])
  · rintro s _ p j ws h rfl hlen hinst hlead hset
    have hvalid : (p.is 1 && decide (p.arg 0 < 4 ∨ p.arg 0 = 0xFF)) = true := by simp [hlen, hinst]
    refine congrArg Host.Outcome.next ?_
    by_cases hall : ((s.takeCmd 0x705 p).calMatch ws).length = (s.takeCmd 0x705 p).part.paths
    · rw [if_pos hall]
      exact command_ok h hvalid rfl hlead (by rw [hset]; exact congrArg (Prod.mk _) (if_pos hall))
    · rw [if_neg hall]
      exact command_status h hvalid rfl hlead (by rw [hset]; exact congrArg (Prod.mk _) (if_neg hall))
  · rintro s _ p h rfl hlen hpath
    exact congrArg Host.Outcome.next (command_ok h (by simp [hlen, hpath]) rfl rfl rfl)

end Sys2Proof.Machine
end

section
/-!
PROOFS. Links: training, the swaps, measurement and retraining of lanes, failure, and their registers and commands (R373-R378, R384, R386, R387).
-/
namespace Sys2Proof.Machine

/-- Settles O43: an event by the condition on which it acts or by what waits on the link, a command by the way its judgement ends. -/
theorem linksComplete : Obligations.LinksComplete := by
  refine ⟨?_, ?_, ?_, ?_, ?_, ?_, ?_, ?_, ?_, ?_, ?_, ?_, ?_, ?_⟩
  · intro s l attempts lat nearer htrains
    refine (if_neg (Bool.not_not_eq.mpr htrains)).trans ?_
    dsimp only
    generalize List.find? _ _ = found, (if l < 4 then some 0 else s.portDir l nearer) = dir
    match found, dir with
    | some (_, some _), some _ => rfl
    | some (_, some _), none | some (_, none), none => exact (apply_ite Host.Outcome.next _ _ _).symm
    | some (_, none), some _ | none, _ => exact (apply_ite Host.Outcome.next _ _ _).symm
  · intro s l tile hlink hl hlow hhigh
    exact congrArg Host.Outcome.next (if_pos ⟨hlink, hl, hlow, hhigh⟩)
  · intro s l lane markers tile hlane
    exact if_neg (Bool.not_not_eq.mpr hlane)
  · intro s l confirm logical spare at_ hup
    refine (if_neg (Bool.not_not_eq.mpr hup)).trans ?_
    refine (if_congr Iff.rfl rfl ?_).trans (apply_ite Host.Outcome.next _ _ _).symm
    dsimp only
    generalize List.find? _ _ = holder
    cases holder with
    | some lane => exact (apply_ite Host.Outcome.next _ _ _).symm
    | none => rfl
  · intro s l w rest
    dsimp only
    intro hfirst hup
    simp only [exec, execLaneSwap, hfirst]
    exact (if_neg (Bool.not_not_eq.mpr hup)).trans (apply_ite Host.Outcome.next _ _ _).symm
  · intro s l foms hup
    exact if_neg (Bool.not_not_eq.mpr hup)
  · intro s l lane fom r
    dsimp only
    intro hdue hup
    simp only [exec, execLaneRetrain, hdue]
    exact if_neg (Bool.not_not_eq.mpr hup)
  · intro s l w h
    exact congrArg Host.Outcome.next (access_reaches h)
  · intro s w h
    exact congrArg Host.Outcome.next (access_reaches h)
  · rintro s _ p h rfl hlen hlink
    exact congrArg Host.Outcome.next (command_ok h (by simp [hlen, hlink]) rfl rfl rfl)
  · rintro s _ p h hroom rfl hlen hlink
    have hvalid : (p.is 1 && s.linkOk (p.arg 0)) = true := by simp [hlen, hlink]
    exact congrArg Host.Outcome.next (command_status_or h hvalid rfl (command_accepted h hroom hvalid rfl rfl rfl))
  · rintro s _ p h hroom rfl hlen hlink hlane hrole
    have hvalid : (p.is 2 && s.linkOk (p.arg 0) && decide (p.arg 1 < dataLanes (p.arg 0) + spareLanes (p.arg 0)) &&
        decide (s.laneRole (p.arg 0) (p.arg 1) < 0xFE)) = true := by
      simp [hlen, hlink, hlane, hrole]
    refine congrArg Host.Outcome.next (command_status_or h hvalid rfl ?_)
    exact command_status_or h hvalid rfl (command_accepted h hroom hvalid rfl rfl rfl)
  · rintro s _ p h rfl hlen hrole hcasc
    exact congrArg Host.Outcome.next (command_ok h (by rw [hlen, decide_eq_true hrole, hcasc]; rfl) rfl rfl rfl)
  · rintro s _ p h rfl hlen hlink hlane
    exact congrArg Host.Outcome.next (command_ok h (by simp [hlen, hlink, hlane]) rfl rfl rfl)

end Sys2Proof.Machine
end

section
/-!
PROOFS. The queue of commands: a step runs its front on the rest, and no command changes it (R432).
-/
namespace Sys2Proof.Machine

/-- Settles O4: what a command keeps, and what a step keeps of the queue behind its front. -/
theorem commandsLeaveTheQueue : Obligations.CommandsLeaveTheQueue :=
  ⟨fun c _ t h => (exec_keeps c t h).pending, fun _ _ h => (step_keeps h).pending⟩

/-- Settles O1: with a command at the front of the queue, a step is its meaning on the queue's rest. -/
theorem stepRunsFrontCommand : Obligations.StepRunsFrontCommand := fun _ _ _ => rfl

end Sys2Proof.Machine
end

section
/-!
PROOFS. Power-on, resets, restarts, thermal shutdown and boot (R444, R447, R527-R531, R537, R591-R595, R597).
-/
namespace Sys2Proof.Machine

/-- Settles O19: each event by the condition on which it comes about, a shutdown and a restart by the sensors' state that brings it. -/
theorem resetsComplete : Obligations.ResetsComplete := by
  refine ⟨?_, ?_, ?_, ?_, ?_, ?_, ?_, ?_, ?_, ?_, ?_⟩
  · intro s hoff
    exact congrArg Host.Outcome.next (if_pos hoff)
  · intro s ns hon hlong
    exact congrArg Host.Outcome.next (if_neg (by simp [hon, hlong]))
  · intro s hdev hdom
    exact congrArg Host.Outcome.next (if_pos ⟨hdev, hdom⟩)
  · intro s
    rfl
  · intro s
    rfl
  · intro s
    rfl
  · intro s
    rfl
  · intro s hup
    exact congrArg Host.Outcome.next (if_neg (by simp [hup]))
  · intro s cut n t emerg hfire hon hlatched
    simp only [exec, execThermalShutdown, hfire]
    exact congrArg Host.Outcome.next (if_neg (by simp [hon, hlatched]))
  · intro s t hcool hlatched
    simp only [exec, execThermalRestart, hcool]
    exact congrArg Host.Outcome.next (if_neg (by simp [hlatched]))
  · intro s sel headers torn version hubOk badTiles sramOk hboot
    exact congrArg Host.Outcome.next (if_neg (not_not_intro hboot))

end Sys2Proof.Machine
end

section
/-!
PROOFS. Thermal protection: the conversion of the sensors, and the thermal registers and commands (R520, R522-R526, R528, R532, R533).
-/
namespace Sys2Proof.Machine

/-- Settles O17: the conversion by the readings of all sensors, a command by the values in range that its judgement asks for. -/
theorem thermalComplete : Obligations.ThermalComplete := by
  refine ⟨?_, ?_, ?_, ?_, ?_, ?_⟩
  · rintro s _ _ rs _ hlen hon rfl rfl rfl
    exact if_neg (by simp [hlen, hon])
  · intro s r w hr hon
    exact congrArg Host.Outcome.next (if_pos ⟨hr, hon⟩)
  · rintro s _ p h rfl hlen
    exact congrArg Host.Outcome.next (command_ok h hlen rfl rfl rfl)
  · intro s u p
    dsimp only
    rintro h rfl hlen horder
    exact congrArg Host.Outcome.next (command_ok h (by simp [hlen, horder]) rfl rfl rfl)
  · rintro s _ p h rfl hlen hlow hhigh hlast
    exact congrArg Host.Outcome.next (command_ok h (by simp [hlen, hlow, hhigh, hlast]) rfl rfl rfl)
  · rintro s _ p h rfl hlen hpresent hdev
    exact congrArg Host.Outcome.next (command_ok h (by simp [hlen, hpresent]) (by rw [hdev]; rfl) rfl rfl)

end Sys2Proof.Machine
end

section
/-!
PROOFS. Descriptor rings and direct transfers (R453, R454, R456, R458-R462, R468, R469, R471, R472, R475).
-/
namespace Sys2Proof.Machine

/-- Settles O18: an access by the ring or channel that is there, a fetch by what the ring may fetch, a completion by what waits for it. -/
theorem dmaComplete : Obligations.DmaComplete := by
  refine ⟨?_, ?_, ?_, ?_, ?_, ?_, ?_, ?_, ?_, ?_, ?_, ?_⟩
  · intro s n w hn hdom
    exact congrArg Host.Outcome.next (if_pos ⟨hn, hdom⟩)
  · intro s n w hn hdom
    exact congrArg Host.Outcome.next (if_pos ⟨hn, hdom⟩)
  · intro s n hdraining hn
    exact congrArg Host.Outcome.next (if_pos ⟨hdraining, hn⟩)
  · intro s n hn hdom
    exact congrArg Host.Outcome.next (if_pos ⟨hn, hdom⟩)
  · intro s n ws hfetch hreread
    refine congrArg Host.Outcome.next ((if_neg (Bool.not_not_eq.mpr hfetch)).trans ?_)
    exact (if_neg Bool.false_ne_true).trans (if_neg (Bool.eq_false_iff.mp hreread))
  · intro s n ws hfetch
    exact congrArg Host.Outcome.next ((if_neg (Bool.not_not_eq.mpr hfetch)).trans (if_pos rfl))
  · rintro s _ _ n data err d d0 hdesc hn hup hstate rfl htaken rfl
    have hrunning : (decide (n < 32) && s.pcieUp && (s.ringState n == 1 || s.ringState n == 4)) = true := by
      rw [decide_eq_true hn, hup]
      simpa using hstate
    refine congrArg Host.Outcome.next ((if_neg (by simp [hrunning, hdesc])).trans ?_)
    rw [State.finishMove, htaken]
  · intro s n d hdesc hfunc hn
    simp only [exec, execReadCompletionTimeout, hdesc]
    exact congrArg Host.Outcome.next (if_pos ⟨hfunc, hn⟩)
  · intro s n hnone hidle hn hactive hwrites
    simp only [exec, execReadCompletionTimeout, hnone]
    refine congrArg Host.Outcome.next ((if_neg (Bool.eq_false_iff.mp hidle)).trans (if_pos ⟨hn, hactive, ?_⟩))
    simp [hwrites]
  · intro s n w hn hdom
    exact congrArg Host.Outcome.next (if_pos ⟨hn, hdom⟩)
  · rintro s _ n hn hactive hhalf rfl
    exact congrArg Host.Outcome.next (if_pos ⟨hn, hactive, hhalf⟩)
  · intro s n hn hdom
    exact congrArg Host.Outcome.next (if_pos ⟨hn, hdom⟩)

end Sys2Proof.Machine
end

section
/-!
PROOFS. Mailboxes, their notices and the SPI port (R420-R428, R430, R434, R450).
-/
namespace Sys2Proof.Machine

/-- Settles O25: an access by the mailbox or port that takes it, what waits by the mailbox that may send it. -/
theorem mailboxesComplete : Obligations.MailboxesComplete := by
  refine ⟨?_, ?_, ?_, ?_, ?_, ?_, ?_, ?_, ?_, ?_, ?_, ?_⟩
  · intro s m w hmbox
    exact congrArg Host.Outcome.next (if_pos hmbox)
  · intro s m w hmbox hring
    exact congrArg Host.Outcome.next (if_pos ⟨hmbox, hring⟩)
  · intro s m b hbroken
    exact congrArg Host.Outcome.next (if_neg (Bool.not_not_eq.mpr hbroken))
  · intro s m
    rfl
  · intro s m hmbox hopen
    exact congrArg Host.Outcome.next (if_pos ⟨hmbox, congrArg not hopen⟩)
  · intro s m
    rfl
  · intro s m hm hdom
    exact congrArg Host.Outcome.next (if_neg (by simp [hm, hdom]))
  · intro s k ws hk hlink hup
    exact congrArg Host.Outcome.next (if_neg (by simp [hk, hlink, hup]))
  · intro s ws hspi
    exact congrArg Host.Outcome.next (if_pos hspi)
  · intro s n hspi
    exact congrArg Host.Outcome.next (if_neg (Bool.not_not_eq.mpr hspi))
  · intro s hspi
    exact congrArg Host.Outcome.next (if_pos hspi)
  · intro s ws hspi
    exact congrArg Host.Outcome.next (if_neg (Bool.not_not_eq.mpr hspi))

end Sys2Proof.Machine
end

section
/-!
PROOFS. The system commands, and the opcodes that no table defines (R431, R435-R439, R444, R445, R447, R448).
-/
namespace Sys2Proof.Machine

/-- Settles O26: an opcode by the range it lies in, a command by the values in range that its judgement asks for. -/
theorem systemCommandsComplete : Obligations.SystemCommandsComplete := by
  refine ⟨?_, ?_, ?_, ?_, ?_, ?_, ?_, ?_, ?_⟩
  · intro s p op hundefined hlow
    exact congrArg Host.Outcome.next (if_neg (by simp [hundefined, hlow]))
  · intro s p op hlow hhigh
    exact congrArg Host.Outcome.next (if_neg (by omega))
  · rintro s _ p h rfl hflags
    exact congrArg Host.Outcome.next (command_ok h (by rw [hflags]; rfl) rfl rfl rfl)
  · rintro s _ p h rfl hlen
    exact congrArg Host.Outcome.next (command_ok h hlen rfl rfl rfl)
  · rintro s _ p h rfl hlen
    exact congrArg Host.Outcome.next (command_ok h hlen rfl rfl rfl)
  · rintro s _ p h rfl hlen hstate hmove
    have hvalid : (p.is 1 && decide (p.arg 0 ≤ 8)) = true := by simp [hlen, hstate]
    refine congrArg Host.Outcome.next ?_
    dsimp only
    split_ifs with hsame hunmet
    · exact command_ok h hvalid hmove rfl (if_pos hsame)
    · exact command_status h hvalid hmove rfl ((if_neg hsame).trans (if_pos hunmet))
    · exact command_ok h hvalid hmove rfl ((if_neg hsame).trans (if_neg hunmet))
  · rintro s _ p h rfl hlen
    exact congrArg Host.Outcome.next (command_ok h hlen rfl rfl rfl)
  · intro s t r hrestart
    simp only [exec, execSysRestartExpiry, hrestart]
  · rintro s _ p h rfl hlen hmbox hmask
    exact congrArg Host.Outcome.next (command_ok h (by simp [hlen, hmbox, hmask]) rfl rfl rfl)

end Sys2Proof.Machine
end

section
/-!
PROOFS. The commands that owe a final notice (R430): accepting a command adds it to them, replying leaves them as they are.
-/
namespace Sys2Proof.Machine

variable {s : State} {op key : Nat} {p : Pkt} {valid : Bool}

theorem State.accepted_ite {c : Prop} [Decidable c] {a b : State} {l : List CmdRef} (ha : a.host.accepted = l) (hb : b.host.accepted = l) :
    (if c then a else b).host.accepted = l := by
  split <;> assumption

@[simp] theorem State.pushPkt_accepted (s : State) (m : Nat) (o : OutPkt) : (s.pushPkt m o).host.accepted = s.host.accepted :=
  State.accepted_ite (State.accepted_ite rfl rfl) (State.accepted_ite rfl rfl)

@[simp] theorem State.reply_accepted (s : State) (p : Pkt) (status : Nat) (res : List Word) :
    (s.reply p status res).host.accepted = s.host.accepted := by
  unfold State.reply
  refine State.accepted_ite rfl ?_
  cases replyCount p.mb status <;> exact State.accepted_ite (State.pushPkt_accepted ..) rfl

/-- A tag in use is not taken again, so the command that is taken is none of those that owe a notice. -/
theorem State.Taken.ref_fresh (h : s.Taken op p) (key : Nat) : p.ref op key ∉ s.host.accepted := fun hmem =>
  absurd (List.any_eq_false.mp h.tagFree _ hmem) (by simp [Pkt.ref])

theorem ref_mem_accept (u : State) (op key : Nat) (p : Pkt) (res : List Word) : p.ref op key ∈ (u.accept op p key res).host.accepted := by
  rw [State.accept, State.reply_accepted]
  exact List.mem_append_right _ (List.mem_singleton_self _)

/-- A command that is accepted goes on to `f`: its reference is among those that owe a notice, and was not before. -/
theorem command_accepted_then {body : State → State × Verdict} {u : State} {res : List Word} (f : State → State) (h : s.Admits op p)
    (hr : s.Room p) (hv : valid = true) (hb : body (s.takeCmd op p) = (u, .accepted key res)) :
    (if p.ref op key ∈ (s.command op p valid true true body).host.accepted ∧ p.ref op key ∉ s.host.accepted
      then f (s.command op p valid true true body) else s.command op p valid true true body) = f (u.accept op p key res) := by
  rw [command_accepted h hr hv rfl rfl hb]
  exact if_pos ⟨ref_mem_accept .., h.ref_fresh key⟩

end Sys2Proof.Machine
end

section
/-!
PROOFS. The commands of secure boot and of attestation (R576, R578-R582, R584-R588, R591).
-/
namespace Sys2Proof.Machine

/-- Settles O24: each command by the values in range that its judgement asks for, and by the way its judgement ends. -/
theorem securityCommandsComplete : Obligations.SecurityCommandsComplete := by
  refine ⟨?_, ?_, ?_, ?_, ?_, ?_, ?_, ?_, ?_, ?_, ?_⟩
  · rintro s _ p h rfl hlen
    exact congrArg Host.Outcome.next (command_status_or h hlen rfl (command_ok h hlen rfl rfl rfl))
  · rintro s _ p h hroom rfl hlen
    exact congrArg Host.Outcome.next (command_status_or h hlen rfl (command_accepted h hroom hlen rfl rfl rfl))
  · intro s r nonce hattest
    simp only [exec, execAttestationDone, hattest]
  · rintro s _ p h rfl hlen
    exact congrArg Host.Outcome.next (command_ok h hlen rfl rfl rfl)
  · rintro s _ p h hroom rfl hlen hlow hhigh hpos hring hidle hfree
    have hvalid : (p.is 3 && decide (1 ≤ p.arg 0 ∧ p.arg 0 ≤ 4 ∧ 0 < p.arg 2) && s.secRing (p.arg 1)) = true := by
      simp [hlen, hlow, hhigh, hpos, hring]
    have hloads : ((s.takeCmd 0xA40 p).host.accepted.any (fun r => r.op == 0xA40 || r.op == 0x404) ||
        (s.takeCmd 0xA40 p).secBusy (p.arg 1)) = false := by
      rw [hidle, hfree]
      rfl
    exact congrArg Host.Outcome.next
      (command_accepted_then State.spiLoad h hroom hvalid (if_neg (Bool.eq_false_iff.mp hloads)))
  · rintro s _ p ref h rfl hlen hbank
    have hvalid : (p.is 1 && decide (p.arg 0 < 2)) = true := by simp [hlen, hbank]
    refine congrArg Host.Outcome.next ?_
    dsimp only
    split_ifs with hfails
    · exact command_status h hvalid rfl rfl (if_pos hfails)
    · split
      next st hrefuse => exact command_status h hvalid rfl rfl ((if_neg hfails).trans (by rw [hrefuse]))
      next hrefuse => exact command_later h hvalid rfl rfl ((if_neg hfails).trans (by rw [hrefuse]))
  · rintro s _ p ref cur ok h rfl hok
    refine congrArg Host.Outcome.next ?_
    split_ifs with hmode
    · exact command_status h hok rfl rfl (if_pos hmode)
    · exact command_later h hok rfl rfl (if_neg hmode)
  · rintro s _ p h rfl hlen hslot hunused
    exact congrArg Host.Outcome.next (command_ok h (by simp [hlen, hslot]) rfl (congrArg not hunused) rfl)
  · rintro s _ p last h rfl hlen hslot hlast
    exact congrArg Host.Outcome.next (command_ok h (by simp [hlen, hslot]) rfl (congrArg not hlast) rfl)
  · rintro s _ p h hroom rfl hlen hpos hring hfree
    have hvalid : (p.is 2 && decide (0 < p.arg 1) && s.secRing (p.arg 0)) = true := by simp [hlen, hpos, hring]
    exact congrArg Host.Outcome.next (command_accepted_then State.spiLoad h hroom hvalid (if_neg (Bool.eq_false_iff.mp hfree)))
  · rintro s _ p h rfl hlen
    exact congrArg Host.Outcome.next (command_ok h hlen rfl rfl rfl)

end Sys2Proof.Machine
end

section
/-!
PROOFS. The monitor ADCs: sequences, conversions, calibrations, and their registers and commands (R482-R493, R512).
-/
namespace Sys2Proof.Machine

theorem State.forEach_singleton {α : Type} (s : State) (x : α) (f : State → α → State) : s.forEach [x] f = f s x := rfl

/-- Settles O44: an event by what the ADC runs or by what is due for it, a command by the values in range and by the ADC that is up. -/
theorem monitorAdcComplete : Obligations.MonitorAdcComplete := by
  refine ⟨?_, ?_, ?_, ?_, ?_, ?_, ?_, ?_, ?_, ?_, ?_, ?_, ?_, ?_, ?_, ?_⟩
  · intro s d hdue
    simp only [exec, execMonitorSequence, hdue]
  · rintro s _ _ _ q c nominal t _ input dev hrun rfl rfl rfl rfl
    simp only [exec, execMonitorConversionDone, hrun, decide_eq_true_eq]
    generalize (if nominal < t ∧ State.rb _ (Reg.MA_CFG q) 28 = true then _ else _) = u
    cases (u.maOf q).seq <;> rfl
  · rintro s _ _ q c t a req _ input dev b ref _ hrun hinj rfl rfl rfl rfl
    simp only [exec, execMonitorConversionDone, hrun, hinj]
    refine ⟨fun r href => ?_, fun href => ?_⟩
    · rw [href]
    · rw [href]
  · rintro s _ q dur t hrun rfl
    simp only [exec, execMonitorCalDone, hrun, State.advanceTo_tick]
    refine ⟨fun r hcal => ?_, fun hcal => ?_⟩
    · rw [hcal]
    · split
      next r hsome => exact absurd hsome (hcal r)
      next => rfl
  · intro s q p hperiod hup hen
    exact congrArg Host.Outcome.next (if_neg (by simp [p, hperiod, hup, hen]))
  · intro s q hup hen hsaves hrun hinj hcal hseq hpdown
    exact congrArg Host.Outcome.next (if_pos ⟨hup, hen, hsaves, hrun, hinj, hcal, hseq, congrArg not hpdown⟩)
  · intro s q w h
    exact congrArg Host.Outcome.next (access_reaches h)
  · intro s q w h
    exact congrArg Host.Outcome.next (access_reaches h)
  · intro s q w h
    exact congrArg Host.Outcome.next (access_reaches h)
  · intro s q h
    exact congrArg Host.Outcome.next (accessRead_reaches h)
  · rintro s _ p q h rfl hlen rfl hq hone hon
    have hvalid : (p.is 4 && (p.arg 0 == 0xFF || decide (p.arg 0 < s.part.parcels))) = true := by simp [hlen, hq]
    refine congrArg Host.Outcome.next (command_ok h hvalid rfl rfl ?_)
    rw [if_neg hone]
    exact (if_neg (by simp [hon])).trans (congrArg (Prod.mk · _) (State.forEach_singleton ..))
  · rintro s _ p h rfl hlen hq hc hon
    exact congrArg Host.Outcome.next (command_ok h (by simp [hlen, hq, hc]) rfl rfl (if_neg (Bool.not_not_eq.mpr hon)))
  · rintro s _ p h hroom rfl hlen hq hc hup hfree
    refine congrArg Host.Outcome.next (command_accepted h hroom (by simp [hlen, hq, hc]) rfl rfl ?_)
    exact (if_neg (Bool.not_not_eq.mpr hup)).trans (if_neg (by simp [hfree]))
  · rintro s _ p _ _ h hlen rfl rfl hq hc hup rfl
    exact congrArg Host.Outcome.next (command_ok h (by simp [hlen, hq, hc]) rfl rfl (if_neg (Bool.not_not_eq.mpr hup)))
  · rintro s _ p h hroom rfl hlen hq hup hfree
    refine congrArg Host.Outcome.next (command_accepted h hroom (by simp [hlen, hq]) rfl rfl ?_)
    exact (if_neg (Bool.not_not_eq.mpr hup)).trans (if_neg (by simp [hfree]))
  · rintro s _ p h rfl hlen hq
    have hvalid : (p.is 1 && decide (p.arg 0 < s.part.parcels)) = true := by simp [hlen, hq]
    exact congrArg Host.Outcome.next ((command_ite h hvalid).trans
      (if_congr Iff.rfl (command_ok h hvalid rfl rfl rfl) (command_ok h hvalid rfl rfl rfl)))

end Sys2Proof.Machine
end

section
/-!
PROOFS. Snapshots of the counters: their orders, firing and latching, and the commands on their banks (R494, R496-R499, R512).
-/
namespace Sys2Proof.Machine

/-- Settles O45: a firing by what is due, a latch by the bank that waits, a command by the values in range that its judgement asks for. -/
theorem snapshotsComplete : Obligations.SnapshotsComplete := by
  refine ⟨?_, ?_, ?_, ?_, ?_, ?_, ?_, ?_⟩
  · intro s w h
    exact congrArg Host.Outcome.next (access_reaches h)
  · intro s d s1 hdue
    simp only [exec, execSnapshotFire, hdue]
    generalize (if State.bankState _ (1 - _) = 0 then some _ else _) = pick
    cases pick <;> rfl
  · intro s b0 hfired b x s0
    simp only [exec, execSnapshotLatch, hfired]
    exact (apply_ite Host.Outcome.next _ _ _).symm
  · intro s w h
    exact congrArg Host.Outcome.next (access_reaches h)
  · rintro s _ p sys now ok h hroom rfl hok hlead
    refine congrArg Host.Outcome.next ?_
    by_cases hnow : now = true
    · exact (command_accepted h hroom hok rfl hlead (if_pos hnow)).trans (if_pos hnow).symm
    · refine Eq.trans ?_ (if_neg hnow).symm
      cases hfree : (s.takeCmd 0x800 p).freeCmp with
      | none => exact command_status h hok rfl hlead ((if_neg hnow).trans (by rw [hfree]))
      | some n => exact command_accepted h hroom hok rfl hlead ((if_neg hnow).trans (by rw [hfree]))
  · rintro s _ p h rfl hlen hbanks
    exact congrArg Host.Outcome.next (command_ok h (by simp [hlen, hbanks]) rfl rfl rfl)
  · rintro s _ p h rfl hlen hbank
    exact congrArg Host.Outcome.next (command_ok h (by simp [hlen, hbank]) rfl rfl rfl)
  · rintro s _ p h rfl hlen hbank hlow hhigh hring
    exact congrArg Host.Outcome.next (command_ok h (by simp [hlen, hbank, hlow, hhigh, hring]) rfl rfl rfl)

end Sys2Proof.Machine
end

section
/-!
PROOFS. The event recorders: their records, tests and memory errors, and their registers and commands (R500-R511).
-/
namespace Sys2Proof.Machine

/-- Settles O46: an event by the recorder that is there or by what is due, a command by the values in range and by the recorder that is on. -/
theorem recordersComplete : Obligations.RecordersComplete := by
  refine ⟨?_, ?_, ?_, ?_, ?_, ?_, ?_, ?_, ?_, ?_, ?_, ?_, ?_, ?_⟩
  · intro s rec code src late detail hpresent hcode hsrc
    exact congrArg Host.Outcome.next (if_pos ⟨hpresent, hcode, hsrc⟩)
  · intro s s1 d hdue
    simp only [exec, execRecorderTrigger, hdue]
    rfl
  · intro s t at_ late ht hdue
    refine (if_neg ht.ne).trans ?_
    rw [hdue]
  · intro s w h
    exact congrArg Host.Outcome.next (access_reaches h)
  · intro s r h
    exact congrArg Host.Outcome.next (access_reaches h)
  · intro s r h
    exact congrArg Host.Outcome.next (access_reaches h)
  · intro s r bad x htesting
    exact if_neg (Bool.not_not_eq.mpr htesting)
  · intro s t h
    exact congrArg Host.Outcome.next (access_reaches h)
  · intro s r slot corrected code src detail hpresent hen
    exact congrArg Host.Outcome.next (if_neg (by simp [hpresent, hen]))
  · rintro s _ p h rfl hlen hpresent hcode hlist hen
    exact congrArg Host.Outcome.next
      (command_ok h (by simp [hlen, hpresent, hcode, hlist]) rfl rfl (if_neg (Bool.not_not_eq.mpr hen)))
  · rintro s _ p r l offs ok h rfl hok
    exact congrArg Host.Outcome.next (command_status_or h hok rfl (command_ok h hok rfl rfl rfl))
  · rintro s _ p h rfl hlen hpresent
    have hvalid : (p.is 2 && s.recPresent (p.arg 0)) = true := by simp [hlen, hpresent]
    refine congrArg Host.Outcome.next (command_status_or h hvalid rfl ?_)
    exact (command_ite h hvalid).trans (if_congr Iff.rfl (command_later h hvalid rfl rfl rfl) (command_ok h hvalid rfl rfl rfl))
  · rintro s _ p h rfl hlen
    exact congrArg Host.Outcome.next (command_ok h hlen rfl rfl rfl)
  · rintro s _ p h rfl hlen hpresent
    have hvalid : (p.is 1 && s.recPresent (p.arg 0)) = true := by simp [hlen, hpresent]
    exact congrArg Host.Outcome.next ((command_ite h hvalid).trans
      (if_congr Iff.rfl (command_ok h hvalid rfl rfl rfl) (command_ok h hvalid rfl rfl rfl)))

end Sys2Proof.Machine
end

section
/-!
PROOFS. Power entries and wakes, from their orders to their completion (R538, R542-R546, R550-R552, R555-R559).
-/
namespace Sys2Proof.Machine

/-- Settles O47: each event by the entry or the wake that waits for it. -/
theorem powerChangesComplete : Obligations.PowerChangesComplete := by
  refine ⟨?_, ?_, ?_, ?_, ?_, ?_, ?_, ?_, ?_, ?_⟩
  · intro s e horder
    simp only [exec, execPowerEntryStart, horder]
    rfl
  · intro s t e ht horder
    simp only [exec, execPowerEntryStart, horder]
    exact congrArg Host.Outcome.next (if_neg ht.ne)
  · intro s scope e hentry
    simp only [exec, execEntryReask, hentry]
  · intro s scope d n at_ e hentry hdelay hblocks
    simp only [exec, execEntryDelayTimeout, hentry, hdelay, hblocks]
  · intro s scope e hentry
    simp only [exec, execPowerEntryExec, hentry]
  · intro s src tiles hlow hhigh
    exact congrArg Host.Outcome.next (if_pos ⟨hlow, hhigh⟩)
  · intro s scope bad w hwake
    simp only [exec, execWakeStepDone, hwake]
  · intro s scope w hwake pg lim hstep hscope s1
    simp only [exec, execWakeStepTimeout, hwake]
    exact congrArg Host.Outcome.next (if_neg (by simp [hstep, hscope]))
  · intro s scope w hwake
    cases href : w.ref <;> simp only [exec, execWakeComplete, hwake, href]
  · intro s hpkg hoff hclk
    exact congrArg Host.Outcome.next (if_pos ⟨hpkg, congrArg not hoff, congrArg not hclk⟩)

end Sys2Proof.Machine
end

section
/-!
PROOFS. The power registers and commands, and the blanking windows (R536, R538, R539, R541, R553, R554, R558, R560-R563).
-/
namespace Sys2Proof.Machine

/-- Settles O48: a window by what is due, a command by the values in range that its judgement asks for, and by the way its judgement ends. -/
theorem powerCommandsComplete : Obligations.PowerCommandsComplete := by
  refine ⟨?_, ?_, ?_, ?_, ?_, ?_, ?_, ?_, ?_, ?_, ?_, ?_, ?_⟩
  · intro s d hdue
    simp only [exec, execBlankWindow, hdue]
  · intro s p t hopen
    simp only [exec, execBlankingWindowEnd, hopen]
  · intro s w h
    exact congrArg Host.Outcome.next (access_reaches h)
  · intro s w h
    exact congrArg Host.Outcome.next (access_reaches h)
  · rintro s _ p h rfl hlen
    exact congrArg Host.Outcome.next (command_ok h hlen rfl rfl rfl)
  · rintro s _ _ p h hroom rfl hflags hlen hpos hmask htarget hfree hfresh rfl
    have hfits : p.flags < 4 := by rw [hflags]; decide
    have hnow : bitN p.flags 0 = true := by rw [hflags]; rfl
    have hkeep : bitN p.flags 1 = false := by rw [hflags]; rfl
    simp only [exec, execPwTile]
    rw [command_accepted (u := (s.takeCmd 0x901 p).orderTiles ((bitsSet (p.arg 0) 4).map fun t => (t, p.arg 1)) (p.ref 0x901 0))
      (key := 0) (res := []) h hroom ?valid rfl rfl ?orders]
    case valid => simp [hfits, hnow, hkeep, hlen, hmask, htarget, hpos.ne']
    case orders =>
      exact (if_neg (Bool.eq_false_iff.mp hkeep)).trans ((if_neg (Bool.eq_false_iff.mp hfree)).trans (if_pos hnow))
    exact if_pos ⟨ref_mem_accept .., hfresh⟩
  · rintro s _ p h hroom rfl hflags hlen hdev hfree
    have hvalid : (decide (p.flags < 4) && (if bitN p.flags 0 then p.params.length == 3 && s.ptpOk p.params 0 else p.params.length == 0)) =
        true := by
      rw [hflags, hlen]
      rfl
    refine congrArg Host.Outcome.next (command_accepted h hroom hvalid (by simpa using hdev) (by rw [hflags]; rfl) ?_)
    refine (if_neg (Bool.eq_false_iff.mp hfree)).trans ?_
    rw [hflags]
    rfl
  · rintro s _ p h rfl hlen
    exact congrArg Host.Outcome.next (command_ok h hlen rfl rfl rfl)
  · rintro s _ p ts failed ref h hroom rfl hlen hmask hfailed hstate
    have hvalid : (p.is 1 && decide (p.arg 0 < 2 ^ s.part.tiles) && failed) = true := by simp [hlen, hmask, hfailed]
    refine congrArg Host.Outcome.next ?_
    by_cases hpkg : p.arg 0 = 0
    · exact (command_accepted h hroom hvalid hstate rfl (if_pos hpkg)).trans (if_pos hpkg).symm
    refine Eq.trans ?_ (if_neg hpkg).symm
    by_cases hbusy : ts.any (s.takeCmd 0x904 p).scopeBusy = true
    · exact (command_status h hvalid hstate rfl ((if_neg hpkg).trans (if_pos hbusy))).trans (if_pos hbusy).symm
    · exact (command_accepted h hroom hvalid hstate rfl ((if_neg hpkg).trans (if_neg hbusy))).trans (if_neg hbusy).symm
  · rintro s _ p h rfl hlen hrows
    have hvalid : (p.is 1 && decide (p.arg 0 < 2 ^ s.part.rows)) = true := by simp [hlen, hrows]
    exact congrArg Host.Outcome.next (command_status_or h hvalid rfl (command_ok h hvalid rfl rfl rfl))
  · rintro s _ p h rfl hlen hmask
    exact congrArg Host.Outcome.next (command_ok h (by rw [hlen, decide_eq_true hmask]; rfl) rfl rfl rfl)
  · rintro s _ p h rfl hlen
    exact congrArg Host.Outcome.next (command_ok h hlen rfl rfl rfl)
  · rintro s _ p ok h rfl hlen hok
    exact congrArg Host.Outcome.next (command_ok h (by rw [hlen]; exact hok) rfl rfl rfl)

end Sys2Proof.Machine
end
